-- ==== Sys2Proof/Word.lean ====
section
/-! DEFINITION. The plain data words of the KR-940 model: bytes, 32-bit register words, and the sparse tables in
which the state keeps its numbered objects. The operations over them stand in Machine/Table.lean and Machine/Bits.lean. -/

namespace Sys2Proof

/-- One byte of a memory, packet, record or image. -/
abbrev Byte := BitVec 8

/-- One register: every register but TW_POST is 32 bits wide (R486). -/
abbrev Reg := BitVec 32

/-- One 64-bit value: a Damzu general register (R201), a flash map entry (R257), an address. -/
abbrev W64 := BitVec 64

/-- A numbered family of objects, sorted by number; a number that is not listed names no object. -/
abbrev Tbl (α : Type) := List (Nat × α)

/-- A byte memory: (address, byte) pairs, addresses strictly rising, no byte equal to 0; an unlisted address
reads 0 (log entry 3). -/
abbrev Cells := List (Nat × BitVec 8)

/-- The dies found on a channel: (number, index of the record, class, GiB, blocks, bad blocks). -/
abbrev FoundDie := Fin 16 × Nat × Nat × Nat × Nat × Nat

/-- A channel as training leaves it: its rate in MT/s, the dies that qualify and those refused (R252, R445). -/
structure FoundChannel where
  ch : Fin 16
  rate : Nat
  dies : List FoundDie
  refused : List (Fin 16)
deriving DecidableEq, Repr

/-- What the phases of a start-up find (Table 13.2); each phase reads its own fields. -/
structure StartOutcome where
  /-- FUSES: two consecutive reads of the array agreed within eight (R448); the entropy tests pass (R158) -/
  fusesAgree : Bool := true
  entropyOk : Bool := true
  /-- SCRUPLE: units that fail, (pool, unit): pools 0 engines, 1 decompression, 2 compression, 3 AES, 4 public-key,
  5 soft decoders, 6 index banks, 7 Hogshead banks, 8 SHA-384 lanes, 9 cache ways -/
  failed : List (Nat × Nat) := []
  /-- SCRUPLE: checked pairs with a failed copy; `true` when both copies failed -/
  pairs : List (Fin 22 × Bool) := []
  remapFails : Bool := false
  /-- TRAINING: raw MiB of each DRAM side, the sides that train and pass their tests, and their rate -/
  mib : Nat := 0
  sideA : Bool := true
  sideB : Bool := true
  dramRate : Nat := 6400
  channels : List FoundChannel := []
  /-- IMAGE: the root record copy in use, the candidates that could not be read whole, the image in the NOR -/
  rootCopy : Fin 3 := 0
  unreadable : List Nat := []
  nor : List Byte := []
  /-- CONFIG: the rails in mV; where firmware places the twin region -/
  rails : List Nat := []
  twinBase : Nat := 0
  /-- REPLAY: the write-buffer share and stripe width of a format (R262, R266) -/
  wb : Nat := 4
  w : Nat := 8
deriving DecidableEq, Repr

end Sys2Proof
end

