-- ==== Sys2Proof/Syntax.lean ====
section
/-! DEFINITION. The commands of the part: one constructor for each row of the opcode table, in the table's order. An
operand says what the sender writes, or what of the world outside the part (a failing block, a duration, a
temperature) the happening brings with it. -/

namespace Sys2Proof

/-- The rows of the opcode table. -/
inductive Instr where
  /-- TW_POST (R39): function `fn` writes `size` bytes at byte `off` of TW_POST of window `inst` -/
  | twPost (fn : Fin 2) (inst : Fin 64) (off : Fin 8) (size : Nat) (value : Nat)
  /-- SL_POST (R373): as TW_POST, for slice window `win` -/
  | slPost (fn : Fin 2) (win : Fin 16) (off : Fin 4) (size : Nat) (value : Nat)
  /-- TW_RING_CFG_WRITE (R42): TW_RING_CFG of window `win`, or SL_RING_CFG of slice window `win` -/
  | twRingCfgWrite (fn : Fin 2) (slice : Bool) (win : Fin 64) (value : BitVec 32)
  /-- TW_RING_BASE_WRITE (R42): the low or high half of the ring's address -/
  | twRingBaseWrite (fn : Fin 2) (slice : Bool) (win : Fin 64) (hi : Bool) (value : BitVec 32)
  /-- TW_RING_HEAD_WRITE (R54): `target` 0: TW_RING_HEAD of window `n`; 1: SL_RING_HEAD of slice window `n`; 2: MGR_LOG_HEAD of log `n` -/
  | twRingHeadWrite (fn : Fin 2) (target : Fin 3) (n : Fin 64) (value : BitVec 32)
  /-- TW_IRQ_STS_CLEAR (R56): a 1 written to PENDING -/
  | twIrqStsClear (fn : Fin 2) (inst : Fin 64)
  /-- COAL_TIME_EXPIRY (R56) -/
  | coalTimeExpiry (inst : Fin 64)
  /-- TW_MBOX_DB (R354): TW_MBOX_DB, or SL_MBOX_DB of a slice -/
  | twMboxDb (fn : Fin 2) (slice : Bool) (win : Fin 64) (word : BitVec 32)
  /-- REGISTER_WRITE (R488): `bar` 0 is BAR0, 1 BAR2, 2 BAR4 -/
  | registerWrite (fn : Fin 2) (bar : Fin 3) (off : Nat) (data : List Byte)
  /-- GLB_SEQ_LO_READ (R490) -/
  | glbSeqLoRead (fn : Fin 2)
  /-- GLB_TIME_LO_READ (R490) -/
  | glbTimeLoRead (fn : Fin 2)
  /-- GLB_RECOV_ADDR_LO_READ (R490) -/
  | glbRecovAddrLoRead (fn : Fin 2)
  /-- SCH_TRACE_DATA_3_READ (R191) -/
  | schTraceData3Read (fn : Fin 2)
  /-- TRACE_CLEAR (R191): a write of SCH_TRACE_CTL with CLEAR 1 -/
  | traceClear (fn : Fin 2) (value : BitVec 32)
  /-- COMMAND_START (R58): the task and flag base that the command is bound to -/
  | commandStart (inst : Fin 64) (tag : Fin 256) (handle : BitVec 20) (base : Fin 32)
  /-- RANGE_LOCK_GRANT (R62): the key of a command, or of a request served for another device -/
  | rangeLockGrant (owner : Nat)
  /-- REPLY_COMMIT (R52) -/
  | replyCommit (inst : Fin 64) (tag : Fin 256)
  /-- EVENT_WRITE (R77) -/
  | eventWrite (inst : Fin 64)
  /-- STOPPED (R71): `units`: atomic units that a write had committed -/
  | stopped (inst : Fin 64) (tag : Fin 256) (units : Nat)
  /-- READ (R276): the work of the command on tag `tag` of `inst` ends; `lost` are the blocks that no recovery step decoded, `crcFail` those of units whose CRC-32C failed twice -/
  | read (inst : Fin 64) (tag : Fin 256) (lost : List Nat) (crcFail : List Nat)
  /-- WRITE (R65): `outcome` 0: all is stored; 1: a write fault, 2: a CRC-32C failure, after `units` atomic units -/
  | write (inst : Fin 64) (tag : Fin 256) (outcome : Fin 3) (units : Nat)
  /-- READ_ASSET (R86): as SCAN of a package -/
  | readAsset (inst : Fin 64) (tag : Fin 256) (lost crcFail again : List Nat)
  /-- INSTALL_CHUNK (R84): `outcome` and `units` as for WRITE -/
  | installChunk (inst : Fin 64) (tag : Fin 256) (outcome : Fin 3) (units : Nat) (lost : List Nat)
  /-- FLUSH (R66) -/
  | flush (inst : Fin 64) (tag : Fin 256)
  /-- TRIM (R301): with `fault`, programs failed after `units` atomic units -/
  | trim (inst : Fin 64) (tag : Fin 256) (fault : Bool) (units : Nat)
  /-- VERIFY (R276): as READ -/
  | verify (inst : Fin 64) (tag : Fin 256) (lost : List Nat) (crcFail : List Nat)
  /-- SCAN (R215): `lost` blocks could not be decoded, `crcFail` blocks (of a package: chunks) failed their CRC-32C twice, `again` are chunks whose GCM tag passed the second time -/
  | scan (inst : Fin 64) (tag : Fin 256) (lost crcFail again : List Nat)
  /-- INDEX_SEARCH (R232): `err`: the check of the winning entry found an error -/
  | indexSearch (inst : Fin 64) (tag : Fin 256) (err : Bool)
  /-- INDEX_INSERT (R236) -/
  | indexInsert (inst : Fin 64) (tag : Fin 256)
  /-- INDEX_DELETE_ENTRY (R239) -/
  | indexDeleteEntry (inst : Fin 64) (tag : Fin 256)
  /-- INDEX_DELETE_KEY (R239) -/
  | indexDeleteKey (inst : Fin 64) (tag : Fin 256)
  /-- INDEX_STEP (R234): as INDEX_SEARCH -/
  | indexStep (inst : Fin 64) (tag : Fin 256) (err : Bool)
  /-- PROGRAM_LOAD (R197) -/
  | programLoad (inst : Fin 64) (tag : Fin 256)
  /-- PROGRAM_UNLOAD (R199) -/
  | programUnload (inst : Fin 64) (tag : Fin 256)
  /-- CODEC_DECOMPRESS (R114): CODEC with MODE 0 -/
  | codecDecompress (inst : Fin 64) (tag : Fin 256)
  /-- CODEC_COMPRESS (R104): CODEC with MODE 1 -/
  | codecCompress (inst : Fin 64) (tag : Fin 256)
  /-- CODEC_RESUME (R116) -/
  | codecResume (inst : Fin 64) (tag : Fin 256)
  /-- CODEC_SAVE (R111) -/
  | codecSave (inst : Fin 64) (tag : Fin 256)
  /-- CODEC_RESTORE (R112) -/
  | codecRestore (inst : Fin 64) (tag : Fin 256)
  /-- ABORT (R69): the ABORT's own tag -/
  | abort (inst : Fin 64) (tag : Fin 256)
  /-- MAILBOX_NOTE (R353) -/
  | mailboxNote (inst : Fin 64) (tag : Fin 256)
  /-- LICENSE_LOAD (R133): of a licence -/
  | licenseLoad (inst : Fin 64) (tag : Fin 256)
  /-- REVOCATION_LIST_LOAD (R139): LICENSE_LOAD of a revocation list -/
  | revocationListLoad (inst : Fin 64) (tag : Fin 256)
  /-- LICENSE_DROP (R137) -/
  | licenseDrop (inst : Fin 64) (tag : Fin 256)
  /-- SEAL_OPEN (R143) -/
  | sealOpen (inst : Fin 64) (tag : Fin 256)
  /-- SEAL_CLOSE (R148) -/
  | sealClose (inst : Fin 64) (tag : Fin 256)
  /-- ATTEST (R153) -/
  | attest (inst : Fin 64) (tag : Fin 256)
  /-- LOG_READ (R305) -/
  | logRead (inst : Fin 64) (tag : Fin 256)
  /-- FEATURE_SET (R50) -/
  | featureSet (inst : Fin 64) (tag : Fin 256)
  /-- FEATURE_GET (R50) -/
  | featureGet (inst : Fin 64) (tag : Fin 256)
  /-- FW_STAGE (R414) -/
  | fwStage (inst : Fin 64) (tag : Fin 256)
  /-- FW_ACTIVATE (R415): `accepts`: the answer of the activation component -/
  | fwActivate (inst : Fin 64) (tag : Fin 256) (accepts : Bool)
  /-- ACTIVATION_SWITCH (R416) -/
  | activationSwitch
  /-- ACTIVATION_SWITCH_END (R417): `pause` in ns -/
  | activationSwitchEnd (pause : Nat)
  /-- INSTANCE_CREATE (R346) -/
  | instanceCreate (inst : Fin 64) (tag : Fin 256)
  /-- INSTANCE_DESTROY (R347) -/
  | instanceDestroy (inst : Fin 64) (tag : Fin 256)
  /-- INSTANCE_RESET (R362) -/
  | instanceReset (inst : Fin 64) (tag : Fin 256)
  /-- VOLUME_CREATE (R299) -/
  | volumeCreate (inst : Fin 64) (tag : Fin 256)
  /-- VOLUME_DELETE (R300) -/
  | volumeDelete (inst : Fin 64) (tag : Fin 256)
  /-- SPAN_JOIN (R385) -/
  | spanJoin (inst : Fin 64) (tag : Fin 256)
  /-- SPAN_LEAVE (R386): its checks, then its end -/
  | spanLeave (inst : Fin 64) (tag : Fin 256)
  /-- SPAN_MIRROR_SET (R396) -/
  | spanMirrorSet (inst : Fin 64) (tag : Fin 256)
  /-- SANITIZE_CRYPTOGRAPHIC_ERASE (R129): the next stage of SANITIZE; `w` is the stripe width of the parts in service -/
  | sanitizeCryptographicErase (inst : Fin 64) (tag : Fin 256) (w : Nat)
  /-- SANITIZE_BLOCK_ERASE (R302): `sbs` are the superblocks that hold pages of the volume -/
  | sanitizeBlockErase (inst : Fin 64) (tag : Fin 256) (sbs : List Nat) (w : Nat)
  /-- SANITIZE_OVERWRITE (R302) -/
  | sanitizeOverwrite (inst : Fin 64) (tag : Fin 256) (sbs : List Nat) (w : Nat)
  /-- DEVICE_RESET (R73) -/
  | deviceReset (inst : Fin 64) (tag : Fin 256)
  /-- SPAN_DEADLINE (R391) -/
  | spanDeadline (inst : Fin 64) (tag : Fin 256)
  /-- HOST_READ_ERROR (R499): a read of 0 the input, 1 a dictionary, 2 a window reference, 3 the scatter list; `units` atomic units of a write were read in full -/
  | hostReadError (inst : Fin 64) (tag : Fin 256) (what : Fin 4) (units : Nat)
  /-- STAGE_UNIT_DONE (R15): the present stage of unit `unit` ends on `lane`: `outcome` 0 with `len` bytes, 1 a CRC-32C mismatch, 2 a GCM tag that fails, else the status of an error -/
  | stageUnitDone (inst : Fin 64) (tag : Fin 256) (unit lane len outcome by_ ns : Nat)
  /-- LANE_FAULT (R96): pool 0 decompression, 1 compression, 2 AES; `by_` runs the unit again -/
  | laneFault (pool : Fin 3) (lane by_ ns : Nat)
  /-- SHA_LANE_FAULT (R407) -/
  | shaLaneFault (lane : Fin 4) (by_ ns : Nat)
  /-- PK_ENGINE_FAULT (R160) -/
  | pkEngineFault (engine : Fin 2) (ns : Nat)
  /-- SOFT_DECODER_FAULT (R407) -/
  | softDecoderFault (decoder : Fin 5) (by_ ns : Nat)
  /-- POST (R175): to a handle and flag, or (`inst` given) to a command and flag offset -/
  | post (source : Fin 38) (handle : BitVec 20) (inst : Option (Fin 64)) (tag : Fin 256) (flag : Fin 32)
  /-- EVENT_QUEUE_STALL (R177): a post held back for `cycles` fabric cycles -/
  | eventQueueStall (source : Fin 38) (handle : BitVec 20) (inst : Option (Fin 64)) (tag : Fin 256) (flag : Fin 32) (cycles : Fin 11)
  /-- SPAWN (R179): `wait`: mask and ALL of an initial wait -/
  | spawn (ctx : Fin 4096) (prio : Fin 8) (owner : Fin 65) (damzu : Bool) (program : Nat) (wait : Option (BitVec 32 × Bool)) (spawner : BitVec 20)
  /-- DISPATCH (R182) -/
  | dispatch (engine : Fin 36)
  /-- PREEMPTION (R184): `lines` and `effects` of the checkpoint: 0 a post (handle, flag), 1 a byte of Hogshead, 2 any other, 3 a byte of DRAM, 4 a byte of the engine's Firkin -/
  | preemption (engine : Fin 36) (lines : Nat) (effects : List (Fin 5 × Nat × Nat))
  /-- SLICE_EXPIRY (R184) -/
  | sliceExpiry (engine : Fin 36) (lines : Nat) (effects : List (Fin 5 × Nat × Nat))
  /-- WAIT (R178) -/
  | wait_ (engine : Fin 36) (mask : BitVec 32) (all : Bool) (lines : Nat) (effects : List (Fin 5 × Nat × Nat))
  /-- YIELD (R179) -/
  | yield (engine : Fin 36) (lines : Nat) (effects : List (Fin 5 × Nat × Nat))
  /-- EXIT (R179) -/
  | exit_ (engine : Fin 36) (code : BitVec 32) (lines : Nat) (effects : List (Fin 5 × Nat × Nat))
  /-- CANCEL (R180): one task, or every context of an owner -/
  | cancel (handle : BitVec 20) (owner : Option (Fin 65))
  /-- ENGINE_STOPPED (R179) -/
  | engineStopped (engine : Fin 36)
  /-- CHECKPOINT_INTERVAL (R187) -/
  | checkpointInterval (engine : Fin 36) (lines : Nat) (effects : List (Fin 5 × Nat × Nat))
  /-- CHECKPOINT_APPLY_DONE (R187) -/
  | checkpointApplyDone (engine : Fin 36)
  /-- ENGINE_FAULT (R188) -/
  | engineFault (engine : Fin 36) (ns : Nat)
  /-- EPOCH (R357): codec and flash use of an instance in per mille of capacity -/
  | epoch (uses : List (Fin 64 × Fin 1001 × Fin 1001))
  /-- RECORD_ENTRY (R202): worker `worker` enters record `n` of the command -/
  | recordEntry (worker : Nat) (inst : Fin 64) (tag : Fin 256) (n : Nat)
  /-- ADD (R207): worker `worker` executes the instruction that its program holds at its pc -/
  | add (worker : Nat) (d a b : Fin 16)
  /-- SUB (R207): worker `worker` executes the instruction that its program holds at its pc -/
  | sub (worker : Nat) (d a b : Fin 16)
  /-- MUL (R207): worker `worker` executes the instruction that its program holds at its pc -/
  | mul (worker : Nat) (d a b : Fin 16)
  /-- AND (R207): worker `worker` executes the instruction that its program holds at its pc -/
  | and_ (worker : Nat) (d a b : Fin 16)
  /-- OR (R207): worker `worker` executes the instruction that its program holds at its pc -/
  | or_ (worker : Nat) (d a b : Fin 16)
  /-- XOR (R207): worker `worker` executes the instruction that its program holds at its pc -/
  | xor (worker : Nat) (d a b : Fin 16)
  /-- SHL (R207): worker `worker` executes the instruction that its program holds at its pc -/
  | shl (worker : Nat) (d a b : Fin 16)
  /-- SHR (R207): worker `worker` executes the instruction that its program holds at its pc -/
  | shr (worker : Nat) (d a b : Fin 16)
  /-- SLTU (R207): worker `worker` executes the instruction that its program holds at its pc -/
  | sltu (worker : Nat) (d a b : Fin 16)
  /-- SEQ (R207): worker `worker` executes the instruction that its program holds at its pc -/
  | seq (worker : Nat) (d a b : Fin 16)
  /-- CTZ (R207): worker `worker` executes the instruction that its program holds at its pc -/
  | ctz (worker : Nat) (d a : Fin 16)
  /-- POPC (R207): worker `worker` executes the instruction that its program holds at its pc -/
  | popc (worker : Nat) (d a : Fin 16)
  /-- ADDI (R207): worker `worker` executes the instruction that its program holds at its pc -/
  | addi (worker : Nat) (d a : Fin 16) (imm : BitVec 18)
  /-- ANDI (R207): worker `worker` executes the instruction that its program holds at its pc -/
  | andi (worker : Nat) (d a : Fin 16) (imm : BitVec 18)
  /-- ORI (R207): worker `worker` executes the instruction that its program holds at its pc -/
  | ori (worker : Nat) (d a : Fin 16) (imm : BitVec 18)
  /-- SHLI (R207): worker `worker` executes the instruction that its program holds at its pc -/
  | shli (worker : Nat) (d a : Fin 16) (imm : Fin 64)
  /-- SHRI (R207): worker `worker` executes the instruction that its program holds at its pc -/
  | shri (worker : Nat) (d a : Fin 16) (imm : Fin 64)
  /-- SLTUI (R207): worker `worker` executes the instruction that its program holds at its pc -/
  | sltui (worker : Nat) (d a : Fin 16) (imm : BitVec 18)
  /-- SEQI (R207): worker `worker` executes the instruction that its program holds at its pc -/
  | seqi (worker : Nat) (d a : Fin 16) (imm : BitVec 18)
  /-- MOVH (R207): worker `worker` executes the instruction that its program holds at its pc -/
  | movh (worker : Nat) (d : Fin 16) (imm : BitVec 18)
  /-- BSWAP (R207): worker `worker` executes the instruction that its program holds at its pc; `n` 1, 2, 3: 2, 4, 8 bytes -/
  | bswap (worker : Nat) (d a : Fin 16) (n : Fin 4)
  /-- LDR (R201): worker `worker` executes the instruction that its program holds at its pc -/
  | ldr (worker : Nat) (d a : Fin 16) (sz : Fin 4) (off : BitVec 16)
  /-- LDK (R201): worker `worker` executes the instruction that its program holds at its pc -/
  | ldk (worker : Nat) (d a : Fin 16) (sz : Fin 4) (off : BitVec 16)
  /-- LDS (R201): worker `worker` executes the instruction that its program holds at its pc -/
  | lds (worker : Nat) (d a : Fin 16) (sz : Fin 4) (off : BitVec 16)
  /-- STS (R201): worker `worker` executes the instruction that its program holds at its pc -/
  | sts (worker : Nat) (d a : Fin 16) (sz : Fin 4) (off : BitVec 16)
  /-- VLDR (R201): worker `worker` executes the instruction that its program holds at its pc -/
  | vldr (worker : Nat) (vd : Fin 4) (a : Fin 16) (off : BitVec 16)
  /-- VLDK (R201): worker `worker` executes the instruction that its program holds at its pc -/
  | vldk (worker : Nat) (vd : Fin 4) (a : Fin 16) (off : BitVec 16)
  /-- VLDS (R201): worker `worker` executes the instruction that its program holds at its pc -/
  | vlds (worker : Nat) (vd : Fin 4) (a : Fin 16) (off : BitVec 16)
  /-- VSTS (R201): worker `worker` executes the instruction that its program holds at its pc -/
  | vsts (worker : Nat) (vd : Fin 4) (a : Fin 16) (off : BitVec 16)
  /-- VCMPEQ (R207): worker `worker` executes the instruction that its program holds at its pc -/
  | vcmpeq (worker : Nat) (vd va vb : Fin 4)
  /-- VCMPGTU (R207): worker `worker` executes the instruction that its program holds at its pc -/
  | vcmpgtu (worker : Nat) (vd va vb : Fin 4)
  /-- VAND (R207): worker `worker` executes the instruction that its program holds at its pc -/
  | vand (worker : Nat) (vd va vb : Fin 4)
  /-- VOR (R207): worker `worker` executes the instruction that its program holds at its pc -/
  | vor (worker : Nat) (vd va vb : Fin 4)
  /-- VXOR (R207): worker `worker` executes the instruction that its program holds at its pc -/
  | vxor (worker : Nat) (vd va vb : Fin 4)
  /-- VSPLAT (R207): worker `worker` executes the instruction that its program holds at its pc -/
  | vsplat (worker : Nat) (vd : Fin 4) (a : Fin 16)
  /-- VMASK (R207): worker `worker` executes the instruction that its program holds at its pc -/
  | vmask (worker : Nat) (d : Fin 16) (va : Fin 4)
  /-- BEQ (R208): worker `worker` executes the instruction that its program holds at its pc; `off` in instructions -/
  | beq (worker : Nat) (a b : Fin 16) (off : BitVec 18)
  /-- BNE (R208): worker `worker` executes the instruction that its program holds at its pc; `off` in instructions -/
  | bne (worker : Nat) (a b : Fin 16) (off : BitVec 18)
  /-- BLTU (R208): worker `worker` executes the instruction that its program holds at its pc; `off` in instructions -/
  | bltu (worker : Nat) (a b : Fin 16) (off : BitVec 18)
  /-- BGEU (R208): worker `worker` executes the instruction that its program holds at its pc; `off` in instructions -/
  | bgeu (worker : Nat) (a b : Fin 16) (off : BitVec 18)
  /-- LOOP (R209): worker `worker` executes the instruction that its program holds at its pc -/
  | loop (worker : Nat) (c : Fin 16) (body : Fin 1024) (mx : Fin 4096)
  /-- LIDX (R209): worker `worker` executes the instruction that its program holds at its pc -/
  | lidx (worker : Nat) (d : Fin 16) (level : Fin 4)
  /-- EMITR (R207): worker `worker` executes the instruction that its program holds at its pc -/
  | emitr (worker : Nat) (a b : Fin 16)
  /-- EMITS (R207): worker `worker` executes the instruction that its program holds at its pc -/
  | emits (worker : Nat) (a b : Fin 16)
  /-- EMITG (R207): worker `worker` executes the instruction that its program holds at its pc -/
  | emitg (worker : Nat) (a : Fin 16) (sz : Fin 4)
  /-- CNT (R204): worker `worker` executes the instruction that its program holds at its pc -/
  | cnt (worker : Nat) (a : Fin 16) (k : Fin 8)
  /-- IDXS (R211): worker `worker` executes the instruction that its program holds at its pc -/
  | idxs (worker : Nat) (d : Fin 16) (va slot : Fin 4)
  /-- TRAP (R212): worker `worker` executes the instruction that its program holds at its pc -/
  | trap (worker : Nat) (code : BitVec 8)
  /-- END (R204): worker `worker` executes the instruction that its program holds at its pc -/
  | end_ (worker : Nat)
  /-- CURSOR_IDLE_EXPIRY (R235) -/
  | cursorIdleExpiry (cursor : Fin 4096)
  /-- RESPREAD_MOVE (R238) -/
  | respreadMove (table : Fin 256)
  /-- IDX_TABLE_CREATE (R245): function `fn` writes OP 1 -/
  | idxTableCreate (fn : Fin 2)
  /-- IDX_TABLE_DELETE (R245) -/
  | idxTableDelete (fn : Fin 2) (table : Fin 256)
  /-- IDX_TABLE_EMPTY (R245) -/
  | idxTableEmpty (fn : Fin 2) (table : Fin 256)
  /-- IDX_SCRUB (R246): `found` entries corrected or restored -/
  | idxScrub (found : Nat)
  /-- INDEX_BANK_FAULT (R247): `ns`: the interruption measured -/
  | indexBankFault (bank : Fin 17) (ns : Nat)
  /-- PAGE_READ_DONE (R273): `cws` is the step of Table 8.7 that decoded each code word, 6 for none; `lost` the blocks (volume, LBA) lost; `gc` the superblock and allotment of a garbage collection's read -/
  | pageReadDone (die block : Nat) (cws : List (Fin 7)) (weak : Bool) (offset : Nat) (lost : List (Nat × Nat)) (gc : Option (Nat × Nat × Nat))
  /-- PROGRAM_DONE (R272): a page of superblock `sb`; `closes` its last one; `src` the source of a copy; the shares of free space in per cent -/
  | programDone (sb die block : Nat) (slc closes pass : Bool) (src : Option Nat) (wbFree denseFree : Fin 101)
  /-- ERASE_DONE (R282) -/
  | eraseDone (sb die block : Nat) (pass : Bool) (wbFree denseFree : Fin 101)
  /-- JOURNAL_PAGE_DURABLE (R284): the first `n` groups -/
  | journalPageDurable (n : Nat)
  /-- GC_SELECT (R280) -/
  | gcSelect (sb : Nat)
  /-- GC_COPY_VERIFIED (R277): the copy of an allotment of `sb` in `dst` -/
  | gcCopyVerified (sb vol allot dst : Nat)
  /-- GC_ERASE_SOURCE (R279) -/
  | gcEraseSource (sb : Nat)
  /-- MAP_SEGMENT_WRITE (R286): volume * 2^32 + segment -/
  | mapSegmentWrite (seg : Nat)
  /-- PATROL_READ (R289): as PAGE_READ_DONE; `parity` a parity page, `last` the end of a pass -/
  | patrolRead (die block : Nat) (cws : List (Fin 7)) (weak : Bool) (offset : Nat) (lost : List (Nat × Nat)) (parity last : Bool)
  /-- REFRESH (R290): the allotments (volume, number) of a block go from `sb` to `dst` -/
  | refresh (sb die block dst : Nat) (allots : List (Nat × Nat))
  /-- WEAR_LEVEL_MOVE (R294) -/
  | wearLevelMove (sb : Nat)
  /-- DIE_TIMEOUT (R296) -/
  | dieTimeout (die ns : Nat)
  /-- REBUILD_DONE (R296) -/
  | rebuildDone (die : Nat)
  /-- CHANNEL_LOST (R296) -/
  | channelLost (ch : Fin 16) (ns : Nat)
  /-- EVACUATE (R298): the write of OP 1, or the end of the evacuation -/
  | evacuate (fn : Fin 2) (ch : Fin 16) (ends : Bool)
  /-- RELEASE (R298): the write of OP 2 -/
  | release (fn : Fin 2) (ch : Fin 16)
  /-- INSERTED (R298): the write of OP 3, or the end of the operation; `dies` gives (k, part, class, GiB, blocks, bad blocks) -/
  | inserted (fn : Fin 2) (ch : Fin 16) (ends trained : Bool) (rate : Nat) (dies : List (Fin 16 × Nat × Nat × Nat × Nat × Nat)) (refused : List (Fin 16))
  /-- SRAM_SCRUB (R323): target: 0 Hogshead, 1 Firkins, 2 remap store, 3 trace ring; `nature`: bit errors that have come about -/
  | sramScrub (target : Fin 4) (first len : Nat) (nature : List (Nat × List Nat)) (hard : List Nat) (pass : Bool)
  /-- DRAM_SCRUB (R324): granules by number -/
  | dramScrub (sideB : Bool) (first count : Nat) (nature : List (Nat × List Nat)) (pass : Bool)
  /-- HOGSHEAD_BANK_REPLACE (R320) -/
  | hogsheadBankReplace (unit : Fin 34) (reason : Fin 4) (unreadable : List (Fin 4096)) (ns : Nat)
  /-- FIRKIN_LINE_REMAP (R321) -/
  | firkinLineRemap (engine : Fin 36) (line : Fin 8192) (ns : Nat)
  /-- DRAM_SIDE_FAIL (R328): `dropped`: the packages (volume, LBA) held on the side -/
  | dramSideFail (sideB : Bool) (reason : Fin 3) (dropped : List (Nat × Nat)) (ns : Nat)
  /-- CACHE_FILL (R329): `reads`: the lookups (class, line) made since the last fill -/
  | cacheFill (reads : List (Fin 4 × Nat)) (line : Nat) (nature : List (Bool × Nat × List Nat))
  /-- PREFETCH (R333) -/
  | prefetch (cls : Fin 4) (line : Nat) (nature : List (Bool × Nat × List Nat))
  /-- WRITE_BUFFER_DRAIN (R332) -/
  | writeBufferDrain (nature : List (Bool × Nat × List Nat))
  /-- CACHE_DISABLE (R336): a write of CCH_CTL with ENABLE 0 -/
  | cacheDisable (fn : Fin 2) (value : BitVec 32)
  /-- CACHE_ENABLE (R336): a write of CCH_CTL with ENABLE 1 -/
  | cacheEnable (fn : Fin 2) (value : BitVec 32)
  /-- CCH_WAY_PWR_WRITE (R337) -/
  | cchWayPwrWrite (fn : Fin 2) (value : BitVec 32)
  /-- CACHE_WAY_FAULT (R407) -/
  | cacheWayFault (way : Fin 16) (ns : Nat)
  /-- MEM_INJ_ARM (R341): a write of MEM_INJ_CTL with ARM 1 -/
  | memInjArm (fn : Fin 2) (value : BitVec 32)
  /-- DRAIN_SET (R365): a write of MGR_INST_CTL that sets DRAIN -/
  | drainSet (fn : Fin 2) (value : BitVec 32)
  /-- DRAIN_CLEARED (R345): a write of MGR_INST_CTL that clears DRAIN -/
  | drainCleared (fn : Fin 2) (value : BitVec 32)
  /-- MGR_INST_CTL_PORT_WRITE (R352): a write of MGR_INST_CTL that leaves DRAIN -/
  | mgrInstCtlPortWrite (fn : Fin 2) (value : BitVec 32)
  /-- ACK (R353): a write of MGR_MBOX_CTL with OP 1 -/
  | ack (fn : Fin 2)
  /-- SEND (R354): a write of MGR_MBOX_CTL with OP 2 -/
  | send (fn : Fin 2) (len : Fin 512)
  /-- EXPORT (R370): a write of MGR_MIG_CTL with OP 1 -/
  | exportInst (fn : Fin 2) (hostError : Bool)
  /-- IMPORT (R371): a write of MGR_MIG_CTL with OP 2 -/
  | importInst (fn : Fin 2) (hostError : Bool)
  /-- MGR_LOG_CTL_WRITE (R366) -/
  | mgrLogCtlWrite (fn : Fin 2) (k : Fin 4) (value : BitVec 32)
  /-- PAGE_LOG_ENTRY (R367) -/
  | pageLogEntry (k : Fin 4)
  /-- SYNC (R368): a write of MGR_LOG_SYNC_k with SYNC 1 -/
  | sync (fn : Fin 2) (k : Fin 4)
  /-- LOG_MARKER (R368) -/
  | logMarker (k : Fin 4)
  /-- FLIT_RECEIVED (R380): the 256 bytes that arrive -/
  | flitReceived (port : Fin 3) (bytes : List Byte)
  /-- NAK (R380) -/
  | nak (port : Fin 3)
  /-- LANES_TRAINED (R381) -/
  | lanesTrained (port : Fin 3)
  /-- TRAINING_TIMEOUT (R381) -/
  | trainingTimeout (port : Fin 3)
  /-- HELLO (R381) -/
  | hello (port : Fin 3)
  /-- HELLO_TIMEOUT (R381) -/
  | helloTimeout (port : Fin 3)
  /-- EXLET_PORT_FAIL (R382): `ns`: the interruption measured -/
  | exletPortFail (port : Fin 3) (ns : Nat)
  /-- PORT_RETRY_TIMER (R381) -/
  | portRetryTimer (port : Fin 3)
  /-- ANNOUNCE_TIMER (R384) -/
  | announceTimer
  /-- ANNOUNCE (R384) -/
  | announce (port : Fin 3)
  /-- MEMBERSHIP_EXPIRY (R384) -/
  | membershipExpiry (id : Fin 65536)
  /-- REQ (R390): the request is admitted, or served: `lost` and `crcFail` as for READ, `outcome` and `units` as for WRITE -/
  | req (origin xid : Nat) (lost crcFail : List Nat) (outcome : Fin 3) (units : Nat)
  /-- PAIR_SEQ_GAP_EXPIRY (R394) -/
  | pairSeqGapExpiry (origin : Fin 65536)
  /-- RESP (R390): `crcFail` and `again` as for READ_ASSET and SCAN -/
  | resp (home xid : Nat) (crcFail again : List Nat)
  /-- CANCEL_FLIT (R395) -/
  | cancelFlit (origin xid : Nat)
  /-- SPAN_RESEND_EXPIRY (R392) -/
  | spanResendExpiry (xid : Nat)
  /-- ABORT_RESP_TIMEOUT (R395) -/
  | abortRespTimeout (inst : Fin 64) (tag : Fin 256)
  /-- MIRROR_WRITE (R398) -/
  | mirrorWrite (origin xid : Nat)
  /-- MIRROR_ACK (R398) -/
  | mirrorAck (copy xid : Nat)
  /-- MIRROR_GRACE_EXPIRY (R397) -/
  | mirrorGraceExpiry (copy xid : Nat)
  /-- RESYNC_PASS_END (R397): for the first or the second copy -/
  | resyncPassEnd (v : Nat) (second : Bool)
  /-- PRIMARY_SUPERSEDED (R400) -/
  | primarySuperseded (origin xid : Nat)
  /-- PROBE (R389) -/
  | probe (origin xid : Nat)
  /-- PROBE_RESP (R389) -/
  | probeResp (home xid : Nat)
  /-- BIND (R389): a write of SPN_VOL_REMOTE with BIND 1 -/
  | bind (fn : Fin 2) (homeVol : Fin 256) (homeId : Fin 65536)
  /-- UNBIND (R389): a write of SPN_VOL_REMOTE with BIND 0 -/
  | unbind (fn : Fin 2) (homeVol : Fin 256) (homeId : Fin 65536)
  /-- KEY_REQ (R135) -/
  | keyReq (origin xid : Nat)
  /-- KEY_GRANT (R401) -/
  | keyGrant (anchorId xid : Nat)
  /-- PAIR_MISCOMPARE (R408): `pass`: one copy passed its self-check -/
  | pairMiscompare (pair : Fin 22) (pass : Bool) (ns : Nat)
  /-- REFCLK_LOSS (R413) -/
  | refclkLoss (ref : Fin 2) (ns : Nat)
  /-- PLL_RELOCK (R413) -/
  | pllRelock (ref : Fin 2)
  /-- ROOT_REQ_CHANGE (R413): a write of CLK_ROOT_CTL that changes ROOT_REQ -/
  | rootReqChange (fn : Fin 2) (value : BitVec 32)
  /-- HOST_PORT_FAIL (R411): `vectors`: the MSI-X messages that were not acknowledged -/
  | hostPortFail (port : Fin 2) (vectors : List Nat) (ns : Nat)
  /-- LINK_RETURN (R412) -/
  | linkReturn (port : Fin 2) (width : Nat) (speed : Fin 6) (reversed : Bool) (polarity : Nat)
  /-- SPARE_CHECK (R410): pools: 0 engines, 1 decompression, 2 compression, 3 AES, 4 public-key, 5 soft decoders, 6 index banks, 7 Hogshead banks -/
  | spareCheck (failing : List (Fin 8 × Nat))
  /-- RAIL_BELOW_WARNING (R420): for 1 µs, at `mv` -/
  | railBelowWarning (rail : Fin 8) (mv : Nat)
  /-- RAILS_ABOVE_WARNING (R420): the eight voltages in mV -/
  | railsAboveWarning (mvs : List Nat)
  /-- DWELL_END (R420) -/
  | dwellEnd
  /-- DIP_LONG (R420) -/
  | dipLong
  /-- RAIL_OVER_VOLTAGE (R419): for `us`, at most at `mv` -/
  | railOverVoltage (rail : Fin 8) (mv us : Nat)
  /-- RAIL_BELOW_RESET (R420) -/
  | railBelowReset (rail : Fin 8) (mv : Nat)
  /-- PWR_FAIL_ASSERT (R422) -/
  | pwrFailAssert
  /-- FLUSH_DONE (R422) -/
  | flushDone
  /-- PWR_FAIL_DEASSERT (R423) -/
  | pwrFailDeassert
  /-- HOLDUP_RDY_CHANGE (R421) -/
  | holdupRdyChange (asserted : Bool)
  /-- SENSOR_SAMPLE (R428): `reading` in 1/8 °C, none when open, short or out of range -/
  | sensorSample (sensor : Fin 20) (reading : Option Int)
  /-- THERMAL_TRIP (R430): `temp` in 1/8 °C -/
  | thermalTrip (sensor : Fin 12) (temp : Int)
  /-- POWER_CAP_ESTIMATE (R432): `mw`: the estimate in mW -/
  | powerCapEstimate (mw : Nat)
  /-- RETRAIN_START (R424): `iface` 0 to 15 a channel, 16 and 17 DRAM sides A and B; triggers 0 errors, 1 temperature, 2 manager -/
  | retrainStart (iface : Fin 18) (trigger : Fin 3)
  /-- RETRAIN_DONE (R425) -/
  | retrainDone (iface : Fin 18) (pass : Bool) (dropped : List (Nat × Nat)) (ns : Nat)
  /-- ENTROPY_HEALTH_FAIL (R159) -/
  | entropyHealthFail
  /-- ENTROPY_RETEST (R159) -/
  | entropyRetest (pass : Bool)
  /-- DRBG_RESEED (R158) -/
  | drbgReseed
  /-- COMMIT (R152): `made`: the bits of ARB that take -/
  | commit (fn : Fin 2) (made : List Nat)
  /-- SEC_UNLOCK_DATA_WRITE (R157): `src` 2 is the debug access port -/
  | secUnlockDataWrite (src : Fin 3) (word : BitVec 32)
  /-- SUBMIT (R157) -/
  | submit (src : Fin 3)
  /-- RESTART (R157) -/
  | restart (src : Fin 3)
  /-- OTP_PROG_DATA_WRITE (R453) -/
  | otpProgDataWrite (fn : Fin 2) (word : BitVec 32)
  /-- OTP_GO (R453): `misses`: fuse bits (address, bit) that do not take -/
  | otpGo (fn : Fin 2) (misses : List (Nat × Nat))
  /-- OTP_RESTART (R453) -/
  | otpRestart (fn : Fin 2)
  /-- GO (R443): GLB_RECOV_CTL.GO; `hostError`: the image could not be read -/
  | go (fn : Fin 2) (hostError : Bool)
  /-- SHUTDOWN (R447): the write of GLB_CTL, or (`ends`) the end of the shutdown -/
  | shutdown (fn : Fin 2) (ends : Bool)
  /-- RESUME (R447) -/
  | resume (fn : Fin 2)
  /-- DBG_READ (R454): `src`: function 0 or 1, or 2 the debug access port -/
  | dbgRead (src : Fin 3) (target : Fin 8)
  /-- DBG_WRITE (R454): as DBG_READ -/
  | dbgWrite (src : Fin 3) (target : Fin 8)
  /-- POWER_ON_RESET (R437): MODE (bits 0, 1) and SRIS straps; `ref0`, `ref1`: references present; `off`: the rails came up from off -/
  | powerOnReset (straps : Fin 16) (smba : Fin 4) (ref0 ref1 off : Bool)
  /-- STARTUP_PHASE_END (R440): `o`: what the phase finds -/
  | startupPhaseEnd (o : StartOutcome)
  /-- PERST_N_ASSERT (R437): `pin` false: a Hot Reset or link disable -/
  | perstNAssert (port : Fin 2) (pin : Bool)
  /-- PERST_N_RELEASE (R437): what the link trains to; width 0: not yet trained -/
  | perstNRelease (port : Fin 2) (width : Nat) (speed : Fin 6) (reversed : Bool) (polarity : Nat)
  /-- FUNCTION_LEVEL_RESET (R73): the FLR bit, or (`ends`) the end of the reset -/
  | functionLevelReset (port : Fin 2) (ends : Bool)
  /-- D3HOT_ENTRY (R462) -/
  | d3hotEntry (port : Fin 2)
  /-- D3HOT_EXIT (R462) -/
  | d3hotExit (port : Fin 2)
  /-- STATUS (R468) -/
  | status
  /-- TEMP_MAX (R468) -/
  | tempMax
  /-- THERM_STATE (R468) -/
  | thermState
  /-- WEAR (R468) -/
  | wear
  /-- SPARE (R468) -/
  | spare
  /-- ID (R468) -/
  | id
  /-- TEMPS (R468) -/
  | temps
  /-- RAILS (R468) -/
  | rails
  /-- HEALTH (R468) -/
  | health
  /-- SMBUS_WRITE (R468): a write transaction, or a read of `code` -/
  | smbusWrite (write : Bool) (code : BitVec 8)
  /-- EXTEST (R470) -/
  | extest
  /-- IDCODE (R470) -/
  | idcode
  /-- SAMPLE_PRELOAD (R470): the levels at the pins, and the bits shifted in -/
  | samplePreload (pins shifted : List Byte)
  /-- CLAMP (R470) -/
  | clamp
  /-- HIGHZ (R470) -/
  | highz
  /-- DAP (R470): an access of the debug access port to a register of BAR0 -/
  | dap (write : Bool) (off : Nat) (value : BitVec 32)
  /-- BYPASS (R470) -/
  | bypass
  /-- HEALTH_LOG_WRITE (R306) -/
  | healthLogWrite
  /-- LEARNED_REPAIR_WRITE (R322) -/
  | learnedRepairWrite
  /-- HOME_BUDGET_EXPIRY (R391) -/
  | homeBudgetExpiry (origin xid : Nat)
  /-- JOIN_SETTLE_EXPIRY (R385) -/
  | joinSettleExpiry
  /-- ACTIVITY_TOGGLE (R471) -/
  | activityToggle
deriving DecidableEq, Repr

end Sys2Proof
end

