-- ==== Sys2Proof/Config.lean ====
section
/-! DEFINITION. What the spec leaves open: constants with no body. Nothing in Lean can evaluate one or prove a value of
one, so that a statement holds whatever they are. Free values take the counter `fresh` of the state, which every use
advances (log entry 5). The cryptographic primitives, whose standards the spec names without restating, stand here as
well (log entry 6). -/

namespace Sys2Proof.Config

/-- What a lane makes of a codec job. -/
structure CodecOut where
  /-- 0 input consumed, 1 output full, 2 data error, 3 limit -/
  kind : Nat
  /-- input bytes consumed; at an error the input offset of the error -/
  consumed : Nat
  output : List Byte
  /-- output full: the first symbol not completed begins at this bit of the input -/
  bitPos : Nat
  /-- output full: that symbol begins in input held from an earlier job -/
  inHeld : Bool
  /-- the stream used the dictionary -/
  dictUsed : Bool
  window : Nat
  dictId : Nat
  /-- bytes 44 to 1023 of the context image -/
  codecState : List Byte
  history : List Byte
  heldInput : List Byte
  suspended : List Byte
deriving DecidableEq, Repr, Inhabited

/-- A codec job: mode, format, END, the context carried, the dictionary, the bytes of the window references, the input,
and the room for output. -/
structure CodecIn where
  mode : Nat
  format : Nat
  ends : Bool
  ctx : List Byte
  dict : List Byte
  refs : List Byte
  input : List Byte
  room : Nat
deriving DecidableEq, Repr

/-- What the lanes make of a job (R98 to R102, R108, R114): the codec standards, which the spec names and does not
restate. -/
opaque codecJob : CodecIn → CodecOut

/-- The first bad field of bytes 44 to 1023 of a context image (CHECK, PENDING, ENTROPY), whose coding only the codec
knows: its image offset, or 0 for none (R112). -/
opaque codecStateBad : List Byte → Nat

/-- Do a Zstandard dictionary's header and entropy tables parse (R111)? -/
opaque zstdDictOk : List Byte → Bool

/-- A free byte: byte `i` of the free value numbered `n`. -/
opaque freeByte : Nat → Nat → Byte

/-- A free 64-bit number, numbered `n`. -/
opaque freeWord : Nat → BitVec 64

/-- A free number: number `i` of the free value numbered `n`, such as where new data lands on the media. -/
opaque freeNat : Nat → Nat → Nat

/-- Length of the Zstandard frame that a compression lane makes of one allotment: a fixed function of the bytes that
the spec does not give (R100, R105). -/
opaque frameLen : List Byte → Nat

/-- Output of the DRBG (R158): 512 bits for request `n`. -/
opaque drbg : Nat → BitVec 512

/-- Size of the write-back buffers of Table 8.6, in MiB: all the DRAM that is left. -/
opaque writeBackMib : Nat

/-- DISTURB_READS of a qualified-parts record (Table 8.1), by the index of the record. -/
opaque disturbReads : Nat → Nat

/-- SHA-384. -/
opaque sha384 : List Byte → BitVec 384

/-- ECDSA with SHA-384 over brainpoolP384r1 (R126): does the signature of the message verify under a public key? -/
opaque ecdsaOk : List Byte → List Byte → List Byte → Bool

/-- The signature by DIK, which ISEED determines, over a message (R125, R126). -/
opaque dikSign : List Byte → List Byte → List Byte

/-- The KDF of R124: KDF(K, Label, Context, L), of which the first L bits are used. -/
opaque kdf : List Byte → List Byte → List Byte → Nat → BitVec 512

/-- The X coordinate of ECDH between DKA, which ISEED and LC determine, and a public key (R125, R132). -/
opaque dkaShared : List Byte → Nat → List Byte → List Byte

/-- The public key of the ephemeral key pair drawn from DRBG bits (R135, R144). -/
opaque ephPublic : BitVec 512 → List Byte

/-- The X coordinate of ECDH between that ephemeral key and a public key. -/
opaque ephShared : BitVec 512 → List Byte → List Byte

/-- AES-256-GCM decryption: key, initialisation vector, additional data, ciphertext, tag. -/
opaque gcmOpen : BitVec 256 → List Byte → List Byte → List Byte → List Byte → Option (List Byte)

/-- AES-256-GCM encryption: ciphertext followed by the tag. -/
opaque gcmSeal : BitVec 256 → List Byte → List Byte → List Byte → List Byte

/-- The DIK and DKA certificates of the system area (R126): Strelmond issues them, outside the part. -/
opaque dikCert : List Byte → List Byte
opaque dkaCert : List Byte → Nat → List Byte

/-- SHA-384 of the security controller ROM (Table 4.14). -/
opaque romHash : BitVec 384

/-- The coding of a licence state in an attestation report, which the spec does not give. -/
opaque licenceStateCode : Nat → Nat

/-- The public key whose SHA-384 is an anchor, which the anchor alone does not give (R135). -/
opaque anchorKey : List Byte → List Byte

/-- A decompression lane (R98, R99): format, dictionary, input. 0 and the output; 1 for a data error, 2 for a limit. -/
opaque unpack : Nat → List Byte → List Byte → Nat × List Byte

/-- The DIK public key that the key ladder derives from ISEED (Table 4.3): its 97 bytes. -/
opaque dikPublic : List Byte → List Byte

/-- COUNT and DETAIL of a health log entry of a kind whose several values Table 12.10 names without placing them. -/
opaque logCount : Nat → List Nat → Nat
opaque logDetail : Nat → List Nat → List Byte

end Sys2Proof.Config
end

