-- ==== Sys2Proof/Machine/Bits.lean ====
section
/-! DEFINITION. Bit fields, little-endian bytes and the two CRCs. -/

namespace Sys2Proof

/-- Bits [lo + w - 1 : lo] of `x`. -/
def bits (x lo w : Nat) : Nat := x / 2 ^ lo % 2 ^ w

/-- Bit `i` of `x`. -/
def bit (x i : Nat) : Bool := x / 2 ^ i % 2 == 1

/-- 1 for true, 0 for false. -/
def b2n (b : Bool) : Nat := if b then 1 else 0

/-- `x` with bit `i` set to `b`. -/
def setBit (x i : Nat) (b : Bool) : Nat :=
  if bit x i == b then x else if b then x + 2 ^ i else x - 2 ^ i

/-- A saturating counter: one more, at most `mx`. -/
def satInc (x mx : Nat) : Nat := if x < mx then x + 1 else mx

/-- A saturating counter: `k` more, at most `mx`. -/
def satAdd (x k mx : Nat) : Nat := min (x + k) mx

/-- The number that little-endian bytes spell. -/
def leNat : List Byte → Nat
  | [] => 0
  | b :: bs => b.toNat + 256 * leNat bs

/-- The low `n` bytes of `x`, least significant first. -/
def leBytes : Nat → Nat → List Byte
  | 0, _ => []
  | n + 1, x => BitVec.ofNat 8 x :: leBytes n (x / 256)

/-- `n` bytes of `bs` from offset `o`; bytes beyond the end read 0. -/
def bytesAt (bs : List Byte) (o n : Nat) : List Byte :=
  let t := (bs.drop o).take n
  t ++ List.replicate (n - t.length) 0

/-- The little-endian field of `n` bytes at offset `o`. -/
def field (bs : List Byte) (o n : Nat) : Nat := leNat (bytesAt bs o n)

/-- `bs` with the bytes `v` laid over it from offset `o` (inside the list). -/
def overlay (bs : List Byte) (o : Nat) (v : List Byte) : List Byte :=
  bs.take o ++ (v.take (bs.length - o)) ++ bs.drop (o + v.length)

/-- Are all bytes zero? -/
def allZero (bs : List Byte) : Bool := bs.all (fun b => b == 0)

/-- One bit of a reflected 32-bit CRC. -/
def crcBit (poly : BitVec 32) (c : BitVec 32) : BitVec 32 :=
  if c.getLsbD 0 then (c >>> 1) ^^^ poly else c >>> 1

/-- `n` bits of a reflected 32-bit CRC. -/
def crcBits (poly : BitVec 32) : Nat → BitVec 32 → BitVec 32
  | 0, c => c
  | n + 1, c => crcBits poly n (crcBit poly c)

/-- A reflected 32-bit CRC over bytes, initial value and final exclusive-or all ones. -/
def crcReflected (poly : BitVec 32) (bs : List Byte) : BitVec 32 :=
  ~~~ (bs.foldl (fun c b => crcBits poly 8 (c ^^^ b.setWidth 32)) 0xFFFFFFFF)

/-- CRC-32C: the Castagnoli polynomial 0x1EDC_6F41 in reflected form (R19). -/
def crc32c (bs : List Byte) : Nat := (crcReflected 0x82F63B78 bs).toNat

/-- CRC-32C of one 4 KiB piece: a shorter piece is padded with zero bytes for the computation only (R19). -/
def crc32cPiece (bs : List Byte) : Nat := crc32c (bs ++ List.replicate (4096 - bs.length) 0)

/-- The device event sequence is a 48-bit counter (R23). -/
def seqMod : Nat := 2 ^ 48

/-- Serial arithmetic of R25: `a` precedes `b`. -/
def seqPrecedes (a b : Nat) : Bool :=
  let d := (seqMod + b - a % seqMod) % seqMod
  decide (1 ≤ d ∧ d ≤ 2 ^ 47 - 1)

end Sys2Proof
end

