-- ==== Sys2Proof/Machine/State1.lean ====
section
/-! DEFINITION. The state of the KR-940, first part: tags and their replies, locks, instances and their windows,
rings, shares, mailboxes, codec contexts, kept packages, the security domain, OTP, start-up, clocks. Plain data. -/

namespace Sys2Proof.Machine

/-! ### The life of a tag (02, Table 2.11). A tag that the table does not list is FREE. -/

/-- States of a busy tag (Table 2.11). -/
inductive TagSt where
  | queued | running | stopping | held | done
deriving DecidableEq, Repr

/-- What a RUNNING command waits for (the model's own note of its stage of work). -/
inductive Work where
  /-- its work has not ended -/
  | working
  /-- its effect waits for the journal groups of the tag (R65, R66) -/
  | durable
  /-- a MAILBOX_NOTE waits for the manager's ACK (R353) -/
  | note
  /-- LICENSE_DROP, SEAL_CLOSE, PROGRAM_UNLOAD wait for the last user (R137, R148, R199) -/
  | lastUser
  /-- FW_ACTIVATE between its preparation and the end of the switch (R415, R416) -/
  | switching
  /-- SPAN_JOIN waits for the ports to settle (R385) -/
  | joining
  /-- the command was forwarded to its home device (R390) -/
  | forwarded
  /-- a group licence waits for the anchor's KEY_GRANT (R135) -/
  | keyGrant
  /-- a reset command waits until every reset reply of its scope is committed (R73) -/
  | resetting
  /-- a mirrored write waits for its MIRROR_ACKs (R398) -/
  | mirror
deriving DecidableEq, Repr

/-- The decided reply of a tag (Table 2.9). -/
structure Reply where
  status : Nat := 0
  r0 : Nat := 0
  r1 : Nat := 0
  partialEffect : Bool := false
  sealed : Bool := false
  remote : Bool := false
  truncated : Bool := false
  applied : Bool := false
deriving DecidableEq, Repr

/-- An object a command uses from the start of its checks to its reply (R137, R148, R199, R245). -/
inductive Use where
  | licence (slot : Nat) | session (no : Nat) | program (slot : Nat) | table (no : Nat) | context (no : Nat)
deriving DecidableEq, Repr

/-- A busy tag. -/
structure Tag where
  st : TagSt
  /-- the 64 bytes as accepted (R39, R41) -/
  packet : List Byte
  /-- the submission sequence the reply echoes: SEQ of TW_POST (R39); for a slice the packet's SUB_SEQ (R373) -/
  seq : Nat
  /-- SEQ16 of SL_POST (R373); 0 for a native tag -/
  seq16 : Nat
  /-- the device event sequence value at acceptance (R39) -/
  intakeSeq : Nat
  /-- order of acceptance across the device -/
  order : Nat
  /-- the checks of R46 have begun -/
  started : Bool
  work : Work
  /-- journal groups whose durability the reply waits for -/
  groups : List Nat
  /-- objects in use -/
  uses : List Use
  /-- an index command's cursor whose effect waits for the commit (R241): number kept reserved -/
  cursor : Nat
  /-- an ABORT's reply, or a reset's, is committed after the reply of this tag (R71) -/
  after : Option Nat
  reply : Reply
deriving DecidableEq, Repr

/-- One entry of the range-lock table, held or waited for (R61, R62). -/
structure Lock where
  /-- instance * 256 + tag -/
  tag : Nat
  vol : Nat
  first : Nat
  len : Nat
  excl : Bool
  held : Bool
  /-- the command's intake order, by which waiting commands are served -/
  order : Nat
deriving DecidableEq, Repr

/-- An asynchronous event (R76): code, STATUS, the payload bits of RESULT0 [63:16], and RESULT1. -/
structure Event where
  code : Nat
  status : Nat
  r0 : Nat
  r1 : Nat
deriving DecidableEq, Repr

/-- Instance states (Table 10.1); a number the instance table does not list is ABSENT. -/
inductive InstSt where
  | active | resetting | draining | drained | destroying
deriving DecidableEq, Repr

/-- The reply ring and posting registers of a window (Tables 2.3, 10.7). -/
structure Ring where
  base : Nat
  enable : Bool
  sizeLog2 : Nat
  head : Nat
  tail : Nat
  phase : Bool
  headRefused : Bool
  cfgRefused : Bool
  /-- REFUSED of TW_POST_STS -/
  refused : Nat
  evtLost : Nat
  evtQ : List Event
  /-- TW_IRQ_CTL / SL_IRQ -/
  irqEnable : Bool
  coalTime : Nat
  coalCount : Nat
  /-- unsignalled entries and when the first of them was written (R56) -/
  unsignalled : Nat
  coalStart : Nat
  pending : Bool
  /-- HIF_INST_SEQ_n -/
  lastSeq : Nat
  /-- entry of the round-robin service of R360 -/
  served : Nat
deriving DecidableEq, Repr

/-- Three numbers, one for each shared resource of R357. -/
structure Three where
  engine : Nat
  codec : Nat
  flash : Nat
deriving DecidableEq, Repr

/-- The shares of an instance (R357 to R361). -/
structure Share where
  weight : Three
  cap : Three
  /-- written values that take effect at the next epoch boundary (R361) -/
  nextWeight : Three
  nextCap : Three
  /-- credit left in this epoch, and use in this epoch, in the resource's units -/
  credit : List Int
  used : Three
  /-- use beyond the cap, deducted from the next epoch's allowance (R359) -/
  excess : Three
  /-- MGR_INST_USE: per mille of the last complete epoch -/
  lastUse : Three
deriving DecidableEq, Repr

/-- The mailbox of an instance (R353, R354). -/
structure Mbox where
  /-- tenant to manager area -/
  out : Cells
  /-- manager to tenant area -/
  inn : Cells
  /-- MGR_MBOX_PEND bit and the tag of the note under way -/
  pend : Bool
  noteTag : Nat
  noteLen : Nat
  /-- MGR_MBOX_DELIV bit, MSG_LEN -/
  deliv : Bool
  msgLen : Nat
  /-- MGR_MBOX_REPLY -/
  word : Nat
deriving DecidableEq, Repr

/-- The features of an instance (Table 2.8, Table 3.8, R404, R432). -/
structure Feat where
  writeBack : Bool
  spanBudget : Nat
  eventMask : Nat
  codecContexts : Nat
  shrinkMargin : Nat
  /-- 0x0020 SPAN_RESEND_US (R404) -/
  spanResend : Nat
  /-- 0x0030 POWER_CAP and 0x0031 ALERT_LEVEL, instance 0 only (R432) -/
  powerCap : Nat
  alertLevel : Nat
deriving DecidableEq, Repr

/-- An instance that is not ABSENT. -/
structure Inst where
  st : InstSt
  slice : Bool
  pasid : Nat
  vecBase : Nat
  vecCount : Nat
  port : Nat
  sliceWin : Nat
  /-- WRITE, PROGRAM, LICENCE, CODEC in bits 0 to 3 (Table 10.2) -/
  rights : Nat
  drain : Bool
  /-- MGR: fenced from the start of a reset or destroy to its reply (R362, R497) -/
  fenced : Bool
  /-- the slots while their tags are free, byte s * 64 + i (R41) -/
  slots : Cells
  ring : Ring
  share : Share
  mbox : Mbox
  feat : Feat
deriving DecidableEq, Repr

/-! ### Codec contexts and kept packages (03) -/

/-- States of a codec context (Table 3.9); a number not listed is EMPTY. A context is RUNNING while a job on it is. -/
inductive CtxSt where
  | opened | suspended | dictionary
deriving DecidableEq, Repr

/-- A codec context: the fields of its image (Table 3.7). -/
structure Ctx where
  st : CtxSt
  mode : Nat
  format : Nat
  endSeen : Bool
  totalIn : Nat
  totalOut : Nat
  window : Nat
  dictId : Nat
  dictCtx : Nat
  /-- CHECK, PENDING and ENTROPY: bytes 44 to 1023 of the image -/
  codecState : List Byte
  /-- WINDOW_REF: (address, length), oldest first, at most 64 (R109) -/
  refs : List (Nat × Nat)
  history : List Byte
  /-- input held from an earlier job that ended inside a symbol (R108, R114) -/
  heldInput : List Byte
  skipBits : Nat
  /-- output of the suspended symbol not yet written (R114) -/
  suspended : List Byte
deriving DecidableEq, Repr

/-- A package header and directory kept under R83. -/
structure Package where
  vol : Nat
  lba : Nat
  /-- licence slot under which it was verified -/
  licence : Nat
  header : List Byte
  /-- blocks of the directory -/
  dirBlocks : Nat
  directory : List Byte
  /-- package dictionary, when it was read and verified -/
  dict : Option (List Byte)
  /-- last use, for least recently used replacement -/
  used : Nat
deriving DecidableEq, Repr

/-- The codec block: BSH registers and lanes (Table 3.14). -/
structure Bsh where
  enable : Bool
  deflateEn : Bool
  zstdEn : Bool
  /-- DLANE_OK, CLANE_OK, bit k lane k -/
  dOk : Nat
  cOk : Nat
  dReplaced : Nat
  cReplaced : Nat
  /-- OUT_64K per decompression lane, IN_64K per compression lane, and the bytes below 64 KiB not yet counted -/
  dOut : Tbl Nat
  cIn : Tbl Nat
  dataErr : Nat
  limitErr : Nat
  /-- contexts, instance * 65 + number -/
  ctxs : Tbl Ctx
  packages : List Package
deriving DecidableEq, Repr

/-! ### Security (04) -/

/-- Licence states (Table 4.6); a slot not listed is FREE. -/
inductive LicSt where
  | loaded | revoked | dropping
deriving DecidableEq, Repr

/-- A title key slot in use. -/
structure Lic where
  st : LicSt
  inst : Nat
  gen : Nat
  licenceId : Nat
  titleId : Nat
  keyGen : Nat
  /-- BINDING 2: bound to a span group -/
  grouped : Bool
  group : Nat
  sealRequired : Bool
  scanAllowed : Bool
  key : BitVec 256
  /-- the LICENSE_DROP that waits for the last user -/
  dropTag : Option Nat
deriving DecidableEq, Repr

/-- Seal session states (Table 4.10); a number not listed is FREE. -/
inductive SealSt where
  | opened | exhausted | closing
deriving DecidableEq, Repr

/-- A seal session slot in use. -/
structure Seal where
  st : SealSt
  inst : Nat
  gen : Nat
  key : BitVec 256
  noncePrefix : BitVec 32
  counter : Nat
  closeTag : Option Nat
deriving DecidableEq, Repr

/-- An entry of a revocation list (R138). -/
structure RevEntry where
  /-- KIND 1 names a licence, KIND 0 a title -/
  licence : Bool
  keyGenMin : Nat
  id : Nat
deriving DecidableEq, Repr

/-- A Yallan image the device holds: its header fields (Table 4.13) and its bytes. -/
structure Image where
  fwVersion : Nat
  svn : Nat
  debugBuild : Bool
  evaluatedBuild : Bool
  /-- SHA-384 of header bytes 0 to 3999 (R150) -/
  measurement : BitVec 384
  len : Nat
  bytes : Cells
deriving DecidableEq, Repr

/-- The security domain (04). -/
structure Sec where
  progSigReq : Bool
  tenantAttest : Bool
  lock : Bool
  entropyFail : Bool
  drbgReady : Bool
  ladderBlocked : Bool
  debugOpened : Bool
  /-- debug scopes opened by a LEVEL 1 token (R454) -/
  scope : Nat
  /-- a LEVEL 2 token was accepted since POR (R157) -/
  rmaPermit : Bool
  commitBusy : Bool
  commitFail : Bool
  aesOk : Nat
  shaOk : Nat
  pkOk : Nat
  a10Replaces : Nat
  a11Replaces : Nat
  pk1Replaces : Nat
  authFail : Nat
  licenceRefused : Nat
  unlockRefused : Nat
  reseeds : Nat
  healthFails : Nat
  /-- DRBG generate requests since the last reseed (R158) -/
  generates : Nat
  /-- failed repeats of the start-up tests since the failure (R159), and when the next repeat is due -/
  retests : Nat
  retestAt : Nat
  challenge : BitVec 128
  unlockWords : List Nat
  unlockResult : Nat
  licences : Tbl Lic
  /-- last generation of each title key slot (R134, R501) -/
  licGens : Tbl Nat
  seals : Tbl Seal
  sealGens : Tbl Nat
  /-- volume key slots holding a key -/
  volKeys : Tbl (BitVec 512)
  /-- the revocation list in force, durable (R139) -/
  revSequence : Nat
  revEntries : List RevEntry
deriving DecidableEq, Repr

/-! ### Fuses and start-up (13) -/

/-- The fuse array and its programming registers (R448, R453). -/
structure Otp where
  /-- 2,048 bytes -/
  fuses : Cells
  sel : Nat
  words : List Nat
  result : Nat
  readAddr : Nat
  porRequired : Bool
  /-- lifecycle code taken by the key ladder at the last start-up (R125, R450) -/
  ladderLc : Nat
  /-- values of the settings groups that won at the last start-up, [] for a group without a winner (R440, R451) -/
  won : List (List Byte)
deriving DecidableEq, Repr

/-- The HI halves that one function's last LO reads latched (R490). -/
structure Latch where
  seqHi : Nat
  timeHi : Nat
  recovHi : Nat
deriving DecidableEq, Repr

/-- Identity, reset causes, start-up and sequence numbering (01, 13). -/
structure Glb where
  stage : Nat
  /-- 0 single x8, 1 dual x4, 2 single x4 (R1) -/
  arrangement : Nat
  unclean : Bool
  bootSrc : Nat
  shutdown : Bool
  /-- GLB_RESET_CAUSE -/
  cause : Nat
  /-- GLB_BOOT_STS -/
  fails : Nat
  candidate : Nat
  rootCopy : Nat
  configMs : Nat
  readyMs : Nat
  /-- device event sequence: the number most recently taken (R23), the limit in force and the limit being journaled (R27) -/
  seq : Nat
  seqLimit : Nat
  seqJournaled : Nat
  recovAddr : Nat
  recovLen : Nat
  recovResult : Nat
  latch0 : Latch
  latch1 : Latch
  /-- the internal power-on reset is held: no start-up until it is released (R430) -/
  held : Bool
  /-- service has ended until a power-on reset (R470) -/
  ended : Bool
  /-- a device reset under way: the tag of its command (R73), or none -/
  resetTag : Option Nat
  /-- the image that runs, the running image of the system area, and the staged one (R442) -/
  running : Image
  stored : Image
  staged : Option Image
  /-- pieces received by FW_STAGE (R414) and their count of bytes -/
  pieces : Cells
  stagedBytes : Nat
deriving DecidableEq, Repr

/-- The debug access port registers (R454, R455). -/
structure Dbg where
  addr : Nat
  data : Nat
deriving DecidableEq, Repr

/-- Clocks (R31). -/
structure Clk where
  stbyEn : Bool
  autoSwitch : Bool
  rootReq : Bool
  switchCount : Nat
  refOk0 : Bool
  refOk1 : Bool
  lock0 : Bool
  lock1 : Bool
  rootActive : Bool
  /-- firmware's gate requests and the stopped clocks, bit = domain -/
  gate : Nat
  stopped : Nat
  /-- when each reference was last lost, from which the 100 ms of R413 count -/
  lostAt0 : Nat
  lostAt1 : Nat
  /-- a ROOT_REQ that waits for the standby PLL to lock (R32) -/
  rootPending : Bool
deriving DecidableEq, Repr

end Sys2Proof.Machine
end

