-- ==== Sys2Proof/Machine/State2.lean ====
section
/-! DEFINITION. The state of the KR-940, second part: engines and the scheduler, Damzu programs and workers,
the index unit. Plain data. -/

namespace Sys2Proof.Machine

/-! ### Scheduler (05) -/

/-- Task states (Table 5.4); a context the table does not list is FREE. -/
inductive TaskSt where
  | waiting | ready | running | held | stopping
deriving DecidableEq, Repr

/-- A task context (R172) together with the part of its frame that the scheduler restores (R173, R187). -/
structure Task where
  st : TaskSt
  prio : Nat
  owner : Nat
  damzu : Bool
  pending : BitVec 32
  delivered : BitVec 32
  waitMask : BitVec 32
  waitAll : Bool
  /-- engine running it; 255 when none -/
  engine : Nat
  /-- order in which it became READY; takeover puts it first (R182) -/
  readyOrder : Int
  /-- when it was dispatched and when it last checkpointed, in µs -/
  since : Nat
  ckptAt : Nat
  /-- the Damzu program it runs, or 0: decides whether a window load is needed (R170) -/
  program : Nat
  /-- DELIVERED of the frame: the flags of the last dispatch, which a takeover gives again (R178, R188) -/
  frameDelivered : BitVec 32
deriving DecidableEq, Repr

/-- An effect of a task, held back until the checkpoint that carries it is applied (R186). -/
inductive Effect where
  /-- a post to another task: handle and flag -/
  | post (handle : Nat) (flag : Nat)
  /-- a write of one byte of Hogshead -/
  | hogWrite (addr : Nat) (b : BitVec 8)
  /-- a write of one byte of DRAM, at a logical address -/
  | dramWrite (addr : Nat) (b : BitVec 8)
  /-- any other request of R186 (descriptor, flash, index, Exlet, security, lock, reply): its number -/
  | request (n : Nat)
deriving DecidableEq, Repr

/-- A committed half of a checkpoint log that the commit unit is applying (R187). -/
structure LogHalf where
  ctx : Nat
  lines : Nat
  effects : List Effect
deriving DecidableEq, Repr

/-- Engine roles (SCH_ENG_STS_n.ROLE). -/
inductive EngRole where
  | inService | spare | failed | untested
deriving DecidableEq, Repr

/-- An engine. -/
structure Engine where
  role : EngRole
  /-- the context it runs -/
  ctx : Option Nat
  /-- what its task window holds: a program handle, or 0 for firmware scratch (R170) -/
  window : Nat
  /-- order of its last dispatch (R184) -/
  order : Nat
  /-- the committed half being applied -/
  applying : Option LogHalf
deriving DecidableEq, Repr

/-- A command binding: handle and flag base (R174). -/
structure Binding where
  handle : Nat
  base : Nat
deriving DecidableEq, Repr

/-- The scheduler (05). -/
structure Sch where
  sliceUs : Nat
  ckptUs : Nat
  hold : Bool
  tasks : Tbl Task
  /-- current generation of each context that has been used -/
  gens : Tbl Nat
  engines : Tbl Engine
  /-- REPLACES of spares E32 to E35 -/
  replaces : Tbl Nat
  bindings : Tbl Binding
  heldCount : Nat
  orphans : Nat
  takeovers : Nat
  ctxSel : Nat
  /-- engine credit of owner 64 and its weight (R183, R357) -/
  devWeight : Nat
  devCredit : Int
  /-- the owner that the round robin served last (R183) -/
  lastOwner : Nat
  readyCounter : Int
  dispatchCounter : Nat
  epoch : Nat
  traceEnable : Bool
  traceStop : Bool
  traceFreeze : Bool
  traceOwner : Nat
  traceKinds : Nat
  traceIndex : Nat
  traceWraps : Nat
  traceDropped : Nat
  traceRidx : Nat
  trace : Tbl (List Byte)
deriving DecidableEq, Repr

/-! ### Damzu (06) -/

/-- Program states (Table 6.3); a slot not listed is FREE. -/
inductive ProgSt where
  | loaded | unloading
deriving DecidableEq, Repr

/-- A loaded Damzu program (R193, R196). -/
structure Prog where
  st : ProgSt
  inst : Nat
  gen : Nat
  code : List Byte
  const : List Byte
  scratchLen : Nat
  defBudget : Nat
  defFraming : Nat
  defFrameArg : Nat
  /-- table handles of slots 0 to TABLES - 1 -/
  tables : List Nat
  hash : BitVec 384
  unloadTag : Option Nat
deriving DecidableEq, Repr

/-- An entry of the loop stack (R209). -/
structure LoopEnt where
  first : Nat
  last : Nat
  n : Nat
  iter : Nat
deriving DecidableEq, Repr

/-- How a record's run stands. -/
inductive RecSt where
  | running
  /-- END executed; its staged output waits for the records before it (R205) -/
  | ended
  | applied
  | trapped (code : Nat)
deriving DecidableEq, Repr

/-- A Damzu worker running a record (R201 to R205, R209, R213). -/
structure Worker where
  inst : Nat
  /-- the command's tag key and program slot -/
  tag : Nat
  prog : Nat
  st : RecSt
  /-- G0 to G15 (G0 reads as zero, R202) and V0 to V3 -/
  g : List (BitVec 64)
  v : List (BitVec 256)
  pc : Nat
  loops : List LoopEnt
  /-- instructions executed in this record, and its budget -/
  count : Nat
  budget : Nat
  record : List Byte
  recIndex : Nat
  offset : Nat
  scratch : Cells
  /-- emitted bytes and counter additions staged until END (R204) -/
  emitted : List Byte
  adds : List (Nat × Nat)
  /-- searches made by IDXS in this record -/
  searches : Nat
deriving DecidableEq, Repr

/-- What a scan has gathered from its records (R204, R205, R218), by tag key. -/
structure Gather where
  counters : List Nat
  recordsIn : Nat
  recordsOut : Nat
  stream : List Byte
deriving DecidableEq, Repr

/-- Damzu programs and their runs. -/
structure Dmz where
  progs : Tbl Prog
  progGens : Tbl Nat
  workers : Tbl Worker
  gathers : Tbl Gather
deriving DecidableEq, Repr

/-! ### Index unit (07) -/

/-- A live index entry (Table 7.1); an index not listed is free. -/
structure IEntry where
  table : Nat
  key : Nat
  tag : Nat
  prio : Nat
  data : Nat
deriving DecidableEq, Repr

/-- Table attributes (Table 7.2). -/
structure ITable where
  owner : Nat
  keyBits : Nat
  matchBits : Nat
  size : Nat
  base : Nat
  hole : Nat
  gen : Nat
  /-- a background respread is under way (R238) -/
  respread : Bool
deriving DecidableEq, Repr

/-- A cursor (R233). `live` is false while the number is reserved and the reply not committed (R241). -/
structure Cursor where
  gen : Nat
  live : Bool
  table : Nat
  key : Nat
  inst : Nat
  prio : Nat
  index : Nat
  /-- commit of the reply that last took or moved it, in µs -/
  used : Nat
  /-- the tag of a step whose reply is not committed -/
  stepTag : Option Nat
  /-- the position that step will leave: none frees it -/
  next : Option (Nat × Nat)
deriving DecidableEq, Repr

/-- A request on IDX_TBL_CMD that waits for started commands (R245). -/
structure TblReq where
  op : Nat
  table : Nat
deriving DecidableEq, Repr

/-- The index unit. -/
structure Idx where
  enable : Bool
  cursorMs : Nat
  bankOk : Nat
  replaces : Nat
  searches : Nat
  corrected : Nat
  takeovers : Nat
  repeated : Nat
  cfg : Nat
  req : Option TblReq
  result : Nat
  handle : Nat
  sel : Nat
  entries : Tbl IEntry
  tables : Tbl ITable
  tblGens : Tbl Nat
  cursors : Tbl Cursor
  curGens : Tbl Nat
deriving DecidableEq, Repr

end Sys2Proof.Machine
end

