-- ==== Sys2Proof/Machine/State3.lean ====
section
/-! DEFINITION. The state of the KR-940, third part: flash management, memories and cache, instances' page logs,
Exlet and spans, supply and heat, board pins. Plain data. -/

namespace Sys2Proof.Machine

/-! ### Flash (08) -/

/-- A map entry (Table 8.4); an allotment the map does not list is unmapped (R257, R261). -/
structure MapEnt where
  poison : Nat
  packed : Bool
  die : Nat
  page : Nat
  slot : Nat
  len : Nat
deriving DecidableEq, Repr

/-- A change that a journal entry records (Table 8.9). -/
inductive JEnt where
  /-- MAP_SET of one allotment: blocks [first, first + count) of it (0 to 8) take `content` (byte 0 = first block);
  `ent` says where the allotment then lies. The other blocks keep data and poison (R260, R292) -/
  | mapSet (vol allot first count : Nat) (content : Cells) (ent : MapEnt)
  /-- MAP_MOVE with OLD and NEW (R278): the copy from superblock `src` lies in superblock `dst` -/
  | mapMove (vol allot : Nat) (old new : MapEnt) (src dst : Nat)
  /-- TRIM_RANGE of whole atomic units, or the MAP_SETs that leave whole allotments unmapped: first block and count -/
  | trimRange (vol first count : Nat)
  /-- POISON: the bits to set -/
  | poison (vol allot bits : Nat)
  | seqLimit (limit : Nat)
  | blockRetired (die block reason : Nat)
  /-- VOLUME: every allotment unmapped, the volume made (`true`) or gone -/
  | volume (vol : Nat) (made : Bool)
  /-- VOLUME: a change of the mirror set (R396, R397, R400) -/
  | mirror (vol : Nat)
  | sanitize (vol : Nat) (start : Bool)
deriving DecidableEq, Repr

/-- A journal group: the entries that take effect together (R285). `held` says its data is already visible under
write-back (R67). -/
structure Group where
  id : Nat
  held : Bool
  entries : List JEnt
deriving DecidableEq, Repr

/-- Mirror copy states (Table 11.5). -/
inductive CopySt where
  | out | resync | inSet
deriving DecidableEq, Repr

/-- A mirror role of a volume (R396 to R400). -/
structure Mirror where
  primary : Bool
  copies : Nat
  id1 : Nat
  id2 : Nat
  /-- on a copy: the primary's Span ID -/
  primaryId : Nat
  /-- states of the two copies; on a copy `st1` is its own -/
  st1 : CopySt
  st2 : CopySt
  /-- the pass over copy 1 or 2 has been sent and waits for its acknowledgements -/
  sent1 : Bool
  sent2 : Bool
deriving DecidableEq, Repr

/-- A volume (R299). -/
structure Vol where
  capacity : Nat
  compress : Bool
  access : Nat
  /-- the create's reply is committed: the volume serves commands (R299) -/
  serves : Bool
  /-- key epoch and the LC under which the key is wrapped (R128, R130) -/
  epoch : Nat
  lc : Nat
  /-- the wrapped key in the system area, and whether it passes its tag (R128) -/
  key : BitVec 512
  keyGood : Bool
  /-- what reads deliver, by byte address; and what survives a power loss -/
  data : Cells
  durable : Cells
  map : Tbl MapEnt
  mapDurable : Tbl MapEnt
  exported : Bool
  /-- VOLUME_DELETE has destroyed it; it goes at the commit of that reply (R300) -/
  deleted : Bool
  mirror : Option Mirror
deriving DecidableEq, Repr

/-- A run of poisoned blocks (log 0x0003, R293). -/
structure PoisonRun where
  vol : Nat
  first : Nat
  count : Nat
  seq : Nat
deriving DecidableEq, Repr

/-- A health log entry (Table 8.16); seq is taken when it gets its number. -/
structure HEntry where
  seq : Nat
  kind : Nat
  time : Nat
  cycle : Nat
  inst : Nat
  vol : Nat
  unit : Nat
  lba : Nat
  count : Nat
  detail : List Byte
deriving DecidableEq, Repr

/-- A die (R251, R252, R294 to R296). -/
structure Die where
  present : Bool
  refused : Bool
  retired : Bool
  part : Nat
  cls : Nat
  capGib : Nat
  blocks : Nat
  /-- erases since new by block, in twentieths (R294) -/
  wear : Tbl Nat
  freeBlocks : Nat
  /-- retired blocks -/
  retiredBlocks : Nat
  /-- consecutive operations past the timeout -/
  timeouts : Nat
  /-- relocation of a retired die under way -/
  rebuilding : Bool
  /-- allotments of it relocated so far -/
  relocated : Nat
  /-- read offset last found good (R273) -/
  offset : Nat
  /-- reads since the erase, by block (R290) -/
  reads : Tbl Nat
deriving DecidableEq, Repr

/-- Channel states (FLC_STS_n.STATE). -/
inductive ChSt where
  | absent | training | inService | shed | evacuating | evacuated | released | failed
deriving DecidableEq, Repr

/-- A flash channel (Table 8.20). -/
structure Chan where
  st : ChSt
  rate : Nat
  patrolEn : Bool
  retrain : Bool
  trainCount : Nat
  trainTemp : Nat
  trainAt : Nat
  lastRetrain : Nat
  /-- a retraining under way began at, with its trigger -/
  retraining : Option (Nat × Nat)
  decodes : Nat
  softCnt : Nat
  retryCnt : Nat
  rebuilt : Nat
  lost : Nat
  progFails : Nat
  eraseFails : Nat
  svcOp : Nat
  progress : Nat
  result : Nat
  dieSel : Nat
deriving DecidableEq, Repr

/-- States of a superblock (Table 8.8), and OPEN for one being written. ERASE_WAIT is COPYING with no allotment left. -/
inductive SbSt where
  | opened | closed | copying | verifying | journaling | erasing
deriving DecidableEq, Repr

/-- A superblock (R265): its blocks as (die, block), its referenced allotments, read pins. -/
structure Superblock where
  st : SbSt
  slc : Bool
  blocks : List (Nat × Nat)
  refs : List (Nat × Nat)
  /-- orders of the reads that resolved a map entry to it before the entry moved (R279) -/
  pins : List Nat
  /-- when it was last written, in µs -/
  written : Nat
  /-- blocks of it still to erase in ERASING -/
  toErase : List (Nat × Nat)
deriving DecidableEq, Repr

/-- A sanitize under way: volume or 0xFFFF, method (R302, R303). -/
structure Sanit where
  vol : Nat
  method : Nat
  /-- the group of its start entry, and whether the volumes are unmapped -/
  start : Nat
  unmapped : Bool
deriving DecidableEq, Repr

/-- Lifetime counters of Table 8.15. -/
structure Life where
  hostWritten : Nat
  /-- pages programmed, 16 KiB each -/
  mediaWritten : Nat
  hostRead : Nat
  recovered : Nat
  lost : Nat
  programFails : Nat
  eraseFails : Nat
  powerCycles : Nat
  unsafeShutdowns : Nat
  powerOnS : Nat
  /-- when the last complete patrol pass ended, in µs -/
  patrolAt : Nat
deriving DecidableEq, Repr

/-- Flash management. -/
structure Flc where
  channels : Tbl Chan
  dies : Tbl Die
  vols : Tbl Vol
  /-- last key epoch of each volume number (R128) -/
  epochs : Tbl Nat
  superblocks : Tbl Superblock
  /-- U in 4 KiB blocks, W, WB in per cent (R262, R266) -/
  usable : Nat
  stripeW : Nat
  wbPct : Nat
  /-- initial spare blocks and spare blocks left -/
  spareInit : Nat
  spareLeft : Nat
  /-- warnings already raised: SPARE_LOW, WEAR 80, WEAR 100 -/
  warned : Nat
  readOnly : Bool
  /-- U' in blocks (R297) -/
  usableReduced : Nat
  /-- free space of the write buffer in per cent; data goes straight to dense superblocks (R268) -/
  wbFreePct : Nat
  denseDirect : Bool
  /-- fold and GC run at priority 5 (R271) -/
  gcRaised : Bool
  denseFreePct : Nat
  /-- journal: next page sequence, groups not durable, next group number, clean mark (R283 to R286) -/
  pageSeq : Nat
  groups : List Group
  nextGroup : Nat
  clean : Bool
  /-- dirty map segments, numbered vol * 2^32 + allotment / 524288, with the page sequence they last included -/
  dirty : List Nat
  segSeq : Tbl Nat
  sanitizing : List Sanit
  runs : List PoisonRun
  retiredList : List (Nat × Nat × Nat)
  /-- blocks that R290 or R291 has refreshed: (die, block) -/
  toRefresh : List (Nat × Nat)
  softOk : Nat
  softReplaces : Nat
  life : Life
  /-- health log: entries written to flash, entries numbered but not written (R306), entries waiting for a number (R27) -/
  log : List HEntry
  logPending : List HEntry
  logWaiting : List HEntry
  /-- write-back bytes held (R67, R421) -/
  heldBytes : Nat
deriving DecidableEq, Repr

/-! ### Memories and cache (09) -/

/-- A remap of a Hogshead granule or Firkin line (R319, R321). -/
structure Remap where
  unit : Nat
  line : Nat
  factory : Bool
deriving DecidableEq, Repr

/-- A repair made in service (Table 9.4). -/
structure Repair where
  kind : Nat
  unit : Nat
  address : Nat
  seq : Nat
deriving DecidableEq, Repr

/-- SRAM: contents, errors as the flipped code positions of a byte, 0 to 12 (R310), banks and remaps. -/
structure Mem where
  sramScrubEn : Bool
  dramScrubEn : Bool
  sramPeriod : Nat
  dramPeriod : Nat
  hog : Cells
  hogErr : Tbl (List Nat)
  /-- Firkins: engine * 2^19 + offset -/
  firkin : Cells
  firkinErr : Tbl (List Nat)
  /-- engines that a 33rd bad line retires at their next checkpoint, and the interruption in ns (R321) -/
  retiring : List (Nat × Nat)
  /-- bit k: bank k in service or standing spare -/
  bankOk : Nat
  bank32 : Nat
  bank33 : Nat
  twinBase : Nat
  twinSize : Nat
  remaps : Tbl Remap
  /-- Firkin line 32 e + j -/
  firkinRemaps : Tbl Remap
  remapSel : Nat
  /-- the remap store failed Scruple: it takes no entries (R340) -/
  remapFailed : Bool
  corrected : Nat
  uncorrectable : Nat
  sramPassAt : Nat
  dramPassAt : Nat
  lastAddr : Nat
  lastSource : Nat
  lastUnit : Nat
  lastKind : Nat
  injAddr : Nat
  injArm : Bool
  injTarget : Nat
  injMode : Nat
  injEngine : Nat
  injA : Nat
  injB : Nat
  /-- repairs not yet written to the system area, and those written (R322) -/
  repairs : List Repair
  learned : List Repair
  /-- uncorrectable errors per bank within the last 10 ms: (bank, granule, time) (R320) -/
  recent : List (Nat × Nat × Nat)
deriving DecidableEq, Repr

/-- A cache line: its line number (logical address / 128); injected bit errors in data and tag; in the side buffer,
whether a demand hit has used it. -/
structure CLine where
  line : Nat
  dataErr : List Nat := []
  tagErr : List Nat := []
  used : Bool := false
deriving DecidableEq, Repr

/-- A write-buffer entry: line number, bytes written, bytes enabled (R332). -/
structure WEntry where
  line : Nat
  bytes : Cells
  enables : List Nat
deriving DecidableEq, Repr

/-- A prefetch stream: class, last missed line, and whether its next lines are still to be fetched (R333). -/
structure Stream where
  cls : Nat
  line : Nat
  due : Bool
deriving DecidableEq, Repr

/-- The cache (09). -/
structure Cch where
  enable : Bool
  enabled : Bool
  prefetchEn : Bool
  pfDepth : Nat
  /-- ENABLE 1 written during a disable (R336) -/
  enableWaits : Bool
  wayPwr : Nat
  waySts : Nat
  masks : List Nat
  /-- valid lines, set * 16 + way -/
  lines : Tbl CLine
  /-- node bits 1 to 15 of each set -/
  plru : Tbl Nat
  victims : List CLine
  side : List CLine
  wbuf : List WEntry
  streams : List Stream
  /-- last missed line of each class -/
  lastMiss : Tbl Nat
  /-- fills under way: the line and the way kept for it, if any -/
  fills : List (Nat × Option Nat)
  hits : Nat
  misses : Nat
  promoted : Nat
  discarded : Nat
  victimHits : Nat
  parityData : Nat
  parityTag : Nat
  /-- parity errors by way and time (R407 code 16) -/
  parityTimes : List (Nat × Nat)
deriving DecidableEq, Repr

/-- DRAM side states (DRC_STS). -/
inductive SideSt where
  | absent | training | inService | shed | failed | selfRefresh
deriving DecidableEq, Repr

/-- One DRAM side: contents by side offset, errors as flipped code positions of a granule (R311), counters. -/
structure Side where
  st : SideSt
  mib : Nat
  cells : Cells
  /-- flipped code positions of granule (offset / 64) -/
  errs : Tbl (List Nat)
  corrected : Nat
  uncorrectable : Nat
  poisonWritten : Nat
  trainCount : Nat
  trainTemp : Nat
  trainAt : Nat
  lastRetrain : Nat
  retrain : Bool
  retraining : Option (Nat × Nat)
  /-- writes logged while the side is shed, to be replayed (R426) -/
  logged : List (Nat × BitVec 8)
  /-- uncorrectable granules within the last 10 ms: (granule, time) (R328) -/
  recent : List (Nat × Nat)
deriving DecidableEq, Repr

/-- DRAM (R325 to R328). -/
structure Drc where
  a : Side
  b : Side
  rate : Nat
  mirrorMib : Nat
  rmw : Nat
  mirrorRepairs : Nat
deriving DecidableEq, Repr

/-! ### Page logs and the manager's registers (10) -/

/-- A page log (R366 to R369). -/
structure PLog where
  enable : Bool
  inst : Nat
  sizeLog2 : Nat
  base : Nat
  head : Nat
  tail : Nat
  phase : Bool
  marker : Nat
  stalls : Nat
  /-- pages whose entry was written since the last marker (at most 512) -/
  remembered : List Nat
  /-- pages written whose entry is still to be written -/
  owed : List Nat
  /-- SYNCs that wait, oldest first: the entries still owed before each -/
  syncs : List Nat
  /-- the entry owed next has been counted in STALLS -/
  stalled : Bool
deriving DecidableEq, Repr

/-- The MGR block's own registers. -/
structure Mgr where
  priv : Bool
  instSel : Nat
  volSel : Nat
  ack : Nat
  out : Cells
  migAddr : Nat
  migResult : Nat
  logs : Tbl PLog
deriving DecidableEq, Repr

/-! ### Exlet and spans (11) -/

/-- A flit (Table 11.2). LSEQ, LACK and CRC belong to the link it is on. -/
structure Flit where
  type : Nat
  last : Bool
  resent : Bool
  leaving : Bool
  dest : Nat
  origin : Nat
  hops : Nat
  lseq : Nat
  lack : Nat
  lackValid : Bool
  originSeq : Nat
  xid : Nat
  index : Nat
  budget : Nat
  payload : List Byte
  /-- the model's own note: the port the flit came by, `none` when it was made here (R382) -/
  came : Option Nat := none
deriving DecidableEq, Repr

/-- Port states (Table 11.4). -/
inductive PortSt where
  | disabled | training | hello | active | down | conflict
deriving DecidableEq, Repr

/-- An Exlet port. -/
structure EPort where
  st : PortSt
  neighbour : Nat
  nbPort : Nat
  /-- next LSEQ to send, LSEQ expected, and whether one good flit has come -/
  txSeq : Nat
  rxSeq : Nat
  rxValid : Bool
  nakSent : Bool
  /-- sequenced flits not acknowledged, oldest first (at most 128) -/
  retry : List Flit
  /-- sequenced flits waiting because the retry buffer is full -/
  waiting : List Flit
  crcErr : Nat
  resends : Nat
  flits : Nat
  downs : Nat
  /-- when the port entered its state or began its last attempt, in µs -/
  since : Nat
deriving DecidableEq, Repr

/-- A membership entry (R384). -/
structure Member where
  deviceId : Nat
  group : Nat
  portStates : Nat
  originSeq : Nat
  /-- last ANNOUNCE, in µs -/
  since : Nat
deriving DecidableEq, Repr

/-- An alias binding of a volume number (R389). -/
structure Alias where
  homeId : Nat
  homeVol : Nat
  bind : Bool
  bound : Bool
  probeErr : Nat
  /-- XID of the PROBE under way -/
  probeXid : Nat
  capacity : Nat
  compress : Bool
  access : Nat
deriving DecidableEq, Repr

/-- A transaction originated here (R390), keyed by XID. -/
structure Xact where
  tag : Nat
  home : Nat
  pairSeq : Nat
  /-- time at which the budget passes; sent at; last flit received, in µs -/
  deadline : Nat
  sentAt : Nat
  lastRx : Nat
  /-- a port state change was announced since the REQ was sent (R392) -/
  portChange : Bool
  resent : Bool
  /-- CANCEL sent at (R395) -/
  cancelAt : Option Nat
  /-- payloads of the REQ: its first flit and the bytes that follow -/
  first : List Byte
  rest : List Byte
deriving DecidableEq, Repr

/-- A message served here (R390, R394, R398), keyed origin * 2^32 + XID. -/
structure Served where
  /-- a MIRROR_WRITE, not a REQ -/
  mirror : Bool
  pairSeq : Nat
  /-- payloads of the message in order: the packet first, then data -/
  request : List Byte
  body : List Byte
  /-- its work is done and its answer decided; the answer goes out once `groups` are durable -/
  reply : Option Reply
  groups : List Nat
  /-- time at which the budget passes; 0 for none -/
  deadline : Nat
deriving DecidableEq, Repr

/-- A mirrored write waiting for acknowledgements: the write's tag and the copies still to answer (R398). -/
structure MWait where
  xid : Nat
  tag : Nat
  vol : Nat
  /-- Span IDs of the copies that have not acknowledged -/
  waiting : List Nat
  sentAt : Nat
deriving DecidableEq, Repr

/-- The span (11). -/
structure Spn where
  spanId : Nat
  group : Nat
  /-- JOINED: a SPAN_JOIN has completed -/
  joined : Bool
  /-- a SPAN_LEAVE under way: its tag -/
  leaving : Option Nat
  hopLimit : Nat
  graceUs : Nat
  gapUs : Nat
  dfltPort : Nat
  dfltAlt : Nat
  dfltValid : Bool
  /-- Furlong ranges (LO, HI) and attributes (PORT, ALT, VALID), 64 of each, unlisted = reset -/
  ranges : Tbl (Nat × Nat)
  attrs : Tbl (Nat × Nat × Bool)
  ports : Tbl EPort
  members : Tbl Member
  /-- last ORIGIN_SEQ recorded per origin, kept for R384 -/
  volSel : Nat
  aliases : Tbl Alias
  nextXid : Nat
  /-- next PAIR_SEQ to each home; next PAIR_SEQ expected from each origin -/
  pairTx : Tbl Nat
  pairRx : Tbl Nat
  xacts : Tbl Xact
  served : Tbl Served
  /-- kept RESPs, oldest first: key, payload (R393) -/
  kept : List (Nat × List Byte)
  /-- REQs that wait for a missing PAIR_SEQ, and since when, by origin -/
  gapWait : Tbl Nat
  mwaits : List MWait
  /-- next PAIR_SEQ of MIRROR_WRITEs applied here, by primary -/
  mirrorRx : Tbl Nat
  timeouts : Nat
  unreachable : Nat
  drops : Nat
  reqResent : Nat
  /-- when the last ANNOUNCE was flooded; when the SPAN_JOIN under way started -/
  announcedAt : Nat
  joinedAt : Nat
  /-- delivered flits whose message is not yet handled, with the port they came by (3: made here) -/
  inbox : List (Nat × Flit)
  /-- the tag of a SPAN_JOIN under way -/
  joining : Option Nat
  /-- the 256 bytes of each flit handed to the lanes, with its port, oldest first: the model's observation -/
  wire : List (Nat × List Byte)
deriving DecidableEq, Repr

/-! ### Stage descriptors (01) -/

/-- The stage descriptor of a unit (Table 1.3), keyed tag key * 2^32 + unit. TAG and INSTANCE are in the key. -/
structure UnitDesc where
  stages : Nat
  /-- number of the stage bit that runs next; 0xFF when the unit is finished -/
  next : Nat
  format : Nat
  status : Nat
  retry : Nat
  inBuf : Nat
  inLen : Nat
  outBuf : Nat
  outLen : Nat
  xtsKey : Nat
  gcmKey : Nat
  sealSession : Nat
  chunk : Nat
  tweak : Nat
  crcVec : Nat
  program : Nat
  intakeSeq : Nat
  codecCtx : Nat
  deadline : Nat
  /-- the present buffer is marked protected (R122) -/
  isProtected : Bool
  /-- the GCM tag has failed once (R88) -/
  reread : Bool
deriving DecidableEq, Repr

/-! ### Supply, heat, availability (12) and board (14) -/

/-- Supply states (Table 12.5). -/
inductive SupSt where
  | normal | warning | recovering | flush | flushed
deriving DecidableEq, Repr

/-- Sensor states (R428), and its counts. -/
structure Sensor where
  state : Nat
  temp : Int
  failed : Bool
  /-- consecutive samples at or above each higher limit (states 1 to 4), and below the down limit -/
  ups : List Nat
  downs : Nat
  bad : Nat
  good : Nat
deriving DecidableEq, Repr

/-- Supply and heat (Table 12.12). -/
structure Pwr where
  supply : SupSt
  pwrFail : Bool
  holdupRdy : Bool
  faultSts : Nat
  faultMask : Nat
  dips : Nat
  lastRail : Nat
  dipLast : Nat
  holdup : Nat
  flushDone : Bool
  flushUs : Nat
  flushAt : Nat
  /-- a PWR_FAIL_N deassertion that waits for the flush (R420) -/
  deassertWaits : Bool
  retrainFlash : Nat
  retrainDram : Nat
  tlimDie : List Nat
  tlimExt : Tbl (List Nat)
  /-- MIN_MV and MV of each rail; below-warning flags -/
  rails : Tbl (Nat × Nat)
  below : Nat
  /-- the dip under way: first rail, its start, its lowest voltage, SUPPLY_LONG raised; dwell start -/
  dipRail : Nat
  dipStart : Nat
  dipMv : Nat
  dipLong : Bool
  dwellAt : Nat
  /-- PWR_EXT_CFG_k: (CH_MASK, PARAM, TYPE) -/
  extCfg : Tbl (Nat × Nat × Nat)
  sensors : Tbl Sensor
  capActive : Bool
  capLevel : Nat
  /-- when the power cap was last estimated, and when the spares were last tested (R410, R432) -/
  capAt : Nat
  spareCheckAt : Nat
  /-- checked pairs running single (bit k), R408 -/
  pairsSingle : Nat
  /-- host ports that have failed unpaired (bit p) -/
  portsDown : Nat
deriving DecidableEq, Repr

/-- A host port (Table 14.8, R462). -/
structure HPort where
  linkUp : Bool
  pm : Nat
  width : Nat
  speed : Nat
  reversed : Bool
  polarity : Nat
  sris : Bool
  replays : Nat
  rxErrors : Nat
  failures : Nat
  recoveries : Nat
  perst : Bool
  d3hot : Bool
  /-- MSI-X messages held in D3hot or while the link is down -/
  heldMsix : List Nat
deriving DecidableEq, Repr

/-- Host interface, board pins, JTAG, SMBus. -/
structure Hif where
  paired : Bool
  port0 : HPort
  port1 : HPort
  gpioOut : Nat
  gpioMode : Nat
  gpioIn : Nat
  /-- level of the ACTIVITY square wave (R471) -/
  activity : Bool
  /-- time of the last toggle of that wave -/
  activityAt : Nat
  wbAllow : Bool
  locked : Nat
  malformed : Nat
  hostErrors : Nat
  /-- MSI-X table contents of each function -/
  msixTable0 : Cells
  msixTable1 : Cells
  /-- vectors signalled, oldest first: (port, vector): the model's observation -/
  msix : List (Nat × Nat)
  /-- data of the last register read and the last SMBus answer (`none`: NACK) -/
  readData : List Byte
  smbus : Option (List Byte)
  /-- SMBus address strap bits -/
  smba : Nat
  jtagIr : Nat
  jtagOut : Nat
  /-- boundary register: what SAMPLE captured, what PRELOAD loaded, and whether the pins are driven from it or float -/
  boundary : List Byte
  preload : List Byte
  pinsDriven : Bool
  pinsFloat : Bool
  straps : Nat
deriving DecidableEq, Repr

end Sys2Proof.Machine
end

