-- ==== Sys2Proof/Machine/Reset.lean ====
section
/-! DEFINITION. The reset value of every block: the values of Tables 15.4 to 15.12 where the spec gives one, and
otherwise the value that log entry 4 names. A power-on reset (R437) builds its state from these too. -/

namespace Sys2Proof.Machine

/-- The reply ring of a window (R37), `size` its SIZE_LOG2 at reset: 9, or 6 for a slice (R498). -/
def resetRing (size : Nat) : Ring :=
  { base := 0, enable := false, sizeLog2 := size, head := 0, tail := 0, phase := true, headRefused := false
    cfgRefused := false, refused := 0, evtLost := 0, evtQ := [], irqEnable := false, coalTime := 0, coalCount := 0
    unsignalled := 0, coalStart := 0, pending := false, lastSeq := 0, served := 0 }

/-- Three numbers alike. -/
def three (n : Nat) : Three := { engine := n, codec := n, flash := n }

/-- The share of a new instance: weight and cap as given (R346, R357). -/
def resetShare (weight cap : Three) : Share :=
  { weight := weight, cap := cap, nextWeight := weight, nextCap := cap, credit := [0, 0, 0], used := three 0
    excess := three 0, lastUse := three 0 }

/-- An empty mailbox. -/
def resetMbox : Mbox :=
  { out := [], inn := [], pend := false, noteTag := 0, noteLen := 0, deliv := false, msgLen := 0, word := 0 }

/-- The features at their defaults (Tables 2.8, 3.8, R404, R432). -/
def resetFeat : Feat :=
  { writeBack := false, spanBudget := 10000, eventMask := 0xFFFF, codecContexts := 8, shrinkMargin := 1
    spanResend := 200, powerCap := 19, alertLevel := 1 }

/-- Instance 0 after reset (R343, R439, Table 10.9): the manager's window (log entry 4). -/
def resetInst0 : Inst :=
  { st := .active, slice := false, pasid := 0, vecBase := 0, vecCount := 32, port := 0, sliceWin := 0, rights := 0xF
    drain := false, fenced := false, slots := [], ring := resetRing 9, share := resetShare (three 64) (three 0)
    mbox := resetMbox, feat := resetFeat }

/-- BSH after reset (Table 15.7) (log entry 4). -/
def resetBsh : Bsh :=
  { enable := true, deflateEn := true, zstdEn := true, dOk := 0, cOk := 0, dReplaced := 0xFF, cReplaced := 0xFF
    dOut := [], cIn := [], dataErr := 0, limitErr := 0, ctxs := [], packages := [] }

/-- SEC after reset (Table 15.8) (log entry 4). -/
def resetSec : Sec :=
  { progSigReq := false, tenantAttest := true, lock := false, entropyFail := false, drbgReady := false
    ladderBlocked := false, debugOpened := false, scope := 0, rmaPermit := false, commitBusy := false
    commitFail := false, aesOk := 0, shaOk := 0, pkOk := 0, a10Replaces := 0xFF, a11Replaces := 0xFF
    pk1Replaces := 0xFF, authFail := 0, licenceRefused := 0, unlockRefused := 0, reseeds := 0, healthFails := 0
    generates := 0, retests := 0, retestAt := 0, challenge := 0, unlockWords := [], unlockResult := 0
    licences := [], licGens := [], seals := [], sealGens := [], volKeys := [], revSequence := 0, revEntries := [] }

/-- OTP registers after reset over a given array (Table 13.7) (log entry 4). -/
def resetOtp (fuses : Cells) : Otp :=
  { fuses := fuses, sel := 0, words := [], result := 0, readAddr := 0, porRequired := false, ladderLc := 0, won := [] }

/-- No latch before any read of a LO register (R490). -/
def resetLatch : Latch := { seqHi := 0, timeHi := 0, recovHi := 0 }

/-- No image. -/
def noImage : Image :=
  { fwVersion := 0, svn := 0, debugBuild := false, evaluatedBuild := false, measurement := 0, len := 0, bytes := [] }

/-- GLB after reset (Table 13.7); `limit` is the last durable limit of the sequence counter, at which R27 starts it,
so that the current value is L - 1 (R23) and no number can be taken before a new limit is durable (log entry 4). -/
def resetGlb (limit cause arrangement : Nat) : Glb :=
  { stage := 0, arrangement := arrangement, unclean := false, bootSrc := 0, shutdown := false
    cause := cause, fails := 0, candidate := 0xFF, rootCopy := 0, configMs := 0, readyMs := 0
    seq := (seqMod + limit - 1) % seqMod, seqLimit := limit, seqJournaled := limit, recovAddr := 0, recovLen := 0
    recovResult := 0, latch0 := resetLatch, latch1 := resetLatch, held := false, ended := false, resetTag := none
    running := noImage, stored := noImage, staged := none, pieces := [], stagedBytes := 0 }

/-- DBG after reset (log entry 4). -/
def resetDbg : Dbg := { addr := 0, data := 0 }

/-- CLK after reset (Tables 1.8 to 1.11) (log entry 4). -/
def resetClk : Clk :=
  { stbyEn := true, autoSwitch := true, rootReq := false, switchCount := 0, refOk0 := false, refOk1 := false
    lock0 := false, lock1 := false, rootActive := false, gate := 0, stopped := 0, lostAt0 := 0, lostAt1 := 0
    rootPending := false }

/-- SCH after reset (Table 15.7): SLICE_US 20 and CKPT_US 16, the trace filter taking every owner and kind (log entry 4). -/
def resetSch : Sch :=
  { sliceUs := 20, ckptUs := 16, hold := false, tasks := [], gens := [], engines := [], replaces := [], bindings := []
    heldCount := 0, orphans := 0, takeovers := 0, ctxSel := 0, devWeight := 256, devCredit := 0, lastOwner := 64
    readyCounter := 0, dispatchCounter := 0, epoch := 0, traceEnable := true, traceStop := false, traceFreeze := false
    traceOwner := 0x7F, traceKinds := 0x7FFF, traceIndex := 0, traceWraps := 0, traceDropped := 0, traceRidx := 0
    trace := [] }

/-- No program and no worker (log entry 4). -/
def resetDmz : Dmz := { progs := [], progGens := [], workers := [], gathers := [] }

/-- IDX after reset (Table 15.8) (log entry 4). -/
def resetIdx : Idx :=
  { enable := true, cursorMs := 100, bankOk := 0, replaces := 0xFF, searches := 0, corrected := 0, takeovers := 0
    repeated := 0, cfg := 0, req := none, result := 0, handle := 0, sel := 0, entries := [], tables := []
    tblGens := [], cursors := [], curGens := [] }

/-- No lifetime count yet (a part before its first start-up). -/
def resetLife : Life :=
  { hostWritten := 0, mediaWritten := 0, hostRead := 0, recovered := 0, lost := 0, programFails := 0, eraseFails := 0
    powerCycles := 0, unsafeShutdowns := 0, powerOnS := 0, patrolAt := 0 }

/-- A flash channel before start-up: STATE 0, PATROL_EN 1 (Table 15.9). -/
def resetChan : Chan :=
  { st := .absent, rate := 0, patrolEn := true, retrain := false, trainCount := 0, trainTemp := 0, trainAt := 0
    lastRetrain := 0, retraining := none, decodes := 0, softCnt := 0, retryCnt := 0
    rebuilt := 0, lost := 0, progFails := 0, eraseFails := 0, svcOp := 0, progress := 0, result := 0, dieSel := 0 }

/-- The flash of a part with nothing fitted or formatted (log entry 4). -/
def resetFlc : Flc :=
  { channels := [], dies := [], vols := [], epochs := [], superblocks := [], usable := 0, stripeW := 0, wbPct := 0
    spareInit := 0, spareLeft := 0, warned := 0, readOnly := false, usableReduced := 0, wbFreePct := 100
    denseDirect := false, gcRaised := false, denseFreePct := 100, pageSeq := 0, groups := [], nextGroup := 1
    clean := false, dirty := [], segSeq := [], sanitizing := [], runs := [], retiredList := [], toRefresh := [], softOk := 0
    softReplaces := 0xFF, life := resetLife, log := [], logPending := [], logWaiting := [], heldBytes := 0 }

/-- MEM after reset (Table 15.8): both scrubbers on, their periods 64 and 60 (log entry 4). -/
def resetMem : Mem :=
  { sramScrubEn := true, dramScrubEn := true, sramPeriod := 64, dramPeriod := 60, hog := [], hogErr := [], firkin := []
    firkinErr := [], retiring := [], bankOk := 0, bank32 := 0xFF, bank33 := 0xFF, twinBase := 0, twinSize := 0, remaps := []
    firkinRemaps := [], remapSel := 0, remapFailed := false, corrected := 0, uncorrectable := 0, sramPassAt := 0, dramPassAt := 0
    lastAddr := 0, lastSource := 0, lastUnit := 0, lastKind := 0, injAddr := 0, injArm := false, injTarget := 0
    injMode := 0, injEngine := 0, injA := 0, injB := 0, repairs := [], learned := [], recent := [] }

/-- CCH after reset (Table 15.8) (log entry 4). -/
def resetCch : Cch :=
  { enable := true, enabled := false, prefetchEn := true, pfDepth := 2, enableWaits := false, wayPwr := 0, waySts := 0
    masks := [0xFFFF, 0xFFFF, 0xFFFF, 0xFFFF], lines := [], plru := [], victims := [], side := [], wbuf := []
    streams := [], lastMiss := [], fills := [], hits := 0, misses := 0, promoted := 0, discarded := 0, victimHits := 0
    parityData := 0, parityTag := 0, parityTimes := [] }

/-- A DRAM side before training. -/
def resetSide : Side :=
  { st := .absent, mib := 0, cells := [], errs := [], corrected := 0, uncorrectable := 0
    poisonWritten := 0, trainCount := 0, trainTemp := 0, trainAt := 0, lastRetrain := 0, retrain := false
    retraining := none, logged := [], recent := [] }

/-- DRC after reset (log entry 4). -/
def resetDrc : Drc := { a := resetSide, b := resetSide, rate := 0, mirrorMib := 0, rmw := 0, mirrorRepairs := 0 }

/-- A page log after reset: SIZE_LOG2 9 (Table 15.6). -/
def resetPLog : PLog :=
  { enable := false, inst := 0, sizeLog2 := 9, base := 0, head := 0, tail := 0, phase := true, marker := 0, stalls := 0
    remembered := [], owed := [], syncs := [], stalled := false }

/-- MGR after reset: PRIV 1 (Table 15.6) (log entry 4). -/
def resetMgr : Mgr :=
  { priv := true, instSel := 0, volSel := 0, ack := 0, out := [], migAddr := 0, migResult := 0, logs := [] }

/-- An Exlet port after reset: DISABLED (R439). -/
def resetEPort : EPort :=
  { st := .disabled, neighbour := 0, nbPort := 0, txSeq := 0, rxSeq := 0, rxValid := false, nakSent := false
    retry := [], waiting := [], crcErr := 0, resends := 0, flits := 0, downs := 0, since := 0 }

/-- SPN after reset (Table 15.9): HOP_LIMIT 256, MIRROR_GRACE_US 1000, GAP_US 200, default entry (3, 3, invalid)
(log entry 4). -/
def resetSpn : Spn :=
  { spanId := 0, group := 0, joined := false, leaving := none, hopLimit := 256, graceUs := 1000, gapUs := 200
    dfltPort := 3, dfltAlt := 3, dfltValid := false, ranges := [], attrs := []
    ports := [(0, resetEPort), (1, resetEPort), (2, resetEPort)], members := [], volSel := 0, aliases := []
    nextXid := 0, pairTx := [], pairRx := [], xacts := [], served := [], kept := [], gapWait := [], mwaits := []
    mirrorRx := [], timeouts := 0, unreachable := 0, drops := 0, reqResent := 0, announcedAt := 0, joinedAt := 0
    inbox := [], joining := none, wire := [] }

/-- PWR after reset (Table 15.10) (log entry 4). -/
def resetPwr : Pwr :=
  { supply := .normal, pwrFail := false, holdupRdy := false, faultSts := 0, faultMask := 0x3F, dips := 0
    lastRail := 0xFF, dipLast := 0, holdup := 0, flushDone := false, flushUs := 0, flushAt := 0
    deassertWaits := false, retrainFlash := 0, retrainDram := 0, tlimDie := [95, 100, 104, 110], tlimExt := []
    rails := [], below := 0, dipRail := 0, dipStart := 0, dipMv := 0, dipLong := false, dwellAt := 0, extCfg := []
    sensors := [], capActive := false, capLevel := 0, capAt := 0, spareCheckAt := 0, pairsSingle := 0, portsDown := 0 }

/-- A host port after reset: its link down, PERST_N asserted (R440). -/
def resetHPort : HPort :=
  { linkUp := false, pm := 0, width := 0, speed := 0, reversed := false, polarity := 0, sris := false, replays := 0
    rxErrors := 0, failures := 0, recoveries := 0, perst := true, d3hot := false, heldMsix := [] }

/-- HIF and board after reset (log entries 4, 115). -/
def resetHif (straps smba : Nat) : Hif :=
  { paired := false, port0 := resetHPort, port1 := resetHPort, gpioOut := 0, gpioMode := 0, gpioIn := 0
    activity := false, activityAt := 0, wbAllow := false, locked := 0, malformed := 0, hostErrors := 0, msixTable0 := []
    msixTable1 := [], msix := [], readData := [], smbus := none, smba := smba, jtagIr := 1, jtagOut := 0
    boundary := [], preload := [], pinsDriven := false, pinsFloat := false, straps := straps }

end Sys2Proof.Machine
end

