-- ==== Sys2Proof/Machine/State.lean ====
section
/-! DEFINITION. The state of the whole part, the reasons a step can stop, and the state after reset. -/

namespace Sys2Proof.Machine

/-- The state of the KR-940 (INVENTORY.md lists it piece by piece), the host memory it reads and writes as a bus
master, and the queue of commands that wait. -/
structure State where
  glb : Glb
  clk : Clk
  hif : Hif
  mgr : Mgr
  otp : Otp
  dbg : Dbg
  pwr : Pwr
  bsh : Bsh
  sec : Sec
  sch : Sch
  dmz : Dmz
  idx : Idx
  flc : Flc
  mem : Mem
  cch : Cch
  drc : Drc
  spn : Spn
  /-- busy tags, keyed instance * 256 + tag; a tag that is not listed is FREE (Table 2.11) -/
  tags : Tbl Tag
  /-- the range-lock table, held and waited for (R61, R62), in order of the request -/
  locks : List Lock
  /-- the instances that are not ABSENT (Table 10.1) -/
  insts : Tbl Inst
  /-- stage descriptors of units under way (R14) -/
  units : Tbl UnitDesc
  /-- how many posts the device has accepted (R39) -/
  acceptCount : Nat
  /-- host memory, keyed PASID * 2^64 + address -/
  hostMem : Cells
  /-- the timebase: µs since POR (R455) -/
  now : Nat
  /-- the model's own field: number of the next free value (log entry 5) -/
  fresh : Nat
  /-- the model's own field: the commands that wait, first in, first out -/
  pending : List Instr
deriving DecidableEq, Repr

/-- No command of the part ends in a fault: the part answers every access and every event with an effect its spec
gives (an unlisted address reads 0 and discards writes, R36, R487). The type has no constructor, so no step can raise
one. Safe. -/
inductive Fault where
deriving DecidableEq, Repr

/-- Why a step has no meaning. -/
inductive Refusal where
  /-- raised by an arm of `exec` for a command whose meaning is not written: safe, the model says nothing of it -/
  | notModelled (mnemonic : String)
deriving DecidableEq, Repr

/-- The part right after a power-on reset of a part that has never been programmed: a blank fuse array, no flash
fitted, STAGE 0 (R437, R439, R440, R495). The queue is empty. -/
def State.reset : State :=
  { glb := resetGlb 0 1 0, clk := resetClk, hif := resetHif 0 0, mgr := resetMgr, otp := resetOtp [], dbg := resetDbg
    pwr := resetPwr, bsh := resetBsh, sec := resetSec, sch := resetSch, dmz := resetDmz, idx := resetIdx
    flc := resetFlc, mem := resetMem, cch := resetCch, drc := resetDrc, spn := resetSpn, tags := [], locks := []
    insts := [(0, resetInst0)], units := [], acceptCount := 0, hostMem := [], now := 0, fresh := 0, pending := [] }

end Sys2Proof.Machine
end

