-- ==== Sys2Proof/Machine/Table.lean ====
section
/-! DEFINITION. Operations on the sparse tables and byte memories of the state. -/

namespace Sys2Proof

/-- The object numbered `k`, if there is one. -/
def Tbl.get? {α : Type} : Tbl α → Nat → Option α
  | [], _ => none
  | (k', v) :: t, k => if k = k' then some v else Tbl.get? t k

/-- Is there an object numbered `k`? -/
def Tbl.has {α : Type} (t : Tbl α) (k : Nat) : Bool := (Tbl.get? t k).isSome

/-- The object numbered `k`, or `d` where there is none. -/
def Tbl.getD {α : Type} (t : Tbl α) (k : Nat) (d : α) : α := (Tbl.get? t k).getD d

/-- Put `v` under number `k`, in place of what stood there. -/
def Tbl.set {α : Type} : Tbl α → Nat → α → Tbl α
  | [], k, v => [(k, v)]
  | (k', v') :: t, k, v =>
    if k < k' then (k, v) :: (k', v') :: t
    else if k = k' then (k, v) :: t
    else (k', v') :: Tbl.set t k v

/-- Take the object numbered `k` away. -/
def Tbl.erase {α : Type} (t : Tbl α) (k : Nat) : Tbl α := t.filter (fun p => !(p.1 == k))

/-- Change the object numbered `k`, where there is one. -/
def Tbl.modify {α : Type} (t : Tbl α) (k : Nat) (f : α → α) : Tbl α :=
  t.map (fun p => if p.1 = k then (p.1, f p.2) else p)

/-- Change every object. -/
def Tbl.mapVals {α : Type} (t : Tbl α) (f : Nat → α → α) : Tbl α := t.map (fun p => (p.1, f p.1 p.2))

/-- How many objects meet `f`. -/
def Tbl.countIf {α : Type} (t : Tbl α) (f : Nat → α → Bool) : Nat := (t.filter (fun p => f p.1 p.2)).length

/-- The numbers in use. -/
def Tbl.keys {α : Type} (t : Tbl α) : List Nat := t.map Prod.fst

/-- The lowest number from `lo` on, below `lo + n`, that names no object. -/
def Tbl.lowestFree {α : Type} (t : Tbl α) (lo : Nat) : Nat → Option Nat
  | 0 => none
  | n + 1 => if Tbl.has t lo then Tbl.lowestFree t (lo + 1) n else some lo

/-- Keys strictly rising. -/
def Tbl.sorted {α : Type} : Tbl α → Bool
  | [] => true
  | [_] => true
  | (k, _) :: (k', v') :: t => decide (k < k') && Tbl.sorted ((k', v') :: t)

namespace Cells

/-- The byte at `a`; an unlisted address reads 0. -/
def read (m : Cells) (a : Nat) : Byte := (Tbl.get? m a).getD 0

/-- Store byte `b` at `a`. Storing 0 removes the entry, so that equal memories are equal data. -/
def write (m : Cells) (a : Nat) (b : Byte) : Cells := if b = 0 then Tbl.erase m a else Tbl.set m a b

/-- The `n` bytes from `a` on. -/
def readN (m : Cells) (a : Nat) : Nat → List Byte
  | 0 => []
  | n + 1 => read m a :: readN m (a + 1) n

/-- Store the bytes `bs` from `a` on. -/
def writeN (m : Cells) (a : Nat) : List Byte → Cells
  | [] => m
  | b :: bs => writeN (write m a b) (a + 1) bs

/-- The bytes of [base, base + len), addressed from 0. -/
def slice (m : Cells) (base len : Nat) : Cells :=
  (m.filter (fun p => decide (base ≤ p.1 ∧ p.1 < base + len))).map (fun p => (p.1 - base, p.2))

/-- [base, base + len) reads 0. -/
def clear (m : Cells) (base len : Nat) : Cells :=
  m.filter (fun p => !decide (base ≤ p.1 ∧ p.1 < base + len))

/-- Lay `src` over [base, base + len): what lies there becomes exactly the first `len` bytes of `src`. -/
def paste (m : Cells) (base len : Nat) (src : Cells) : Cells :=
  (src.filter (fun p => decide (p.1 < len))).foldl (fun acc p => write acc (base + p.1) p.2) (clear m base len)

/-- The memory whose first bytes are `bs` and that reads 0 elsewhere. -/
def ofList (bs : List Byte) : Cells := writeN [] 0 bs

/-- The canonical form: addresses strictly rising, no byte equal to 0. -/
def wf (m : Cells) : Bool := Tbl.sorted m && m.all (fun p => !(p.2 == 0))

end Cells

end Sys2Proof
end

