-- ==== Sys2Proof/Machine/Ops.lean ====
section
/-! DEFINITION. The operations that the commands share: objects by number, sequence numbers, the health log, events and
vectors, host memory, scatter lists, and the ends of a tag. -/

namespace Sys2Proof.Machine

/-- What a meaning answers. -/
abbrev Out := Host.Outcome State Fault Refusal

/-- A command that can happen only when `g` holds: `f s` then, and otherwise nothing (log entry 2). -/
def act (s : State) (g : Bool) (f : State → State) : Out := .next (if g then f s else s)

/-- One microsecond passes (log entry 1). -/
def tick (s : State) : State := { s with now := s.now + 1 }

/-! ### Opcodes (Tables 2.6 and 2.7) and statuses (Table 2.10) -/

abbrev opRead : Nat := 0x01
abbrev opWrite : Nat := 0x02
abbrev opReadAsset : Nat := 0x03
abbrev opInstallChunk : Nat := 0x04
abbrev opFlush : Nat := 0x05
abbrev opTrim : Nat := 0x06
abbrev opVerify : Nat := 0x07
abbrev opScan : Nat := 0x10
abbrev opIndexSearch : Nat := 0x11
abbrev opIndexInsert : Nat := 0x12
abbrev opIndexDelete : Nat := 0x13
abbrev opIndexStep : Nat := 0x14
abbrev opProgramLoad : Nat := 0x15
abbrev opProgramUnload : Nat := 0x16
abbrev opCodec : Nat := 0x18
abbrev opCodecResume : Nat := 0x19
abbrev opCodecSave : Nat := 0x1A
abbrev opCodecRestore : Nat := 0x1B
abbrev opAbort : Nat := 0x20
abbrev opMailboxNote : Nat := 0x28
abbrev opLicenseLoad : Nat := 0x30
abbrev opLicenseDrop : Nat := 0x31
abbrev opSealOpen : Nat := 0x32
abbrev opSealClose : Nat := 0x33
abbrev opAttest : Nat := 0x34
abbrev opLogRead : Nat := 0x40
abbrev opFeatureSet : Nat := 0x41
abbrev opFeatureGet : Nat := 0x42
abbrev opFwStage : Nat := 0x50
abbrev opFwActivate : Nat := 0x51
abbrev opInstanceCreate : Nat := 0x52
abbrev opInstanceDestroy : Nat := 0x53
abbrev opInstanceReset : Nat := 0x54
abbrev opVolumeCreate : Nat := 0x55
abbrev opVolumeDelete : Nat := 0x56
abbrev opSpanJoin : Nat := 0x58
abbrev opSpanLeave : Nat := 0x59
abbrev opSpanMirrorSet : Nat := 0x5A
abbrev opSanitize : Nat := 0x5C
abbrev opDeviceReset : Nat := 0x5D

abbrev stOk : Nat := 0x00
abbrev stOkResumable : Nat := 0x01
abbrev stOkMulti : Nat := 0x02
abbrev stAbortCaught : Nat := 0x03
abbrev stAbortMissed : Nat := 0x04
abbrev stBadOpcode : Nat := 0x10
abbrev stBadField : Nat := 0x11
abbrev stBadRange : Nat := 0x12
abbrev stNoVolume : Nat := 0x13
abbrev stNotPermitted : Nat := 0x14
abbrev stTagIdle : Nat := 0x15
abbrev stSlotBusy : Nat := 0x16
abbrev stAborted : Nat := 0x20
abbrev stAbortedByReset : Nat := 0x21
abbrev stAbortedByTimeout : Nat := 0x22
abbrev stIncompressible : Nat := 0x30
abbrev stCodecData : Nat := 0x31
abbrev stCodecLimit : Nat := 0x32
abbrev stMediaError : Nat := 0x40
abbrev stWriteFault : Nat := 0x41
abbrev stReadOnly : Nat := 0x42
abbrev stAuthFail : Nat := 0x50
abbrev stNoLicense : Nat := 0x51
abbrev stKeyRevoked : Nat := 0x52
abbrev stProgramFault : Nat := 0x60
abbrev stProgramBudget : Nat := 0x61
abbrev stSpanUnreachable : Nat := 0x70
abbrev stInternal : Nat := 0x7F

/-! ### The packet (Table 2.4) -/

/-- OPCODE. -/
def pkOpcode (p : List Byte) : Nat := field p 0 1
/-- FLAGS. -/
def pkFlags (p : List Byte) : Nat := field p 1 1
/-- VOLUME. -/
def pkVolume (p : List Byte) : Nat := field p 2 2
/-- SUB_SEQ. -/
def pkSubSeq (p : List Byte) : Nat := field p 4 4
/-- LBA. -/
def pkLba (p : List Byte) : Nat := field p 8 8
/-- LENGTH. -/
def pkLength (p : List Byte) : Nat := field p 16 4
/-- HANDLE. -/
def pkHandle (p : List Byte) : Nat := field p 20 4
/-- BUFFER. -/
def pkBuffer (p : List Byte) : Nat := field p 24 8
/-- BUFLEN. -/
def pkBufLen (p : List Byte) : Nat := field p 32 4

/-- The flags of R44 by bit. -/
def pkOrdered (p : List Byte) : Bool := bit (pkFlags p) 0
def pkFua (p : List Byte) : Bool := bit (pkFlags p) 1
def pkNoCompress (p : List Byte) : Bool := bit (pkFlags p) 2
def pkSeal (p : List Byte) : Bool := bit (pkFlags p) 3
def pkHoldPartial (p : List Byte) : Bool := bit (pkFlags p) 4
def pkSgl (p : List Byte) : Bool := bit (pkFlags p) 5

/-! ### Objects by number -/

/-- The key of a tag. -/
def tagKey (inst tag : Nat) : Nat := inst * 256 + tag

/-- The instance of a tag key. -/
def keyInst (k : Nat) : Nat := k / 256

/-- The tag number of a tag key. -/
def keyTag (k : Nat) : Nat := k % 256

/-- Change instance `n`, where it exists. -/
def modInst (n : Nat) (f : Inst → Inst) (s : State) : State := { s with insts := Tbl.modify s.insts n f }

/-- Change the ring of instance `n`. -/
def modRing (n : Nat) (f : Ring → Ring) (s : State) : State := modInst n (fun i => { i with ring := f i.ring }) s

/-- Change the busy tag `k`. -/
def modTag (k : Nat) (f : Tag → Tag) (s : State) : State := { s with tags := Tbl.modify s.tags k f }

/-- The busy tags of instance `n`. -/
def busyOf (s : State) (n : Nat) : Tbl Tag := s.tags.filter (fun p => keyInst p.1 == n)

/-- The port record. -/
def portOf (s : State) (p : Nat) : HPort := if p = 0 then s.hif.port0 else s.hif.port1

/-- Change a port record. -/
def modPort (p : Nat) (f : HPort → HPort) (s : State) : State :=
  if p = 0 then { s with hif := { s.hif with port0 := f s.hif.port0 } }
  else { s with hif := { s.hif with port1 := f s.hif.port1 } }

/-- Can the port carry requests to the host: its link up, PERST_N released, the function in D0 (R412, R462)? -/
def portLive (s : State) (p : Nat) : Bool :=
  (portOf s p).linkUp && !(portOf s p).perst && !(portOf s p).d3hot

/-- Does the device run: powered, not held in an internal reset, not taken out of service over JTAG (R430, R470)? -/
def powered (s : State) : Bool := !s.glb.held && !s.glb.ended

/-- Is the supply in FLUSH or in FLUSHED (R422)? -/
def flushing (s : State) : Bool := s.pwr.supply == .flush || s.pwr.supply == .flushed

/-- Do commands run: STAGE 5 to 8 (R441), and the supply neither in FLUSH nor in FLUSHED (R422)? -/
def serving (s : State) : Bool := powered s && decide (5 ≤ s.glb.stage ∧ s.glb.stage ≤ 8) && !flushing s

/-- STAGE 8. -/
def ready (s : State) : Bool := powered s && s.glb.stage == 8

/-- The volume numbered `v`. -/
def vol? (s : State) (v : Nat) : Option Vol := Tbl.get? s.flc.vols v

/-- Change a volume. -/
def modVol (v : Nat) (f : Vol → Vol) (s : State) : State :=
  { s with flc := { s.flc with vols := Tbl.modify s.flc.vols v f } }

/-- Take the next free value: a statement may rest on none of them (log entry 5). -/
def bumpFresh (s : State) : State := { s with fresh := s.fresh + 1 }

/-- `n` free bytes (log entry 5). -/
def freeBytes (s : State) (n : Nat) : List Byte := (List.range n).map (fun i => Config.freeByte s.fresh i)

/-! ### Sequence numbers (R23 to R27) and the health log (R306) -/

/-- The number that the next record takes. -/
def nextSeq (s : State) : Nat := (s.glb.seq + 1) % seqMod

/-- Is a number below the limit available (R27)? -/
def canTakeSeq (s : State) : Bool := !(nextSeq s == s.glb.seqLimit)

/-- Append a journal group of these entries; it takes effect when its page is durable (R285). -/
def appendGroup (held : Bool) (es : List JEnt) (s : State) : State :=
  { s with flc := { s.flc with
      groups := s.flc.groups ++ [{ id := s.flc.nextGroup, held := held, entries := es }]
      nextGroup := s.flc.nextGroup + 1, clean := false } }

/-- Take one number. When the counter reaches L - 2^19 the new limit L + 2^20 goes to the journal (R27). -/
def takeSeq (s : State) : State :=
  let q := nextSeq s
  let lim := s.glb.seqLimit
  if (2 ^ 19 + q) % seqMod = lim then
    let l := (2 ^ 20 + lim) % seqMod
    appendGroup false [.seqLimit l] { s with glb := { s.glb with seq := q, seqJournaled := l } }
  else { s with glb := { s.glb with seq := q } }

/-- A health log entry of Table 8.16 as it stands now, without its number (log entry 36). -/
def healthEntry (s : State) (kind inst vol unit lba count : Nat) (detail : List Byte) : HEntry :=
  { seq := 0, kind := kind, time := s.now, cycle := s.flc.life.powerCycles % 65536, inst := inst, vol := vol
    unit := unit, lba := lba, count := count, detail := detail }

/-- A health log entry takes its number now. It is in flash once HEALTH_LOG_WRITE has written it. -/
def numberHealth (e : HEntry) (s : State) : State :=
  let s := takeSeq s
  { s with flc := { s.flc with logPending := s.flc.logPending ++ [{ e with seq := s.glb.seq }] } }

/-- Give a health log entry its number, or let it wait for one behind those that wait (R24, R27). -/
def pushHealth (e : HEntry) (s : State) : State :=
  if canTakeSeq s && s.flc.logWaiting.isEmpty then numberHealth e s
  else { s with flc := { s.flc with logWaiting := s.flc.logWaiting ++ [e] } }

/-- Record an event in the health log (R306). -/
def logHealth (kind inst vol unit lba count : Nat) (detail : List Byte) (s : State) : State :=
  pushHealth (healthEntry s kind inst vol unit lba count detail) s

/-- Entries that wait take their numbers once numbers are available again (log entry 143). -/
def drainLog : Nat → State → State
  | 0, s => s
  | n + 1, s =>
    match s.flc.logWaiting with
    | [] => s
    | e :: es =>
      if canTakeSeq s then drainLog n (numberHealth e { s with flc := { s.flc with logWaiting := es } })
      else s

/-! ### MSI-X vectors (R56, R351, R461, R462) -/

/-- Signal vector `v` on port `p`: held in D3hot and while the link is down (log entry 147). -/
def signalPort (p v : Nat) (s : State) : State :=
  if portLive s p then { s with hif := { s.hif with msix := s.hif.msix ++ [(p, v)] } }
  else modPort p (fun q => { q with heldMsix := q.heldMsix ++ [v] }) s

/-- Signal the vector VECTOR_BASE + `k` of instance `n`. -/
def signalInst (n k : Nat) (s : State) : State :=
  match Tbl.get? s.insts n with
  | none => s
  | some i => signalPort i.port (i.vecBase + k) s

/-! ### Asynchronous events (R76 to R78) -/

/-- Can this code be masked (Table 2.8)? EV_SLOT_BUSY, EV_POST_MALFORMED and EV_EVENTS_LOST cannot. -/
def maskable (code : Nat) : Bool := !(code == 1 || code == 2 || code == 3)

/-- Does the instance's EVENT_MASK let this code through? -/
def eventEnabled (i : Inst) (code : Nat) : Bool := !maskable code || bit i.feat.eventMask (bits code 4 4)

/-- Queue an event: 32 wait, a further one is discarded and counted (R77). -/
def queueEvent (e : Event) (i : Inst) : Inst :=
  if !eventEnabled i e.code then i
  else if i.ring.evtQ.length < 32 then { i with ring := { i.ring with evtQ := i.ring.evtQ ++ [e] } }
  else { i with ring := { i.ring with evtLost := satInc i.ring.evtLost 0xFF } }

/-- Raise an event in instance `n` (R76); an ABSENT instance gets none. -/
def raise (n : Nat) (e : Event) (s : State) : State := modInst n (queueEvent e) s

/-- EV_HEALTH_WARNING of R307, in instance 0. -/
def healthWarning (kind a b : Nat) (s : State) : State :=
  raise 0 { code := 0x0011, status := stOk, r0 := 2 ^ 16 * kind + a % 2 ^ 32 * 2 ^ 32, r1 := b } s

/-- EV_MAILBOX of R355, raised in instance `n` about instance `m`; instance 0 has vector 1 signalled with each one that
it receives (R351) (log entry 10). -/
def mailboxEvent (n dir m len word : Nat) (s : State) : State :=
  let e : Event := { code := 0x0040, status := stOk
                     r0 := 2 ^ 16 * dir + 2 ^ 24 * m + len % 512 * 2 ^ 32, r1 := word }
  let on := match Tbl.get? s.insts 0 with
    | some i => eventEnabled i 0x0040
    | none => false
  let s := raise n e s
  if n = 0 && !(dir == 1) && on then signalInst 0 1 s else s

/-! ### Host memory under a PASID (R350) and the page logs (R366 to R369) -/

/-- The key of host byte `a` under a PASID. -/
def hostKey (pasid a : Nat) : Nat := 2 ^ 64 * pasid + a % 2 ^ 64

/-- `n` bytes of host memory. -/
def hostRead (s : State) (pasid a n : Nat) : List Byte :=
  (List.range n).map (fun i => Cells.read s.hostMem (hostKey pasid (a + i)))

/-- Store bytes into host memory. -/
def hostStore (pasid a : Nat) (bs : List Byte) (s : State) : State :=
  { s with hostMem := (bs.zipIdx).foldl (fun m p => Cells.write m (hostKey pasid (a + p.2)) p.1) s.hostMem }

/-- PASID of an instance. -/
def pasidOf (s : State) (n : Nat) : Nat :=
  match Tbl.get? s.insts n with
  | some i => i.pasid
  | none => 0

/-- The 4 KiB pages of [a, a + n). -/
def pagesOf (a n : Nat) : List Nat :=
  if n = 0 then [] else (List.range ((a + n - 1) / 4096 - a / 4096 + 1)).map (fun i => a / 4096 + i)

/-- Note a page for the log: its entry is owed unless it was written since the last marker (R367). Every write after a SYNC
is listed again (R368) (log entry 80). -/
def owe (l : PLog) (pg : Nat) : PLog :=
  if l.syncs.isEmpty && (l.remembered.contains pg || l.owed.contains pg) then l else { l with owed := l.owed ++ [pg] }

/-- The device writes host memory for instance `n`, under its PASID; an enabled log of the instance owes the pages. -/
def hostWrite (n a : Nat) (bs : List Byte) (s : State) : State :=
  let s := hostStore (pasidOf s n) a bs s
  { s with mgr := { s.mgr with logs := Tbl.mapVals s.mgr.logs (fun _ l =>
      if l.enable && l.inst == n then (pagesOf a bs.length).foldl owe l else l) } }

/-- Is a log full: (TAIL + 1) mod size equals HEAD (R366)? -/
def logFull (l : PLog) : Bool := (l.tail + 1) % 2 ^ l.sizeLog2 == l.head

/-- May the device write host memory for instance `n` now: its port carries requests (R412, R462), and no log of the
instance is full with an entry owed (R369)? -/
def mayWrite (s : State) (n : Nat) : Bool :=
  match Tbl.get? s.insts n with
  | none => false
  | some i => portLive s i.port
      && !(s.mgr.logs.any (fun p => p.2.enable && p.2.inst == n && logFull p.2 && !p.2.owed.isEmpty))

/-! ### Buffers and scatter lists (R45) -/

/-- Walk a scatter list from `ptr`; `left` is what remains of the run's length (the first run has none). The data
entries in order, or none at the first fault. -/
def sglWalk (s : State) (pasid : Nat) : Nat → Nat → Option Nat → Nat → Nat → List (Nat × Nat) →
    Option (List (Nat × Nat))
  | 0, _, _, _, _, _ => none
  | fuel + 1, ptr, left, data, chains, acc =>
    let e := hostRead s pasid ptr 16
    let addr := field e 0 8
    let len := field e 8 4
    let flags := field e 12 4
    let chain := bit flags 1
    if len = 0 then none
    else if 3 ≤ flags then none
    else if addr % 4 ≠ 0 then none
    else if chain && (decide (len % 16 ≠ 0) || decide (4096 < len)) then none
    else if chain then
      if chains + 1 > 4096 then none else sglWalk s pasid fuel addr (some len) data (chains + 1) acc
    else if data + 1 > 4096 then none
    else if bit flags 0 then some (acc ++ [(addr, len)])
    else match left with
      | none => sglWalk s pasid fuel (ptr + 16) none (data + 1) chains (acc ++ [(addr, len)])
      | some l =>
        if l ≤ 16 then none
        else sglWalk s pasid fuel (ptr + 16) (some (l - 16)) (data + 1) chains (acc ++ [(addr, len)])

/-- The buffer of a packet as runs (address, length): none where the list has a fault. -/
def bufferOf (s : State) (n : Nat) (p : List Byte) : Option (List (Nat × Nat)) :=
  if pkSgl p then sglWalk s (pasidOf s n) 8194 (pkBuffer p) none 0 0 [] else some [(pkBuffer p, pkBufLen p)]

/-- Bytes of all runs. -/
def runsLen (rs : List (Nat × Nat)) : Nat := rs.foldl (fun a r => a + r.2) 0

/-- The host addresses of bytes [off, off + n) of the runs, as runs. -/
def runsSlice : List (Nat × Nat) → Nat → Nat → List (Nat × Nat)
  | [], _, _ => []
  | (a, l) :: rs, off, n =>
    if n = 0 then []
    else if l ≤ off then runsSlice rs (off - l) n
    else
      let k := min (l - off) n
      (a + off, k) :: runsSlice rs 0 (n - k)

/-- Write bytes over the runs from byte `off` on; bytes beyond the end are not written. -/
def runsWrite (n : Nat) : List (Nat × Nat) → List Byte → State → State
  | [], _, s => s
  | (a, l) :: rs, bs, s => runsWrite n rs (bs.drop l) (hostWrite n a (bs.take l) s)

/-- Deliver `bs` into the buffer of packet `p` of instance `n` from byte `off` on. -/
def deliver (n : Nat) (p : List Byte) (off : Nat) (bs : List Byte) (s : State) : State :=
  match bufferOf s n p with
  | none => s
  | some rs => runsWrite n (runsSlice rs off bs.length) bs s

/-- Read `len` bytes of the buffer of packet `p` from byte `off` on. -/
def gather (s : State) (n : Nat) (p : List Byte) (off len : Nat) : List Byte :=
  match bufferOf s n p with
  | none => List.replicate len 0
  | some rs => (runsSlice rs off len).flatMap (fun r => hostRead s (pasidOf s n) r.1 r.2)

/-! ### The ring (R51 to R56) -/

/-- Entries in the ring. -/
def ringSize (r : Ring) : Nat := 2 ^ r.sizeLog2

/-- Free entries. -/
def ringFree (r : Ring) : Nat := (r.head + ringSize r - 1 - r.tail % ringSize r) % ringSize r

/-- Full: (TAIL + 1) mod size equals HEAD (R52). -/
def ringFull (r : Ring) : Bool := (r.tail + 1) % ringSize r == r.head

/-- The vector is signalled: the count and the timer are cleared, PENDING too (R56). -/
def clearUnsignalled (r : Ring) : Ring := { r with unsignalled := 0, coalStart := 0, pending := false }

/-- An entry was written: count it, and signal the vector when the count is reached (R56). A slice signals every
entry (R373). -/
def noteEntry (n : Nat) (s : State) : State :=
  match Tbl.get? s.insts n with
  | none => s
  | some i =>
    if !i.ring.irqEnable then s
    else
      let c := i.ring.unsignalled + 1
      if i.slice || decide (i.ring.coalCount ≤ c) then signalInst n 0 (modRing n clearUnsignalled s)
      else modRing n (fun r => { r with unsignalled := c, pending := true
                                        coalStart := if r.unsignalled = 0 then s.now else r.coalStart }) s

/-- Write 32 bytes into the entry at TAIL, advance TAIL and the phase (R51, R53), and count the entry. -/
def ringWrite (n : Nat) (bytes : Ring → List Byte) (s : State) : State :=
  match Tbl.get? s.insts n with
  | none => s
  | some i =>
    let r := i.ring
    let s := hostWrite n (r.base + r.tail * 32) (bytes r) s
    let t := (r.tail + 1) % ringSize r
    noteEntry n (modRing n (fun r => { r with tail := t, phase := if t = 0 then !r.phase else r.phase }) s)

/-- The 32 bytes of a reply or event (Table 2.9) (log entry 142). -/
def replyBytes (tag status opcode inst : Nat) (phase : Bool) (rflags seq subSeq r0 r1 : Nat) : List Byte :=
  leBytes 2 tag ++ leBytes 1 status ++ leBytes 1 opcode ++ leBytes 1 (inst % 64 + 128 * b2n phase) ++ leBytes 1 rflags
    ++ leBytes 6 seq ++ leBytes 4 subSeq ++ leBytes 8 r0 ++ leBytes 8 r1

/-- RFLAGS of a reply. -/
def replyFlags (r : Reply) : Nat :=
  b2n r.partialEffect + 2 * b2n r.sealed + 4 * b2n r.remote + 8 * b2n r.truncated + 16 * b2n r.applied

/-! ### The ends of a tag (Table 2.11) -/

/-- Release the range-lock entry of a command, or its wait for one (R62). -/
def releaseLock (k : Nat) (s : State) : State := { s with locks := s.locks.filter (fun l => !(l.tag == k)) }

/-- The opcodes that report no APPLIED when caught: those whose buffer is then undefined (R72), and the searches and
steps, which then take and move no cursor (R241) (log entry 122). -/
def unappliedOps : List Nat :=
  [opRead, opReadAsset, opScan, opVerify, opCodec, opCodecResume, opIndexSearch, opIndexStep]

/-- The opcodes that report a prefix (R64) (log entry 122). -/
def prefixOps : List Nat := [opWrite, opTrim, opInstallChunk]

/-- The reply of a caught command whose work came to its end (R72): ST_ABORTED, the result words kept; APPLIED when an
opcode other than those two kinds had taken its full effect (log entry 122). -/
def caughtReply (op : Nat) (r : Reply) : Reply :=
  if r.status = stAborted then r
  else { r with status := stAborted
                applied := decide (r.status ≤ 4) && !unappliedOps.contains op && !prefixOps.contains op }

/-- The key of a unit's descriptor. -/
def unitKey (k unit : Nat) : Nat := 2 ^ 32 * k + unit

/-- UNIT_STATUS of unit `i` of a command. -/
def unitStatus (s : State) (k i : Nat) : Nat :=
  match Tbl.get? s.units (unitKey k i) with
  | some u => u.status
  | none => stOk

/-- The blocks of [lba, lba + n) whose unit, an allotment, has ended with `st` (R16, R500). -/
def unitBlocks (s : State) (k lba n st : Nat) : List Nat :=
  if s.units.any (fun p => p.1 / 2 ^ 32 == k && p.2.status == st) then
    ((List.range n).map (fun i => lba + i)).filter (fun b => unitStatus s k (b / 8 - lba / 8) == st)
  else []

/-- The stage descriptors of a command go with its work. -/
def dropUnits (k : Nat) (s : State) : State := { s with units := s.units.filter (fun p => !(p.1 / 2 ^ 32 == k)) }

/-- Work ends: the entry is released and the reply decided; the tag is DONE. A tag that an ABORT caught takes
ST_ABORTED. -/
def finish (k : Nat) (r : Reply) (s : State) : State :=
  modTag k (fun t => { t with st := .done, groups := []
                              reply := if t.st == .stopping then caughtReply (pkOpcode t.packet) r else r })
    (dropUnits k (releaseLock k s))

/-- Work ends with a status and result words. -/
def finishWith (k status r0 r1 : Nat) (s : State) : State := finish k { status := status, r0 := r0, r1 := r1 } s

/-- Work ends with ST_AUTH_FAIL, which SEC_ERR_CNT counts (log entry 37). -/
def authFailed (k : Nat) (s : State) : State :=
  finishWith k stAuthFail 0 0 { s with sec := { s.sec with authFail := satInc s.sec.authFail 0xFFFF } }

/-- ST_BAD_FIELD with the offset of the field (R47). -/
def badField (k off : Nat) (s : State) : State := finishWith k stBadField off 0 s

/-- Work ends, but the reply waits until these journal groups are durable (R65). -/
def finishDurable (k : Nat) (gs : List Nat) (r : Reply) (s : State) : State :=
  if gs.isEmpty then finish k r s
  else modTag k (fun t => { t with work := .durable, reply := r, groups := gs }) s

/-- An accepted ABORT that names tag `k` and whose abort point comes first: it is examined at its acceptance (R60,
R69), so nothing else reaches the tag before (log entry 121). -/
def abortComing (s : State) (k : Nat) : Bool :=
  s.tags.any (fun p => p.2.st == .queued && pkOpcode p.2.packet == opAbort && keyInst p.1 == keyInst k
    && field p.2.packet 36 2 == keyTag k)

/-- Is the tag RUNNING an opcode, at this stage of its work? (log entries 2, 121) -/
def atWork (s : State) (k op : Nat) (w : Work) : Bool :=
  match Tbl.get? s.tags k with
  | none => false
  | some t => t.st == .running && pkOpcode t.packet == op && t.work == w && !abortComing s k

/-- Does the tag hold its range-lock entry? -/
def lockHeld (s : State) (k : Nat) : Bool := s.locks.any (fun l => l.tag == k && l.held)

/-- The work of opcode `op` on tag `k` ends: the tag is RUNNING it, the device serves (R441), and `g` holds; `f` gets
its packet (log entry 2). -/
def workEnds (op inst tag : Nat) (g : Bool) (s : State) (f : List Byte → Nat → State → State) : Out :=
  let k := tagKey inst tag
  match Tbl.get? s.tags k with
  | none => .next s
  | some t => act s (atWork s k op .working && serving s && g) (f t.packet k)

end Sys2Proof.Machine
end

