-- ==== Sys2Proof/Machine/Access.lean ====
section
/-! DEFINITION. Which registers and windows answer an access, and the state changes of an instance that drains. -/

namespace Sys2Proof.Machine

/-- Does function `fn` reach the device: its link up and PERST_N released? -/
def fnReaches (s : State) (fn : Nat) : Bool := (portOf s fn).linkUp && !(portOf s fn).perst

/-- The blocks of BAR0 (Table 15.1), by number: 0 GLB, 1 CLK, 2 HIF, 3 MGR, 4 SCH, 5 BSH, 6 SEC, 7 IDX, 8 CCH, 9 MEM,
10 FLC, 11 DRC, 12 SPN, 13 PWR, 14 OTP, 15 DBG, 16 reserved. -/
def blockOf (off : Nat) : Nat :=
  if off < 0x1000 then 0 else if off < 0x2000 then 1 else if off < 0x4000 then 2 else if off < 0x8000 then 3
  else if off < 0xA000 then 4 else if off < 0xC000 then 5 else if off < 0xD000 then 6 else if off < 0xE000 then 7
  else if off < 0xF000 then 8 else if off < 0x10000 then 9 else if off < 0x14000 then 10 else if off < 0x16000 then 11
  else if off < 0x17000 then 12 else if off < 0x18000 then 13 else if off < 0x19000 then 14
  else if off < 0x1A000 then 15 else 16

/-- LIFECYCLE code of the array (R450): 0 BLANK, 1 FACTORY, 2 SECURED, 3 RMA, 7 SCRAPPED (Table
4.15). -/
def lifecycle (o : Otp) : Nat :=
  let b := (Cells.read o.fuses 0x208).toNat
  if bits b 6 2 ≠ 0 then 7 else if bits b 4 2 ≠ 0 then 3 else if bits b 2 2 ≠ 0 then 2
  else if bits b 0 2 ≠ 0 then 1 else 0

/-- Does block `b` of BAR0 answer? In RECOVERY only GLB, OTP, SEC and PWR do (R443); during a DEVICE_RESET until STAGE
5 only GLB and PWR (R495); in BLANK the ROM serves GLB and OTP (R453); otherwise configuration space answers from
STAGE 5 on (R440). In FAILED the ROM serves GLB, OTP, SEC, PWR and FLC (R253) (log entry 108). -/
def blockAnswers (s : State) (b : Nat) : Bool :=
  if !powered s then false
  else if s.glb.stage = 9 then b == 0 || b == 14 || b == 6 || b == 13
  else if s.glb.stage = 10 then b == 0 || b == 14 || b == 6 || b == 13 || b == 10
  else if s.glb.stage < 5 ∨ s.glb.stage = 12 then
    if bit s.glb.cause 5 then b == 0 || b == 13
    else if lifecycle s.otp = 0 || (s.otp.ladderLc == 0 && s.otp.porRequired) then b == 0 || b == 14 else false
  else true

/-- Does an access of function `fn` to BAR0 offset `off` reach a register block that answers? -/
def bar0Answers (s : State) (fn off : Nat) : Bool := fnReaches s fn && blockAnswers s (blockOf off)

/-- Do the windows of BAR2 and BAR4 answer: from STAGE 5 on, and not during a DEVICE_RESET (R495)? (log entry 81) -/
def windowsAnswer (s : State) (fn : Nat) : Bool :=
  powered s && fnReaches s fn && decide (5 ≤ s.glb.stage ∧ s.glb.stage ≠ 12)

/-- The native instance whose window function `fn` reaches (R459); a slice has no BAR2 window (R372). -/
def nativeAt (s : State) (fn n : Nat) : Option Inst :=
  match Tbl.get? s.insts n with
  | some i => if windowsAnswer s fn && !i.slice && i.port == fn then some i else none
  | none => none

/-- The slice instance in slice window `w`, and its number (R372). -/
def sliceAt (s : State) (fn w : Nat) : Option (Nat × Inst) :=
  if windowsAnswer s fn then
    s.insts.find? (fun p => p.2.slice && p.2.sliceWin == w && p.2.port == fn)
  else none

/-- The instance behind a window: slice window `w` of BAR4, or window `w` of BAR2. -/
def windowAt (s : State) (fn : Nat) (slice : Bool) (w : Nat) : Option (Nat × Inst) :=
  if slice then sliceAt s fn w
  else match nativeAt s fn w with
    | some i => some (w, i)
    | none => none

/-- MALFORMED of HIF_ACCESS_ERR counts a write (R486, R488) (log entry 132). -/
def countMalformed (s : State) : State :=
  { s with hif := { s.hif with malformed := satInc s.hif.malformed 0xFF } }

/-- LOCKED of HIF_ACCESS_ERR counts a write (R489). -/
def countLocked (s : State) : State := { s with hif := { s.hif with locked := satInc s.hif.locked 0xFF } }

/-- Does the device accept posts to the instance: STAGE 5 to 8 (R441), no SHUTDOWN (R447), the instance ACTIVE (R345),
not fenced (R362), its ring enabled (R40) and its function in D0 (R462)? (log entry 81) -/
def acceptsPosts (s : State) (i : Inst) : Bool :=
  serving s && !s.glb.shutdown && i.st == .active && !i.fenced && i.ring.enable && !(portOf s i.port).d3hot
    && s.glb.resetTag.isNone

/-- A draining instance is DRAINED once no tag is busy, no event queued and no manager message waiting (R365, Table
10.1). -/
def settleDrain (n : Nat) (s : State) : State :=
  modInst n (fun i =>
    if i.st == .draining && (busyOf s n).isEmpty && i.ring.evtQ.isEmpty && !i.mbox.deliv then { i with st := .drained }
    else i) s

end Sys2Proof.Machine
end

