-- ==== Sys2Proof/Machine/Window.lean ====
section
/-! DEFINITION. Rows of the instance windows: posts, the ring registers, the interrupt status, the doorbell, and the
latching reads of GLB. -/

namespace Sys2Proof.Machine

/-! ### Posts (R38 to R41, R373) -/

/-- Count a refused post (R40, R345). -/
def refusePost (n : Nat) (s : State) : State := modRing n (fun r => { r with refused := satInc r.refused 0xFF }) s

/-- EV_POST_MALFORMED (R38): the size of the write, 0 for 16 bytes or more (log entry 9). -/
def postMalformed (n size : Nat) (s : State) : State :=
  raise n { code := 0x0002, status := stBadField, r0 := 0x0002 + 2 ^ 16 * (if 16 ≤ size then 0 else size), r1 := 0 } s

/-- Accept a post: copy the slot's 64 bytes, mark the tag busy, record the current sequence value (R39). -/
def acceptPost (n slot seq seq16 : Nat) (i : Inst) (s : State) : State :=
  let pk := Cells.readN i.slots (slot * 64) 64
  let t : Tag := { st := .queued, packet := pk, seq := seq, seq16 := seq16, intakeSeq := s.glb.seq
                   order := s.acceptCount, started := false, work := .working, groups := [], uses := [], cursor := 0
                   after := none, reply := {} }
  modRing n (fun r => { r with lastSeq := if i.slice then seq16 else seq })
    { s with tags := Tbl.set s.tags (tagKey n slot) t, acceptCount := s.acceptCount + 1 }

/-- A post that arrives whole: refused while the device or the instance takes none, refused with EV_SLOT_BUSY when the
tag is busy, and otherwise accepted. -/
def post (n slot seq seq16 : Nat) (i : Inst) (s : State) : State :=
  if !acceptsPosts s i then refusePost n s
  else if Tbl.has s.tags (tagKey n slot) then
    raise n { code := 0x0001, status := stSlotBusy, r0 := 0x0001 + 2 ^ 16 * slot, r1 := if i.slice then seq16 else seq }
      (refusePost n s)
  else acceptPost n slot (if i.slice then field (Cells.readN i.slots (slot * 64) 64) 4 4 else seq) seq16 i s

/-- TW_POST (R38 to R41): a write of `size` bytes that begins at byte `off` of the register. -/
def execTwPost (fn : Fin 2) (inst : Fin 64) (off : Fin 8) (size value : Nat) (s : State) : Out :=
  match nativeAt s fn inst with
  | none => .next s
  | some i =>
    if off.val ≠ 0 ∨ size ≠ 8 then .next (postMalformed inst size s)
    else .next (post inst (bits value 0 8) (bits value 32 32) 0 i s)

/-- SL_POST (R373): SLOT in [4:0], SEQ16 in [31:16]; the reply echoes SUB_SEQ as written. -/
def execSlPost (fn : Fin 2) (win : Fin 16) (off : Fin 4) (size value : Nat) (s : State) : Out :=
  match sliceAt s fn win with
  | none => .next s
  | some (n, i) =>
    if off.val ≠ 0 ∨ size ≠ 4 then .next (postMalformed n size s)
    else .next (post n (bits value 0 5) 0 (bits value 16 16) i s)

/-! ### The ring registers (R42, R54) -/

/-- A refused write of the ring set-up: CFG_REFUSED, or MALFORMED for a slice. -/
def refuseCfg (n : Nat) (slice : Bool) (s : State) : State :=
  if slice then countMalformed s else modRing n (fun r => { r with cfgRefused := true }) s

/-- Does R42 refuse this write of the configuration? -/
def ringCfgRefused (i : Inst) (busy : Bool) (en : Bool) (size : Nat) : Bool :=
  let lo := if i.slice then 6 else 9
  let hi := if i.slice then 12 else 16
  decide (size < lo ∨ hi < size) || (i.ring.enable && !en && (busy || !i.ring.evtQ.isEmpty))
    || (i.ring.enable && !(size == i.ring.sizeLog2))

/-- An accepted write: setting ENABLE from 0 to 1 clears HEAD, TAIL, REFUSED and the two refusal bits and sets PHASE
(log entry 82). -/
def ringConfigure (en : Bool) (size : Nat) (r : Ring) : Ring :=
  let r := { r with cfgRefused := false }
  if en && !r.enable then
    { r with enable := true, sizeLog2 := size, head := 0, tail := 0, refused := 0, headRefused := false, phase := true }
  else { r with enable := en, sizeLog2 := size }

/-- TW_RING_CFG or SL_RING_CFG (R42). -/
def execTwRingCfgWrite (fn : Fin 2) (slice : Bool) (win : Fin 64) (value : BitVec 32) (s : State) : Out :=
  match windowAt s fn slice win with
  | none => .next s
  | some (n, i) =>
    let v := value.toNat
    let size := bits v 0 (if slice then 4 else 5)
    if ringCfgRefused i (!(busyOf s n).isEmpty) (bit v 31) size then .next (refuseCfg n slice s)
    else .next (modRing n (ringConfigure (bit v 31) size) s)

/-- TW_RING_BASE_LO or _HI, SL_RING_LO or _HI (R42): refused while ENABLE is 1 (log entry 82). -/
def execTwRingBaseWrite (fn : Fin 2) (slice : Bool) (win : Fin 64) (hi : Bool) (value : BitVec 32) (s : State) : Out :=
  match windowAt s fn slice win with
  | none => .next s
  | some (n, i) =>
    if i.ring.enable then .next (refuseCfg n slice s)
    else
      let v := value.toNat
      .next (modRing n (fun r => { r with
        cfgRefused := false
        base := if hi then r.base % 2 ^ 32 + 2 ^ 32 * v else r.base / 2 ^ 32 * 2 ^ 32 + v / 4096 * 4096 }) s)

/-- May HEAD take the value `h` (R54)? -/
def headAccepted (h head tail size : Nat) : Bool :=
  decide (h < size ∧ (h + size - head % size) % size ≤ (tail + size - head % size) % size)

/-- TW_RING_HEAD (`target` 0), SL_RING_HEAD (1) or MGR_LOG_HEAD_k (2) (R54). -/
def execTwRingHeadWrite (fn : Fin 2) (target : Fin 3) (n : Fin 64) (value : BitVec 32) (s : State) : Out :=
  let v := value.toNat
  if target.val = 2 then
    let k := n.val % 4
    if bar0Answers s fn 0x4400 then
      let l := Tbl.getD s.mgr.logs k resetPLog
      if headAccepted (bits v 0 20) l.head l.tail (2 ^ l.sizeLog2) then
        .next { s with mgr := { s.mgr with logs := Tbl.set s.mgr.logs k { l with head := bits v 0 20 } } }
      else .next (countMalformed s)
    else .next s
  else
    let slice := target.val == 1
    match windowAt s fn slice n with
    | none => .next s
    | some (m, i) =>
      let h := bits v 0 (if slice then 12 else 16)
      if headAccepted h i.ring.head i.ring.tail (ringSize i.ring) then
        .next (modRing m (fun r => { r with head := h, headRefused := false }) s)
      else if slice then .next (countMalformed s)
      else .next (modRing m (fun r => { r with headRefused := true }) s)

/-! ### Interrupts (R56) -/

/-- A W1C of PENDING: the entries counted so far are treated as handled. -/
def execTwIrqStsClear (fn : Fin 2) (inst : Fin 64) (s : State) : Out :=
  match nativeAt s fn inst with
  | none => .next s
  | some _ => .next (modRing inst clearUnsignalled s)

/-- COAL_TIME µs have passed since the first unsignalled entry: the vector is signalled. -/
def execCoalTimeExpiry (inst : Fin 64) (s : State) : Out :=
  match Tbl.get? s.insts inst with
  | none => .next s
  | some i =>
    let r := i.ring
    act s (powered s && r.irqEnable && !i.slice && decide (0 < r.unsignalled ∧ r.coalTime ≠ 0
        ∧ r.coalStart + r.coalTime ≤ s.now))
      (fun s => signalInst inst 0 (modRing inst clearUnsignalled s))

/-! ### The doorbell (R354) -/

/-- TW_MBOX_DB or SL_MBOX_DB: takes the waiting message, and is discarded while none waits (log entry 10). -/
def execTwMboxDb (fn : Fin 2) (slice : Bool) (win : Fin 64) (word : BitVec 32) (s : State) : Out :=
  match windowAt s fn slice win with
  | none => .next s
  | some (n, i) =>
    act s i.mbox.deliv (fun s =>
      let s := modInst n (fun i => { i with mbox := { i.mbox with deliv := false, word := word.toNat } }) s
      settleDrain n (mailboxEvent 0 2 n i.mbox.msgLen word.toNat s))

/-! ### Reads with a side effect (R490) -/

/-- Change the latches of a function. -/
def modLatch (fn : Nat) (f : Latch → Latch) (s : State) : State :=
  if fn = 0 then { s with glb := { s.glb with latch0 := f s.glb.latch0 } }
  else { s with glb := { s.glb with latch1 := f s.glb.latch1 } }

/-- The bytes that the last register read returned. -/
def answerRead (bs : List Byte) (s : State) : State := { s with hif := { s.hif with readData := bs } }

/-- GLB_SEQ_LO: bits [31:0] of the current value; [47:32] are latched for GLB_SEQ_HI. -/
def execGlbSeqLoRead (fn : Fin 2) (s : State) : Out :=
  act s (bar0Answers s fn 0x20) (fun s =>
    answerRead (leBytes 4 s.glb.seq) (modLatch fn (fun l => { l with seqHi := bits s.glb.seq 32 16 }) s))

/-- GLB_TIME_LO: bits [31:0] of the timebase; [63:32] are latched for GLB_TIME_HI. -/
def execGlbTimeLoRead (fn : Fin 2) (s : State) : Out :=
  act s (bar0Answers s fn 0x28) (fun s =>
    answerRead (leBytes 4 s.now) (modLatch fn (fun l => { l with timeHi := bits s.now 32 32 }) s))

/-- GLB_RECOV_ADDR_LO: bits [31:12]; the high half is latched for GLB_RECOV_ADDR_HI. -/
def execGlbRecovAddrLoRead (fn : Fin 2) (s : State) : Out :=
  act s (bar0Answers s fn 0x30) (fun s =>
    answerRead (leBytes 4 s.glb.recovAddr) (modLatch fn (fun l => { l with recovHi := bits s.glb.recovAddr 32 32 }) s))

end Sys2Proof.Machine
end

