-- ==== Sys2Proof/Machine/Checks.lean ====
section
/-! DEFINITION. The checks of R46 that come before a command has any effect: the fields of Tables 2.4 to 2.7 in
ascending byte offset, the volume, the range and the handles; the rights of Table 10.2; the objects a command uses. -/

namespace Sys2Proof.Machine

/-! ### Opcodes by what they use -/

/-- Every opcode of Table 2.6. -/
def tenantOps : List Nat :=
  [opRead, opWrite, opReadAsset, opInstallChunk, opFlush, opTrim, opVerify, opScan, opIndexSearch, opIndexInsert,
   opIndexDelete, opIndexStep, opProgramLoad, opProgramUnload, opCodec, opCodecResume, opCodecSave, opCodecRestore,
   opAbort, opMailboxNote, opLicenseLoad, opLicenseDrop, opSealOpen, opSealClose, opAttest, opLogRead, opFeatureSet,
   opFeatureGet]

/-- Every opcode of Table 2.7. -/
def managerOps : List Nat :=
  [opFwStage, opFwActivate, opInstanceCreate, opInstanceDestroy, opInstanceReset, opVolumeCreate, opVolumeDelete,
   opSpanJoin, opSpanLeave, opSpanMirrorSet, opSanitize, opDeviceReset]

/-- The opcodes a slice accepts (R373). -/
def sliceOps : List Nat :=
  [opRead, opWrite, opReadAsset, opInstallChunk, opFlush, opTrim, opVerify, opCodec, opCodecResume, opAbort,
   opMailboxNote, opLicenseLoad, opLicenseDrop, opSealOpen, opSealClose, opLogRead, opFeatureSet, opFeatureGet]

/-- The opcodes that take a range-lock entry (R61). -/
def lockOps : List Nat := [opRead, opWrite, opReadAsset, opInstallChunk, opTrim, opVerify, opScan]

/-- The opcodes whose entry is exclusive. -/
def exclusiveOps : List Nat := [opWrite, opInstallChunk, opTrim]

/-- The opcodes that use VOLUME. -/
def volumeOps : List Nat := lockOps ++ [opVolumeCreate, opVolumeDelete, opSpanMirrorSet, opSanitize]

/-- The opcodes that use LENGTH. -/
def lengthOps : List Nat := lockOps ++ [opCodec, opCodecResume]

/-- The opcodes that use HANDLE. -/
def handleOps : List Nat :=
  [opReadAsset, opInstallChunk, opScan, opIndexSearch, opIndexInsert, opIndexDelete, opIndexStep, opProgramUnload,
   opCodec, opLicenseDrop, opSealClose]

/-- The opcodes that use BUFFER. -/
def bufferOps : List Nat :=
  [opRead, opWrite, opReadAsset, opInstallChunk, opScan, opProgramLoad, opCodec, opCodecResume, opCodecSave,
   opCodecRestore, opLicenseLoad, opSealOpen, opAttest, opLogRead, opFwStage]

/-- The flags legal on an opcode (R44). -/
def legalFlags (op : Nat) : Nat :=
  (if op = opAbort then 0 else 1) + (if exclusiveOps.contains op then 2 else 0) + (if op = opWrite then 4 else 0)
    + (if op = opReadAsset ∨ op = opScan then 8 else 0) + (if op = opCodec ∨ op = opCodecResume then 16 else 0)
    + (if bufferOps.contains op then 32 else 0)

/-- The opcodes of which the device runs one at a time (R49). -/
def soleOps : List Nat := [opFwActivate, opDeviceReset, opInstanceReset, opInstanceDestroy, opSanitize]

/-- The opcodes an ABORT cannot catch (R70). -/
def unabortableOps : List Nat := opAbort :: soleOps

/-- The opcodes that start before READY (R441); an ABORT runs at its acceptance. -/
def earlyOps : List Nat := [opLogRead, opFeatureGet, opFeatureSet, opAttest, opFwStage, opAbort]

/-- Opcodes that hold blocks of a volume in host-visible bytes of LENGTH blocks. -/
def blockOps : List Nat := [opRead, opWrite, opReadAsset, opTrim, opVerify, opScan]

/-! ### Features (Tables 2.8, 3.8, R404, R432) -/

/-- Is there a feature of this identifier for the instance? Thermal and supply features belong to instance 0
(log entry 18). -/
def featureKnown (n id : Nat) : Bool :=
  decide (1 ≤ id ∧ id ≤ 3) || decide (0x10 ≤ id ∧ id ≤ 0x12) || id == 0x20
    || (n == 0 && (id == 0x30 || id == 0x31))

/-- May the feature be set to this value? CODEC_FORMATS is read only. -/
def featureValueLegal (id v : Nat) : Bool :=
  match id with
  | 0x01 => decide (v ≤ 1)
  | 0x02 => decide (1 ≤ v ∧ v ≤ 1000000)
  | 0x03 => decide (v ≤ 0xFFFF)
  | 0x10 => decide (v ≤ 64)
  | 0x11 => decide (v ≤ 15)
  | 0x20 => decide (20 ≤ v ∧ v ≤ 100000)
  | 0x30 => decide (8 ≤ v ∧ v ≤ 19)
  | 0x31 => decide (1 ≤ v ∧ v ≤ 4)
  | _ => false

/-! ### Check 3: fields in ascending offset; each pair is (offset, is it wrong) -/

/-- A run of bytes that must be zero. -/
def mustBeZero (p : List Byte) (o n : Nat) : Nat × Bool := (o, !allZero (bytesAt p o n))

/-- BUDGET_US: 0, or 1 to 1,000,000. -/
def budgetField (p : List Byte) : Nat × Bool := (60, decide (1000000 < field p 60 4))

/-- LENGTH outside its bounds. -/
def lengthWrong (op len : Nat) : Bool :=
  if op = opRead ∨ op = opWrite then decide (len = 0 ∨ 16384 < len)
  else if op = opInstallChunk then decide (len = 0 ∨ 69632 < len)
  else if op = opTrim ∨ op = opVerify ∨ op = opScan then decide (len = 0)
  else if lengthOps.contains op then false
  else decide (len ≠ 0)

/-- BUFLEN below what the opcode needs (Table 2.6, R108). -/
def bufLenWrong (op : Nat) (p : List Byte) : Bool :=
  if op = opRead ∨ op = opWrite then decide (pkBufLen p < 4096 * pkLength p)
  else if op = opCodec ∨ op = opCodecResume then decide (pkBufLen p < pkLength p)
  else if op = opCodecSave then decide (pkBufLen p < 69632)
  else if bufferOps.contains op then false
  else decide (pkBufLen p ≠ 0)

/-- The fields of SPECIFIC (Tables 2.6 and 2.7). -/
def specificFields (n op : Nat) (p : List Byte) : List (Nat × Bool) :=
  let z := mustBeZero p
  let f := field p
  if op = opRead ∨ op = opWrite ∨ op = opTrim ∨ op = opVerify then [z 36 24, budgetField p]
  else if op = opReadAsset then [(40, decide (f 40 4 = 0 ∨ 4096 < f 40 4)), z 52 8, budgetField p]
  else if op = opInstallChunk then [z 40 20, budgetField p]
  else if op = opScan then [z 57 1, budgetField p]
  else if op = opIndexSearch then [z 52 12]
  else if op = opIndexInsert then [z 60 4]
  else if op = opIndexDelete then [(54, decide (1 < f 54 1)), z 55 9]
  else if op = opIndexStep then [z 38 26]
  else if op = opProgramLoad then [(36, decide (1 < f 36 4)), z 40 24]
  else if op = opCodec then
    [(44, decide (f 44 4 = 0)), (48, decide (1 < f 48 1)), (49, decide (4 < f 49 1)), (50, decide (3 < f 50 1)), z 51 1,
     (52, decide (64 < f 52 4)), z 56 8]
  else if op = opCodecResume then [(44, decide (f 44 4 = 0)), z 48 4, (52, decide (64 < f 52 4)), z 56 8]
  else if op = opCodecSave ∨ op = opCodecRestore then [z 36 16, (52, decide (64 < f 52 4)), z 56 8]
  else if op = opAbort then [z 38 2, z 44 20]
  else if op = opMailboxNote then [(36, decide (f 36 4 = 0 ∨ 256 < f 36 4)), z 40 24]
  else if op = opSealOpen then [z 48 16]
  else if op = opAttest then [z 56 8]
  else if op = opLogRead then [z 38 2, z 48 16]
  else if op = opFeatureSet then
    [(36, !featureKnown n (f 36 2)), z 38 2, (40, !featureValueLegal (f 36 2) (f 40 8)), z 48 16]
  else if op = opFeatureGet then [(36, !featureKnown n (f 36 2)), z 38 26]
  else if op = opFwStage then [(40, decide (1 < f 40 1)), z 41 23]
  else if op = opInstanceCreate then
    [(36, decide (f 36 1 = 0 ∨ 63 < f 36 1)), (37, decide (1 < f 37 1)), z 38 2, z 52 12]
  else if op = opInstanceDestroy ∨ op = opInstanceReset then [(36, decide (f 36 1 = 0 ∨ 63 < f 36 1)), z 37 27]
  else if op = opVolumeCreate then [(36, decide (1 < f 36 1)), z 37 3, z 56 8]
  else if op = opSpanJoin then [(38, decide (7 < f 38 1)), z 39 1, z 44 20]
  else if op = opSpanMirrorSet then [(36, decide (f 36 1 = 0 ∨ 3 < f 36 1)), z 37 1, z 42 22]
  else if op = opSanitize then [(36, decide (2 < f 36 1)), z 37 27]
  else [z 36 28]

/-- SUB_SEQ differs from the SEQ of the post (R46), or its low half from SEQ16 of a slice (R373). -/
def subSeqWrong (slice : Bool) (t : Tag) : Bool :=
  if slice then !(pkSubSeq t.packet % 65536 == t.seq16) else !(pkSubSeq t.packet == t.seq)

/-- BUFFER breaks its alignment, or the scatter list has a fault (R45). -/
def bufferWrong (s : State) (n op : Nat) (p : List Byte) : Bool :=
  if !bufferOps.contains op then !(pkBuffer p == 0)
  else decide (pkBuffer p % (if pkSgl p then 16 else 4) ≠ 0) || (bufferOf s n p).isNone

/-- The lengths of the list sum to another value than BUFLEN (R45). -/
def sumWrong (s : State) (n : Nat) (p : List Byte) : Bool :=
  pkSgl p && (match bufferOf s n p with
    | none => false
    | some rs => !(runsLen rs == pkBufLen p))

/-- All fields of check 3 in ascending offset. -/
def allFields (s : State) (n : Nat) (slice : Bool) (t : Tag) : List (Nat × Bool) :=
  let p := t.packet
  let op := pkOpcode p
  [(1, !(Nat.land (pkFlags p) (255 - legalFlags op) == 0)), (2, !volumeOps.contains op && !(pkVolume p == 0)),
   (4, subSeqWrong slice t), (8, !lockOps.contains op && !(pkLba p == 0)), (16, lengthWrong op (pkLength p)),
   (20, !handleOps.contains op && !(pkHandle p == 0)), (24, bufferWrong s n op p),
   (32, sumWrong s n p || bufLenWrong op p)] ++ specificFields n op p

/-- The first field found wrong (log entry 19). -/
def firstWrong (fs : List (Nat × Bool)) : Option Nat := (fs.find? (fun f => f.2)).map Prod.fst

/-! ### Checks 4 and 5: the volume and the range -/

/-- Has a command of this opcode started whose packet meets `f`, and has nothing stopped it? What it ends is unknown to
commands whose checks begin later (R199, R300). -/
def endingBy (s : State) (op : Nat) (f : Nat → List Byte → Bool) : Bool :=
  s.tags.any (fun p => p.2.started && (p.2.st == .running || p.2.st == .held) && pkOpcode p.2.packet == op
    && f (keyInst p.1) p.2.packet)

/-- Does the volume serve commands: the reply of its create is committed, and no VOLUME_DELETE has started (R299, R300)?
(log entry 141) -/
def volServes (s : State) (v : Nat) (u : Vol) : Bool :=
  u.serves && !endingBy s opVolumeDelete (fun _ p => pkVolume p == v)

/-- CAPACITY of a volume that serves the instance: a local volume, or a bound alias (R389), assigned to it (R349). For
the manager-only opcodes a volume counts as assigned to instance 0 (R299). -/
def capacityFor (s : State) (n op v : Nat) : Option Nat :=
  let free := n == 0 && managerOps.contains op
  match vol? s v with
  | some u => if volServes s v u && (free || bit u.access n) then some u.capacity else none
  | none =>
    match Tbl.get? s.spn.aliases v with
    | some a => if a.bind && a.bound && (free || bit a.access n) then some a.capacity else none
    | none => none

/-- Check 4 (R46, R48) (log entry 141). -/
def volumeWrong (s : State) (n op : Nat) (p : List Byte) : Bool :=
  if op = opVolumeCreate ∨ (op = opSanitize ∧ pkVolume p = 0xFFFF) then false
  else volumeOps.contains op && (capacityFor s n op (pkVolume p)).isNone

/-- Check 5: LBA + LENGTH lies within the volume; of INSTALL_CHUNK, whose LENGTH counts bytes, LBA alone. -/
def rangeWrong (s : State) (n op : Nat) (p : List Byte) : Bool :=
  match capacityFor s n op (pkVolume p) with
  | none => false
  | some c =>
    if blockOps.contains op then decide (c < pkLba p + pkLength p)
    else if op = opInstallChunk then decide (c ≤ pkLba p)
    else false

/-! ### Check 6: handles -/

/-- The licence a handle names in instance `n` (R134); a licence that is DROPPING takes no new user (R137). -/
def licenceOf (s : State) (n h : Nat) : Option Lic :=
  match Tbl.get? s.sec.licences (h % 256) with
  | some l => if l.inst == n && l.gen == h / 256 && !(l.st == .dropping) then some l else none
  | none => none

/-- The seal session a handle names (R145). -/
def sessionOf (s : State) (n h : Nat) : Option Seal :=
  match Tbl.get? s.sec.seals (h % 1024) with
  | some x => if x.inst == n && x.gen == h / 1024 && !(x.st == .closing) then some x else none
  | none => none

/-- The program a handle names (R196); once a PROGRAM_UNLOAD of it has started the handle is unknown (R199). -/
def programOf (s : State) (n h : Nat) : Option Prog :=
  match Tbl.get? s.dmz.progs (h % 256) with
  | some x =>
    if x.inst == n && x.gen == h / 256 && x.st == .loaded
        && !endingBy s opProgramUnload (fun m p => m == n && pkHandle p == h) then some x else none
  | none => none

/-- Does a delete request wait on the table (R245)? Its handle is then unknown to commands started afterwards. -/
def deleting (s : State) (tb : Nat) : Bool :=
  match s.idx.req with
  | some r => r.op == 2 && r.table == tb
  | none => false

/-- The index table a handle names (R228). -/
def tableOf (s : State) (n h : Nat) : Option ITable :=
  match Tbl.get? s.idx.tables (h % 256) with
  | some x => if x.owner == n && x.gen == h / 256 && !deleting s (h % 256) then some x else none
  | none => none

/-- The key of a codec context. -/
def ctxKey (n c : Nat) : Nat := n * 65 + c

/-- Does a HANDLE name a context of the instance that is in DICTIONARY (R110)? -/
def dictionaryOf (s : State) (n h : Nat) : Option Ctx :=
  match Tbl.get? s.bsh.ctxs (ctxKey n h) with
  | some c => if decide (1 ≤ h ∧ h ≤ 64) && c.st == .dictionary then some c else none
  | none => none

/-- A handle field: its offset, the status of an unknown handle, and the object it names. -/
structure HandleField where
  off : Nat
  status : Nat
  use : Option Use

/-- A licence handle. -/
def hLicence (s : State) (n off h : Nat) : HandleField :=
  { off := off, status := stNoLicense, use := (licenceOf s n h).map (fun _ => .licence (h % 256)) }

/-- A seal session handle. -/
def hSession (s : State) (n off h : Nat) : HandleField :=
  { off := off, status := stBadField, use := (sessionOf s n h).map (fun _ => .session (h % 1024)) }

/-- A program handle. -/
def hProgram (s : State) (n off h : Nat) : HandleField :=
  { off := off, status := stBadField, use := (programOf s n h).map (fun _ => .program (h % 256)) }

/-- An index table handle. -/
def hTable (s : State) (n off h : Nat) : HandleField :=
  { off := off, status := stBadField, use := (tableOf s n h).map (fun _ => .table (h % 256)) }

/-- FILTER of READ_ASSET: a program or an index table; a value that names both is read as the program (log entry 21). -/
def hFilter (s : State) (n off h : Nat) : HandleField :=
  match programOf s n h with
  | some _ => hProgram s n off h
  | none => hTable s n off h

/-- The handle fields of a packet; a field that may be 0 is left out when it is 0. -/
def handleFields (s : State) (n : Nat) (p : List Byte) : List HandleField :=
  let op := pkOpcode p
  let h := pkHandle p
  let opt (v : Nat) (f : HandleField) : List HandleField := if v = 0 then [] else [f]
  if op = opReadAsset then
    hLicence s n 20 h :: (opt (field p 44 4) (hSession s n 44 (field p 44 4))
      ++ opt (field p 48 4) (hFilter s n 48 (field p 48 4)))
  else if op = opInstallChunk ∨ op = opLicenseDrop then [hLicence s n 20 h]
  else if op = opScan then
    hProgram s n 20 h :: (opt (field p 44 4) (hSession s n 44 (field p 44 4))
      ++ opt (field p 48 4) (hLicence s n 48 (field p 48 4)))
  else if op = opIndexSearch ∨ op = opIndexInsert ∨ op = opIndexDelete ∨ op = opIndexStep then [hTable s n 20 h]
  else if op = opProgramUnload then [hProgram s n 20 h]
  else if op = opSealClose then [hSession s n 20 h]
  else if op = opCodec then
    opt h { off := 20, status := stBadField, use := (dictionaryOf s n h).map (fun _ => .context h) }
  else []

/-- The first unknown handle. -/
def handleWrong (s : State) (n : Nat) (p : List Byte) : Option HandleField :=
  (handleFields s n p).find? (fun f => f.use.isNone)

/-- The objects a command uses from the start of its checks (R137, R148, R199, R245); a command that ends an object is
no user of it (log entry 117). -/
def usesOf (s : State) (n : Nat) (p : List Byte) : List Use :=
  let op := pkOpcode p
  if op = opLicenseDrop ∨ op = opSealClose ∨ op = opProgramUnload then []
  else (handleFields s n p).filterMap (fun f => f.use)

/-! ### The checks of R46 in order, then the rights of R348 -/

/-- Check 2: a manager-only opcode outside instance 0, or while PRIV is 0; a MAILBOX_NOTE in instance 0. -/
def permissionWrong (s : State) (n op : Nat) : Bool :=
  (managerOps.contains op && !(n == 0 && s.mgr.priv)) || (op == opMailboxNote && n == 0)

/-- Does the instance hold the right that the opcode needs (Table 10.2)? -/
def rightWrong (i : Inst) (n op : Nat) : Bool :=
  !(n == 0) && ((exclusiveOps.contains op && !bit i.rights 0) || (op == opProgramLoad && !bit i.rights 1)
    || ((op == opLicenseLoad || op == opSealOpen) && !bit i.rights 2)
    || ([opCodec, opCodecResume, opCodecSave, opCodecRestore].contains op && !bit i.rights 3))

/-- A volume that holds the copy role of a mirror takes no write (R399). -/
def copyWrong (s : State) (op : Nat) (p : List Byte) : Bool :=
  exclusiveOps.contains op && (match vol? s (pkVolume p) with
    | some u => match u.mirror with
      | some m => !m.primary
      | none => false
    | none => false)

/-- The reply of the first check that fails: R46, then R348, then R399 (log entry 19). -/
def failedCheck (s : State) (n : Nat) (i : Inst) (t : Tag) : Option Reply :=
  let p := t.packet
  let op := pkOpcode p
  if !(if i.slice then sliceOps.contains op else tenantOps.contains op || managerOps.contains op) then
    some { status := stBadOpcode }
  else if permissionWrong s n op then some { status := stNotPermitted }
  else match firstWrong (allFields s n i.slice t) with
    | some o => some { status := stBadField, r0 := o }
    | none =>
      if volumeWrong s n op p then some { status := stNoVolume }
      else if rangeWrong s n op p then some { status := stBadRange }
      else match handleWrong s n p with
        | some h => some { status := h.status, r0 := if h.status = stBadField then h.off else 0 }
        | none =>
          if rightWrong i n op then some { status := stNotPermitted }
          else if copyWrong s op p then some { status := stReadOnly }
          else none

/-! ### Range locks (R61, R62) -/

/-- Do two entries conflict: overlapping ranges of one volume, at least one exclusive? (log entry 8) -/
def locksConflict (a b : Lock) : Bool :=
  a.vol == b.vol && (a.excl || b.excl) && decide (a.first < b.first + b.len ∧ b.first < a.first + a.len)

/-- Does some entry of `k` conflict with an entry another command holds, or with that of an earlier one that waits? -/
def lockBlocked (s : State) (k : Nat) : Bool :=
  s.locks.any (fun l => l.tag == k && s.locks.any (fun o =>
    !(o.tag == k) && locksConflict l o && (o.held || decide (o.order < l.order))))

/-- May command `k` take its entries now? The table holds 2,048; a free entry goes first to an earlier command that
waits for nothing else (log entry 8). -/
def lockGrantable (s : State) (k : Nat) : Bool :=
  let mine := s.locks.filter (fun l => l.tag == k)
  let order := (mine.map (fun l => l.order)).foldl max 0
  !mine.isEmpty && !lockBlocked s k
    && decide ((s.locks.filter (fun l => l.held)).length + mine.length ≤ 2048)
    && !(s.locks.any (fun o => !o.held && !(o.tag == k) && decide (o.order < order) && !lockBlocked s o.tag))

/-- Command `k` takes its entries. -/
def grantLock (k : Nat) (s : State) : State :=
  { s with locks := s.locks.map (fun l => if l.tag = k then { l with held := true } else l) }

/-- Command `k` asks for entries, and takes them at once when it may (log entry 8). -/
def requestLock (k : Nat) (ls : List Lock) (s : State) : State :=
  let s := { s with locks := s.locks ++ ls }
  if lockGrantable s k then grantLock k s else s

/-- The entry of a command over blocks of a volume, not yet held. -/
def lockEntry (k order vol first len : Nat) (excl : Bool) : Lock :=
  { tag := k, vol := vol, first := first, len := len, excl := excl, held := false, order := order }

/-- The entries a command asks for when it starts: its block range, or whole volumes for SANITIZE (R302). The entry of
an INSTALL_CHUNK covers the blocks of its record (R85), known once the directory is verified. -/
def locksAtStart (s : State) (k : Nat) (t : Tag) : List Lock :=
  let p := t.packet
  let op := pkOpcode p
  if op = opInstallChunk then []
  else if lockOps.contains op then
    if (vol? s (pkVolume p)).isSome then
      [lockEntry k t.order (pkVolume p) (pkLba p) (pkLength p) (exclusiveOps.contains op)]
    else []
  else if op = opSanitize then
    if pkVolume p = 0xFFFF then s.flc.vols.map (fun v => lockEntry k t.order v.1 0 v.2.capacity true)
    else match vol? s (pkVolume p) with
      | some u => [lockEntry k t.order (pkVolume p) 0 u.capacity true]
      | none => []
  else []

end Sys2Proof.Machine
end

