-- ==== Sys2Proof/Machine/FlashOps.lean ====
section
/-! DEFINITION. The map, the journal and the data of the volumes: how a command's blocks become groups of journal
entries and how a durable page makes them take effect (R257 to R261, R276, R285, R292). -/

namespace Sys2Proof.Machine

/-- Bytes of a block. -/
abbrev blockBytes : Nat := 4096

/-- May programs and erases start? Not during a supply dip (R420), and not once the flush is done (R422). -/
def programsRun (s : State) : Bool :=
  powered s && (s.pwr.supply == .normal || s.pwr.supply == .flush)

/-- Is a block poisoned? -/
def poisoned (u : Vol) (lba : Nat) : Bool :=
  match Tbl.get? u.map (lba / 8) with
  | some e => bit e.poison (lba % 8)
  | none => false

/-- Is the block poisoned, or did its read fail (`lost`)? A block of an unmapped allotment touches no media (R261). -/
def undecoded (u : Vol) (lost : List Nat) (lba : Nat) : Bool :=
  poisoned u lba || (lost.contains lba && Tbl.has u.map (lba / 8))

/-- The bytes of blocks [lba, lba + n) of a volume; an unmapped allotment holds zeros (R261). -/
def blocksOf (u : Vol) (lba n : Nat) : List Byte := Cells.readN u.data (blockBytes * lba) (blockBytes * n)

/-! ### Poisoned runs (log 0x0003) -/

/-- Take blocks [first, first + count) of a volume out of a run: it shortens, splits or goes (Table 8.14). -/
def cutRun (vol first count : Nat) (r : PoisonRun) : List PoisonRun :=
  if r.vol ≠ vol ∨ r.first + r.count ≤ first ∨ first + count ≤ r.first then [r]
  else
    (if r.first < first then [{ r with count := first - r.first }] else [])
      ++ (if first + count < r.first + r.count then
            [{ r with first := first + count, count := r.first + r.count - (first + count) }] else [])

/-- Clear the runs over a range. -/
def clearRuns (vol first count : Nat) (s : State) : State :=
  { s with flc := { s.flc with runs := s.flc.runs.flatMap (cutRun vol first count) } }

/-! ### Which superblock holds an allotment -/

/-- The allotment lies in superblock `sb` from now on, and in no other. -/
def moveRef (vol allot sb : Nat) (s : State) : State :=
  { s with flc := { s.flc with superblocks := Tbl.mapVals s.flc.superblocks (fun k b =>
      let rest := b.refs.filter (fun r => !(r == (vol, allot)))
      if k = sb then { b with refs := rest ++ [(vol, allot)] } else { b with refs := rest }) } }

/-- No superblock holds the allotment any more. -/
def dropRef (vol : Nat) (allots : Nat → Bool) (s : State) : State :=
  { s with flc := { s.flc with superblocks := Tbl.mapVals s.flc.superblocks (fun _ b =>
      { b with refs := b.refs.filter (fun r => !(r.1 == vol && allots r.2)) }) } }

/-- The reads under way over an allotment may have resolved its entry to superblock `sb`: they pin it (R279). -/
def pinReads (vol allot sb : Nat) (s : State) : State :=
  let os := (s.locks.filter (fun l => l.held && !l.excl && l.vol == vol
    && decide (l.first < allot * 8 + 8 ∧ allot * 8 < l.first + l.len))).map (fun l => l.order)
  { s with flc := { s.flc with superblocks := Tbl.modify s.flc.superblocks sb (fun b => { b with pins := b.pins ++ os }) } }

/-- An allotment has left a die that is being relocated. -/
def countMoved (die : Nat) (s : State) : State :=
  { s with flc := { s.flc with dies := Tbl.modify s.flc.dies die (fun d =>
      if d.rebuilding then { d with relocated := d.relocated + 1 } else d) } }

/-- The superblock that takes new data: an open one of the write buffer, or a dense one while R268 says so. -/
def openSuperblock (s : State) : Option Nat :=
  (s.flc.superblocks.find? (fun p => p.2.st == .opened && (p.2.slc == !s.flc.denseDirect))).map Prod.fst

/-! ### Journal entries take effect (R278, R285, R292) -/

/-- The poison of an allotment once blocks [first, first + count) hold new data (R292). -/
def clearPoison (old first count : Nat) : Nat :=
  (List.range 8).foldl (fun a j => if bit old j && !(decide (first ≤ j ∧ j < first + count)) then a + 2 ^ j else a) 0

/-- Set bits of a poison byte. -/
def addPoison (old new : Nat) : Nat :=
  (List.range 8).foldl (fun a j => if bit old j || bit new j then a + 2 ^ j else a) 0

/-- One entry applied to a map. -/
def mapApply (m : Tbl MapEnt) : JEnt → Tbl MapEnt
  | .mapSet _ a first count _ ent =>
    let old := match Tbl.get? m a with
      | some e => e.poison
      | none => 0
    Tbl.set m a { ent with poison := clearPoison old first count }
  | .mapMove _ a old new _ _ => if Tbl.get? m a = some old then Tbl.set m a new else m
  | .trimRange _ first count => m.filter (fun p => !decide (first / 8 ≤ p.1 ∧ p.1 < (first + count) / 8))
  | .poison _ a bits => Tbl.modify m a (fun e => { e with poison := addPoison e.poison bits })
  | _ => m

/-- One entry applied to the bytes of a volume. -/
def dataApply (d : Cells) : JEnt → Cells
  | .mapSet _ a first count content _ =>
    Cells.paste d (blockBytes * (a * 8 + first)) (blockBytes * count) content
  | .trimRange _ first count => Cells.clear d (blockBytes * first) (blockBytes * count)
  | _ => d

/-- The volume an entry concerns. -/
def entryVol : JEnt → Option Nat
  | .mapSet v _ _ _ _ _ => some v
  | .mapMove v _ _ _ _ _ => some v
  | .trimRange v _ _ => some v
  | .poison v _ _ => some v
  | .volume v _ => some v
  | .mirror v => some v
  | .sanitize v _ => some v
  | _ => none

/-- Note the map segment of an allotment dirty (R286). -/
def markDirty (vol allot : Nat) (s : State) : State :=
  let k := 2 ^ 32 * vol + allot / 524288
  if s.flc.dirty.contains k then s else { s with flc := { s.flc with dirty := s.flc.dirty ++ [k] } }

/-- An entry takes effect where reads see it. -/
def applyVisible (e : JEnt) (s : State) : State :=
  match entryVol e with
  | none => s
  | some v =>
    let moved := match e, vol? s v with
      | .mapMove _ a old _ _ _, some u => Tbl.get? u.map a == some old
      | _, _ => false
    let s := modVol v (fun u => { u with map := mapApply u.map e, data := dataApply u.data e }) s
    match e with
    | .mapSet _ a first count _ _ =>
      let s := markDirty v a (clearRuns v (a * 8 + first) count s)
      match openSuperblock s with
      | some sb => moveRef v a sb s
      | none => dropRef v (fun x => x == a) s
    | .mapMove _ a old _ src dst =>
      if moved then countMoved old.die (markDirty v a (moveRef v a dst (pinReads v a src s))) else s
    | .trimRange _ first count =>
      markDirty v (first / 8) (clearRuns v first count
        (dropRef v (fun x => decide (first / 8 ≤ x ∧ x < (first + count) / 8)) s))
    | .poison _ a _ => markDirty v a s
    | _ => s

/-- An entry takes effect where a power loss leaves it. -/
def applyDurable (e : JEnt) (s : State) : State :=
  match e with
  | .seqLimit l => { s with glb := { s.glb with seqLimit := l } }
  | _ =>
    match entryVol e with
    | none => s
    | some v => modVol v (fun u => { u with mapDurable := mapApply u.mapDurable e, durable := dataApply u.durable e }) s

/-- A group takes effect: a held one is visible already (R67). -/
def applyGroup (g : Group) (s : State) : State :=
  let s := if g.held then s else g.entries.foldl (fun s e => applyVisible e s) s
  g.entries.foldl (fun s e => applyDurable e s) s

/-- Append a group whose entries reads see at once. -/
def appendVisible (es : List JEnt) (s : State) : State :=
  appendGroup true es (es.foldl (fun s e => applyVisible e s) s)

/-! ### The groups of a command (R260, R285) -/

/-- An output counts as shrunk: at most L - (L * M) / 16, and below L when M is 0 (R103). -/
def shrunk (len l m : Nat) : Bool := if m = 0 then decide (len < l) else decide (len ≤ l - l * m / 16)

/-- Slots of a packed record: max(FRAME_LEN, 16) / 1,024, rounded up (R259). -/
def slotsOf (frame : Nat) : Nat := (1023 + max frame 16) / 1024

/-- The map entry of an allotment written afresh: packed when it is compressed and shrunk and takes at most 32 slots
(R105, R259), otherwise plain; where it lands is the device's own affair. -/
def freshEnt (s : State) (i : Nat) (compress : Bool) (margin : Nat) (whole : List Byte) : MapEnt :=
  let die := match openSuperblock s with
    | some sb =>
      let bs := (Tbl.get? s.flc.superblocks sb).elim [] (fun b => b.blocks)
      (bs.getD (Config.freeNat s.fresh (4 * i) % max bs.length 1) (0, 0)).1
    | none => Config.freeNat s.fresh (4 * i) % 256
  let page := Config.freeNat s.fresh (4 * i + 1) % 2 ^ 24
  let len := Config.frameLen whole
  if compress && shrunk len 32768 margin && decide (slotsOf len ≤ 32) then
    { poison := 0, packed := true, die := die, page := page, slot := Config.freeNat s.fresh (4 * i + 2) % 16
      len := slotsOf len }
  else { poison := 0, packed := false, die := die, page := page / 2 * 2, slot := 0, len := 0 }

/-- Bytes of the media an allotment takes: its slots, or two pages' data. -/
def entBytes (e : MapEnt) : Nat := if e.packed then 1024 * e.len else 32768

/-- The entry that gives blocks [first, first + count) of allotment `a` the bytes `bs`. A partial update reads the
allotment as it stands, replaces the blocks and writes it afresh (R260). -/
def setBlocks (s : State) (v : Nat) (u : Vol) (compress : Bool) (margin a first count i : Nat) (bs : List Byte) : JEnt :=
  let whole := overlay (Cells.readN u.data (32768 * a) 32768) (blockBytes * first) bs
  .mapSet v a first count (Cells.ofList bs) (freshEnt s i compress margin whole)

/-- The allotments that [lba, lba + n) touches, each with its first block and count. -/
def allotPieces (lba n : Nat) : List (Nat × Nat × Nat) :=
  if n = 0 then []
  else (List.range ((lba + n - 1) / 8 - lba / 8 + 1)).map (fun i =>
    let a := lba / 8 + i
    let lo := max lba (a * 8)
    let hi := min (lba + n) (a * 8 + 8)
    (a, lo - a * 8, hi - lo))

/-- The pieces of [lba, lba + n) by atomic unit of 64 blocks, ascending (R63, R64). -/
def unitPieces (lba n : Nat) : List (Nat × Nat) :=
  if n = 0 then []
  else (List.range ((lba + n - 1) / 64 - lba / 64 + 1)).map (fun i =>
    let u := lba / 64 + i
    let lo := max lba (u * 64)
    (lo, min (lba + n) (u * 64 + 64) - lo))

/-- The blocks of the first `units` atomic units of a range: a prefix that ends on a unit boundary, or at the end of
the range (R64). -/
def prefixBlocks (lba n units : Nat) : Nat := min n ((lba / 64 + units) * 64 - lba)

/-- The group of one atomic unit of a write: `bs` are the bytes of [lba, lba + n). -/
def unitGroup (s : State) (v : Nat) (u : Vol) (compress : Bool) (margin lba n : Nat) (bs : List Byte) : List JEnt :=
  (allotPieces lba n).zipIdx.map (fun q =>
    let (a, first, count) := q.1
    setBlocks s v u compress margin a first count q.2
      ((bs.drop (blockBytes * (a * 8 + first - lba))).take (blockBytes * count)))

/-- Append a group and note its number. -/
def addGroup (held : Bool) (es : List JEnt) (acc : State × List Nat) : State × List Nat :=
  let (s, ids) := acc
  let id := s.flc.nextGroup
  (bumpFresh (if held then appendVisible es s else appendGroup false es s), ids ++ [id])

/-- Write `bs` over blocks [lba, lba + n) of volume `v`, unit by unit in ascending order: the groups appended. -/
def writeBlocks (held compress : Bool) (margin v lba n : Nat) (bs : List Byte) (s : State) : State × List Nat :=
  (unitPieces lba n).foldl (fun acc p =>
    match vol? acc.1 v with
    | none => acc
    | some u => addGroup held (unitGroup acc.1 v u compress margin p.1 p.2 (bs.drop (blockBytes * (p.1 - lba)))) acc)
    (s, [])

/-- The bytes a WRITE stores in the groups numbered `ids`, after compression: a packed allotment's slots, and of a plain
one the blocks written (log entry 22). -/
def storedBy (s : State) (ids : List Nat) : Nat :=
  ((s.flc.groups.filter (fun g => ids.contains g.id)).flatMap (fun g => g.entries)).foldl (fun a e =>
    match e with
    | .mapSet _ _ _ count _ ent => a + (if ent.packed then entBytes ent else blockBytes * count)
    | _ => a) 0

/-- The group of one atomic unit that a TRIM covers in part: whole allotments become unmapped, and a partial one takes
zero blocks (R260, R301) (log entry 139). -/
def trimGroup (s : State) (v : Nat) (u : Vol) (lba n : Nat) : List JEnt :=
  (allotPieces lba n).zipIdx.map (fun q =>
    let (a, first, count) := q.1
    if count = 8 then .trimRange v (a * 8) 8
    else setBlocks s v u false 0 a first count q.2 (List.replicate (blockBytes * count) 0))

/-- Trim blocks [lba, lba + n): a run of whole atomic units goes with one TRIM_RANGE, and the partial units at the ends
by allotment (R285, R301) (log entry 139). -/
def trimBlocks (held : Bool) (v lba n : Nat) (s : State) : State × List Nat :=
  let lo := (lba + 63) / 64 * 64
  let hi := (lba + n) / 64 * 64
  let zeros (a k : Nat) (acc : State × List Nat) : State × List Nat :=
    if k = 0 then acc
    else match vol? acc.1 v with
      | none => acc
      | some u => addGroup held (trimGroup acc.1 v u a k) acc
  if lo ≤ hi then
    let acc := zeros lba (lo - lba) (s, [])
    let acc := if lo < hi then addGroup held [.trimRange v lo (hi - lo)] acc else acc
    zeros hi (lba + n - hi) acc
  else zeros lba n (s, [])

/-! ### Failing blocks of a read (R276, R500) -/

/-- The failing blocks of [lba, lba + n), ascending, each with the status it gives: poisoned or lost blocks
ST_MEDIA_ERROR, blocks of a unit whose CRC-32C failed twice ST_INTERNAL. -/
def failingBlocks (u : Vol) (lba n : Nat) (lost crcFail : List Nat) : List (Nat × Nat) :=
  ((List.range n).map (fun i => lba + i)).filterMap (fun b =>
    if undecoded u lost b then some (b, stMediaError)
    else if crcFail.contains b then some (b, stInternal) else none)

/-- Blocks of a volume that a lost code word poisons: its own block, or all 8 of a packed allotment (R275)
(log entry 139). -/
def lostBlocks (u : Vol) (lba : Nat) : List Nat :=
  match Tbl.get? u.map (lba / 8) with
  | none => []
  | some e => if e.packed then (List.range 8).map (fun j => lba / 8 * 8 + j) else [lba]

/-- The contiguous runs of an ascending list. -/
def runsOf : List Nat → List (Nat × Nat)
  | [] => []
  | a :: t =>
    match runsOf t with
    | (b, n) :: r => if b = a + 1 then (a, n + 1) :: r else (a, 1) :: (b, n) :: r
    | [] => [(a, 1)]

/-- EV_MEDIA_POISONED for one run, in instance 0 and in every instance the volume is assigned to (R293), and its
health log entry, whose number the run keeps (Table 8.14). -/
def announcePoison (v access first count : Nat) (s : State) : State :=
  let e : Event := { code := 0x0010, status := stMediaError, r0 := 0x0010 + 2 ^ 16 * v + 2 ^ 32 * count, r1 := first }
  let s := (s.insts.map Prod.fst).foldl (fun s n => if n = 0 ∨ bit access n = true then raise n e s else s) s
  let s := logHealth 0x0002 0xFF v 0 first count [] s
  { s with flc := { s.flc with runs := s.flc.runs ++ [{ vol := v, first := first, count := count, seq := s.glb.seq }] } }

/-- Poison blocks of a volume: POISON entries in the journal, visible at once (R291, R293). -/
def poisonBlocks (v : Nat) (bs : List Nat) (s : State) : State :=
  match vol? s v with
  | none => s
  | some u =>
    let new := bs.filter (fun b => (Tbl.get? u.map (b / 8)).isSome && !poisoned u b)
    let s := new.foldl (fun s b => appendVisible [.poison v (b / 8) (2 ^ (b % 8))] s) s
    (runsOf new).foldl (fun s r => announcePoison v u.access r.1 r.2 s) s

end Sys2Proof.Machine
end

