-- ==== Sys2Proof/Machine/SecOps.lean ====
section
/-! DEFINITION. The DRBG, the volume keys and the kept packages. -/

namespace Sys2Proof.Machine

/-- Does the DRBG serve requests (R159)? -/
def drbgServes (s : State) : Bool := s.sec.drbgReady && !s.sec.entropyFail

/-- 512 bits that the DRBG would give now. -/
def drbgBits (s : State) : BitVec 512 := Config.drbg s.fresh

/-- One generate request (R158). -/
def drbgUsed (s : State) : State :=
  bumpFresh { s with sec := { s.sec with generates := s.sec.generates + 1 } }

/-- Give a volume a key of the next epoch, wrapped under the present lifecycle (R128, R129). -/
def newVolumeKey (v : Nat) (s : State) : State :=
  let e := Tbl.getD s.flc.epochs v 0 + 1
  let key := drbgBits s
  let s := { s with flc := { s.flc with epochs := Tbl.set s.flc.epochs v e }
                    sec := { s.sec with volKeys := Tbl.set s.sec.volKeys v key } }
  drbgUsed (modVol v (fun u => { u with epoch := e, lc := s.otp.ladderLc, key := key, keyGood := true }) s)

/-- Destroy every copy of a volume's key (R129). -/
def destroyKey (v : Nat) (s : State) : State :=
  modVol v (fun u => { u with key := 0, keyGood := false })
    { s with sec := { s.sec with volKeys := Tbl.erase s.sec.volKeys v } }

/-- Every allotment of a volume is unmapped (R129, R300, R302). -/
def unmapAll (v : Nat) (s : State) : State :=
  let s := modVol v (fun u => { u with data := [], durable := [], map := [], mapDurable := [] }) s
  dropRef v (fun _ => true) { s with flc := { s.flc with runs := s.flc.runs.filter (fun r => !(r.vol == v)) } }

/-- Discard kept packages whose header or directory blocks a range of the volume touches (R83). -/
def discardPackages (v first count : Nat) (s : State) : State :=
  { s with bsh := { s.bsh with packages := s.bsh.packages.filter (fun p =>
      !(p.vol == v && decide (p.lba < first + count ∧ first < p.lba + 1 + p.dirBlocks))) } }

/-- Discard every kept package of a volume. -/
def discardVolumePackages (v : Nat) (s : State) : State :=
  { s with bsh := { s.bsh with packages := s.bsh.packages.filter (fun p => !(p.vol == v)) } }

/-! ### Write-back (R67, R421) -/

/-- Is a die in service: present, qualified, not retired, its channel in service, shed, retraining in place or evacuating? -/
def dieServes (s : State) (d : Nat) : Bool :=
  match Tbl.get? s.flc.dies d, Tbl.get? s.flc.channels (d / 16) with
  | some x, some c => x.present && !x.refused && !x.retired && (c.st == .inService || c.st == .shed || c.st == .evacuating
      || (c.st == .training && c.retraining.isSome))
  | _, _ => false

/-- Do programs and erases of a channel go on: it is neither shed nor retraining in place (R425)? -/
def chanWrites (s : State) (c : Nat) : Bool :=
  match Tbl.get? s.flc.channels c with
  | some x => !(x.st == .shed || x.st == .training)
  | none => false

/-- One-bit-per-cell program rate of a die of a class in bytes per second: 64 KiB in tPROG (Table 8.2) (log entry 102). -/
def slcRate (cls : Nat) : Nat := 65536 * 1000000 / (if cls = 1 then 180 else if cls = 3 then 250 else 200)

/-- FLUSH_RATE in units of 10 MB/s: the dies in service, each channel limited to the user data of its bus, 8/9 of its
transfers (R255, R421) (log entry 102). -/
def flushRate (s : State) : Nat :=
  (s.flc.channels.foldl (fun a c =>
    let dies := s.flc.dies.foldl (fun b d => if d.1 / 16 = c.1 ∧ dieServes s d.1 = true then b + slcRate d.2.cls else b) 0
    a + min dies (1000000 * c.2.rate * 8 / 9)) 0) / 10000000

/-- LIMIT_MIB of R421: the data that the hold-up time can flush, at most the write-back buffers (log entry 102). -/
def limitMib (s : State) : Nat :=
  min (((s.pwr.holdup * 50 - 2000) * (flushRate s * 10)) / 1048576) (min Config.writeBackMib 0xFFFF)

/-- HOLDUP_OK of HIF_WB_CTL (R421). -/
def holdupOk (s : State) : Bool :=
  s.pwr.holdupRdy && !(s.pwr.holdup == 0) && !(limitMib s == 0) && s.pwr.supply == .normal

/-- HOLDUP_OK was `was` and may have fallen: WRITE_BACK is cleared in every instance, and EV_WRITE_BACK_OFF raised in
instance 0 and in those that it concerns (R67, R76) (log entry 90). -/
def settleWriteBack (was : Bool) (s : State) : State :=
  if was && !holdupOk s then
    let ns := (s.insts.filter (fun p => p.1 == 0 || p.2.feat.writeBack)).map Prod.fst
    let s := { s with insts := Tbl.mapVals s.insts (fun _ i => { i with feat := { i.feat with writeBack := false } }) }
    ns.foldl (fun s n => raise n { code := 0x0004, status := stOk, r0 := 0x0004, r1 := 0 } s) s
  else s

/-- May a write of instance `n` be held under hold-up protection and reply at once (R65, R67, R398, R421)? -/
def mayHold (s : State) (n : Nat) (p : List Byte) (u : Vol) : Bool :=
  (match Tbl.get? s.insts n with
    | some i => i.feat.writeBack
    | none => false)
  && !pkFua p && u.mirror.isNone && decide (s.flc.heldBytes < 1048576 * limitMib s)

/-! ### U (R262) -/

/-- U in 4 KiB blocks, from the raw bytes, WB in per cent and W. -/
def usableBlocks (raw wb w : Nat) : Nat :=
  (raw * (91 - wb) - 700 * 2 ^ 30) * (w - 1) / (2 ^ 18 * (100 * w)) * 64

/-- Sum of CAPACITY over the volumes. -/
def allocated (s : State) : Nat := s.flc.vols.foldl (fun a v => a + v.2.capacity) 0

end Sys2Proof.Machine
end

