-- ==== Sys2Proof/Machine/SpanOps.lean ====
section
/-! DEFINITION. Exlet: flits and their bytes, the links' sequence numbers, routing by the Furlong table, messages, and
what forwarding and mirroring share (R376 to R380, R384, R388 to R398, R403). -/

namespace Sys2Proof.Machine

abbrev tIdle : Nat := 0x00
abbrev tNak : Nat := 0x01
abbrev tHello : Nat := 0x02
abbrev tAnnounce : Nat := 0x03
abbrev tReq : Nat := 0x10
abbrev tData : Nat := 0x11
abbrev tResp : Nat := 0x12
abbrev tCancel : Nat := 0x13
abbrev tMirrorWrite : Nat := 0x14
abbrev tMirrorAck : Nat := 0x15
abbrev tProbe : Nat := 0x16
abbrev tProbeResp : Nat := 0x17
abbrev tKeyReq : Nat := 0x18
abbrev tKeyGrant : Nat := 0x19

/-- BUDGET_LEFT for no budget. -/
abbrev noBudget : Nat := 0xFFFFFFFF

/-- Is the flit type one of Table 11.3? -/
def knownType (t : Nat) : Bool := decide (t ≤ 3) || decide (0x10 ≤ t ∧ t ≤ 0x19)

/-- Is the type sequenced (Table 11.3)? -/
def sequenced (t : Nat) : Bool := !(t == tIdle || t == tNak)

/-- CRC-32 of R378. -/
def crc32 (bs : List Byte) : Nat := (crcReflected 0xEDB88320 bs).toNat

/-- Bytes 0 to 251 of a flit (Table 11.2). -/
def flitBody (f : Flit) : List Byte :=
  leBytes 1 f.type ++ leBytes 1 (b2n f.last + 2 * b2n f.resent + 4 * b2n f.leaving) ++ leBytes 2 f.dest
    ++ leBytes 2 f.origin ++ leBytes 2 f.hops ++ leBytes 2 (f.lseq % 4096)
    ++ leBytes 2 (f.lack % 4096 + 32768 * b2n f.lackValid) ++ leBytes 6 f.originSeq ++ leBytes 4 f.xid
    ++ leBytes 3 f.index ++ leBytes 1 f.payload.length ++ leBytes 4 f.budget ++ leBytes 2 0
    ++ bytesAt f.payload 0 220

/-- The 256 bytes of a flit. -/
def flitBytes (f : Flit) : List Byte := flitBody f ++ leBytes 4 (crc32 (flitBody f))

/-- The flit that 256 bytes spell, when its CRC is good. -/
def flitOf (bs : List Byte) : Option Flit :=
  if bs.length = 256 ∧ crc32 (bs.take 252) = field bs 252 4 then
    some { type := field bs 0 1, last := bit (field bs 1 1) 0, resent := bit (field bs 1 1) 1
           leaving := bit (field bs 1 1) 2, dest := field bs 2 2, origin := field bs 4 2, hops := field bs 6 2
           lseq := field bs 8 2 % 4096, lack := field bs 10 2 % 4096, lackValid := bit (field bs 10 2) 15
           originSeq := field bs 12 6, xid := field bs 18 4, index := field bs 22 3, budget := field bs 26 4
           payload := bytesAt bs 32 (min (field bs 25 1) 220) }
  else none

/-! ### Ports and the link (R380, R381) -/

/-- The port record; there are three. -/
def eport (s : State) (p : Nat) : EPort := Tbl.getD s.spn.ports p resetEPort

/-- Change a port. -/
def modEPort (p : Nat) (f : EPort → EPort) (s : State) : State :=
  { s with spn := { s.spn with ports := Tbl.modify s.spn.ports p f } }

/-- Is a port ACTIVE? -/
def portActive (s : State) (p : Nat) : Bool := (eport s p).st == .active

/-- Hand a flit to the lanes of a port as it stands. -/
def onWire (p : Nat) (f : Flit) (s : State) : State :=
  { s with spn := { s.spn with wire := s.spn.wire ++ [(p, flitBytes f)] } }

/-- The flit with the port's present acknowledgement in LACK (log entry 16). -/
def withLack (q : EPort) (f : Flit) : Flit := { f with lack := (4095 + q.rxSeq) % 4096, lackValid := q.rxValid }

/-- Send a sequenced flit: it takes the next LSEQ and stays in the retry buffer of 128; a full buffer holds it back. -/
def sendSequenced (p : Nat) (f : Flit) (s : State) : State :=
  let q := eport s p
  if 128 ≤ q.retry.length then modEPort p (fun q => { q with waiting := q.waiting ++ [f] }) s
  else
    let f := withLack q { f with lseq := q.txSeq }
    onWire p f (modEPort p (fun q =>
      { q with txSeq := (q.txSeq + 1) % 4096, retry := q.retry ++ [f], flits := q.flits + 1 }) s)

/-- An IDLE or NAK flit, which carries LACK only (log entry 16). -/
def sendUnsequenced (p type : Nat) (s : State) : State :=
  onWire p (withLack (eport s p)
    { type := type, last := true, resent := false, leaving := false, dest := 0, origin := s.spn.spanId, hops := 0
      lseq := 0, lack := 0, lackValid := false, originSeq := s.glb.seq, xid := 0, index := 0, budget := noBudget
      payload := [] }) s

/-- Held-back flits go out while the retry buffer has room. -/
def sendWaiting : Nat → Nat → State → State
  | 0, _, s => s
  | n + 1, p, s =>
    let q := eport s p
    match q.waiting with
    | [] => s
    | f :: fs =>
      if 128 ≤ q.retry.length then s
      else sendWaiting n p (sendSequenced p f (modEPort p (fun q => { q with waiting := fs }) s))

/-- A LACK covers every flit up to the one it names: they leave the retry buffer. -/
def covered (q : EPort) (lack : Nat) : List Flit :=
  match q.retry with
  | [] => []
  | f :: _ =>
    let n := (4096 + lack - f.lseq) % 4096 + 1
    if n ≤ q.retry.length then q.retry.drop n else q.retry

/-! ### Routing (R387, R388) -/

/-- The entry that routes to `dest`: the lowest-numbered valid range that holds it, or the default. -/
def furlong (s : State) (dest : Nat) : Option (Nat × Nat) :=
  match (List.range 64).find? (fun n =>
      let (lo, hi) := Tbl.getD s.spn.ranges n (0, 0)
      let (_, _, v) := Tbl.getD s.spn.attrs n (3, 3, false)
      v && decide (lo ≤ dest ∧ dest ≤ hi)) with
  | some n =>
    let (p, a, _) := Tbl.getD s.spn.attrs n (3, 3, false)
    some (p, a)
  | none => if s.spn.dfltValid then some (s.spn.dfltPort, s.spn.dfltAlt) else none

/-- Where a flit goes. -/
inductive Route where
  | deliver | send (port : Nat) | unreachable (status : Nat)
deriving DecidableEq, Repr

/-- The routing decision of R388; `arrival` is the port a flit came by. -/
def routeOf (s : State) (arrival : Option Nat) (f : Flit) : Route :=
  if f.dest = s.spn.spanId then .deliver
  else if arrival.isSome && f.hops == 0 then .unreachable stSpanUnreachable
  else if f.budget ≠ noBudget ∧ f.budget ≤ 150 then .unreachable stAbortedByTimeout
  else
    let usable (p : Nat) : Bool := !(p == 3) && portActive s p && !(arrival == some p)
    match furlong s f.dest with
    | none => .unreachable stSpanUnreachable
    | some (p, a) =>
      if usable p then .send p else if usable a then .send a else .unreachable stSpanUnreachable

/-- The response type of a request type, and whether it has one (R388). -/
def responseType (t : Nat) : Option Nat :=
  if t = tReq then some tResp else if t = tMirrorWrite then some tMirrorAck else if t = tProbe then some tProbeResp
  else if t = tKeyReq then some tKeyGrant else none

/-- A flit created here. -/
def newFlit (s : State) (type dest xid index budget : Nat) (last : Bool) (payload : List Byte) : Flit :=
  { type := type, last := last, resent := false, leaving := false, dest := dest, origin := s.spn.spanId, hops := 0
    lseq := 0, lack := 0, lackValid := false, originSeq := s.glb.seq, xid := xid, index := index, budget := budget
    payload := payload }

/-- Put a flit among those delivered here; one that answers a transaction of this device is noted for R392. -/
def deliverHere (port : Nat) (f : Flit) (s : State) : State :=
  let answer := f.type == tData || f.type == tResp || f.type == tKeyGrant
  { s with spn := { s.spn with
      inbox := s.spn.inbox ++ [(port, f)]
      xacts := if answer then Tbl.modify s.spn.xacts f.xid (fun x => if x.home = f.origin then { x with lastRx := s.now } else x)
        else s.spn.xacts } }

/-- Send a flit on a port with HOPS and BUDGET_LEFT as R388 leaves them (log entry 12). -/
def forwardFlit (arrival : Option Nat) (p : Nat) (f : Flit) (s : State) : State :=
  sendSequenced p { f with
    came := arrival
    hops := if arrival.isSome then f.hops - 1 else s.spn.hopLimit
    budget := if f.budget = noBudget then noBudget else f.budget - 150 } s

/-- Count a dropped flit (R379, R388) (log entry 13). -/
def dropFlit (s : State) : State := { s with spn := { s.spn with drops := satInc s.spn.drops 0xFFFF } }

/-- Route a response to an unreachable request; it is dropped when it is unreachable itself (log entry 13). -/
def routeAnswer (f : Flit) (s : State) : State :=
  match routeOf s none f with
  | .deliver => deliverHere 3 f s
  | .send p => forwardFlit none p f s
  | .unreachable _ => dropFlit s

/-- Route a flit (R388). An unreachable request is answered to its origin once, for its first flit (log entry 12). -/
def route (arrival : Option Nat) (f : Flit) (s : State) : State :=
  match routeOf s arrival f with
  | .deliver => deliverHere (arrival.getD 3) f s
  | .send p => forwardFlit arrival p f s
  | .unreachable st =>
    match responseType f.type with
    | some rt =>
      if f.index = 0 then
        routeAnswer (newFlit s rt f.origin f.xid 0 noBudget true
          (if rt = tKeyGrant then leBytes 146 st else bytesAt (leBytes 1 st) 0 20)) s
      else s
    | none => dropFlit s

/-! ### Messages (R379) -/

/-- Cut bytes into payloads of 220. -/
def payloads : Nat → List Byte → List (List Byte)
  | 0, _ => []
  | n + 1, bs => if bs.isEmpty then [] else bs.take 220 :: payloads n (bs.drop 220)

/-- Send a message: its first payload, then `rest` in payloads of 220 bytes. -/
def sendMessage (type dest xid budget : Nat) (resent : Bool) (first rest : List Byte) (s : State) : State :=
  let ps := first :: payloads rest.length rest
  (ps.zipIdx).foldl (fun s p =>
    route none { (newFlit s type dest xid p.2 budget (p.2 + 1 == ps.length) p.1) with resent := resent } s) s

/-- The flits of a message among those delivered, by index. -/
def messageFlits (s : State) (type origin xid : Nat) : List Flit :=
  (s.spn.inbox.filter (fun p => p.2.type == type && p.2.origin == origin && p.2.xid == xid)).map Prod.snd

/-- The payloads of a message in order, when all of it is here: indexes 0 to the one with LAST. -/
def messageOf (s : State) (type origin xid : Nat) : Option (List (List Byte) × Flit) :=
  let fs := messageFlits s type origin xid
  match fs.find? (fun f => f.last), fs.find? (fun f => f.index == 0) with
  | some l, some f0 =>
    let ps := (List.range (l.index + 1)).filterMap (fun i => fs.find? (fun f => f.index == i))
    if ps.length = l.index + 1 then some (ps.map (fun f => f.payload), f0) else none
  | _, _ => none

/-- Take a message out of the inbox. -/
def takeMessage (type origin xid : Nat) (s : State) : State :=
  { s with spn := { s.spn with inbox := s.spn.inbox.filter (fun p =>
      !(p.2.type == type && p.2.origin == origin && p.2.xid == xid)) } }

/-! ### Events, ANNOUNCE (R384, R403) -/

/-- EV_SPAN_CHANGE (R403). -/
def spanChange (port code id r1 : Nat) (s : State) : State :=
  raise 0 { code := 0x0030, status := stOk, r0 := 0x0030 + 2 ^ 16 * port + 2 ^ 24 * code + 2 ^ 32 * id, r1 := r1 } s

/-- The code of a port state (Table 11.4). -/
def portCode : PortSt → Nat
  | .disabled => 0
  | .training => 1
  | .hello => 2
  | .active => 3
  | .down => 4
  | .conflict => 5

/-- ISEED of the fuse array. -/
def iseed (s : State) : List Byte := Cells.readN s.otp.fuses 0 32

/-- DEVICE_ID: the first 16 bytes of the SHA-384 of the DIK public key (R125), as a number of 128 bits. -/
def deviceId (s : State) : Nat := (Config.sha384 (Config.dikPublic (iseed s))).toNat % 2 ^ 128

/-- The payload of HELLO on a port. -/
def helloPayload (s : State) (p : Nat) : List Byte :=
  leBytes 2 s.spn.spanId ++ leBytes 1 p ++ leBytes 1 0 ++ leBytes 16 (deviceId s) ++ leBytes 4 s.spn.group

/-- The payload of ANNOUNCE. -/
def announcePayload (s : State) : List Byte :=
  helloPayload s 0 ++ leBytes 1 (portCode (eport s 0).st) ++ leBytes 1 (portCode (eport s 1).st)
    ++ leBytes 1 (portCode (eport s 2).st)

/-- Flood a flit on every ACTIVE port but one. -/
def flood (but : Option Nat) (f : Flit) (s : State) : State :=
  [0, 1, 2].foldl (fun s p => if portActive s p && !(but == some p) then sendSequenced p f s else s) s

/-- Flood an ANNOUNCE of this device (R384). -/
def announce (leaving : Bool) (s : State) : State :=
  if s.spn.spanId = 0 then s
  else
    let f := { (newFlit s tAnnounce 0 0 0 noBudget true (announcePayload s)) with leaving := leaving }
    flood none f { s with spn := { s.spn with announcedAt := s.now } }

/-- A port changes state: the event, the ANNOUNCE, and the note for the resends of R392. -/
def setPort (p : Nat) (st : PortSt) (s : State) : State :=
  let s := modEPort p (fun q =>
    { q with st := st, since := s.now, downs := if st = .down then satInc q.downs 0xFFFF else q.downs }) s
  let s := { s with spn := { s.spn with xacts := Tbl.mapVals s.spn.xacts (fun _ x => { x with portChange := true }) } }
  announce false (spanChange p (portCode st) (eport s p).neighbour 0 s)

/-- Is a device reachable (R384)? -/
def reachable (s : State) (id : Nat) : Bool := Tbl.has s.spn.members id

/-! ### Waits for durability and for copies (R65, R398) -/

/-- The copies of a volume that are IN_SET. -/
def inSet (u : Vol) : List Nat :=
  match u.mirror with
  | none => []
  | some m => (if m.st1 == .inSet then [m.id1] else []) ++ (if m.st2 == .inSet then [m.id2] else [])

/-- The copies that take every write: RESYNC or IN_SET (R398). -/
def liveCopies (u : Vol) : List Nat :=
  match u.mirror with
  | none => []
  | some m =>
    if m.primary then
      (if decide (2 ≤ m.copies) && !(m.st1 == .out) then [m.id1] else [])
        ++ (if decide (3 ≤ m.copies) && !(m.st2 == .out) then [m.id2] else [])
    else []

/-- Does a write of tag `k` still wait for an IN_SET copy? -/
def awaitsCopy (s : State) (k : Nat) : Bool :=
  s.spn.mwaits.any (fun w => w.tag == k && (match vol? s w.vol with
    | some u => w.waiting.any (fun c => (inSet u).contains c)
    | none => false))

/-- The number that names no command. -/
abbrev noTag : Nat := 2 ^ 64

/-- Command `k` is answered: what a copy in RESYNC still owes goes on without it. -/
def freeWaits (k : Nat) (s : State) : State :=
  { s with spn := { s.spn with mwaits := s.spn.mwaits.map (fun w => if w.tag = k then { w with tag := noTag } else w) } }

/-- A tag whose groups are all durable: its reply is decided once every IN_SET copy of a mirrored write has
acknowledged. -/
def settleDurable (k : Nat) (s : State) : State :=
  match Tbl.get? s.tags k with
  | none => s
  | some t =>
    if (t.work == .durable || t.work == .mirror) && t.groups.isEmpty then
      if awaitsCopy s k then modTag k (fun t => { t with work := .mirror }) s
      else finish k t.reply (freeWaits k s)
    else s

/-- The RESP or MIRROR_ACK payload of a reply (Table 11.3). -/
def respPayload (r : Reply) : List Byte :=
  leBytes 1 r.status ++ leBytes 1 (replyFlags r) ++ leBytes 2 0 ++ leBytes 8 r.r0 ++ leBytes 8 r.r1

/-- The home keeps the RESPs of its last 16,384 transactions (R393). -/
def keepResp (key : Nat) (bs : List Byte) (s : State) : State :=
  let ks := s.spn.kept ++ [(key, bs)]
  { s with spn := { s.spn with kept := ks.drop (ks.length - 16384) } }

/-- Answer a request: the answer message goes to its origin, a REQ's is kept, and its range-lock entry goes. -/
def answerServed (key : Nat) (v : Served) (r : Reply) (s : State) : State :=
  let pl := respPayload r
  let s := freeWaits (16384 + key) s
  let s := releaseLock (16384 + key) { s with spn := { s.spn with served := Tbl.erase s.spn.served key } }
  let s := if v.mirror then s else keepResp key pl s
  sendMessage (if v.mirror then tMirrorAck else tResp) (key / 2 ^ 32) (key % 2 ^ 32) noBudget false pl [] s

/-- Served messages whose work is done and durable are answered. -/
def settleServed (s : State) : State :=
  s.spn.served.foldl (fun s p =>
    match p.2.reply with
    | some r => if p.2.groups.isEmpty && !awaitsCopy s (16384 + p.1) then answerServed p.1 p.2 r s else s
    | none => s) s

/-- Groups `ids` are durable: no tag and no served message waits for them any more. -/
def groupsDurable (ids : List Nat) (s : State) : State :=
  let cut (g : List Nat) : List Nat := g.filter (fun g => !ids.contains g)
  let ks := (s.tags.filter (fun p => p.2.groups.any (fun g => ids.contains g))).map Prod.fst
  let s := { s with tags := Tbl.mapVals s.tags (fun _ t => { t with groups := cut t.groups })
                    spn := { s.spn with served := Tbl.mapVals s.spn.served (fun _ v => { v with groups := cut v.groups }) } }
  settleServed (ks.foldl (fun s k => settleDurable k s) s)

/-! ### Mirrored writes (R398) -/

/-- CRC-32C vector of bytes: one value for each 4 KiB (R19) (log entry 61). -/
def crcVector : Nat → List Byte → List Byte
  | 0, _ => []
  | n + 1, bs => if bs.isEmpty then [] else leBytes 4 (crc32cPiece (bs.take 4096)) ++ crcVector n (bs.drop 4096)

/-- Send one MIRROR_WRITE for command `k` to copy `c`, with the next PAIR_SEQ to it: a packet and its bytes. -/
def mirrorOne (k v n : Nat) (p bs : List Byte) (s : State) (c : Nat) : State :=
  let q := Tbl.getD s.spn.pairTx (65536 + c) 0
  let x := s.spn.nextXid
  let s := { s with spn := { s.spn with
    pairTx := Tbl.set s.spn.pairTx (65536 + c) ((q + 1) % 2 ^ 32), nextXid := (x + 1) % 2 ^ 32
    mwaits := s.spn.mwaits ++ [{ xid := x, tag := k, vol := v, waiting := [c], sentAt := s.now }] } }
  sendMessage tMirrorWrite c x noBudget false (p ++ leBytes 4 q ++ leBytes 1 n) (bs ++ crcVector bs.length bs) s

/-- The packet of a mirrored write: the blocks that it wrote. -/
def mirrorPacket (p : List Byte) (v lba len : Nat) : List Byte :=
  overlay (overlay (overlay p 2 (leBytes 2 v)) 8 (leBytes 8 lba)) 16 (leBytes 4 len)

/-- Send a write of the primary, made for command `k`, to every copy in RESYNC or IN_SET. -/
def mirrorSend (k v n : Nat) (p : List Byte) (u : Vol) (lba len : Nat) (bs : List Byte) (s : State) : State :=
  if len = 0 then s else (liveCopies u).foldl (mirrorOne k v n (mirrorPacket p v lba len) bs) s

/-! ### Forwarding (R390, R391, R394) -/

/-- The home of a command's volume: an alias's, or the primary of a copy that is not IN_SET (R399), with the volume's
number there. -/
def homeOf (s : State) (v : Nat) : Option (Nat × Nat) :=
  match vol? s v with
  | some u =>
    match u.mirror with
    | some m => if !m.primary && !(m.st1 == .inSet) then some (m.primaryId, v) else none
    | none => none
  | none =>
    match Tbl.get? s.spn.aliases v with
    | some a => if a.bind && a.bound then some (a.homeId, a.homeVol) else none
    | none => none

/-- The budget of a command in µs (R48, R391). -/
def budgetUs (s : State) (n : Nat) (p : List Byte) : Nat :=
  if field p 60 4 ≠ 0 then field p 60 4
  else match Tbl.get? s.insts n with
    | some i => i.feat.spanBudget
    | none => 0

/-- A transaction of command `k` begins: a REQ with the next PAIR_SEQ goes to the home, with what is left of the budget
until `deadline` (R390, R391, R394). -/
def sendReq (k n : Nat) (p data : List Byte) (home homeVol deadline : Nat) (s : State) : State :=
  let q := Tbl.getD s.spn.pairTx home 0
  let x := s.spn.nextXid
  let first := overlay p 2 (leBytes 2 homeVol) ++ leBytes 4 q ++ leBytes 1 n
  let rest := data ++ crcVector data.length data
  let s := { s with spn := { s.spn with
    pairTx := Tbl.set s.spn.pairTx home ((q + 1) % 2 ^ 32), nextXid := (x + 1) % 2 ^ 32
    xacts := Tbl.set s.spn.xacts x
      { tag := k, home := home, pairSeq := q, deadline := deadline, sentAt := s.now, lastRx := s.now
        portChange := false, resent := false, cancelAt := none, first := first, rest := rest } } }
  sendMessage tReq home x (1000 * (deadline - s.now)) false first rest (modTag k (fun t => { t with work := .forwarded }) s)

/-- The packet of a forwarded READ of blocks [lba, lba + n) (log entries 17, 84). -/
def readPacket (p : List Byte) (lba n : Nat) : List Byte :=
  overlay (overlay (leBytes 64 opRead) 8 (leBytes 8 lba)) 16 (leBytes 4 n ++ leBytes 4 0 ++ leBytes 8 0 ++ leBytes 4 (4096 * n))
    |> fun r => overlay r 2 (bytesAt p 2 2)

/-- A command on a volume of another device is forwarded. An INSTALL_CHUNK, whose checks the origin makes, reads the
package header first (R390) (log entry 84). -/
def forward (k n : Nat) (p : List Byte) (home homeVol : Nat) (s : State) : State :=
  let deadline := s.now + budgetUs s n p
  if pkOpcode p = opInstallChunk then sendReq k n (readPacket p (pkLba p) 1) [] home homeVol deadline s
  else sendReq k n p (if pkOpcode p = opWrite then gather s n p 0 (pkLength p * 4096) else []) home homeVol deadline s

/-- The transaction of a tag. -/
def xactOf (s : State) (k : Nat) : Option (Nat × Xact) := s.spn.xacts.find? (fun p => p.2.tag == k)

/-- Send CANCEL for a tag's transaction (R391, R395). -/
def cancelXact (k : Nat) (s : State) : State :=
  match xactOf s k with
  | none => s
  | some (x, t) =>
    let s := { s with spn := { s.spn with xacts := Tbl.set s.spn.xacts x { t with cancelAt := some s.now } } }
    sendMessage tCancel t.home x noBudget false [] [] s

/-- Forget a transaction. -/
def dropXact (k : Nat) (s : State) : State :=
  { s with spn := { s.spn with xacts := s.spn.xacts.filter (fun p => !(p.2.tag == k)) } }

end Sys2Proof.Machine
end

