-- ==== Sys2Proof/Machine/Io.lean ====
section
/-! DEFINITION. READ, WRITE, FLUSH, TRIM and VERIFY: the end of their work (Table 2.6, R64 to R67, R258 to R261, R276,
R301, R500). -/

namespace Sys2Proof.Machine

/-- HOST_READ counts blocks read by commands. -/
def countHostRead (n : Nat) (s : State) : State :=
  { s with flc := { s.flc with life := { s.flc.life with hostRead := s.flc.life.hostRead + n } } }

/-- HOST_WRITTEN counts blocks written by commands. -/
def countHostWritten (n : Nat) (s : State) : State :=
  { s with flc := { s.flc with life := { s.flc.life with hostWritten := s.flc.life.hostWritten + n } } }

/-- Deliver the blocks of a range into the buffer, ascending; the bytes of a failing block are free. -/
def deliverBlocks (n : Nat) (p : List Byte) (u : Vol) (lba len : Nat) (bad : List Nat) (s : State) : State :=
  let out := ((List.range len).map (fun i =>
    if bad.contains (lba + i) then freeBytes { s with fresh := s.fresh + i } blockBytes
    else blocksOf u (lba + i) 1)).flatten
  deliver n p 0 out { s with fresh := s.fresh + len }

/-- No key of the volume is in a key slot: the ladder is blocked, or the wrapped key is damaged (R128, R157). Every read
then gives ST_MEDIA_ERROR (log entry 24). -/
def keyLost (s : State) (v : Nat) : Bool := !Tbl.has s.sec.volKeys v

/-- The blocks of [lba, lba + n) that could not be decoded: all of them without a key. -/
def lostIn (s : State) (k v lba n : Nat) (lost : List Nat) : List Nat :=
  if keyLost s v then (List.range n).map (fun i => lba + i) else lost ++ unitBlocks s k lba n stMediaError

/-- Is some allotment of [lba, lba + n) packed, so that a decompression lane must take it? -/
def rangePacked (s : State) (v lba n : Nat) : Bool :=
  match vol? s v with
  | some u => u.map.any (fun p => p.2.packed && decide (lba / 8 ≤ p.1 ∧ p.1 ≤ (lba + n - 1) / 8))
  | none => false

/-- Do Bushel lanes take units (BSH_CTL.ENABLE), or does the range need none? -/
def lanesRun (s : State) (inst tag : Nat) (needs : List Byte → Bool) : Bool :=
  s.bsh.enable || (match Tbl.get? s.tags (tagKey inst tag) with
    | some t => !needs t.packet
    | none => false)

/-- Does a write compress its units (R105)? -/
def writeCompresses (s : State) (p : List Byte) : Bool :=
  match vol? s (pkVolume p) with
  | some u => u.compress && !pkNoCompress p && s.bsh.zstdEn
  | none => false

/-- READ (R276, R500): every block that can be read is delivered. -/
def readDone (n : Nat) (lost crcFail : List Nat) (p : List Byte) (k : Nat) (s : State) : State :=
  match vol? s (pkVolume p) with
  | none => s
  | some u =>
    let lba := pkLba p
    let len := pkLength p
    let bad := failingBlocks u lba len (lostIn s k (pkVolume p) lba len lost)
      (crcFail ++ unitBlocks s k lba len stInternal)
    let s := countHostRead (len - bad.length) (deliverBlocks n p u lba len (bad.map Prod.fst) s)
    match bad with
    | [] => finishWith k stOk len 0 s
    | b :: _ => finishWith k b.2 b.1 bad.length s

/-- READ: `lost` are the blocks no recovery step could decode, `crcFail` those of units that failed their CRC-32C
twice. -/
def execRead (inst : Fin 64) (tag : Fin 256) (lost crcFail : List Nat) (s : State) : Out :=
  workEnds opRead inst tag (lockHeld s (tagKey inst tag) && mayWrite s inst
    && lanesRun s inst tag (fun p => rangePacked s (pkVolume p) (pkLba p) (pkLength p))) s (readDone inst lost crcFail)

/-- VERIFY (R276): the read stages without delivery. -/
def verifyDone (lost crcFail : List Nat) (p : List Byte) (k : Nat) (s : State) : State :=
  match vol? s (pkVolume p) with
  | none => s
  | some u =>
    let bad := failingBlocks u (pkLba p) (pkLength p) (lostIn s k (pkVolume p) (pkLba p) (pkLength p) lost)
      (crcFail ++ unitBlocks s k (pkLba p) (pkLength p) stInternal)
    let s := countHostRead (pkLength p - bad.length) s
    match bad with
    | [] => finishWith k stOk (pkLength p) 0xFFFFFFFFFFFFFFFF s
    | b :: _ => finishWith k b.2 (pkLength p - bad.length) b.1 s

/-- VERIFY. -/
def execVerify (inst : Fin 64) (tag : Fin 256) (lost crcFail : List Nat) (s : State) : Out :=
  workEnds opVerify inst tag (lockHeld s (tagKey inst tag)
    && lanesRun s inst tag (fun p => rangePacked s (pkVolume p) (pkLba p) (pkLength p))) s (verifyDone lost crcFail)

/-- SHRINK_MARGIN of an instance (R103) (log entry 58). -/
def marginOf (s : State) (n : Nat) : Nat :=
  match Tbl.get? s.insts n with
  | some i => i.feat.shrinkMargin
  | none => 0

/-- Hold the bytes of held groups under write-back. -/
def holdBytes (n : Nat) (s : State) : State := { s with flc := { s.flc with heldBytes := s.flc.heldBytes + n } }

/-- The end of a write's work: `done` of its `len` blocks hold new data in the groups `ids`. Under write-back it
replies at once, otherwise when the groups are durable (R65, R67) and, on a primary, once every copy in the set has
answered (R398) (log entry 22). -/
def writeEnds (held : Bool) (k status len done stored : Nat) (ids : List Nat) (s : State) : State :=
  let r : Reply := { status := status, r0 := done, r1 := stored, partialEffect := decide (done < len) }
  let s := countHostWritten done s
  if held then finish k r (holdBytes (blockBytes * done) s)
  else settleDurable k (modTag k (fun t => { t with work := .durable, reply := r, groups := ids }) s)

/-- A WRITE that stores the first `units` atomic units of its range, or all of it, and ends with `status`. -/
def writeDone (n status units : Nat) (p : List Byte) (k : Nat) (s : State) : State :=
  match vol? s (pkVolume p) with
  | none => s
  | some u =>
    let lba := pkLba p
    let len := pkLength p
    let done := if status = stOk then len else prefixBlocks lba len units
    let bs := gather s n p 0 (blockBytes * done)
    let held := mayHold s n p u
    let compress := u.compress && !pkNoCompress p && s.bsh.zstdEn
    let w := writeBlocks held compress (marginOf s n) (pkVolume p) lba done bs (discardPackages (pkVolume p) lba done s)
    writeEnds held k status len done (storedBy w.1 w.2) w.2 (mirrorSend k (pkVolume p) n p u lba done bs w.1)

/-- How a write ends: whole, by a program that failed three times (R272), or by a unit that failed its CRC-32C twice
(R500). -/
def writeStatus (outcome : Fin 3) : Nat :=
  if outcome.val = 0 then stOk else if outcome.val = 1 then stWriteFault else stInternal

/-- The outcome of a write once a unit of it has failed: the unit's allotment is not programmed (R500). Without a volume
key nothing can be written (log entry 24). -/
def writeOutcome (s : State) (k v lba len status units : Nat) : Nat × Nat :=
  match unitBlocks s k lba len stInternal with
  | [] => if keyLost s v then (stInternal, 0) else (status, units)
  | b :: _ => (stInternal, if status = stOk then b / 64 - lba / 64 else min units (b / 64 - lba / 64))

/-- WRITE: `outcome` 0 stores the whole range; 1 is a write fault and 2 an internal fault after `units` atomic units. A
lane takes the units of a compressed volume only while BSH_CTL.ENABLE is 1. -/
def execWrite (inst : Fin 64) (tag : Fin 256) (outcome : Fin 3) (units : Nat) (s : State) : Out :=
  let k := tagKey inst tag
  workEnds opWrite inst tag (lockHeld s k && lanesRun s inst tag (writeCompresses s)) s (fun p k s =>
    let o := writeOutcome s k (pkVolume p) (pkLba p) (pkLength p) (writeStatus outcome) units
    writeDone inst o.1 o.2 p k s)

/-- TRIM (R301) of the first `units` atomic units of the range, or all of it. -/
def trimDone (n status units : Nat) (p : List Byte) (k : Nat) (s : State) : State :=
  match vol? s (pkVolume p) with
  | none => s
  | some u =>
    let lba := pkLba p
    let len := pkLength p
    let done := if status = stOk then len else prefixBlocks lba len units
    let held := mayHold s n p u
    let w := trimBlocks held (pkVolume p) lba done (discardPackages (pkVolume p) lba done s)
    writeEnds held k status len done 0 w.2 (mirrorSend k (pkVolume p) n p u lba done [] w.1)

/-- TRIM: as WRITE, with nothing fetched from the host. -/
def execTrim (inst : Fin 64) (tag : Fin 256) (fault : Bool) (units : Nat) (s : State) : Out :=
  workEnds opTrim inst tag (lockHeld s (tagKey inst tag)) s (trimDone inst (if fault then stWriteFault else stOk) units)

/-- Is an earlier WRITE, INSTALL_CHUNK or TRIM of the instance not yet replied (R66)? -/
def earlierWrite (s : State) (n order : Nat) : Bool :=
  s.tags.any (fun p => keyInst p.1 == n && prefixOps.contains (pkOpcode p.2.packet) && decide (p.2.order < order))

/-- Is data held under write-back that is not durable? -/
def heldData (s : State) : Bool :=
  s.flc.groups.any (fun g => g.held && g.entries.any (fun e =>
    match e with
    | .mapSet _ _ _ _ _ _ => true
    | .trimRange _ _ _ => true
    | _ => false))

/-- FLUSH (R66): every earlier write of the instance has replied and its effect is durable. -/
def execFlush (inst : Fin 64) (tag : Fin 256) (s : State) : Out :=
  let k := tagKey inst tag
  let order := match Tbl.get? s.tags k with
    | some t => t.order
    | none => 0
  workEnds opFlush inst tag (!earlierWrite s inst order && !heldData s) s (fun _ k s => finishWith k stOk 0 0 s)

end Sys2Proof.Machine
end

