-- ==== Sys2Proof/Machine/Codec.lean ====
section
/-! DEFINITION. CODEC, CODEC_RESUME, CODEC_SAVE and CODEC_RESTORE, and the codec contexts (R101 to R117). -/

namespace Sys2Proof.Machine

/-- CONTEXT of a codec command. -/
def pkContext (p : List Byte) : Nat := field p 52 4

/-- The codec opcodes. -/
def codecOps : List Nat := [opCodec, opCodecResume, opCodecSave, opCodecRestore]

/-- The context numbers an instance may use. -/
def contextCount (s : State) (n : Nat) : Nat :=
  match Tbl.get? s.insts n with
  | some i => i.feat.codecContexts
  | none => 0

/-- A context of the instance. -/
def ctxOf (s : State) (n c : Nat) : Option Ctx := if c = 0 then none else Tbl.get? s.bsh.ctxs (ctxKey n c)

/-- Put a context, or make it EMPTY. -/
def putCtx (n c : Nat) (x : Option Ctx) (s : State) : State :=
  if c = 0 then s
  else { s with bsh := { s.bsh with ctxs := match x with
      | some x => Tbl.set s.bsh.ctxs (ctxKey n c) x
      | none => Tbl.erase s.bsh.ctxs (ctxKey n c) } }

/-- An earlier command of the instance that names the context has not replied (R106). -/
def ctxBusy (s : State) (n c order : Nat) : Bool :=
  !(c == 0) && s.tags.any (fun p => keyInst p.1 == n && codecOps.contains (pkOpcode p.2.packet)
    && pkContext p.2.packet == c && decide (p.2.order < order))

/-- Is a job running on the context (Table 3.9)? -/
def ctxRunning (s : State) (n c : Nat) : Bool :=
  s.tags.any (fun p => keyInst p.1 == n && (pkOpcode p.2.packet == opCodec || pkOpcode p.2.packet == opCodecResume)
    && pkContext p.2.packet == c && (p.2.st == .running || p.2.st == .stopping) && !ctxBusy s n c p.2.order)

/-- Does a stream of the instance use dictionary context `c` (R110)? -/
def dictInUse (s : State) (n c : Nat) : Bool :=
  s.bsh.ctxs.any (fun p => p.1 / 65 == n && !(p.2.st == .dictionary) && p.2.dictCtx == c)

/-- The work of a codec command on tag `k`: earlier commands on its context have replied (log entry 2). -/
def codecWork (op : Nat) (inst : Fin 64) (tag : Fin 256) (g : List Byte → Bool) (s : State)
    (f : List Byte → Nat → State → State) : Out :=
  let k := tagKey inst tag
  match Tbl.get? s.tags k with
  | none => .next s
  | some t => workEnds op inst tag (g t.packet && !ctxBusy s inst (pkContext t.packet) t.order) s f

/-! ### Jobs -/

/-- A stream before its first job. -/
def newStream (mode format dictCtx : Nat) : Ctx :=
  { st := .opened, mode := mode, format := format, endSeen := false, totalIn := 0, totalOut := 0, window := 0, dictId := 0
    dictCtx := dictCtx, codecState := [], refs := [], history := [], heldInput := [], skipBits := 0, suspended := [] }

/-- What a context carries into a job. -/
def carried (x : Ctx) : List Byte :=
  leBytes 8 x.totalIn ++ leBytes 8 x.totalOut ++ leBytes 4 x.window ++ leBytes 4 x.dictId ++ leBytes 1 x.skipBits
    ++ leBytes 4 x.codecState.length ++ x.codecState ++ leBytes 4 x.history.length ++ x.history
    ++ leBytes 4 x.heldInput.length ++ x.heldInput ++ x.suspended

/-- The bytes of window references, oldest first, as they stand in host memory now. -/
def refBytes (s : State) (n : Nat) (rs : List (Nat × Nat)) : List Byte :=
  rs.flatMap (fun r => hostRead s (pasidOf s n) r.1 r.2)

/-- The content of a dictionary context. -/
def dictBytes (s : State) (n c : Nat) : List Byte :=
  match ctxOf s n c with
  | some x => refBytes s n (x.refs.take 1)
  | none => []

/-- Drop references wholly older than the window, and the oldest beyond 64 (R109). -/
def trimRefs (window : Nat) (rs : List (Nat × Nat)) : List (Nat × Nat) :=
  let rec go : List (Nat × Nat) → List (Nat × Nat)
    | [] => []
    | r :: rs => if window ≠ 0 ∧ window ≤ runsLen rs then go rs else r :: rs
  let rs := go rs
  rs.drop (rs.length - 64)

/-- The context after a job that produced `len` bytes at `addr`. -/
def advanceCtx (x : Ctx) (r : Config.CodecOut) (addr consumed len : Nat) (dict : List (Nat × Nat)) (full : Bool) : Ctx :=
  { x with
    totalIn := (x.totalIn + consumed) % 2 ^ 64, totalOut := (x.totalOut + len) % 2 ^ 64, window := r.window
    dictId := r.dictId, codecState := bytesAt r.codecState 0 980, history := r.history.drop (r.history.length - 65536)
    heldInput := r.heldInput, suspended := r.suspended
    skipBits := if full then (r.bitPos - 8 * consumed) % 32 else 0
    dictCtx := if r.dictUsed then x.dictCtx else 0
    refs := trimRefs r.window (x.refs ++ (if r.dictUsed ∧ x.totalIn = 0 then dict else [])
      ++ (if len = 0 then [] else [(addr, len)])) }

/-- Write a job's output; what lies beyond it within OUT_LEN is undefined when the job did not consume its input
(log entry 47). -/
def codecOutput (n addr outLen : Nat) (out : List Byte) (rest : Bool) (s : State) : State :=
  let tail := if rest then freeBytes s (outLen - out.length) else []
  bumpFresh (hostWrite n addr (out ++ tail) s)

/-- Is the format disabled in BSH_CTL? (log entry 46) -/
def formatDisabled (s : State) (format : Nat) : Bool :=
  if format = 4 then !s.bsh.zstdEn else decide (1 ≤ format ∧ format ≤ 3) && !s.bsh.deflateEn

/-- The end of a codec unit with a codec status (BSH_ERR_CNT). -/
def codecCount (st : Nat) (s : State) : State :=
  if st = stCodecData then { s with bsh := { s.bsh with dataErr := satInc s.bsh.dataErr 0xFFFF } }
  else if st = stCodecLimit then { s with bsh := { s.bsh with limitErr := satInc s.bsh.limitErr 0xFFFF } } else s

/-- A job ends and its context becomes EMPTY. -/
def codecFails (n c k st r0 r1 : Nat) (s : State) : State := finishWith k st r0 r1 (codecCount st (putCtx n c none s))

/-- A job runs on a stream (R104, R114, R115, Table 3.9). -/
def codecRun (n : Nat) (ends : Bool) (x : Ctx) (p : List Byte) (k : Nat) (s : State) : State :=
  let c := pkContext p
  let addr := field p 36 8
  let outLen := field p 44 4
  let len := pkLength p
  let dict := dictBytes s n x.dictCtx
  if unitStatus s k 0 ≠ stOk then codecFails n c k (unitStatus s k 0) 0 0 (codecOutput n addr outLen [] true s)
  else if formatDisabled s x.format || decide (2097152 < dict.length) then
    codecFails n c k stCodecLimit 0 0 (codecOutput n addr outLen [] true s)
  else
    let r := Config.codecJob { mode := x.mode, format := x.format, ends := ends, ctx := carried x, dict := dict
                               refs := refBytes s n x.refs, input := gather s n p 0 len
                               room := if c = 0 ∧ x.mode = 1 then 2 ^ 40 else outLen }
    if c = 0 ∧ x.mode = 1 ∧ r.kind < 2 then
      let bound := if marginOf s n = 0 then len - 1 else len - len * marginOf s n / 16
      if shrunk r.output.length len (marginOf s n) = true ∧ r.output.length ≤ outLen then
        finishWith k stOk len r.output.length (codecOutput n addr outLen r.output false s)
      else
        let st := if bound ≤ outLen then stIncompressible else stCodecLimit
        finishWith k st len 0 (codecCount st (codecOutput n addr outLen [] true s))
    else
      let out := r.output.take outLen
      if r.kind = 0 then
        let x' := advanceCtx x r addr len out.length (dictRef s n x.dictCtx) false
        finishWith k stOk len out.length
          (putCtx n c (if ends then none else some { x' with st := .opened, endSeen := false })
            (codecOutput n addr outLen out false s))
      else if r.kind = 1 then
        let consumed := if r.inHeld then 0 else min (r.bitPos / 8 / 4 * 4) len
        let s := codecOutput n addr outLen out true s
        if pkHoldPartial p && !(c == 0) then
          let x' := advanceCtx x r addr consumed out.length (dictRef s n x.dictCtx) true
          finishWith k stOkResumable consumed out.length (putCtx n c (some { x' with st := .suspended, endSeen := ends }) s)
        else codecFails n c k stCodecLimit consumed out.length s
      else
        codecFails n c k (if r.kind = 2 then stCodecData else stCodecLimit) (min r.consumed len) out.length
          (codecOutput n addr outLen out true s)
where
  /-- The dictionary's own window reference (R110). -/
  dictRef (s : State) (n c : Nat) : List (Nat × Nat) :=
    match ctxOf s n c with
    | some d => d.refs.take 1
    | none => []

/-- The cases of R107 and R101 in order: the offset in RESULT0. -/
def codecFields (s : State) (n : Nat) (p : List Byte) : List (Nat × Bool) :=
  let c := pkContext p
  let x := ctxOf s n c
  let cont := bit (field p 50 1) 0
  let open_ := match x with
    | some x => x.st == .opened
    | none => false
  [(50, c == 0 && (cont || !bit (field p 50 1) 1)), (1, c == 0 && pkHoldPartial p), (50, cont && !open_),
   (48, cont && (match x with
      | some x => !(x.mode == field p 48 1)
      | none => false)),
   (49, cont && (match x with
      | some x => !(x.format == field p 49 1)
      | none => false)),
   (49, field p 49 1 == 0), (49, field p 48 1 == 1 && (field p 49 1 == 2 || field p 49 1 == 3)),
   (52, decide (contextCount s n < c) || (match x with
      | some x => x.st == .dictionary
      | none => false))]

/-- CODEC (R107). -/
def codecDone (n : Nat) (p : List Byte) (k : Nat) (s : State) : State :=
  match firstWrong (codecFields s n p) with
  | some o => badField k o s
  | none =>
    let ends := bit (field p 50 1) 1
    match bit (field p 50 1) 0, ctxOf s n (pkContext p) with
    | true, some x => codecRun n ends (if pkHandle p = 0 then x else { x with dictCtx := pkHandle p }) p k s
    | _, _ => codecRun n ends (newStream (field p 48 1) (field p 49 1) (pkHandle p)) p k s

/-- CODEC with MODE 0. -/
def execCodecDecompress (inst : Fin 64) (tag : Fin 256) (s : State) : Out :=
  codecWork opCodec inst tag (fun p => field p 48 1 == 0 && s.bsh.enable && mayWrite s inst) s (codecDone inst)

/-- CODEC with MODE 1. -/
def execCodecCompress (inst : Fin 64) (tag : Fin 256) (s : State) : Out :=
  codecWork opCodec inst tag (fun p => field p 48 1 == 1 && s.bsh.enable && mayWrite s inst) s (codecDone inst)

/-- CODEC_RESUME (R116). -/
def resumeDone (n : Nat) (p : List Byte) (k : Nat) (s : State) : State :=
  match ctxOf s n (pkContext p) with
  | some x => if x.st = .suspended then codecRun n x.endSeen x p k s else badField k 52 s
  | none => badField k 52 s

/-- CODEC_RESUME. -/
def execCodecResume (inst : Fin 64) (tag : Fin 256) (s : State) : Out :=
  codecWork opCodecResume inst tag (fun _ => s.bsh.enable && mayWrite s inst) s (resumeDone inst)

/-! ### Images (Table 3.7) -/

/-- The WINDOW_REF entries. -/
def refImage (rs : List (Nat × Nat)) : List Byte :=
  bytesAt (rs.flatMap (fun r => leBytes 8 r.1 ++ leBytes 4 r.2 ++ leBytes 4 0)) 0 1024

/-- SKIP_BITS stand in the first bits of PENDING, byte 128 of the image (log entry 48). -/
def pendingState (x : Ctx) : List Byte :=
  overlay (bytesAt x.codecState 0 980) 84 (leBytes 1 (field x.codecState 84 1 / 32 * 32 + x.skipBits % 32))

/-- The image of a context (log entry 48). -/
def ctxImage (x : Ctx) : List Byte :=
  let dict := x.st == .dictionary
  leBytes 4 0x4B374358 ++ leBytes 2 1 ++ leBytes 1 (b2n dict)
    ++ leBytes 1 (if dict then 0 else if x.st = .opened then 1 else 2) ++ leBytes 1 x.mode ++ leBytes 1 x.format
    ++ leBytes 1 (b2n x.endSeen) ++ leBytes 1 0 ++ leBytes 4 x.history.length ++ leBytes 8 x.totalIn ++ leBytes 8 x.totalOut
    ++ leBytes 4 x.window ++ leBytes 4 x.dictId ++ leBytes 4 x.dictCtx ++ pendingState x ++ refImage x.refs
    ++ List.replicate 2048 0 ++ x.history

/-- CODEC_SAVE (R111). -/
def saveDone (n : Nat) (p : List Byte) (k : Nat) (s : State) : State :=
  match ctxOf s n (pkContext p) with
  | some x => finishWith k stOk (ctxImage x).length 0 (deliver n p 0 (ctxImage x) s)
  | none => badField k 52 s

/-- CODEC_SAVE. -/
def execCodecSave (inst : Fin 64) (tag : Fin 256) (s : State) : Out :=
  codecWork opCodecSave inst tag (fun _ => mayWrite s inst) s (saveDone inst)

/-- The window references of an image: the used entries, and the offset of a bad one. -/
def imageRefs (b : List Byte) : List (Nat × Nat) :=
  ((List.range 64).map (fun i => (field b (1024 + 16 * i) 8, field b (1032 + 16 * i) 4))).filter (fun r => !(r.2 == 0))

/-- An entry whose reserved bytes are not zero, or a used entry behind an unused one. -/
def refBad (b : List Byte) (dict : Bool) (i : Nat) : Bool :=
  let len (i : Nat) := field b (1032 + 16 * i) 4
  !allZero (bytesAt b (1036 + 16 * i) 4) || (decide (0 < i) && !(len i == 0) && (dict || len (i - 1) == 0))
    || (dict && i == 0 && len 0 == 0)

/-- The fields of an image in ascending offset (R112) (log entry 46). -/
def imageFields (s : State) (n : Nat) (bufLen : Nat) (b : List Byte) : List (Nat × Bool) :=
  let dict := field b 6 1 == 1
  let st := field b 7 1
  let fmt := field b 9 1
  [(0, !(field b 0 4 == 0x4B374358)), (4, !(field b 4 2 == 1)), (6, decide (1 < field b 6 1)),
   (7, if dict then !(st == 0) else !(st == 1 || st == 2)), (8, decide (1 < field b 8 1)),
   (9, decide (fmt = 0 ∨ 4 < fmt) || (!dict && field b 8 1 == 1 && (fmt == 2 || fmt == 3))),
   (10, decide (1 < field b 10 1) || (!(st == 2) && !(field b 10 1 == 0))), (11, !allZero (bytesAt b 11 1)),
   (12, decide (65536 < field b 12 4 ∨ bufLen < 4096 + field b 12 4 ∨ field b 24 8 < field b 12 4)),
   (32, decide (8388608 < field b 32 4)),
   (40, decide (64 < field b 40 4) || (!(field b 40 4 == 0) && (dict || (dictionaryOf s n (field b 40 4)).isNone))),
   (Config.codecStateBad (bytesAt b 44 980), !(Config.codecStateBad (bytesAt b 44 980) == 0)),
   (128, !allZero (bytesAt b 140 4))]
  ++ (List.range 64).map (fun i => (1024 + 16 * i, refBad b dict i)) ++ [(2048, !allZero (bytesAt b 2048 2048))]

/-- The context an image describes. -/
def imageCtx (b : List Byte) : Ctx :=
  { st := if field b 6 1 = 1 then .dictionary else if field b 7 1 = 1 then .opened else .suspended
    mode := field b 8 1, format := field b 9 1, endSeen := field b 10 1 == 1, totalIn := field b 16 8
    totalOut := field b 24 8, window := field b 32 4, dictId := field b 36 4, dictCtx := field b 40 4
    codecState := bytesAt b 44 980, refs := imageRefs b, history := bytesAt b 4096 (field b 12 4), heldInput := []
    skipBits := field b 128 1 % 32, suspended := [] }

/-- CODEC_RESTORE (R111, R112) (log entry 46). -/
def restoreDone (n : Nat) (p : List Byte) (k : Nat) (s : State) : State :=
  let c := pkContext p
  if c = 0 ∨ contextCount s n < c ∨ dictInUse s n c = true then badField k 52 s
  else
    let b := gather s n p 0 (min (pkBufLen p) 69632)
    match firstWrong (imageFields s n (pkBufLen p) b) with
    | some o => codecFails n c k stCodecData o 0 s
    | none =>
      let x := imageCtx b
      if x.st = .dictionary ∧ x.format = 4 ∧ Config.zstdDictOk (refBytes s n (x.refs.take 1)) = false then
        codecFails n c k stCodecData 1024 0 s
      else finishWith k stOk (4096 + x.history.length) 0 (putCtx n c (some x) s)

/-- CODEC_RESTORE. -/
def execCodecRestore (inst : Fin 64) (tag : Fin 256) (s : State) : Out :=
  codecWork opCodecRestore inst tag (fun _ => true) s (restoreDone inst)

/-- CODEC_CONTEXTS takes a new value: contexts beyond it are discarded (R113). -/
def setContexts (n v : Nat) (s : State) : State :=
  modInst n (fun i => { i with feat := { i.feat with codecContexts := v } })
    { s with bsh := { s.bsh with ctxs := s.bsh.ctxs.filter (fun p => !(p.1 / 65 == n && decide (v < p.1 % 65))) } }

/-- The sum of CODEC_CONTEXTS over all instances. -/
def contextsAllocated (s : State) : Nat := s.insts.foldl (fun a p => a + p.2.feat.codecContexts) 0

/-- May CODEC_CONTEXTS take this value (R113)? -/
def contextsAllowed (s : State) (n v : Nat) : Bool :=
  !((List.range 65).any (fun c => decide (v < c) && ctxRunning s n c))
    && decide (contextsAllocated s - contextCount s n + v ≤ 1024)

end Sys2Proof.Machine
end

