-- ==== Sys2Proof/Machine/Power.lean ====
section
/-! DEFINITION. Takeover reports, the DEGRADED condition, the fault bits of PWR_FAULT_STS, and what a power-on reset leaves
(R74, R287, R288, R409, R410, R433 to R437, R439, R502). -/

namespace Sys2Proof.Machine

/-! ### Pools and their spares (R410) -/

/-- Is the unit's bit set? -/
def unitOk (mask k : Nat) : Bool := bit mask k

/-- Does a spare stand: its unit works and has replaced none? -/
def spareStands (mask k replaces : Nat) : Bool := unitOk mask k && replaces == 0xFF

/-- The engine roles of the spares E32 to E35 that stand. -/
def engineSpare (s : State) : Option Nat :=
  (s.sch.engines.find? (fun p => decide (32 ≤ p.1 ∧ p.1 ≤ 35) && p.2.role == .spare)).map Prod.fst

/-- A Hogshead spare bank that stands. -/
def bankSpare (s : State) : Option Nat :=
  if spareStands s.mem.bankOk 32 s.mem.bank32 then some 32
  else if spareStands s.mem.bankOk 33 s.mem.bank33 then some 33 else none

/-- Is PLL `i` locked to a reference within limits? -/
def pllLocked (s : State) (i : Nat) : Bool :=
  if i = 0 then s.clk.lock0 && s.clk.refOk0 else s.clk.lock1 && s.clk.refOk1

/-- Does the standby PLL stand by? -/
def standbyLocked (s : State) : Bool := s.clk.stbyEn && pllLocked s (if s.clk.rootActive then 0 else 1)

/-- Does some pool have no spare standing, because a takeover used it or it failed its test, or is a SHA-384 lane out?
Before the units have been tested none has failed. -/
def poolsSpent (s : State) : Bool :=
  !s.sch.engines.isEmpty && ((engineSpare s).isNone || !spareStands s.bsh.dOk 8 s.bsh.dReplaced
    || !spareStands s.bsh.cOk 4 s.bsh.cReplaced
    || !(spareStands s.sec.aesOk 10 s.sec.a10Replaces || spareStands s.sec.aesOk 11 s.sec.a11Replaces)
    || !spareStands s.sec.pkOk 1 s.sec.pk1Replaces || !spareStands s.flc.softOk 4 s.flc.softReplaces
    || !spareStands s.idx.bankOk 16 s.idx.replaces || (bankSpare s).isNone || !(s.sec.shaOk == 15))

/-- The DEGRADED condition of R410; the standby PLL counts once the units have been tested (log entry 128). -/
def degraded (s : State) : Bool :=
  poolsSpent s || s.flc.channels.any (fun c => c.2.st == .failed) || !(s.pwr.pairsSingle == 0)
    || (!s.sch.engines.isEmpty && !standbyLocked s) || s.drc.a.st == .failed || s.drc.b.st == .failed

/-- The median of some temperatures (log entry 92). -/
def median (ts : List Int) : Int :=
  let ss := ts.mergeSort (fun a b => decide (a ≤ b))
  ss.getD (ss.length / 2) 0

/-- The sensors that are failed or ignored (R431). -/
def sensorsFailed (s : State) : Nat := Tbl.countIf s.pwr.sensors (fun _ x => x.failed)

/-- The highest state among the sensors whose scope is the whole device, raised to THROTTLE_1 by four ignored on-die
sensors or a failed remote channel (R429, R431) (log entry 91). -/
def deviceThermal (s : State) : Nat :=
  let scope (n : Nat) : Bool := decide (n < 12) || (Tbl.getD s.pwr.extCfg (n - 12) (0, 0, 0)).1 == 0
  let top := s.pwr.sensors.foldl (fun a p =>
    if scope p.1 then max a (if p.2.failed then (if p.1 < 12 then 0 else max 2 p.2.state) else p.2.state) else a) 0
  let ignored := Tbl.countIf s.pwr.sensors (fun n x => decide (n < 12) && x.failed)
  if 4 ≤ ignored then max 2 top else top

/-- The state of the scope of channel `c` (R429, R431). -/
def channelThermal (s : State) (c : Nat) : Nat :=
  s.pwr.sensors.foldl (fun a p =>
    if 12 ≤ p.1 ∧ bit (Tbl.getD s.pwr.extCfg (p.1 - 12) (0, 0, 0)).1 c = true then
      max a (if p.2.failed then max 2 p.2.state else p.2.state)
    else a) 0

/-- The state whose device actions are taken: that of the device scope, or of the power cap (R429, R432). -/
def deviceActions (s : State) : Nat := max (deviceThermal s) s.pwr.capLevel

/-- The state of a channel's actions: the higher of its own scope and the device's. -/
def thermalOf (s : State) (c : Nat) : Nat := max (deviceActions s) (channelThermal s c)

/-- The highest state of any scope. -/
def topThermal (s : State) : Nat := (List.range 16).foldl (fun a c => max a (channelThermal s c)) (deviceThermal s)

/-- The conditions of PWR_FAULT_STS that hold now: each sets its bit again at once (Table 12.12) (log entry 88). -/
def faultConditions (s : State) : Nat :=
  b2n (degraded s) + 2 * b2n s.pwr.dipLong + 4 * b2n (decide (4 ≤ topThermal s)) + 8 * b2n (decide (0 < sensorsFailed s))
    + 16 * b2n (!(s.pwr.portsDown == 0)) + 32 * b2n (s.flc.channels.any (fun c => c.2.st == .failed))

/-- Bitwise or of two numbers below 2^6. -/
def orFaults (a b : Nat) : Nat := Nat.lor a b

/-- PWR_FAULT_STS as it reads. -/
def faultSts (s : State) : Nat := orFaults s.pwr.faultSts (faultConditions s)

/-- Keep the bits of the conditions that hold, so that they stay set when the condition ends. -/
def settleFaults (s : State) : State := { s with pwr := { s.pwr with faultSts := faultSts s } }

/-- Some bit of PWR_FAULT_STS that PWR_FAULT_MASK enables is 1, which asserts FAULT_N (R435) (log entry 128). -/
def faultPinCause (s : State) : Bool := !(Nat.land (faultSts s) s.pwr.faultMask == 0)

/-- FAULT_N is asserted: until the end of STAGE 1 (Table 14.13), and then as R435 says (log entry 128). -/
def faultN (s : State) : Bool := decide (s.glb.stage ≤ 1) || faultPinCause s

/-- THERM_ALERT_N is asserted: some scope stands at ALERT_LEVEL or higher (R429). -/
def thermAlert (s : State) : Bool :=
  match Tbl.get? s.insts 0 with
  | some i => decide (i.feat.alertLevel ≤ topThermal s)
  | none => false

/-! ### Takeovers (R407, R433, R502) -/

/-- The interruption of a covered fault ends after `ns`: TAKEOVER in the health log and EV_FAULT_TAKEOVER
(log entry 148). -/
def takeover (code unit repl ns : Nat) (s : State) : State :=
  let s := settleFaults s
  let s := logHealth 0x0023 0xFF 0xFFFF (code * 256 + unit) 0 ns (leBytes 1 repl) s
  raise 0 { code := 0x0022, status := stOk
            r0 := 0x0022 + 2 ^ 16 * code + 2 ^ 24 * unit + 2 ^ 32 * repl + b2n (degraded s) * 2 ^ 40, r1 := ns } s

/-! ### A power-on reset (R74, R437) -/

/-- A journal group that a power loss drops. -/
def groupMakes (f : Flc) (v : Nat) (made : Bool) : Bool :=
  f.groups.any (fun g => g.entries.any (fun e => e == .volume v made))

/-- A volume as a power loss leaves it: what was durable. -/
def volAfterCut (u : Vol) : Vol := { u with data := u.durable, map := u.mapDurable, serves := true }

/-- The flash after a power loss: groups whose page was never programmed are gone, and with them the volumes they would
have made; superblocks are closed as they stand, or free where their erase was under way (R280, R287, R288). -/
def flashAfterCut (f : Flc) : Flc :=
  let keep (p : Nat × Vol) : Bool := !groupMakes f p.1 true && !(p.2.deleted && !groupMakes f p.1 false)
  { f with
    vols := (f.vols.filter keep).map (fun p => (p.1, volAfterCut p.2))
    superblocks := (f.superblocks.filter (fun p => !(p.2.st == .erasing))).map (fun p =>
      (p.1, { p.2 with st := .closed, pins := [], toErase := [] }))
    channels := f.channels.map (fun p => (p.1, resetChan))
    dies := f.dies.map (fun p => (p.1, { p.2 with timeouts := 0 }))
    sanitizing := f.sanitizing.filter (fun x => !(f.groups.any (fun g => g.id == x.start)))
    groups := [], logPending := [], logWaiting := [], heldBytes := 0, gcRaised := false, denseDirect := false
    softOk := 0, softReplaces := 0xFF
    life := { f.life with powerCycles := f.life.powerCycles + 1 } }

/-- TAGS_ENDED for every instance that had busy tags: the entries wait for numbers (R74) (log entry 143). -/
def tagsEndedEntries (s : State) : List HEntry :=
  (s.insts.filterMap (fun p =>
    let n := (busyOf s p.1).length
    if n = 0 then none else some (healthEntry s 0x000A p.1 0xFFFF p.1 0 n []))).map (fun e => { e with time := 0 })

/-- What a power-on reset makes of the part: every register and all volatile state at reset, and flash, system area,
fuses and numbering kept (Table 13.1). The references keep what they are, REFCLK0 the root when it is present (R463). The
staged and running images, the learned repairs and the revocation list are in the system area. `cause` is GLB_RESET_CAUSE. -/
def powerReset (cause : Nat) (held : Bool) (straps smba : Nat) (s : State) : State :=
  let arr := if bits straps 0 2 = 3 then 2 else bits straps 0 2
  let port (p : Nat) : HPort :=
    { resetHPort with perst := (portOf s p).perst, sris := bit straps (2 + p), pm := if p = 1 ∧ ¬arr = 1 then 5 else 4 }
  { glb := { resetGlb s.glb.seqLimit cause arr with
               stored := s.glb.stored, staged := s.glb.staged, held := held }
    clk := { resetClk with refOk0 := s.clk.refOk0, refOk1 := s.clk.refOk1, rootActive := !s.clk.refOk0 && s.clk.refOk1 }
    hif := { resetHif straps smba with
               port0 := port 0
               port1 := port 1
               gpioIn := s.hif.gpioIn, msix := s.hif.msix }
    mgr := resetMgr, otp := resetOtp s.otp.fuses, dbg := resetDbg
    pwr := { resetPwr with pwrFail := s.pwr.pwrFail, holdupRdy := s.pwr.holdupRdy }
    bsh := resetBsh
    sec := { resetSec with revSequence := s.sec.revSequence, revEntries := s.sec.revEntries }
    sch := resetSch, dmz := resetDmz, idx := resetIdx
    flc := { flashAfterCut s.flc with
               logWaiting := tagsEndedEntries s
               life := { (flashAfterCut s.flc).life with powerOnS := s.flc.life.powerOnS + s.now / 1000000, patrolAt := 0 } }
    mem := { resetMem with learned := s.mem.learned }
    cch := resetCch, drc := resetDrc, spn := { resetSpn with wire := s.spn.wire }
    tags := [], locks := [], insts := [(0, resetInst0)], units := []
    acceptCount := 0, hostMem := s.hostMem, now := 0, fresh := s.fresh, pending := s.pending }

/-- An internal power-on reset (R408, R409, R430, Table 12.5): `bit` is its bit of GLB_RESET_CAUSE (log entry 103). -/
def internalReset (causeBit : Nat) (held : Bool) (s : State) : State :=
  powerReset (2 ^ causeBit) held s.hif.straps s.hif.smba s

end Sys2Proof.Machine
end

