-- ==== Sys2Proof/Machine/KeyOps.lean ====
section
/-! DEFINITION. Anchors, licences, seal sessions and the freeing of key slots (R121 to R148). -/

namespace Sys2Proof.Machine

/-- The 48 bytes of a SHA-384 (log entry 7). -/
def hashBytes (h : BitVec 384) : List Byte := leBytes 48 h.toNat

/-- SHA-384 as bytes (log entry 7). -/
def sha (bs : List Byte) : List Byte := hashBytes (Config.sha384 bs)

/-- ASCII without a terminator. -/
def ascii (t : String) : List Byte := t.toList.map (fun c => BitVec.ofNat 8 c.toNat)

/-- Anchors of Table 13.4 by number. -/
abbrev aFwRoot0 : Nat := 0
abbrev aFwRoot1 : Nat := 1
abbrev aContentRoot0 : Nat := 2
abbrev aContentRoot1 : Nat := 3
abbrev aConsumerRoot0 : Nat := 4
abbrev aConsumerRoot1 : Nat := 5
abbrev aDeviceCa : Nat := 6
abbrev aDebugRoot : Nat := 7
abbrev aProgramRoot : Nat := 8

/-- The 48 bytes of anchor `k`. -/
def anchor (o : Otp) (k : Nat) : List Byte := Cells.readN o.fuses (0x24 + 0x34 * k) 48

/-- Is the anchor written, with a CHECK that matches (R123, R449)? -/
def anchorWritten (o : Otp) (k : Nat) : Bool :=
  !allZero (anchor o k) && decide (Cells.readN o.fuses (0x24 + 0x34 * k + 48) 4 = (sha (anchor o k)).take 4)

/-- Does a public key match anchor `k`? -/
def anchorMatches (o : Otp) (k : Nat) (pub : List Byte) : Bool := anchorWritten o k && decide (sha pub = anchor o k)

/-- FW_ROOT_0_REVOKED. -/
def fwRoot0Revoked (o : Otp) : Bool := !((Cells.read o.fuses 0x209).toNat % 4 == 0)

/-- The ARB value: the bits set. -/
def arbValue (o : Otp) : Nat :=
  ((Cells.readN o.fuses 0x1F8 16).map (fun b => (List.range 8).foldl (fun a i => a + b2n (b.getLsbD i)) 0)).foldl (· + ·) 0

/-- ISEED with a CHECK that matches. -/
def iseedWritten (s : State) : Bool :=
  !allZero (iseed s) && decide (Cells.readN s.otp.fuses 0x20 4 = (sha (iseed s)).take 4)

/-- May licences and seal sessions be opened: SECURED, DEBUG_OPENED 0, the ladder not blocked (R133, R143, R157)? -/
def contentAllowed (s : State) : Bool :=
  s.otp.ladderLc == 2 && lifecycle s.otp == 2 && !s.sec.debugOpened && !s.sec.ladderBlocked

/-- A public-key engine is in service (R160). -/
def pkServes (s : State) : Bool := bit s.sec.pkOk 0 || bit s.sec.pkOk 1

/-- Does a command use an object? (log entry 117) -/
def inUse (s : State) (u : Use) : Bool := s.tags.any (fun p => p.2.uses.contains u)

/-! ### Licences (Tables 4.5 and 4.6) -/

/-- Zeroise a title key slot; the packages verified under it are discarded (R83). -/
def freeLicence (slot : Nat) (s : State) : State :=
  { s with sec := { s.sec with licences := Tbl.erase s.sec.licences slot }
           bsh := { s.bsh with packages := s.bsh.packages.filter (fun p => !(p.licence == slot)) } }

/-- Drop a licence: at once without users, otherwise it refuses new users until the last one has replied (R137). -/
def dropLicence (slot : Nat) (tag : Option Nat) (s : State) : State :=
  if inUse s (.licence slot) then
    let s := { s with sec := { s.sec with licences := Tbl.modify s.sec.licences slot (fun l =>
      { l with st := .dropping, dropTag := tag }) } }
    match tag with
    | some k => modTag k (fun t => { t with work := .lastUser }) s
    | none => s
  else
    let s := freeLicence slot s
    match tag with
    | some k => finishWith k stOk 0 0 s
    | none => s

/-- The last user of a licence that is DROPPING has replied. -/
def settleLicence (slot : Nat) (s : State) : State :=
  match Tbl.get? s.sec.licences slot with
  | some l =>
    if l.st = .dropping ∧ inUse s (.licence slot) = false then
      let s := freeLicence slot s
      match l.dropTag with
      | some k => finishWith k stOk 0 0 s
      | none => s
    else s
  | none => s

/-- Does an entry of a revocation list revoke a licence (R138)? -/
def revokes (licenceId titleId keyGen : Nat) (e : RevEntry) : Bool :=
  if e.licence then e.id == licenceId else e.id == titleId && decide (keyGen < e.keyGenMin)

/-- Is a licence revoked by the list in force? -/
def isRevoked (s : State) (licenceId titleId keyGen : Nat) : Bool := s.sec.revEntries.any (revokes licenceId titleId keyGen)

/-- The revocation point: licences that the list covers become REVOKED and lose their kept packages (R137, R140). -/
def applyRevocation (s : State) : State :=
  let hit (l : Lic) : Bool := l.st == .loaded && isRevoked s l.licenceId l.titleId l.keyGen
  let slots := (s.sec.licences.filter (fun p => hit p.2)).map Prod.fst
  { s with sec := { s.sec with licences := Tbl.mapVals s.sec.licences (fun _ l => if hit l then { l with st := .revoked } else l) }
           bsh := { s.bsh with packages := s.bsh.packages.filter (fun p => !slots.contains p.licence) } }

/-- The next generation of a slot: 1 at first, then one more, and never 0 (log entry 31). -/
def nextGen (gens : Tbl Nat) (slot wrap : Nat) : Nat :=
  match Tbl.get? gens slot with
  | none => 1
  | some g => if (g + 1) % wrap = 0 then 1 else (g + 1) % wrap

/-- The wrap key of R132 from the shared secret. -/
def licenceWrapKey (z lic : List Byte) : BitVec 256 :=
  (Config.kdf z (ascii "KR940 licence") (bytesAt lic 8 20) 256).setWidth 256

/-- Unwrap a title key with a given ephemeral key, ciphertext and tag (R132): the first 48 bytes of the licence are the
additional data. -/
def unwrapTitle (s : State) (lic eph wrapped tag : List Byte) : Option (BitVec 256) :=
  (Config.gcmOpen (licenceWrapKey (Config.dkaShared (iseed s) s.otp.ladderLc eph) lic) (List.replicate 12 0)
    (bytesAt lic 0 48) wrapped tag).map (fun k => ofBytes256 k)
where
  /-- 32 bytes as a key. -/
  ofBytes256 (k : List Byte) : BitVec 256 := BitVec.ofNat 256 (leNat k)

/-- Format of a licence (check 2 of R133). -/
def licenceFormat (l : List Byte) : Bool :=
  field l 0 4 == 0x4B374C49 && field l 4 2 == 1 && (field l 6 1 == 1 || field l 6 1 == 2) && decide (field l 7 1 < 4)
    && allZero (bytesAt l 145 7) && allZero (bytesAt l 297 7) && ((field l 28 4 == 0) == (field l 6 1 == 1))

/-- Checks 4 to 6 of R133: the status of the first that fails. -/
def licenceSigner (s : State) (l : List Byte) : Option Nat :=
  let pub := bytesAt l 200 97
  let binding := field l 6 1
  if !((anchorMatches s.otp aContentRoot0 pub || anchorMatches s.otp aContentRoot1 pub)
      && Config.ecdsaOk pub (bytesAt l 0 304) (bytesAt l 304 96)) then some stAuthFail
  else if isRevoked s (field l 8 8) (field l 16 8) (field l 24 4) then some stKeyRevoked
  else if (if binding = 1 then field l 32 16 == deviceId s
      else !(s.spn.spanId == 0) && s.spn.group == field l 28 4) then none
  else some stNoLicense

/-- The licence of an instance with this LICENCE_ID that is live. -/
def liveLicence (s : State) (n id : Nat) : Option (Nat × Lic) :=
  s.sec.licences.find? (fun p => p.2.inst == n && p.2.licenceId == id && p.2.st == .loaded)

/-- A refused LICENSE_LOAD. -/
def licenceRefused (k status r0 : Nat) (s : State) : State :=
  let s := { s with sec := { s.sec with licenceRefused := satInc s.sec.licenceRefused 0xFF } }
  if status = stAuthFail then authFailed k s else finishWith k status r0 0 s

/-- The end of LICENSE_LOAD with a title key: the live licence of the same LICENCE_ID, or a free slot (check 8). -/
def fillLicence (n k : Nat) (l : List Byte) (key : BitVec 256) (s : State) : State :=
  match liveLicence s n (field l 8 8) with
  | some (slot, x) => finishWith k stOk (slot + x.gen * 256) x.titleId s
  | none =>
    match Tbl.lowestFree s.sec.licences 0 256 with
    | none => licenceRefused k stNotPermitted 0 s
    | some slot =>
      let gen := nextGen s.sec.licGens slot (2 ^ 24)
      let x : Lic := { st := .loaded, inst := n, gen := gen, licenceId := field l 8 8, titleId := field l 16 8
                       keyGen := field l 24 4, grouped := field l 6 1 == 2, group := field l 28 4
                       sealRequired := bit (field l 7 1) 0, scanAllowed := bit (field l 7 1) 1, key := key
                       dropTag := none }
      finishWith k stOk (slot + gen * 256) x.titleId
        { s with sec := { s.sec with licences := Tbl.set s.sec.licences slot x
                                     licGens := Tbl.set s.sec.licGens slot gen } }

/-- Does a licence cover a command (R134)? -/
def covers (x : Lic) (title keyGen : Nat) (sealed scans : Bool) : Bool :=
  x.titleId == title && x.keyGen == keyGen && (!x.sealRequired || sealed) && (x.scanAllowed || !scans)

/-! ### Seal sessions (Table 4.10) -/

/-- Zeroise a seal session. -/
def freeSeal (no : Nat) (s : State) : State := { s with sec := { s.sec with seals := Tbl.erase s.sec.seals no } }

/-- Close a session: at once without users, otherwise once the last user has replied. -/
def closeSeal (no k : Nat) (s : State) : State :=
  if inUse s (.session no) then
    modTag k (fun t => { t with work := .lastUser })
      { s with sec := { s.sec with seals := Tbl.modify s.sec.seals no (fun x => { x with st := .closing, closeTag := some k }) } }
  else finishWith k stOk (Tbl.get? s.sec.seals no |>.elim 0 Seal.counter) 0 (freeSeal no s)

/-- The last user of a session that is CLOSING has replied. -/
def settleSeal (no : Nat) (s : State) : State :=
  match Tbl.get? s.sec.seals no with
  | some x =>
    if x.st = .closing ∧ inUse s (.session no) = false then
      let s := freeSeal no s
      match x.closeTag with
      | some k => finishWith k stOk x.counter 0 s
      | none => s
    else s
  | none => s

/-- The additional data of a sealed unit (R146). -/
def sealAad (counter len kind : Nat) : List Byte := leBytes 8 counter ++ leBytes 4 len ++ leBytes 4 kind

/-- One sealed unit: ciphertext and tag. -/
def sealUnit (x : Seal) (counter kind : Nat) (bs : List Byte) : List Byte :=
  bytesAt (Config.gcmSeal x.key (leBytes 4 x.noncePrefix.toNat ++ (leBytes 8 counter).reverse)
    (sealAad counter bs.length kind) bs) 0 (bs.length + 16)

/-- Sealed units of one command, taking consecutive counters (log entry 38). -/
def sealUnits (x : Seal) (kind : Nat) (us : List (List Byte)) : List (List Byte) :=
  us.zipIdx.map (fun p => sealUnit x (x.counter + p.2) kind p.1)

/-- A session has sealed `n` more units; at 2^32 it is EXHAUSTED (log entry 38). -/
def advanceSeal (no n : Nat) (s : State) : State :=
  { s with sec := { s.sec with seals := Tbl.modify s.sec.seals no (fun x =>
      { x with counter := x.counter + n
               st := if 2 ^ 32 ≤ x.counter + n ∧ x.st = .opened then .exhausted else x.st }) } }

/-- Zeroise every title key and seal session slot (DEVICE_RESET, debug unlock, lifecycle transition). -/
def zeroiseSlots (s : State) : State :=
  { s with sec := { s.sec with licences := [], seals := [] }, bsh := { s.bsh with packages := [] } }

/-- Is the part in its evaluated configuration (R163)? -/
def evaluated (s : State) : Bool :=
  lifecycle s.otp == 2 && !s.sec.debugOpened && s.sec.lock && s.glb.running.evaluatedBuild && !s.sec.entropyFail
    && anchorWritten s.otp aFwRoot1 && anchorWritten s.otp aContentRoot0 && anchorWritten s.otp aConsumerRoot0
    && anchorWritten s.otp aDeviceCa && anchorWritten s.otp aDebugRoot

/-! ### Settings groups (R451) -/

/-- Generation `n` of group `g`: 28 bytes of value and their CRC-32C. -/
def generation (o : Otp) (g n : Nat) : List Byte := Cells.readN o.fuses (0x380 + 0x80 * g + 0x20 * n) 32

/-- A generation is used when any of its bits is 1. -/
def genUsed (o : Otp) (g n : Nat) : Bool := !allZero (generation o g n)

/-- Its CRC matches. -/
def genValid (o : Otp) (g n : Nat) : Bool :=
  genUsed o g n && crc32c ((generation o g n).take 28) == field (generation o g n) 28 4

/-- The winning generation of a group: the highest whose CRC matches. -/
def winnerOf (o : Otp) (g : Nat) : Option Nat := [3, 2, 1, 0].find? (genValid o g)

/-- The values that win, group by group: [] for a group with no winner. -/
def winners (o : Otp) : List (List Byte) :=
  (List.range 4).map (fun g => (winnerOf o g).elim [] (fun n => (generation o g n).take 28))

/-- Bytes [i, i + n) of the value that a group took at the last start-up, where that is legal, or the default. -/
def setting (o : Otp) (g i n dflt : Nat) (legal : Nat → Bool) : Nat :=
  match o.won.getD g [] with
  | [] => dflt
  | bs => if legal (field bs i n) then field bs i n else dflt

/-- Byte 0 of POLICY, which forces some fields (Table 13.5). -/
def policyByte (o : Otp) : Nat := setting o 2 0 1 0 (fun v => decide (v < 16))

/-- PROG_SIG_REQ. -/
def progSigReq (s : State) : Bool := s.sec.progSigReq || bit (policyByte s.otp) 0

/-- TENANT_ATTEST. -/
def tenantAttest (s : State) : Bool := s.sec.tenantAttest && !bit (policyByte s.otp) 1

/-- SEC_CTL as it reads. -/
def secCtl (s : State) : Nat := b2n s.sec.lock + 2 * b2n (tenantAttest s) + 4 * b2n (progSigReq s)

end Sys2Proof.Machine
end

