-- ==== Sys2Proof/Machine/AssetOps.lean ====
section
/-! DEFINITION. Packages: the header, the directory, chunk records and the stages a chunk passes (R79 to R92). -/

namespace Sys2Proof.Machine

/-- Block `i` of a package as it is read: status 0 and its bytes, or the status of a failing block. -/
abbrev Reader := Nat → Nat × List Byte

/-- The blocks of a local package at `lba`; `lost` are the blocks no recovery step could decode. -/
def localReader (u : Vol) (lba : Nat) (lost : List Nat) : Reader := fun i =>
  if undecoded u lost (lba + i) then (stMediaError, []) else (stOk, blocksOf u (lba + i) 1)

/-- Blocks [first, first + n) together: the first failing status, or all the bytes. -/
def readBlocks (rd : Reader) : Nat → Nat → Nat × List Byte
  | _, 0 => (stOk, [])
  | i, n + 1 =>
    let (st, bs) := rd i
    if st ≠ stOk then (st, [])
    else
      let (st, rest) := readBlocks rd (i + 1) n
      (st, bs ++ rest)

/-! ### Header and directory (Table 3.1) -/

def hdTitle (h : List Byte) : Nat := field h 8 8
def hdChunks (h : List Byte) : Nat := field h 16 4
def hdLastPlain (h : List Byte) : Nat := field h 20 4
def hdDirBlocks (h : List Byte) : Nat := field h 24 4
def hdExtent (h : List Byte) : Nat := field h 28 4
def hdDictFirst (h : List Byte) : Nat := field h 32 4
def hdDictChunks (h : List Byte) : Nat := field h 36 4
def hdKeyGen (h : List Byte) : Nat := field h 44 4

/-- Does the HEADER_TAG verify under a title key? -/
def headerVerifies (key : BitVec 256) (h : List Byte) : Bool :=
  (Config.gcmOpen key (bytesAt h 4064 12) (bytesAt h 0 4080) [] (bytesAt h 4080 16)).isSome

/-- The package kept under a licence (R83). -/
def keptPackage (s : State) (v lba slot : Nat) : Option Package :=
  s.bsh.packages.find? (fun p => p.vol == v && p.lba == lba && p.licence == slot)

/-- The title key of a licence slot; a zeroised slot has none, and nothing verifies. -/
def titleKey (s : State) (slot : Nat) : Option (BitVec 256) := (Tbl.get? s.sec.licences slot).map (fun l => l.key)

/-- The verified header, or the status of the reply. -/
def openHeader (s : State) (rd : Reader) (v lba slot : Nat) : Except Nat (List Byte) :=
  match keptPackage s v lba slot with
  | some p => .ok p.header
  | none =>
    let (st, h) := rd 0
    if st ≠ stOk then .error st
    else match titleKey s slot with
      | some key => if headerVerifies key h then .ok h else .error stAuthFail
      | none => .error stAuthFail

/-- The verified directory, or the status of the reply. -/
def openDirectory (s : State) (rd : Reader) (v lba slot : Nat) (h : List Byte) : Except Nat (List Byte) :=
  match keptPackage s v lba slot with
  | some p => .ok p.directory
  | none =>
    let (st, d) := readBlocks rd 1 (hdDirBlocks h)
    if st ≠ stOk then .error st
    else if sha d = bytesAt h 48 48 then .ok d else .error stAuthFail

/-- BLOCK_OFFSET of chunk `i`. -/
def dirOffset (d : List Byte) (i : Nat) : Nat := field d (8 * i) 4

/-- RECORD_LEN of chunk `i`. -/
def dirLen (d : List Byte) (i : Nat) : Nat := bits (field d (8 * i) 8) 32 17

/-- Blocks of a record. -/
def recBlocks (len : Nat) : Nat := (4095 + len) / 4096

/-- PLAIN_LEN of chunk `i`. -/
def plainLen (h : List Byte) (i : Nat) : Nat := if i + 1 = hdChunks h then hdLastPlain h else 65536

/-! ### A chunk through its stages (Table 3.3) -/

/-- What became of a chunk: its status, its plaintext, its CONTENT_KEY. -/
structure ChunkOut where
  status : Nat
  bytes : List Byte
  contentKey : Nat
  /-- its GCM tag failed, and failed again (R88) -/
  tagFail : Bool

/-- A chunk that failed. -/
def chunkFails (st : Nat) : ChunkOut := { status := st, bytes := [], contentKey := 0, tagFail := false }

/-- The BUSHEL stage (R82, R98, R99, BSH_CTL). -/
def unpackChunk (s : State) (format : Nat) (dict payload : List Byte) (len : Nat) : Nat × List Byte :=
  if format = 0 then (if payload.length = len then (stOk, payload) else (stCodecData, []))
  else if (format = 1 ∧ s.bsh.deflateEn = false) ∨ (format = 4 ∧ s.bsh.zstdEn = false) then (stCodecLimit, [])
  else
    let (r, out) := Config.unpack format dict payload
    if r = 1 then (stCodecData, []) else if r ≠ 0 then (stCodecLimit, [])
    else if out.length = len then (stOk, out) else (stCodecData, [])

/-- Bytes of the record of chunk `i`, or the status of a failing block. -/
def chunkRecord (rd : Reader) (d : List Byte) (i : Nat) : Nat × List Byte :=
  let (st, bs) := readBlocks rd (dirOffset d i) (recBlocks (dirLen d i))
  (st, bs.take (dirLen d i))

/-- Does the record of chunk `i` use the package dictionary? -/
def usesDict (rd : Reader) (d : List Byte) (i : Nat) : Bool := bit (field (chunkRecord rd d i).2 5 1) 0

/-- The stages of chunk `i`: `revoked` says that its GCM stage starts after the revocation point (R140), `crcFail` that
its CRC-32C failed twice (R500). -/
def chunkStages (s : State) (rd : Reader) (key : Option (BitVec 256)) (h d dict : List Byte) (revoked crcFail : Bool)
    (i : Nat) : ChunkOut :=
  let len := dirLen d i
  let (st, r) := chunkRecord rd d i
  if st ≠ stOk then chunkFails st
  else if revoked then chunkFails stKeyRevoked
  else match key with
    | none => { chunkFails stAuthFail with tagFail := true }
    | some key =>
      match Config.gcmOpen key (bytesAt r 24 12) (bytesAt r 0 64) (bytesAt r 64 (len - 80)) (bytesAt r (len - 16) 16) with
      | none => { chunkFails stAuthFail with tagFail := true }
      | some payload =>
        if field r 8 4 ≠ i ∨ field r 52 8 ≠ hdTitle h then chunkFails stAuthFail
        else if field r 0 4 ≠ 0x4B374348 ∨ ¬(field r 4 1 = 0 ∨ field r 4 1 = 1 ∨ field r 4 1 = 4) ∨ 2 ≤ field r 5 1
            ∨ field r 12 4 + 80 ≠ len ∨ field r 16 4 ≠ plainLen h i then chunkFails stCodecData
        else
          let (st, out) := unpackChunk s (field r 4 1) (if bit (field r 5 1) 0 then dict else []) payload (plainLen h i)
          if st ≠ stOk then chunkFails st
          else if crcFail then chunkFails stInternal
          else { status := stOk, bytes := out, contentKey := field r 36 16, tagFail := false }

/-- The package dictionary: the plaintexts of its chunks (R82) (log entry 41). -/
def readDict (s : State) (rd : Reader) (key : Option (BitVec 256)) (h d : List Byte) : Except Nat (List Byte) :=
  let cs := (List.range (if hdDictFirst h = 0xFFFFFFFF then 0 else hdDictChunks h)).map (fun j =>
    chunkStages s rd key h d [] false false (hdDictFirst h + j))
  match cs.find? (fun c => !(c.status == stOk)) with
  | some c => .error (if c.status = stMediaError then stMediaError else stAuthFail)
  | none => .ok (cs.flatMap (fun c => c.bytes))

/-- Keep a verified package: the most recently used last, 1,024 packages and 16 dictionaries (R83). -/
def keepPackage (v lba slot : Nat) (h d : List Byte) (dict : Option (List Byte)) (s : State) : State :=
  let old := keptPackage s v lba slot
  let dict := match dict, old with
    | some x, _ => some x
    | none, some p => p.dict
    | none, none => none
  let p : Package := { vol := v, lba := lba, licence := slot, header := h, dirBlocks := hdDirBlocks h, directory := d
                       dict := dict, used := s.now }
  let ps := s.bsh.packages.filter (fun q => !(q.vol == v && q.lba == lba && q.licence == slot)) ++ [p]
  let ps := ps.drop (ps.length - 1024)
  let extra := (ps.filter (fun q => q.dict.isSome)).length - 16
  { s with bsh := { s.bsh with packages := dropDicts extra ps } }
where
  /-- The least recently used dictionaries go. -/
  dropDicts : Nat → List Package → List Package
    | _, [] => []
    | 0, ps => ps
    | n + 1, q :: ps => if q.dict.isSome then { q with dict := none } :: dropDicts n ps else q :: dropDicts (n + 1) ps

/-- A verified package and its dictionary, where a chunk of the range uses one; the kept dictionary serves when there
is one. -/
structure Opened where
  header : List Byte
  directory : List Byte
  dict : Option (List Byte)

/-- Check 7 of R86 (log entry 41). -/
def openRest (s : State) (rd : Reader) (v lba slot first count : Nat) (h : List Byte) : Except Nat Opened :=
  match openDirectory s rd v lba slot h with
  | .error st => .error st
  | .ok d =>
    if (List.range count).any (fun j => usesDict rd d (first + j)) then
      match (keptPackage s v lba slot).bind (fun p => p.dict) with
      | some x => .ok { header := h, directory := d, dict := some x }
      | none =>
        match readDict s rd (titleKey s slot) h d with
        | .ok x => .ok { header := h, directory := d, dict := some x }
        | .error st => .error st
    else .ok { header := h, directory := d, dict := none }

/-! ### Counts and logs of failing units -/

/-- A unit ended with a codec or tag status (BSH_ERR_CNT, SEC_ERR_CNT). -/
def countUnit (st : Nat) (s : State) : State :=
  if st = stCodecData then { s with bsh := { s.bsh with dataErr := satInc s.bsh.dataErr 0xFFFF } }
  else if st = stCodecLimit then { s with bsh := { s.bsh with limitErr := satInc s.bsh.limitErr 0xFFFF } }
  else if st = stAuthFail then { s with sec := { s.sec with authFail := satInc s.sec.authFail 0xFFFF } }
  else s

/-- GCM_REREAD for a chunk of volume `v` at `lba` (R88) (log entry 37). -/
def logReread (n v lba : Nat) (s : State) : State := logHealth 0x0009 n v 0 lba 1 [] s

/-- Work ends; ST_AUTH_FAIL is counted (log entry 41). -/
def endAsset (k : Nat) (r : Reply) (s : State) : State :=
  finish k r (if r.status = stAuthFail then countUnit stAuthFail s else s)

/-- The licence that a slot holds is REVOKED (log entry 40). -/
def slotRevoked (s : State) (slot : Nat) : Bool :=
  match Tbl.get? s.sec.licences slot with
  | some l => l.st == .revoked
  | none => false

/-- Checks 1 and 2 of R86. `under` says that the command's checks were made before the revocation point: its chunks are
under way (log entries 40, 42). -/
def licenceChecks (s : State) (rd : Reader) (v lba slot : Nat) (sealed scans under : Bool) : Except Nat (List Byte) :=
  match openHeader s rd v lba slot with
  | .error st => .error st
  | .ok h =>
    match Tbl.get? s.sec.licences slot with
    | none => .error stAuthFail
    | some l =>
      if !covers l (hdTitle h) (hdKeyGen h) sealed scans then .error stNoLicense
      else if l.st = .revoked ∧ under = false then .error stKeyRevoked
      else .ok h

/-- Does SEAL_SESSION name an open session with room for `units` more counters (R145, R147)? (log entry 39) -/
def sealReady (s : State) (n handle units : Nat) : Option Seal :=
  match sessionOf s n handle with
  | some x => if x.st = .opened ∧ x.counter + units ≤ 2 ^ 32 then some x else none
  | none => none

end Sys2Proof.Machine
end

