-- ==== Sys2Proof/Machine/IndexOps.lean ====
section
/-! DEFINITION. The index unit: matching, the order of matches, cursors, placement and respread (R225 to R245). -/

namespace Sys2Proof.Machine

/-- A key with every bit outside the table's match field zero, shifted down to the field. -/
def matchField (t : ITable) (key : Nat) : Nat := bits key (t.keyBits - t.matchBits) t.matchBits

/-- Exclusive-or of the bytes of a number of `n` bytes. -/
def xorBytes (x n : Nat) : Nat := (leBytes n x).foldl (fun a b => Nat.xor a b.toNat) 0

/-- TAG of a key (R229): the exclusive-or of the 16 bytes of K'. -/
def keyTag8 (t : ITable) (key : Nat) : Nat := xorBytes (matchField t key * 2 ^ (t.keyBits - t.matchBits)) 16

/-- Does an entry of table `tb` match a key (R229)? -/
def entryMatches (tb : Nat) (t : ITable) (key : Nat) (e : IEntry) : Bool :=
  e.table == tb && e.tag == keyTag8 t key && matchField t e.key == matchField t key

/-- Does match (priority, index) `a` come before `b` in the order of R230? -/
def matchBefore (a b : Nat × Nat) : Bool := decide (a.1 < b.1 ∨ (a.1 = b.1 ∧ a.2 < b.2))

/-- The positions (priority, index) of every match, in no order. -/
def matchesOf (s : State) (tb : Nat) (t : ITable) (key : Nat) : List (Nat × Nat) :=
  (s.idx.entries.filter (fun p => entryMatches tb t key p.2)).map (fun p => (p.2.prio, p.1))

/-- The first of some positions in the order of R230. -/
def firstMatch : List (Nat × Nat) → Option (Nat × Nat)
  | [] => none
  | a :: t =>
    match firstMatch t with
    | none => some a
    | some b => some (if matchBefore a b then a else b)

/-- DATA of the entry at an index. -/
def entryData (s : State) (i : Nat) : Nat :=
  match Tbl.get? s.idx.entries i with
  | some e => e.data
  | none => 0

/-- Count searches of every kind (IDX_SEARCH_CNT). -/
def countSearch (s : State) : State := { s with idx := { s.idx with searches := s.idx.searches + 1 } }

/-- The check of a winning entry found an error: it is repaired from the shadow and the operation repeated (R246). -/
def indexRepair (err : Bool) (s : State) : State :=
  if err then { s with idx := { s.idx with corrected := satInc s.idx.corrected 0xFFFF
                                           repeated := satInc s.idx.repeated 0xFF } }
  else s

/-- Does physical bank 16 or bank `b` itself serve logical bank `b` (R226)? -/
def bankServes (s : State) (b : Nat) : Bool := bit s.idx.bankOk b || (s.idx.replaces == b && bit s.idx.bankOk 16)

/-- Does a table have indexes in a bank that nothing serves (R410)? -/
def tableLost (s : State) (t : ITable) : Bool :=
  (List.range 16).any (fun b => !bankServes s b && decide (8192 * b < t.base + t.size ∧ t.base < 8192 * (b + 1)))

/-- RESULT0 and RESULT1 of a match at `i` with `count` matches from it on (Table 2.6). -/
def matchWords (s : State) (m : Nat × Nat) (count cursor : Nat) : Nat × Nat :=
  (entryData s m.2 + 2 ^ 48 * m.1, m.2 + 2 ^ 31 + min count 0xFFFF * 2 ^ 32 + 2 ^ 48 * cursor)

/-! ### Cursors (R233 to R235, R241) -/

/-- The value of cursor number `c`. -/
def cursorValue (c gen : Nat) : Nat := c + 4096 * gen

/-- The cursors of an instance. -/
def cursorsOf (s : State) (n : Nat) : Tbl Cursor := s.idx.cursors.filter (fun p => p.2.inst == n)

/-- The least recently used live cursor of some. -/
def oldestCursor : Tbl Cursor → Option (Nat × Cursor)
  | [] => none
  | (k, c) :: t =>
    match oldestCursor t with
    | none => if c.live then some (k, c) else none
    | some (j, d) => if c.live && decide (c.used ≤ d.used) then some (k, c) else some (j, d)

/-- Free a cursor. -/
def freeCursor (c : Nat) (s : State) : State := { s with idx := { s.idx with cursors := Tbl.erase s.idx.cursors c } }

/-- Free every cursor that meets `f`. -/
def freeCursors (f : Cursor → Bool) (s : State) : State :=
  { s with idx := { s.idx with cursors := s.idx.cursors.filter (fun p => !f p.2) } }

/-- The number that a search reserves, and the state in which it is free (R233). -/
def reserveCursor (n : Nat) (s : State) : Nat × State :=
  let mine := cursorsOf s n
  let spot := Tbl.lowestFree s.idx.cursors 1 4095
  if decide (mine.length < 64) && spot.isSome then (spot.getD 1, s)
  else
    match oldestCursor mine with
    | some (c, _) => (c, freeCursor c s)
    | none =>
      match oldestCursor s.idx.cursors with
      | some (c, _) => (c, freeCursor c s)
      | none => (spot.getD 1, s)

/-- Take a cursor for a search: reserved now, live when the reply is committed (R233, R241). -/
def takeCursor (n tb key : Nat) (m : Nat × Nat) (k : Nat) (s : State) : Nat × State :=
  let (c, s) := reserveCursor n s
  let gen := match Tbl.get? s.idx.curGens c with
    | none => 1
    | some g => (g + 1) % 16
  let cur : Cursor := { gen := gen, live := false, table := tb, key := key, inst := n, prio := m.1, index := m.2
                        used := s.now, stepTag := some k, next := none }
  (cursorValue c gen, { s with idx := { s.idx with cursors := Tbl.set s.idx.cursors c cur
                                                   curGens := Tbl.set s.idx.curGens c gen } })

/-- The cursor that a value names in an instance. -/
def cursorOf (s : State) (n v : Nat) : Option Cursor :=
  match Tbl.get? s.idx.cursors (v % 4096) with
  | some c => if c.live && c.gen == v / 4096 && c.inst == n && !(v % 4096 == 0) then some c else none
  | none => none

/-- The reply of tag `k` is committed: the search takes its cursor, the step moves or frees its own; a reply that did
not carry the result releases the number and leaves the position (R241). -/
def commitCursors (k : Nat) (result : Bool) (s : State) : State :=
  { s with idx := { s.idx with cursors := s.idx.cursors.filterMap (fun p =>
      let c := p.2
      if c.stepTag = some k then
        if c.live then
          if result then
            match c.next with
            | none => none
            | some (pr, i) => some (p.1, { c with stepTag := none, next := none, prio := pr, index := i, used := s.now })
          else some (p.1, { c with stepTag := none, next := none })
        else if result then some (p.1, { c with live := true, stepTag := none, used := s.now })
        else none
      else some p) } }

/-! ### Moves and placement (R236, R237) -/

/-- Every cursor position that names index `a` of the table names `b` (R237, R241). -/
def moveCursor (tb a b : Nat) (c : Cursor) : Cursor :=
  if c.table = tb then
    { c with index := if c.index = a then b else c.index
             next := match c.next with
               | some (p, i) => some (p, if i = a then b else i)
               | none => none }
  else c

/-- Move the entry at `a` to the free index `b` in one step. -/
def moveEntry (tb a b : Nat) (s : State) : State :=
  match Tbl.get? s.idx.entries a with
  | none => s
  | some e =>
    { s with idx := { s.idx with entries := Tbl.set (Tbl.erase s.idx.entries a) b e
                                 cursors := Tbl.mapVals s.idx.cursors (fun _ c => moveCursor tb a b c) } }

/-- Move the entries i, i + 1, …, i + n - 1 down by one. -/
def moveDown (tb : Nat) : Nat → Nat → State → State
  | 0, _, s => s
  | n + 1, i, s => moveDown tb n (i + 1) (moveEntry tb i (i - 1) s)

/-- Write an entry. -/
def putEntry (i : Nat) (e : IEntry) (s : State) : State :=
  { s with idx := { s.idx with entries := Tbl.set s.idx.entries i e } }

/-- Live entries of a table. -/
def liveEntries (s : State) (tb : Nat) : Tbl IEntry := s.idx.entries.filter (fun p => p.2.table == tb)

/-- Free indexes left in a table. -/
def tableFree (s : State) (tb : Nat) (t : ITable) : Nat := t.size - (liveEntries s tb).length

/-- The highest free index in [base, g), if there is one. -/
def highestFree (es : Tbl IEntry) (base : Nat) : Nat → Option Nat
  | 0 => none
  | n + 1 => if Tbl.has es (base + n) then highestFree es base n else some (base + n)

/-- The live entry with the same KEY and PRIORITY. -/
def sameEntry (s : State) (tb key prio : Nat) : Option (Nat × IEntry) :=
  (liveEntries s tb).find? (fun p => p.2.key == key && p.2.prio == prio)

/-- g_top of R236, when the family has an entry. -/
def familyTop (s : State) (tb : Nat) (t : ITable) (key prio : Nat) : Option Nat :=
  (((liveEntries s tb).filter (fun p => p.2.prio == prio && matchField t p.2.key == matchField t key)).map Prod.fst).getLast?

/-- The placement of R236: the index taken, whether entries moved, and the table as it then stands; none when full. -/
def place (tb : Nat) (t : ITable) (e : IEntry) (s : State) : Option (Nat × Bool × State) :=
  let lo := match familyTop s tb t e.key e.prio with
    | some g => g + 1
    | none => t.base
  match Tbl.lowestFree s.idx.entries lo (t.base + t.size - lo) with
  | some f => some (f, false, putEntry f e s)
  | none =>
    match highestFree s.idx.entries t.base (lo - 1 - t.base) with
    | none => none
    | some h => some (lo - 1, true, putEntry (lo - 1) e (moveDown tb (lo - 1 - h) (h + 1) s))

/-! ### Respread (R238) -/

/-- The smallest S from `lo` on, within `n` tries, with ⌊L / S⌋ at most F. -/
def smallestSpacing (l f : Nat) : Nat → Nat → Nat
  | 0, lo => lo
  | n + 1, lo => if l / lo ≤ f then lo else smallestSpacing l f n (lo + 1)

/-- The spacing S of a table. -/
def spacing (t : ITable) (l f : Nat) : Nat := if l / t.hole ≤ f then t.hole else smallestSpacing l f l 1

/-- One move toward the layout: an entry whose place is free with no live entry between. Positions are in ascending
order, each with its rank. -/
def respreadMove (t : ITable) (s : Nat) (es : List (Nat × Nat)) : Option (Nat × Nat) :=
  es.findSome? (fun p =>
    let (i, j) := p
    let goal := t.base + j + j / s
    if goal = i then none
    else
      let free := !(es.any (fun q => decide ((i < q.1 ∧ q.1 ≤ goal) ∨ (goal ≤ q.1 ∧ q.1 < i))))
      if free then some (i, goal) else none)

/-! ### Tables (R245) -/

/-- A table as IDX_TBL_CFG describes it, when its fields are legal (R227, R250). -/
def cfgTable (cfg : Nat) : Option ITable :=
  let size := bits cfg 24 7
  let hole := bits cfg 20 3
  let mb := bits cfg 12 5
  let kb := (bits cfg 8 2 + 1) * 32
  if decide (1 ≤ size ∧ size ≤ 128) && decide (hole ≤ 4) && decide (1 ≤ mb ∧ mb * 8 ≤ kb) then
    some { owner := bits cfg 0 6, keyBits := kb, matchBits := mb * 8, size := 1024 * size, base := 0
           hole := if hole = 0 then 0 else 4 * 2 ^ hole, gen := 1, respread := false }
  else none

/-- Is the run of `n` blocks of 1,024 indexes from block `b` free of tables? -/
def runFree (ts : Tbl ITable) (b n : Nat) : Bool :=
  !(ts.any (fun p => decide (p.2.base < 1024 * (b + n) ∧ 1024 * b < p.2.base + p.2.size)))

/-- The lowest BASE at which SIZE free indexes begin. -/
def lowestBase (ts : Tbl ITable) (size : Nat) : Option Nat :=
  ((List.range (129 - size / 1024)).find? (fun b => runFree ts b (size / 1024))).map (fun b => b * 1024)

/-- Empty a table: its entries and cursors go. -/
def emptyTable (tb : Nat) (s : State) : State :=
  freeCursors (fun c => c.table == tb)
    { s with idx := { s.idx with entries := s.idx.entries.filter (fun p => !(p.2.table == tb))
                                 tables := Tbl.modify s.idx.tables tb (fun t => { t with respread := false }) } }

/-- Delete a table. -/
def deleteTable (tb : Nat) (s : State) : State :=
  let s := emptyTable tb s
  { s with idx := { s.idx with tables := Tbl.erase s.idx.tables tb } }

/-- Is a started command using the table? -/
def tableInUse (s : State) (tb : Nat) : Bool := s.tags.any (fun p => p.2.uses.contains (.table tb))

/-- A waiting request takes effect once no started command uses its table (R245). -/
def settleTable (s : State) : State :=
  match s.idx.req with
  | none => s
  | some r =>
    if tableInUse s r.table then s
    else
      let s := { s with idx := { s.idx with req := none, result := 1 } }
      if r.op = 2 then deleteTable r.table s else emptyTable r.table s

end Sys2Proof.Machine
end

