-- ==== Sys2Proof/Machine/DamzuOps.lean ====
section
/-! DEFINITION. Damzu: one instruction word on one worker, the run of a record, and the verifier (R193 to R213). -/

namespace Sys2Proof.Machine

/-! ### Instruction words (Table 6.5) -/

/-- Form RR. -/
def wordRR (op d a b : Nat) : Nat := 2 ^ 26 * op + 2 ^ 22 * d + 2 ^ 18 * a + 2 ^ 14 * b
/-- Form RI. -/
def wordRI (op d a imm : Nat) : Nat := 2 ^ 26 * op + 2 ^ 22 * d + 2 ^ 18 * a + imm
/-- Form M. -/
def wordM (op d a sz off : Nat) : Nat := 2 ^ 26 * op + 2 ^ 22 * d + 2 ^ 18 * a + 2 ^ 16 * sz + off
/-- Form VM. -/
def wordVM (op vd a off : Nat) : Nat := 2 ^ 26 * op + 2 ^ 24 * vd + 2 ^ 18 * a + off
/-- Form VV. -/
def wordVV (op vd va vb : Nat) : Nat := 2 ^ 26 * op + 2 ^ 24 * vd + 2 ^ 22 * va + 2 ^ 20 * vb
/-- Form BR. -/
def wordBR (op a b off : Nat) : Nat := 2 ^ 26 * op + 2 ^ 22 * a + 2 ^ 18 * b + off
/-- Form LP. -/
def wordLP (op c body mx : Nat) : Nat := 2 ^ 26 * op + 2 ^ 22 * c + 2 ^ 12 * body + mx

/-- Sign extension of a field of `w` bits to 64 bits. -/
def sext (w x : Nat) : BitVec 64 := (BitVec.ofNat w x).signExtend 64

/-! ### Registers (R202) -/

/-- G[i]; G0 reads as zero. -/
def getG (w : Worker) (i : Nat) : BitVec 64 := if i = 0 then 0 else w.g.getD i 0

/-- Write G[i]; a write to G0 is discarded. -/
def setG (i : Nat) (x : BitVec 64) (w : Worker) : Worker := if i = 0 then w else { w with g := w.g.set i x }

/-- V[i]. -/
def getV (w : Worker) (i : Nat) : BitVec 256 := w.v.getD i 0

/-- Write V[i]. -/
def setV (i : Nat) (x : BitVec 256) (w : Worker) : Worker := { w with v := w.v.set i x }

/-- The little-endian number of some bytes, at a width. -/
def ofBytes (n : Nat) (bs : List Byte) : BitVec n := BitVec.ofNat n (leNat bs)

/-- Byte by byte, two vectors. -/
def vzip (f : Byte → Byte → Byte) (x y : BitVec 256) : BitVec 256 :=
  ofBytes 256 (List.zipWith f (leBytes 32 x.toNat) (leBytes 32 y.toNat))

/-! ### Arithmetic (Table 6.6) -/

/-- Count of trailing zero bits of a number below 2^n. -/
def trailingZeros : Nat → Nat → Nat
  | 0, _ => 0
  | n + 1, x => if x % 2 = 1 then 0 else 1 + trailingZeros n (x / 2)

/-- Count of 1 bits of a number below 2^n. -/
def popCount : Nat → Nat → Nat
  | 0, _ => 0
  | n + 1, x => x % 2 + popCount n (x / 2)

/-- The RR instructions. -/
def aluRR (op : Nat) (x y : BitVec 64) : BitVec 64 :=
  match op with
  | 0x01 => x + y
  | 0x02 => x - y
  | 0x03 => x * y
  | 0x04 => x &&& y
  | 0x05 => x ||| y
  | 0x06 => x ^^^ y
  | 0x07 => x <<< (y.toNat % 64)
  | 0x08 => x >>> (y.toNat % 64)
  | 0x09 => if x < y then 1 else 0
  | 0x0A => if x = y then 1 else 0
  | 0x0B => BitVec.ofNat 64 (trailingZeros 64 x.toNat)
  | _ => BitVec.ofNat 64 (popCount 64 x.toNat)

/-- The RI instructions; `old` is G[D], which MOVH keeps in part. -/
def aluRI (op : Nat) (old x : BitVec 64) (imm : Nat) : BitVec 64 :=
  match op with
  | 0x10 => x + sext 18 imm
  | 0x11 => x &&& BitVec.ofNat 64 imm
  | 0x12 => x ||| BitVec.ofNat 64 imm
  | 0x13 => x <<< (imm % 64)
  | 0x14 => x >>> (imm % 64)
  | 0x15 => if x < sext 18 imm then 1 else 0
  | 0x16 => if x = sext 18 imm then 1 else 0
  | 0x17 =>
    let k := bits imm 16 2
    ofBytes 64 (overlay (leBytes 8 old.toNat) (2 * k) (leBytes 2 imm))
  | _ => ofBytes 64 (leBytes (2 ^ (imm % 4)) x.toNat).reverse

/-- The VV instructions. -/
def aluVV (op : Nat) (x y : BitVec 256) : BitVec 256 :=
  match op with
  | 0x28 => vzip (fun a b => if a = b then 0xFF else 0) x y
  | 0x29 => vzip (fun a b => if b < a then 0xFF else 0) x y
  | 0x2A => x &&& y
  | 0x2B => x ||| y
  | _ => x ^^^ y

/-- Is the branch taken? -/
def branchTaken (op : Nat) (x y : BitVec 64) : Bool :=
  match op with
  | 0x30 => x == y
  | 0x31 => !(x == y)
  | 0x32 => decide (x < y)
  | _ => decide (y ≤ x)

/-- VMASK: bit i is bit 7 of byte i. -/
def maskOf (x : BitVec 256) : BitVec 64 :=
  BitVec.ofNat 64 ((leBytes 32 x.toNat).zipIdx.foldl (fun a p => a + b2n (p.1.getLsbD 7) * 2 ^ p.2) 0)

/-! ### Control flow (R208, R209) -/

/-- Leave the loops whose body does not hold the target. -/
def popLoops (target : Nat) : List LoopEnt → List LoopEnt
  | [] => []
  | e :: es => if e.first ≤ target ∧ target ≤ e.last then e :: es else popLoops target es

/-- The word at `at_` has completed: advance or finish the loops that end there, innermost first. -/
def endLoops (at_ next : Nat) : List LoopEnt → List LoopEnt × Nat
  | [] => ([], next)
  | e :: es =>
    if at_ = e.last then
      if e.iter + 1 < e.n then ({ e with iter := e.iter + 1 } :: es, e.first) else endLoops at_ next es
    else (e :: es, next)

/-- The next pc after a branch. -/
def flowTaken (target : Nat) (w : Worker) : Worker := { w with loops := popLoops target w.loops, pc := target }

/-- The next pc after the word at `at_`. -/
def flowNext (at_ : Nat) (w : Worker) : Worker :=
  let r := endLoops at_ (at_ + 4) w.loops
  { w with loops := r.1, pc := r.2 }

/-- LOOP over the next `body` instructions `n` times; the loop stack keeps its innermost entry first. -/
def flowLoop (body n : Nat) (w : Worker) : Worker :=
  if n = 0 then flowNext (w.pc + 4 * body) w
  else
    let v := flowNext w.pc w
    { v with loops := { first := w.pc + 4, last := w.pc + 4 * body, n := n, iter := 0 } :: v.loops }

/-! ### One instruction -/

/-- The record ends with a trap. -/
def trap (code : Nat) (w : Worker) : Worker := { w with st := .trapped code, emitted := [], adds := [] }

/-- Bytes [off, off + n) of the record; bytes at or beyond its length read zero (Table 6.4) (log entry 27). -/
def recBytes (w : Worker) (off n : Nat) : List Byte := bytesAt w.record off n

/-- Emit bytes, or trap EMIT_LIMIT (R204). -/
def emit (n : Nat) (bs : List Byte) (w : Worker) : Worker :=
  if 65536 < w.emitted.length + n then trap 3 w else flowNext w.pc { w with emitted := w.emitted ++ bs }

/-- The index table bound to a slot, when it still lives. -/
def slotTable (s : State) (p : Prog) (slot : Nat) : Option (Nat × ITable) :=
  let h := p.tables.getD slot 0
  match Tbl.get? s.idx.tables (h % 256) with
  | some t => if t.gen = h / 256 ∧ t.owner = p.inst then some (h % 256, t) else none
  | none => none

/-- What IDXS returns (R211). -/
def idxsValue (s : State) (tb : Nat) (t : ITable) (key : Nat) : BitVec 64 :=
  let ms := matchesOf s tb t key
  match firstMatch ms with
  | none => 0
  | some m => BitVec.ofNat 64 (entryData s m.2 + b2n (decide (1 < ms.length)) * 2 ^ 62 + 2 ^ 63)

/-- A load or store at an effective offset: its width must divide the offset. -/
def aligned (off width : Nat) (w : Worker) (f : Worker → Worker) : Worker :=
  if off % width ≠ 0 then trap 1 w else flowNext w.pc (f w)

/-- The loads and stores of forms M and VM. `width` bytes at `addr` (log entry 27). -/
def memOp (p : Prog) (op d vd width : Nat) (addr : Nat) (w : Worker) : Worker :=
  let k := if p.const.length = 0 then 0 else addr % p.const.length
  let c := if p.scratchLen = 0 then 0 else addr % p.scratchLen
  let toG (bs : List Byte) (w : Worker) := setG d (ofBytes 64 bs) w
  let toV (bs : List Byte) (w : Worker) := setV vd (ofBytes 256 bs) w
  match op with
  | 0x20 => flowNext w.pc (toG (recBytes w addr width) w)
  | 0x21 => aligned k width w (toG (bytesAt p.const k width))
  | 0x22 => aligned c width w (toG (Cells.readN w.scratch c width))
  | 0x23 => aligned c width w (fun w => { w with scratch := Cells.writeN w.scratch c (leBytes width (getG w d).toNat) })
  | 0x24 => flowNext w.pc (toV (recBytes w addr 32) w)
  | 0x25 => aligned k 32 w (toV (bytesAt p.const k 32))
  | 0x26 => aligned c 32 w (toV (Cells.readN w.scratch c 32))
  | _ => aligned c 32 w (fun w => { w with scratch := Cells.writeN w.scratch c (leBytes 32 (getV w vd).toNat) })

/-- EMITS: SCRATCH_RANGE comes before EMIT_LIMIT (R212). -/
def emitScratch (p : Prog) (addr n : Nat) (w : Worker) : Worker :=
  let c := if p.scratchLen = 0 then 0 else addr % p.scratchLen
  if p.scratchLen < c + n then trap 2 w
  else if 65536 < w.emitted.length + n then trap 3 w
  else emit n (Cells.readN w.scratch c n) w

/-- IDXS. -/
def idxs (s : State) (p : Prog) (d va slot : Nat) (w : Worker) : Worker :=
  match slotTable s p slot with
  | none => trap 4 w
  | some (tb, t) =>
    flowNext w.pc (setG d (idxsValue s tb t ((getV w va).toNat % 2 ^ 128)) { w with searches := w.searches + 1 })

/-- The instruction that `word` spells, on a worker within its budget. A word outside the set traps FENCE (R212). -/
def perform (s : State) (p : Prog) (word : Nat) (w : Worker) : Worker :=
  let op := bits word 26 6
  let d := bits word 22 4
  let a := bits word 18 4
  let b := bits word 14 4
  let vd := bits word 24 2
  let x := getG w a
  let next (w : Worker) : Worker := flowNext w.pc w
  if 0x01 ≤ op ∧ op ≤ 0x0C then next (setG d (aluRR op x (getG w b)) w)
  else if 0x10 ≤ op ∧ op ≤ 0x18 then next (setG d (aluRI op (getG w d) x (bits word 0 18)) w)
  else if 0x20 ≤ op ∧ op ≤ 0x27 then memOp p op d vd (2 ^ bits word 16 2) (x + sext 16 (bits word 0 16)).toNat w
  else if 0x28 ≤ op ∧ op ≤ 0x2C then next (setV vd (aluVV op (getV w (bits word 22 2)) (getV w (bits word 20 2))) w)
  else if op = 0x2D then next (setV vd (ofBytes 256 (List.replicate 32 (x.setWidth 8))) w)
  else if op = 0x2E then next (setG d (maskOf (getV w (bits word 20 2))) w)
  else if 0x30 ≤ op ∧ op ≤ 0x33 then
    if branchTaken op (getG w d) x then flowTaken (w.pc + 4 * bits word 0 18) w else next w
  else if op = 0x34 then flowLoop (bits word 12 10) (min (getG w d).toNat (bits word 0 12)) w
  else if op = 0x35 then next (setG d (BitVec.ofNat 64 ((w.loops.map (fun e => e.iter)).getD (bits word 20 2) 0)) w)
  else if op = 0x38 then
    if 65536 < w.emitted.length + x.toNat then trap 3 w
    else emit x.toNat (recBytes w (getG w d).toNat x.toNat) w
  else if op = 0x39 then emitScratch p (getG w d).toNat x.toNat w
  else if op = 0x3A then emit (2 ^ bits word 16 2) (leBytes (2 ^ bits word 16 2) (getG w d).toNat) w
  else if op = 0x3B then next { w with adds := w.adds ++ [(bits word 19 3, (getG w d).toNat)] }
  else if op = 0x3C then idxs s p d (bits word 20 2) (bits word 18 2) w
  else if op = 0x3D then trap (bits word 0 8) w
  else if op = 0x3E then { w with st := .ended }
  else trap 5 w

/-- One instruction: an instruction beyond the budget is not executed (R213). -/
def issue (s : State) (p : Prog) (word : Nat) (w : Worker) : Worker :=
  if w.budget ≤ w.count then trap 8 w else perform s p word { w with count := w.count + 1 }

/-- The word at the worker's pc. -/
def codeWord (p : Prog) (pc : Nat) : Nat := field p.code pc 4

/-! ### A record (R202, R204) -/

/-- A worker at the entry of a record. -/
def enterRecord (inst tag prog index offset budget : Nat) (record : List Byte) (scratch : Cells) : Worker :=
  { inst := inst, tag := tag, prog := prog, st := .running
    g := [0, BitVec.ofNat 64 record.length, BitVec.ofNat 64 index, BitVec.ofNat 64 offset] ++ List.replicate 12 0
    v := List.replicate 4 0, pc := 0, loops := [], count := 0, budget := budget, record := record, recIndex := index
    offset := offset, scratch := scratch, emitted := [], adds := [], searches := 0 }

/-- Run a record to its end: at most `n` more instructions. -/
def runRecord (s : State) (p : Prog) : Nat → Worker → Worker
  | 0, w => trap 8 w
  | n + 1, w => if w.st = .running then runRecord s p n (issue s p (codeWord p w.pc) w) else w

/-- Add to the counters modulo 2^64. -/
def addCounters (cs : List Nat) (adds : List (Nat × Nat)) : List Nat :=
  adds.foldl (fun cs p => cs.set p.1 ((cs.getD p.1 0 + p.2) % 2 ^ 64)) cs

/-- What a command has gathered before its first record. -/
def noGather : Gather := { counters := List.replicate 8 0, recordsIn := 0, recordsOut := 0, stream := [] }

/-- A record that reached END adds its staged output and counters. -/
def applyRecord (w : Worker) (g : Gather) : Gather :=
  { counters := addCounters g.counters w.adds, recordsIn := g.recordsIn + 1
    recordsOut := g.recordsOut + b2n (!w.emitted.isEmpty), stream := g.stream ++ w.emitted }

/-! ### The verifier (R198) -/

/-- Is FRAME_ARG legal for the framing (Table 6.9)? -/
def frameArgLegal (framing arg : Nat) : Bool :=
  if framing = 0 then decide (1 ≤ arg) else if framing = 1 then decide (arg < 512)
  else decide (arg < 16) && decide (bits arg 0 2 ≤ 2)

/-- 0 or a power of two from 32 to 2^top. -/
def windowLegal (x top : Nat) : Bool := x == 0 || (List.range (top - 4)).any (fun i => x == 2 ^ (i + 5))

/-- The container's length by its header (R193). -/
def containerLen (h : List Byte) : Nat := 128 + field h 8 4 + field h 12 4 + (if bit (field h 6 2) 0 then 200 else 0)

/-- Rule 2: the header's fixed fields, and the reserved ones of header and signature block. -/
def rule2 (h : List Byte) : List (Nat × Bool) :=
  let sig := 128 + field h 8 4 + field h 12 4
  [(0, !(field h 0 4 == 0x4B37445A)), (4, !(field h 4 2 == 1)), (6, decide (1 < field h 6 2)),
   (28, !allZero (bytesAt h 28 4)), (112, !allZero (bytesAt h 112 16)),
   (sig + 97, bit (field h 6 2) 0 && !allZero (bytesAt h (sig + 97) 7))]

/-- Rule 3: the header's ranges. -/
def rule3 (h : List Byte) : List (Nat × Bool) :=
  let code := field h 8 4
  [(8, decide (code % 4 ≠ 0 ∨ code < 8 ∨ 65536 < code)), (12, !windowLegal (field h 12 4) 16),
   (16, !windowLegal (field h 16 4) 17), (20, decide (field h 20 4 = 0 ∨ 16777216 < field h 20 4)),
   (24, decide (2 < field h 24 1)), (25, decide (4 < field h 25 1)), (26, !frameArgLegal (field h 24 1) (field h 26 2))]
   ++ (List.range 4).map (fun i => (32 + 4 * i, decide (field h 25 1 ≤ i ∧ field h (32 + 4 * i) 4 ≠ 0)))

/-- The bytes that HASH covers (R194). -/
def hashed (c : List Byte) : List Byte :=
  overlay (bytesAt c 0 64) 32 (List.replicate 16 0) ++ bytesAt c 128 (field c 8 4 + field c 12 4)

/-- The bits of a word that must be zero, by opcode; none for an opcode outside Table 6.6. -/
def zeroMask (op : Nat) : Option Nat :=
  if (1 ≤ op ∧ op ≤ 0x0A) then some 0x3FFF
  else if op = 0x0B ∨ op = 0x0C then some 0x3FFFF
  else if op = 0x10 ∨ op = 0x11 ∨ op = 0x12 ∨ op = 0x15 ∨ op = 0x16 then some 0
  else if op = 0x13 ∨ op = 0x14 then some 0x3FFC0
  else if op = 0x17 then some (15 * 2 ^ 18)
  else if op = 0x18 then some 0x3FFFC
  else if 0x20 ≤ op ∧ op ≤ 0x23 then some 0
  else if 0x24 ≤ op ∧ op ≤ 0x27 then some (3 * 2 ^ 22 + 3 * 2 ^ 16)
  else if 0x28 ≤ op ∧ op ≤ 0x2C then some 0xFFFFF
  else if op = 0x2D then some (3 * 2 ^ 22 + 0x3FFFF)
  else if op = 0x2E ∨ op = 0x35 then some 0xFFFFF
  else if 0x30 ≤ op ∧ op ≤ 0x34 then some 0
  else if op = 0x38 ∨ op = 0x39 ∨ op = 0x3C then some 0x3FFFF
  else if op = 0x3A then some (15 * 2 ^ 18 + 0xFFFF)
  else if op = 0x3B then some 0x7FFFF
  else if op = 0x3D then some 0x3FFFF00
  else if op = 0x3E then some 0x3FFFFFF
  else none

/-- Does rule 7 hold of a word? -/
def fieldsLegal (word : Nat) : Bool :=
  let op := bits word 26 6
  match zeroMask op with
  | none => false
  | some m => Nat.land word m == 0 && (!(op == 0x18) || !(bits word 0 2 == 0))
      && (!(op == 0x34) || (!(bits word 12 10 == 0) && !(bits word 0 12 == 0)))
      && (!(op == 0x3D) || decide (0x80 ≤ bits word 0 8))

/-- Does rule 8 hold of a word? -/
def windowsLegal (const scratch word : Nat) : Bool :=
  let op := bits word 26 6
  let wd := if op = 0x25 ∨ op = 0x26 ∨ op = 0x27 then 32 else 2 ^ bits word 16 2
  if op = 0x21 ∨ op = 0x25 then decide (wd ≤ const)
  else if op = 0x22 ∨ op = 0x23 ∨ op = 0x26 ∨ op = 0x27 then decide (wd ≤ scratch)
  else if op = 0x39 then decide (0 < scratch) else true

/-- The loop bodies of a program: (index of LOOP, last index of its body). -/
def bodies (ws : List Nat) : List (Nat × Nat) :=
  ws.zipIdx.filterMap (fun p => if bits p.1 26 6 = 0x34 then some (p.2, p.2 + bits p.1 12 10) else none)

/-- Does a body contain word `i`? -/
def inBody (b : Nat × Nat) (i : Nat) : Bool := decide (b.1 < i ∧ i ≤ b.2)

/-- Does rule 9 hold of word `i`? -/
def branchLegal (n : Nat) (bs : List (Nat × Nat)) (word i : Nat) : Bool :=
  let op := bits word 26 6
  let off := bits word 0 18
  !(decide (0x30 ≤ op ∧ op ≤ 0x33))
    || (decide (1 ≤ off ∧ i + off < n) && bs.all (fun b => !inBody b (i + off) || inBody b i))

/-- Does rule 10 hold of word `i`? -/
def loopLegal (n : Nat) (bs : List (Nat × Nat)) (word i : Nat) : Bool :=
  let last := i + bits word 12 10
  !(bits word 26 6 == 0x34)
    || (decide (last < n) && bs.all (fun b => !inBody b i || decide (last ≤ b.2))
      && decide ((bs.filter (fun b => inBody b i)).length < 4))

/-- Does rule 11 hold of word `i`? -/
def levelLegal (tables : Nat) (bs : List (Nat × Nat)) (word i : Nat) : Bool :=
  let op := bits word 26 6
  if op = 0x35 then decide (bits word 20 2 < (bs.filter (fun b => inBody b i)).length)
  else if op = 0x3C then decide (bits word 18 2 < tables) else true

/-- The first word that breaks a rule: (rule, container offset). -/
def firstWord (rule : Nat) (ws : List Nat) (ok : Nat → Nat → Bool) : Option (Nat × Nat) :=
  (ws.zipIdx.find? (fun p => !ok p.1 p.2)).map (fun p => (rule, 128 + 4 * p.2))

/-- Rules 5 to 12 on a container: the first rule broken, with its offset. -/
def verifyCode (s : State) (n : Nat) (c : List Byte) : Option (Nat × Nat) :=
  let words := (List.range (field c 8 4 / 4)).map (fun i => field c (128 + 4 * i) 4)
  let bs := bodies words
  let len := words.length
  let tables := field c 25 1
  ((List.range tables).find? (fun i => (tableOf s n (field c (32 + 4 * i) 4)).isNone)).map (fun i => (5, 32 + 4 * i))
  <|> firstWord 6 words (fun w _ => (zeroMask (bits w 26 6)).isSome)
  <|> firstWord 7 words (fun w _ => fieldsLegal w)
  <|> firstWord 8 words (fun w _ => windowsLegal (field c 12 4) (field c 16 4) w)
  <|> firstWord 9 words (branchLegal len bs)
  <|> firstWord 10 words (loopLegal len bs)
  <|> firstWord 11 words (levelLegal tables bs)
  <|> firstWord 12 words (fun w i => !(i + 1 == len) || bits w 26 6 == 0x3E)

/-- Rules 1 to 4. -/
def verifyHeader (c : List Byte) (bufLen : Nat) : Option (Nat × Nat) :=
  if bufLen ≠ containerLen c then some (1, 0)
  else match firstWrong (rule2 c) with
    | some o => some (2, o)
    | none =>
      match firstWrong (rule3 c) with
      | some o => some (3, o)
      | none => if field c 64 48 = leNat (leBytes 48 (Config.sha384 (hashed c)).toNat) then none else some (4, 64)

end Sys2Proof.Machine
end

