-- ==== Sys2Proof/Machine/ScanOps.lean ====
section
/-! DEFINITION. The framer, the run of a scan, and the result stream (R210, R214 to R222). -/

namespace Sys2Proof.Machine

/-- The input stream of a scan: the bytes before the first one that could not be read, the length of the whole stream,
and the status of the chunk or unit at which reading failed. -/
structure ScanIn where
  bytes : List Byte
  total : Nat
  status : Nat

/-! ### The framer (Table 6.9) -/

/-- What the framer finds at an offset: the end, a record (first byte, length, next offset), a trap, or bytes it could
not read. -/
inductive Frame where
  | done
  | record (start len next : Nat)
  | trap (code : Nat)
  | media
deriving DecidableEq, Repr

/-- Fixed framing. -/
def frameFixed (len : Nat) (i : ScanIn) (off : Nat) : Frame :=
  let n := min len (i.total - off)
  if off + n ≤ i.bytes.length then .record off n (off + n) else .media

/-- Where the delimiter stands. -/
def findByte (b : Byte) : List Byte → Nat → Option Nat
  | [], _ => none
  | x :: xs, i => if x = b then some i else findByte b xs (i + 1)

/-- Delimiter framing. -/
def frameDelimiter (arg : Nat) (i : ScanIn) (off : Nat) : Frame :=
  let keep := b2n (bit arg 8)
  match findByte (BitVec.ofNat 8 arg) (i.bytes.drop off) 0 with
  | some j => if 65535 < j + keep then .trap 6 else .record off (j + keep) (off + j + 1)
  | none =>
    let r := i.bytes.length - off
    if i.bytes.length < i.total then (if 65535 < r + keep then .trap 6 else .media)
    else if 65535 < r then .trap 6 else .record off r (off + r)

/-- Length-prefix framing. -/
def framePrefix (arg : Nat) (i : ScanIn) (off : Nat) : Frame :=
  let size := 2 ^ bits arg 0 2
  if i.bytes.length < min (off + size) i.total then .media
  else if i.total < off + size then .trap 7
  else
    let bs := bytesAt i.bytes off size
    let v := leNat (if bit arg 2 then bs.reverse else bs)
    if bit arg 3 && decide (v < size) then .trap 7
    else
      let len := if bit arg 3 then v - size else v
      if 65535 < len then .trap 6
      else if i.total < off + size + len then .trap 7
      else if i.bytes.length < off + size + len then .media
      else .record (off + size) len (off + size + len)

/-- The record at a framing offset. -/
def frameAt (framing arg : Nat) (i : ScanIn) (off : Nat) : Frame :=
  if i.total ≤ off then .done
  else if framing = 0 then frameFixed arg i off
  else if framing = 1 then frameDelimiter arg i off
  else framePrefix arg i off

/-- The record numbered `n`, counted on from the one at `off`: its first byte and length. -/
def recordAt (framing arg : Nat) (i : ScanIn) : Nat → Nat → Option (Nat × Nat)
  | 0, off =>
    match frameAt framing arg i off with
    | .record st len _ => some (st, len)
    | _ => none
  | n + 1, off =>
    match frameAt framing arg i off with
    | .record _ _ next => recordAt framing arg i n next
    | _ => none

/-! ### The run (R204, R205, R213, R220) -/

/-- What ended a scan (Table 6.12). -/
inductive ScanEnd where
  | all | truncated | trap (code : Nat) | media
deriving DecidableEq, Repr

/-- How a scan runs: program, framing, budget, buffer and the extra bytes of sealed output. -/
structure ScanSet where
  inst : Nat
  tag : Nat
  slot : Nat
  prog : Prog
  framing : Nat
  arg : Nat
  budget : Nat
  bufLen : Nat
  isSealed : Bool
  /-- a SCAN, which writes a seal header, not a READ_ASSET -/
  header : Bool
  /-- records below this number were searched by worker commands already -/
  counted : Nat

/-- Sealed units of `p` bytes of plaintext. -/
def sealedUnits (p : Nat) : Nat := (65535 + p) / 65536

/-- Output length with `n` emitted bytes (R218, R219). -/
def outputLen (c : ScanSet) (n : Nat) : Nat :=
  let p := n + 128
  if c.isSealed then (if c.header then 16 else 0) + p + 16 * sealedUnits p else p

/-- What a scan has come to. -/
structure ScanRun where
  gather : Gather
  /-- scratch of each worker (R203) -/
  scratch : Tbl Cells
  searches : Nat
  stop : Nat
  how : ScanEnd

/-- The records from framing offset `off` on. Which of the 32 workers runs a record the device does not fix (R203). -/
def scanLoop (s : State) (c : ScanSet) (i : ScanIn) : Nat → Nat → Nat → ScanRun → ScanRun
  | 0, off, _, r => { r with stop := off }
  | fuel + 1, off, n, r =>
    match frameAt c.framing c.arg i off with
    | .done => { r with stop := i.total, how := .all }
    | .media => { r with stop := off, how := .media }
    | .trap code => { r with stop := off, how := .trap code }
    | .record start len next =>
      let worker := Config.freeNat s.fresh n % 32
      let w := enterRecord c.inst c.tag c.slot n start c.budget (bytesAt i.bytes start len) (Tbl.getD r.scratch worker [])
      let w := runRecord s c.prog (c.budget + 1) w
      let r := { r with searches := r.searches + (if c.counted ≤ n then w.searches else 0) }
      match w.st with
      | .ended =>
        let g := applyRecord w r.gather
        if c.bufLen < outputLen c g.stream.length then { r with stop := off, how := .truncated }
        else scanLoop s c i fuel next (n + 1) { r with gather := g, scratch := Tbl.set r.scratch worker w.scratch }
      | .trapped code => { r with stop := off, how := .trap code }
      | _ => { r with stop := off, how := .trap 8 }

/-- A scan of an input stream. -/
def runScan (s : State) (c : ScanSet) (i : ScanIn) : ScanRun :=
  scanLoop s c i (i.total + 1) 0 0 { gather := noGather, scratch := [], searches := 0, stop := 0, how := .all }

/-! ### The result stream (Tables 6.10 to 6.12) -/

/-- The trailer. -/
def trailer (r : ScanRun) : List Byte :=
  let flags := match r.how with
    | .all => 0
    | .truncated => 1
    | .trap code => if code = 8 then 6 else 2
    | .media => 8
  let code := match r.how with
    | .trap code => code
    | _ => 0
  let trapOff := match r.how with
    | .trap _ => r.stop
    | _ => 0xFFFFFFFFFFFFFFFF
  leBytes 4 0x4B375254 ++ leBytes 2 1 ++ leBytes 1 flags ++ leBytes 1 code ++ leBytes 8 r.gather.recordsIn
    ++ leBytes 8 r.gather.recordsOut ++ leBytes 8 r.gather.stream.length ++ leBytes 8 r.stop ++ leBytes 8 trapOff
    ++ r.gather.counters.flatMap (leBytes 8) ++ leBytes 16 0

/-- Cut bytes into pieces of `n`. -/
def cutPieces (n : Nat) : Nat → List Byte → List (List Byte)
  | 0, _ => []
  | fuel + 1, bs => if bs.isEmpty then [] else bs.take n :: cutPieces n fuel (bs.drop n)

/-- The output bytes, and the sealed units in it. -/
def scanOutput (c : ScanSet) (x : Option Seal) (r : ScanRun) : List Byte × Nat :=
  let plain := r.gather.stream ++ trailer r
  match x with
  | none => (plain, 0)
  | some x =>
    let ps := cutPieces 65536 plain.length plain
    let last := (ps.getLast?.getD []).length
    let head := if c.header then leBytes 8 x.counter ++ leBytes 4 ps.length ++ leBytes 4 last else []
    (head ++ (sealUnits x 1 ps).flatten, ps.length)

/-- The status that ended a scan. -/
def scanStatus (i : ScanIn) : ScanEnd → Nat
  | .all => stOk
  | .truncated => stOk
  | .trap code => if code = 8 then stProgramBudget else stProgramFault
  | .media => i.status

/-- The result words of a SCAN. -/
def scanWords (r : ScanRun) (len : Nat) : Nat × Nat :=
  match r.how with
  | .trap code => (code, r.stop)
  | _ => (len, min r.gather.recordsIn 0xFFFFFFFF + min r.gather.recordsOut 0xFFFFFFFF * 2 ^ 32)

/-- Workers and gathered results of a command go with its work. -/
def dropWorkers (k : Nat) (s : State) : State :=
  { s with dmz := { s.dmz with workers := s.dmz.workers.filter (fun p => !(p.2.tag == k))
                               gathers := Tbl.erase s.dmz.gathers k } }

/-- The scan's output goes to the buffer, and the work ends. `sess` is the session's number and state. -/
def endScan (n : Nat) (p : List Byte) (k : Nat) (c : ScanSet) (i : ScanIn) (sess : Option (Nat × Seal)) (s : State) : State :=
  let r := runScan s c i
  let (out, units) := scanOutput c (sess.map (fun x => x.2)) r
  let st := scanStatus i r.how
  let words := if c.header then scanWords r out.length else (out.length, (sess.map (fun x => x.2.counter)).getD 0)
  let s := dropWorkers k (bumpFresh { s with idx := { s.idx with searches := s.idx.searches + r.searches } })
  let s := match sess with
    | some (no, _) => advanceSeal no units s
    | none => s
  let s := deliver n p 0 out s
  endAsset k { status := st, r0 := words.1, r1 := words.2, sealed := sess.isSome, truncated := r.how == .truncated }
    (if i.bytes.length < i.total ∧ r.how = .media then countUnit i.status s else s)

/-- Bytes of a plain range, up to the first failing block. -/
def plainInput (rd : Reader) : Nat → Nat → List Byte × Nat
  | _, 0 => ([], stOk)
  | j, n + 1 =>
    let (st, bs) := rd j
    if st ≠ stOk then ([], st)
    else
      let (rest, e) := plainInput rd (j + 1) n
      (bs ++ rest, e)

/-- Plaintext of chunks, up to the first that fails: its status, and its number where its GCM tag failed. -/
def chunkInput (out : Nat → ChunkOut) : Nat → Nat → List Byte × Nat × Option Nat
  | _, 0 => ([], stOk, none)
  | j, n + 1 =>
    let o := out j
    if o.status ≠ stOk then ([], o.status, if o.tagFail then some j else none)
    else
      let (rest, e) := chunkInput out (j + 1) n
      (o.bytes ++ rest, e)

end Sys2Proof.Machine
end

