-- ==== Sys2Proof/Machine/Programs.lean ====
section
/-! DEFINITION. PROGRAM_LOAD, PROGRAM_UNLOAD, SCAN, READ_ASSET, INSTALL_CHUNK and the entry of a record (R84 to R92,
R197 to R200, R202, R214 to R222). -/

namespace Sys2Proof.Machine

/-! ### Programs (Table 6.3) -/

/-- The signature is valid under R195. -/
def programSigned (s : State) (c : List Byte) : Bool :=
  let o := 128 + field c 8 4 + field c 12 4
  let pub := bytesAt c o 97
  anchorMatches s.otp aProgramRoot pub && Config.ecdsaOk pub (bytesAt c 64 48) (bytesAt c (o + 104) 96)

/-- Store a verified container in a slot. -/
def storeProgram (n slot : Nat) (c : List Byte) (s : State) : State :=
  let gen := nextGen s.dmz.progGens slot (2 ^ 24)
  let p : Prog :=
    { st := .loaded, inst := n, gen := gen, code := bytesAt c 128 (field c 8 4)
      const := bytesAt c (128 + field c 8 4) (field c 12 4), scratchLen := field c 16 4, defBudget := field c 20 4
      defFraming := field c 24 1, defFrameArg := field c 26 2
      tables := (List.range (field c 25 1)).map (fun i => field c (32 + 4 * i) 4)
      hash := BitVec.ofNat 384 (field c 64 48), unloadTag := none }
  { s with dmz := { s.dmz with progs := Tbl.set s.dmz.progs slot p, progGens := Tbl.set s.dmz.progGens slot gen } }

/-- PROGRAM_LOAD: the checks of R197 in order. -/
def programLoad (n : Nat) (p : List Byte) (k : Nat) (s : State) : State :=
  let c := gather s n p 0 (min (pkBufLen p) 131400)
  let isSigned := bit (field c 6 2) 0
  match verifyHeader c (pkBufLen p) with
  | some (r, o) => finishWith k stProgramFault r o s
  | none =>
    if (bit (field p 36 4) 0 || progSigReq s) && !isSigned then authFailed k s
    else if isSigned && !programSigned s c then authFailed k s
    else match verifyCode s n c with
      | some (r, o) => finishWith k stProgramFault r o s
      | none =>
        match Tbl.lowestFree s.dmz.progs 0 256 with
        | none => finishWith k stNotPermitted 0 0 s
        | some slot =>
          if 16 ≤ Tbl.countIf s.dmz.progs (fun _ x => x.inst == n) then finishWith k stNotPermitted 0 0 s
          else
            let s := storeProgram n slot c s
            finishWith k stOk (slot + Tbl.getD s.dmz.progGens slot 1 * 256) 0 s

/-- PROGRAM_LOAD. -/
def execProgramLoad (inst : Fin 64) (tag : Fin 256) (s : State) : Out :=
  workEnds opProgramLoad inst tag (pkServes s) s (programLoad inst)

/-- Release a program slot. -/
def freeProgram (slot : Nat) (s : State) : State :=
  { s with dmz := { s.dmz with progs := Tbl.erase s.dmz.progs slot } }

/-- PROGRAM_UNLOAD: at once without users, otherwise UNLOADING until the last user has replied (R199). -/
def programUnload (p : List Byte) (k : Nat) (s : State) : State :=
  let slot := pkHandle p % 256
  if inUse s (.program slot) then
    modTag k (fun t => { t with work := .lastUser })
      { s with dmz := { s.dmz with progs := Tbl.modify s.dmz.progs slot (fun x =>
          { x with st := .unloading, unloadTag := some k }) } }
  else finishWith k stOk 0 0 (freeProgram slot s)

/-- PROGRAM_UNLOAD. -/
def execProgramUnload (inst : Fin 64) (tag : Fin 256) (s : State) : Out :=
  workEnds opProgramUnload inst tag true s programUnload

/-- The last user of a program that is UNLOADING has replied. -/
def settleProgram (slot : Nat) (s : State) : State :=
  match Tbl.get? s.dmz.progs slot with
  | some x =>
    if x.st = .unloading ∧ inUse s (.program slot) = false then
      let s := freeProgram slot s
      match x.unloadTag with
      | some k => finishWith k stOk 0 0 s
      | none => s
    else s
  | none => s

/-! ### Units of a command that have passed stages -/

/-- Has any unit of the command passed a stage? Its checks came before. -/
def underWay (s : State) (k : Nat) : Bool := s.units.any (fun p => p.1 / 2 ^ 32 == k)

/-- Has unit `i` been through its GCM stage? -/
def pastGcm (s : State) (k i : Nat) : Bool :=
  match Tbl.get? s.units (unitKey k i) with
  | some u => decide (2 ≤ u.next)
  | none => false

/-- Chunk `first + j` of a command, at the end of its stages. -/
def chunkAt (s : State) (k : Nat) (rd : Reader) (slot : Nat) (o : Opened) (crcFail : List Nat) (i : Nat) : ChunkOut :=
  if unitStatus s k i ≠ stOk then chunkFails (unitStatus s k i)
  else chunkStages s rd (titleKey s slot) o.header o.directory (o.dict.getD [])
    (slotRevoked s slot && !pastGcm s k i) (crcFail.contains i) i

/-- GCM_REREAD entries: a chunk whose second check passed, and both failures of the chunk that failed. -/
def logRereads (n v lba : Nat) (o : Opened) (again : List Nat) (failed : Option Nat) (s : State) : State :=
  let s := again.foldl (fun s i => logReread n v (lba + dirOffset o.directory i) s) s
  match failed with
  | some i => logReread n v (lba + dirOffset o.directory i) (logReread n v (lba + dirOffset o.directory i) s)
  | none => s

/-! ### SCAN (R214 to R220) -/

/-- The program behind a handle's slot. -/
def progAt (s : State) (h : Nat) : Option Prog := Tbl.get? s.dmz.progs (h % 256)

/-- Checks 1 and 2 of R215. -/
def scanFields (p : List Byte) : List (Nat × Bool) :=
  let plain := field p 48 4 == 0
  [(56, decide (2 < field p 56 1)), (58, !frameArgLegal (field p 56 1) (field p 58 2)),
   (52, decide (16777216 < field p 52 4)), (36, plain && !(field p 36 4 == 0)), (40, plain && !(field p 40 4 == 0)),
   (44, plain && !pkSeal p && !(field p 44 4 == 0))]

/-- Check 5 of R86 and check 4 of R215 on SEAL_SESSION: the session, none without SEAL, or the fault (log entry 39). -/
def sealCheck (s : State) (n units : Nat) (p : List Byte) : Except Unit (Option (Nat × Seal)) :=
  if !pkSeal p then .ok none
  else match sealReady s n (field p 44 4) units with
    | some x => .ok (some (field p 44 4 % 1024, x))
    | none => .error ()

/-- The settings of a SCAN. -/
def scanSet (s : State) (n k : Nat) (p : List Byte) (x : Prog) : ScanSet :=
  { inst := n, tag := k, slot := pkHandle p % 256, prog := x, framing := field p 56 1, arg := field p 58 2
    budget := if field p 52 4 = 0 then x.defBudget else field p 52 4, bufLen := pkBufLen p, isSealed := pkSeal p
    header := true, counted := (Tbl.getD s.dmz.gathers k noGather).recordsIn }

/-- The checks of R86 that SCAN and READ_ASSET share, in order; `buf` is check 6 where it applies. -/
def packageChecks (s : State) (rd : Reader) (n k slot first count sealedN : Nat) (scans : Bool) (p : List Byte)
    (buf : List Byte → Bool) : Except (Nat × Nat) (Opened × Option (Nat × Seal)) :=
  let v := pkVolume p
  match licenceChecks s rd v (pkLba p) slot (pkSeal p) scans (underWay s k) with
  | .error st => .error (st, 0)
  | .ok h =>
    if pkLength p ≠ hdExtent h then .error (stBadField, 16)
    else if hdChunks h < first + count then .error (stBadRange, 0)
    else match sealCheck s n sealedN p with
      | .error _ => .error (stBadField, 44)
      | .ok x =>
        if !buf h then .error (stBadField, 32)
        else match openRest s rd v (pkLba p) slot first count h with
          | .error st => .error (st, 0)
          | .ok o => .ok (o, x)

/-- BUFLEN holds at least an empty result. -/
def scanBufferOk (p : List Byte) (sealedMin : Nat) : Bool := decide ((if pkSeal p then sealedMin else 128) ≤ pkBufLen p)

/-- A SCAN over the blocks that `rd` reads (log entry 69). -/
def scanDone (rd : Reader) (n : Nat) (crcFail again : List Nat) (p : List Byte) (k : Nat) (s : State) : State :=
  match progAt s (pkHandle p) with
  | none => badField k 20 s
  | some x =>
    let c := scanSet s n k p x
    match firstWrong (scanFields p) with
    | some o => badField k o s
    | none =>
      if field p 48 4 = 0 then
        match sealCheck s n 0 p with
        | .error _ => badField k 44 s
        | .ok sess =>
          if !scanBufferOk p 160 then badField k 32 s
          else
            let (bs, st) := plainInput (fun i =>
                let a := (pkLba p + i) / 8 - pkLba p / 8
                if unitStatus s k a ≠ stOk then (unitStatus s k a, []) else rd i)
              0 (pkLength p)
            endScan n p k c { bytes := bs, total := pkLength p * blockBytes, status := st } sess
              (countHostRead (bs.length / blockBytes) s)
      else
        let slot := field p 48 4 % 256
        let first := field p 36 4
        let count := field p 40 4
        match packageChecks s rd n k slot first count 0 true p (fun _ => true) with
        | .error (st, r0) => endAsset k { status := st, r0 := r0 } s
        | .ok (o, sess) =>
          let s := keepPackage (pkVolume p) (pkLba p) slot o.header o.directory o.dict s
          if !scanBufferOk p 160 then badField k 32 s
          else packageScan rd n p k c o sess slot first count crcFail again s
where
  /-- The chunks of a package as the input stream. -/
  packageScan (rd : Reader) (n : Nat) (p : List Byte) (k : Nat) (c : ScanSet) (o : Opened) (sess : Option (Nat × Seal))
      (slot first count : Nat) (crcFail again : List Nat) (s : State) : State :=
    let (bs, st, bad) := chunkInput (chunkAt s k rd slot o crcFail) first count
    let total := ((List.range count).map (fun j => plainLen o.header (first + j))).foldl (· + ·) 0
    let s := logRereads n (pkVolume p) (pkLba p) o again bad s
    endScan n p k c { bytes := bs, total := total, status := st } sess (countHostRead (bs.length / blockBytes) s)

/-- Lanes take units, and searches run, only while the blocks are enabled (BSH_CTL, IDX_CTL). -/
def scanUnitsRun (s : State) (h : Nat) : Bool :=
  match progAt s h with
  | some x => s.bsh.enable && (x.tables.isEmpty || s.idx.enable)
  | none => s.bsh.enable

/-- The blocks of a command's volume from its LBA on. -/
def volumeReader (s : State) (p : List Byte) (lost crcFail : List Nat) : Reader := fun i =>
  match vol? s (pkVolume p) with
  | none => (stInternal, [])
  | some u => if keyLost s (pkVolume p) then (stMediaError, [])
    else if crcFail.contains (pkLba p + i) then (stInternal, []) else localReader u (pkLba p) lost i

/-- SCAN: `lost` blocks could not be decoded; `crcFail` blocks failed their CRC-32C twice (of a package: chunks);
`again` are chunks whose GCM tag passed the second time. -/
def execScan (inst : Fin 64) (tag : Fin 256) (lost crcFail again : List Nat) (s : State) : Out :=
  let k := tagKey inst tag
  match Tbl.get? s.tags k with
  | none => .next s
  | some t =>
    let plain := field t.packet 48 4 == 0
    workEnds opScan inst tag (lockHeld s k && mayWrite s inst && scanUnitsRun s (pkHandle t.packet)) s (fun p k s =>
      scanDone (volumeReader s p lost (if plain then crcFail else [])) inst crcFail again p k s)

/-! ### READ_ASSET (R86 to R93) -/

/-- The chunks delivered one after another: each with whether the index filter skips it. -/
structure AssetOut where
  units : List (List Byte)
  skipped : List Nat
  status : Nat
  /-- the failing chunk, counted from FIRST_CHUNK -/
  failed : Nat
  /-- its GCM tag failed -/
  tagFail : Bool

/-- The chunks of a range up to the lowest that fails. -/
def assetLoop (out : Nat → ChunkOut) (skip : Nat → Bool) : Nat → Nat → Nat → AssetOut
  | _, _, 0 => { units := [], skipped := [], status := stOk, failed := 0, tagFail := false }
  | first, j, n + 1 =>
    let o := out (first + j)
    if o.status ≠ stOk then { units := [], skipped := [], status := o.status, failed := j, tagFail := o.tagFail }
    else
      let r := assetLoop out skip first (j + 1) n
      if skip o.contentKey then { r with skipped := j :: r.skipped } else { r with units := o.bytes :: r.units }

/-- The skip map (R90). -/
def skipMap (skipped : List Nat) : List Byte :=
  (List.range 512).map (fun b => BitVec.ofNat 8 ((List.range 8).foldl (fun a i =>
    if skipped.contains (8 * b + i) then a + 2 ^ i else a) 0))

/-- The index table that FILTER names, when it names no program (log entry 21). -/
def filterTable (s : State) (n f : Nat) : Option ITable :=
  if f = 0 ∨ (progAtInst s n f).isSome then none else tableAt s n f
where
  progAtInst (s : State) (n h : Nat) : Option Prog :=
    match Tbl.get? s.dmz.progs (h % 256) with
    | some x => if x.inst = n ∧ x.gen = h / 256 then some x else none
    | none => none
  tableAt (s : State) (n h : Nat) : Option ITable :=
    match Tbl.get? s.idx.tables (h % 256) with
    | some x => if x.owner = n ∧ x.gen = h / 256 then some x else none
    | none => none

/-- The program that FILTER names (log entry 21). -/
def filterProgram (s : State) (n f : Nat) : Option Prog := if f = 0 then none else filterTable.progAtInst s n f

/-- READ_ASSET without a program: chunks to the buffer (R89 to R93). -/
def deliverChunks (rd : Reader) (n : Nat) (p : List Byte) (k slot first count : Nat) (o : Opened)
    (sess : Option (Nat × Seal)) (crcFail again : List Nat) (s : State) : State :=
  let f := field p 48 4
  let tb := filterTable s n f
  let skip (key : Nat) : Bool := match tb with
    | some t => !(matchesOf s (f % 256) t key).isEmpty
    | none => false
  let r := assetLoop (chunkAt s k rd slot o crcFail) skip first 0 count
  let full := ((List.range count).map (fun j => plainLen o.header (first + j) + (if sess.isSome then 16 else 0))).foldl
    (· + ·) (if tb.isSome then 512 else 0)
  let us := match sess with
    | some (_, x) => sealUnits x 0 r.units
    | none => r.units
  let out := (if tb.isSome then skipMap r.skipped else []) ++ us.flatten
  let done := r.units.length + r.skipped.length
  let s := logRereads n (pkVolume p) (pkLba p) o again (if r.tagFail then some (first + r.failed) else none) s
  let s := if tb.isSome then { s with idx := { s.idx with searches := s.idx.searches + done } } else s
  let s := countHostRead (((List.range done).map (fun j => recBlocks (dirLen o.directory (first + j)))).foldl (· + ·) 0) s
  let s := match sess with
    | some (no, _) => advanceSeal no r.units.length s
    | none => s
  let rest := if r.status = stOk then [] else freeBytes s (full - out.length)
  let s := bumpFresh (deliver n p 0 (out ++ rest) s)
  endAsset k { status := r.status, r0 := out.length, r1 := (sess.map (fun x => x.2.counter)).getD 0, sealed := sess.isSome }
    (if r.status = stOk then s else countUnit r.status s)

/-- Output length of a range (R91). -/
def assetLen (s : State) (n : Nat) (p : List Byte) (first count : Nat) (h : List Byte) : Nat :=
  ((List.range count).map (fun j => plainLen h (first + j) + (if pkSeal p then 16 else 0))).foldl (· + ·)
    (if (filterTable s n (field p 48 4)).isSome then 512 else 0)

/-- READ_ASSET over the blocks that `rd` reads. -/
def assetDone (rd : Reader) (n : Nat) (crcFail again : List Nat) (p : List Byte) (k : Nat) (s : State) : State :=
  let slot := pkHandle p % 256
  let first := field p 36 4
  let count := field p 40 4
  let prog := filterProgram s n (field p 48 4)
  let lost := match filterTable s n (field p 48 4) with
    | some t => tableLost s t
    | none => false
  match packageChecks s rd n k slot first count (if prog.isSome then 0 else count) prog.isSome p (fun h =>
      if prog.isSome then scanBufferOk p 144 else decide (assetLen s n p first count h ≤ pkBufLen p)) with
  | .error (st, r0) => endAsset k { status := st, r0 := r0 } s
  | .ok (o, sess) =>
    let s := keepPackage (pkVolume p) (pkLba p) slot o.header o.directory o.dict s
    match prog with
    | some x =>
      let c : ScanSet := { inst := n, tag := k, slot := field p 48 4 % 256, prog := x, framing := x.defFraming
                           arg := x.defFrameArg, budget := x.defBudget, bufLen := pkBufLen p, isSealed := pkSeal p
                           header := false, counted := (Tbl.getD s.dmz.gathers k noGather).recordsIn }
      scanDone.packageScan rd n p k c o sess slot first count crcFail again s
    | none =>
      if lost then finishWith k stInternal 0 0 s
      else deliverChunks rd n p k slot first count o sess crcFail again s

/-- READ_ASSET: `crcFail` are chunks whose CRC-32C failed twice. -/
def execReadAsset (inst : Fin 64) (tag : Fin 256) (lost crcFail again : List Nat) (s : State) : Out :=
  let k := tagKey inst tag
  match Tbl.get? s.tags k with
  | none => .next s
  | some t =>
    workEnds opReadAsset inst tag
      (lockHeld s k && mayWrite s inst && s.bsh.enable
        && ((filterTable s inst (field t.packet 48 4)).isNone || s.idx.enable)
        && (match filterProgram s inst (field t.packet 48 4) with
          | some x => x.tables.isEmpty || s.idx.enable
          | none => true)) s
      (fun p k s => assetDone (volumeReader s p lost []) inst crcFail again p k s)

/-! ### INSTALL_CHUNK (R84, R85) -/

/-- Check 6 of R84. -/
def recordFieldsOk (r h : List Byte) (chunk len : Nat) : Bool :=
  field r 0 4 == 0x4B374348 && field r 8 4 == chunk && field r 52 8 == hdTitle h
    && (field r 4 1 == 0 || field r 4 1 == 1 || field r 4 1 == 4) && field r 12 4 + 80 == len
    && field r 16 4 == plainLen h chunk && decide (field r 5 1 < 2) && allZero (bytesAt r 6 2)
    && allZero (bytesAt r 20 4) && allZero (bytesAt r 60 4)

/-- The checks of R84 in order: the offset of the record's blocks and their number, or the reply. -/
def installChecks (s : State) (rd : Reader) (p r : List Byte) (capacity : Nat) : Except (Nat × Nat) (Nat × Nat × Opened) :=
  let slot := pkHandle p % 256
  let chunk := field p 36 4
  let len := pkLength p
  match openHeader s rd (pkVolume p) (pkLba p) slot with
  | .error st => .error (st, 0)
  | .ok h =>
    if !((Tbl.get? s.sec.licences slot).any (fun l => l.titleId == hdTitle h)) then .error (stNoLicense, 0)
    else if hdChunks h ≤ chunk then .error (stBadRange, 0)
    else match openDirectory s rd (pkVolume p) (pkLba p) slot h with
      | .error st => .error (st, 0)
      | .ok d =>
        let off := dirOffset d chunk
        let n := recBlocks (dirLen d chunk)
        if capacity < pkLba p + off + n then .error (stBadRange, 0)
        else if len ≠ dirLen d chunk then .error (stBadField, 16)
        else if !recordFieldsOk r h chunk len then .error (stBadField, 24)
        else .ok (off, n, { header := h, directory := d, dict := none })

/-- The record goes to its blocks: `units` atomic units of them, or all (log entry 43). -/
def installWrite (n status units off count : Nat) (r p : List Byte) (k : Nat) (s : State) : State :=
  match vol? s (pkVolume p) with
  | none => s
  | some u =>
    let lba := pkLba p + off
    let done := if status = stOk then count else prefixBlocks lba count units
    let bs := bytesAt r 0 (blockBytes * done)
    let held := mayHold s n p u
    let w := writeBlocks held false 0 (pkVolume p) lba done bs s
    let reply : Reply := { status := status, r0 := min (pkLength p) (blockBytes * done), partialEffect := decide (done < count) }
    let s := countHostWritten done (mirrorSend k (pkVolume p) n p u lba done bs w.1)
    if held then finish k reply (holdBytes (blockBytes * done) s)
    else settleDurable k (modTag k (fun t => { t with work := .durable, reply := reply, groups := w.2 }) s)

/-- INSTALL_CHUNK: the checks, then the range-lock entry over the record's blocks; the record is written once the entry
is held (log entry 43). -/
def installDone (n status units : Nat) (lost : List Nat) (p : List Byte) (k : Nat) (s : State) : State :=
  match vol? s (pkVolume p) with
  | none => s
  | some u =>
    let slot := pkHandle p % 256
    let r := gather s n p 0 (pkLength p)
    match installChecks s (volumeReader s p lost []) p r u.capacity with
    | .error (st, r0) => endAsset k { status := st, r0 := r0 } s
    | .ok (off, count, o) =>
      let s := keepPackage (pkVolume p) (pkLba p) slot o.header o.directory none s
      let order := (Tbl.get? s.tags k).elim 0 (fun t => t.order)
      let s := if s.locks.any (fun l => l.tag == k) then s
        else requestLock k [lockEntry k order (pkVolume p) (pkLba p + off) count true] s
      if lockHeld s k then installWrite n status units off count r p k s else s

/-- INSTALL_CHUNK: `outcome` as for WRITE. -/
def execInstallChunk (inst : Fin 64) (tag : Fin 256) (outcome : Fin 3) (units : Nat) (lost : List Nat) (s : State) : Out :=
  let k := tagKey inst tag
  workEnds opInstallChunk inst tag (lockHeld s k || !(s.locks.any (fun l => l.tag == k))) s
    (installDone inst (writeStatus outcome) units lost)

/-! ### A record on a worker (R202, R203, R217) -/

/-- The input stream of a running SCAN, or READ_ASSET with a program, and its settings. -/
def recordInput (s : State) (n k : Nat) (p : List Byte) : Option (ScanSet × ScanIn) :=
  let rd := volumeReader s p [] []
  let chunks (slot first count : Nat) : Option ScanIn :=
    match openHeader s rd (pkVolume p) (pkLba p) slot with
    | .error _ => none
    | .ok h =>
      match openRest s rd (pkVolume p) (pkLba p) slot first count h with
      | .error _ => none
      | .ok o =>
        let (bs, st, _) := chunkInput (chunkAt s k rd slot o []) first count
        some { bytes := bs, total := ((List.range count).map (fun j => plainLen h (first + j))).foldl (· + ·) 0, status := st }
  if pkOpcode p = opScan then
    match progAt s (pkHandle p) with
    | none => none
    | some x =>
      if field p 48 4 = 0 then
        let (bs, st) := plainInput rd 0 (pkLength p)
        some (scanSet s n k p x, { bytes := bs, total := pkLength p * blockBytes, status := st })
      else (chunks (field p 48 4 % 256) (field p 36 4) (field p 40 4)).map (fun i => (scanSet s n k p x, i))
  else
    match filterProgram s n (field p 48 4) with
    | none => none
    | some x =>
      (chunks (pkHandle p % 256) (field p 36 4) (field p 40 4)).map (fun i =>
        ({ (scanSet s n k p x) with slot := field p 48 4 % 256, framing := x.defFraming, arg := x.defFrameArg
                                    budget := x.defBudget, header := false }, i))

/-- May a worker take record `n` of command `k`: no worker has it, it runs no other, and at most 32 workers serve the
command (R217)? (log entry 44) -/
def workerFree (s : State) (worker k n : Nat) : Bool :=
  let others := s.dmz.workers.filter (fun p => !(p.1 == worker))
  decide ((gatherNo s k) ≤ n)
    && !(others.any (fun p => p.2.tag == k && p.2.recIndex == n))
    && decide ((others.filter (fun p => p.2.tag == k)).length < 32)
    && (match Tbl.get? s.dmz.workers worker with
      | none => true
      | some w => !(w.st == .running) && !(w.st == .ended) && (!(w.tag == k) || decide (w.recIndex < n)))
where
  /-- Records already applied. -/
  gatherNo (s : State) (k : Nat) : Nat := (Tbl.getD s.dmz.gathers k noGather).recordsIn

/-- RECORD_ENTRY: a worker enters record `n`. Its scratch is zero when it starts on the command, and kept from record to
record (log entry 44). -/
def execRecordEntry (worker : Nat) (inst : Fin 64) (tag : Fin 256) (n : Nat) (s : State) : Out :=
  let k := tagKey inst tag
  match Tbl.get? s.tags k with
  | none => .next s
  | some t =>
    match recordInput s inst k t.packet with
    | none => .next s
    | some (c, i) =>
      match recordAt c.framing c.arg i n 0 with
      | none => .next s
      | some (start, len) =>
        act s (serving s && t.st == .running && t.work == .working && lockHeld s k && !abortComing s k
            && workerFree s worker k n) (fun s =>
          let scratch := match Tbl.get? s.dmz.workers worker with
            | some w => if w.tag = k then w.scratch else []
            | none => []
          let w := enterRecord inst k c.slot n start c.budget (bytesAt i.bytes start len) scratch
          { s with dmz := { s.dmz with workers := Tbl.set s.dmz.workers worker w } })

end Sys2Proof.Machine
end

