-- ==== Sys2Proof/Machine/SpanLink.lean ====
section
/-! DEFINITION. The Exlet links: flits that arrive, NAKs, training, HELLO, failure of a port, and the membership table
(R378 to R386, R403). -/

namespace Sys2Proof.Machine

/-! ### Flits that arrive (R380) -/

/-- A good flit acknowledges: what its LACK covers leaves the retry buffer, and held-back flits go out. -/
def takeLack (p : Nat) (f : Flit) (s : State) : State :=
  if f.lackValid then
    sendWaiting 128 p (modEPort p (fun q => { q with retry := covered q f.lack }) s)
  else s

/-- A discarded flit: the first one after a good flit is answered with a NAK. -/
def discardFlit (p : Nat) (crcBad : Bool) (s : State) : State :=
  let q := eport s p
  let s := modEPort p (fun q => { q with crcErr := if crcBad then satInc q.crcErr 0xFFFF else q.crcErr, nakSent := true }) s
  if q.nakSent then s else sendUnsequenced p tNak s

/-- What becomes of a good flit: an unknown type is dropped (R379), link traffic stays here, the rest is routed. -/
def handFlit (p : Nat) (f : Flit) (s : State) : State :=
  if !knownType f.type then dropFlit s
  else if f.type = tIdle then s
  else if f.type = tNak ∨ f.type = tHello ∨ f.type = tAnnounce then deliverHere p f s
  else route (some p) f s

/-- A sequenced flit with the expected LSEQ: it is acknowledged. -/
def acceptFlit (p : Nat) (f : Flit) (s : State) : State :=
  let s := modEPort p (fun q => { q with rxSeq := (q.rxSeq + 1) % 4096, rxValid := true, nakSent := false }) s
  sendUnsequenced p tIdle (handFlit p f (takeLack p f s))

/-- 256 bytes arrive on a port. -/
def receive (p : Nat) (bs : List Byte) (s : State) : State :=
  match flitOf bs with
  | none => discardFlit p true s
  | some f =>
    if !sequenced f.type then handFlit p f (takeLack p f s)
    else if f.lseq = (eport s p).rxSeq then acceptFlit p f s
    else discardFlit p false s

/-- FLIT_RECEIVED: only a port in HELLO or ACTIVE carries flits. -/
def execFlitReceived (port : Fin 3) (bytes : List Byte) (s : State) : Out :=
  act s (powered s && ((eport s port).st == .hello || portActive s port)) (receive port bytes)

/-- The oldest flit of a type delivered by a port. -/
def arrived (s : State) (p type : Nat) : Option Flit :=
  (s.spn.inbox.find? (fun x => x.1 == p && x.2.type == type)).map Prod.snd

/-- Remove the first entry that meets `f`. -/
def removeFirst {α : Type} (f : α → Bool) : List α → List α
  | [] => []
  | a :: t => if f a then t else a :: removeFirst f t

/-- Take the oldest flit of a type and port out of the inbox. -/
def takeArrived (p type : Nat) (s : State) : State :=
  { s with spn := { s.spn with inbox := removeFirst (fun x => x.1 == p && x.2.type == type) s.spn.inbox } }

/-- NAK: every flit after the last good one is sent again in order, with its LSEQ (R380) (log entry 16). -/
def resendAll (p : Nat) (s : State) : State :=
  let q := eport s p
  q.retry.foldl (fun s f => onWire p (withLack q f) s) (modEPort p (fun q => { q with resends := satInc q.resends 0xFFFF }) s)

/-- NAK (log entry 16). -/
def execNak (port : Fin 3) (s : State) : Out :=
  act s (powered s && (arrived s port tNak).isSome && !(eport s port).retry.isEmpty) (fun s =>
    resendAll port (takeArrived port tNak s))

/-! ### Training, HELLO and failure (R381, R382) -/

/-- Start training. -/
def startTraining (p : Nat) (s : State) : State := setPort p .training s

/-- LANES_TRAINED: sequence numbers of the link start again, and HELLO goes out (log entry 15). -/
def execLanesTrained (port : Fin 3) (s : State) : Out :=
  act s (powered s && (eport s port).st == .training) (fun s =>
    let s := setPort port .hello s
    let s := modEPort port (fun q => { q with txSeq := 0, rxSeq := 0, rxValid := false, nakSent := false, retry := [], waiting := [] }) s
    sendSequenced port (newFlit s tHello 0 0 0 noBudget true (helloPayload s port)) s)

/-- A port gives up the flits that the neighbour has not acknowledged: they go through routing again in order, with the
arrival port they had; HELLO and ANNOUNCE belong to the link and go with it (R382) (log entries 12, 15). -/
def rerouteRetry (p : Nat) (s : State) : State :=
  let q := eport s p
  let s := modEPort p (fun q => { q with retry := [], waiting := [] }) s
  (q.retry ++ q.waiting).foldl (fun s f =>
    if f.type = tHello ∨ f.type = tAnnounce then s else route f.came f s) s

/-- A port goes DOWN (log entry 15). -/
def portDown (p : Nat) (s : State) : State := rerouteRetry p (setPort p .down s)

/-- TRAINING_TIMEOUT: 50 ms without training. -/
def execTrainingTimeout (port : Fin 3) (s : State) : Out :=
  let q := eport s port
  act s (powered s && q.st == .training && decide (50000 + q.since ≤ s.now)) (portDown port)

/-- HELLO_TIMEOUT: no HELLO within 1 ms. -/
def execHelloTimeout (port : Fin 3) (s : State) : Out :=
  let q := eport s port
  act s (powered s && q.st == .hello && decide (1000 + q.since ≤ s.now)) (portDown port)

/-- The port that carries the flits of a failed port from now on: that of the first one that still has a route, or 0xFF
when there is none. -/
def rerouteTarget (q : EPort) (s : State) : Nat :=
  match (q.retry ++ q.waiting).findSome? (fun f => match routeOf s f.came f with
    | .send p => some p
    | _ => none) with
  | some p => p
  | none => 0xFF

/-- EXLET_PORT_FAIL: an ACTIVE port fails for one of the reasons of R382; the takeover of code 14 took `ns` (R502). -/
def execExletPortFail (port : Fin 3) (ns : Nat) (s : State) : Out :=
  act s (powered s && portActive s port) (fun s =>
    let q := eport s port
    let t := setPort port .down s
    takeover 14 port (rerouteTarget q t) ns (rerouteRetry port t))

/-- PORT_RETRY_TIMER: 100 ms in DOWN since the last attempt, or in CONFLICT since entering it. -/
def execPortRetryTimer (port : Fin 3) (s : State) : Out :=
  let q := eport s port
  act s (powered s && (q.st == .down || q.st == .conflict) && decide (100000 + q.since ≤ s.now)) (startTraining port)

/-- SPAN_JOIN meets the device's own Span ID at another device: the ports are disabled, Span ID and GROUP cleared, and
the command replies ST_BAD_FIELD with RESULT0 36 (R385) (log entry 23). -/
def joinConflict (s : State) : State :=
  let s := [0, 1, 2].foldl (fun s p => if (eport s p).st == .disabled then s else setPort p .disabled s) s
  let s := { s with spn := { s.spn with spanId := 0, group := 0, joined := false, members := [] } }
  match s.spn.joining with
  | some k => badField k 36 { s with spn := { s.spn with joining := none } }
  | none => s

/-- HELLO received on a port in HELLO: ACTIVE, or CONFLICT when the neighbour bears the device's own Span ID; its
DEVICE_ID goes to the health log, under a kind that no table gives (a free value, log entry 23). -/
def takeHello (p : Nat) (f : Flit) (s : State) : State :=
  let id := field f.payload 0 2
  let dev := field f.payload 4 16
  if id ≠ s.spn.spanId then
    setPort p .active (modEPort p (fun q => { q with neighbour := id, nbPort := field f.payload 2 1 % 4 }) s)
  else if s.spn.joining.isSome && !(dev == deviceId s) then joinConflict s
  else
    let s := setPort p .conflict (modEPort p (fun q => { q with neighbour := id, nbPort := field f.payload 2 1 % 4 }) s)
    logHealth (Config.freeNat s.fresh 0 % 65536) 0xFF 0xFFFF p 0 0 (bytesAt f.payload 4 16) (bumpFresh s)

/-- HELLO. -/
def execHello (port : Fin 3) (s : State) : Out :=
  match arrived s port tHello with
  | none => .next s
  | some f => act s (powered s && (eport s port).st == .hello) (fun s => takeHello port f (takeArrived port tHello s))

/-! ### Membership (R384) -/

/-- ANNOUNCE_TIMER: every 100 ms a joined device floods an ANNOUNCE. -/
def execAnnounceTimer (s : State) : Out :=
  act s (powered s && !(s.spn.spanId == 0) && decide (100000 + s.spn.announcedAt ≤ s.now)) (announce false)

/-- A copy on this device is reachable again: OUT becomes RESYNC (Table 11.5). -/
def memberReturns (id : Nat) (s : State) : State :=
  { s with flc := { s.flc with vols := Tbl.mapVals s.flc.vols (fun _ u =>
      match u.mirror with
      | some m =>
        if m.primary then
          { u with mirror := some { m with
              st1 := if m.id1 = id ∧ 2 ≤ m.copies ∧ m.st1 = .out then .resync else m.st1
              st2 := if m.id2 = id ∧ 3 ≤ m.copies ∧ m.st2 = .out then .resync else m.st2 } }
        else u
      | none => u) } }

/-- A copy of a volume leaves the set: OUT, the set journaled before any waiting write replies, EV_SPAN_CHANGE 8 (R397). -/
def copyOut (v id : Nat) (s : State) : State :=
  let g := s.flc.nextGroup
  let s := modVol v (fun u => { u with mirror := u.mirror.map (fun m =>
      { m with st1 := if m.id1 = id then .out else m.st1, st2 := if m.id2 = id then .out else m.st2
               sent1 := m.sent1 && !(m.id1 == id), sent2 := m.sent2 && !(m.id2 == id) }) }) s
  let waits := (s.spn.mwaits.filter (fun w => w.vol == v && w.waiting.contains id)).map (fun w => w.tag)
  let s := appendGroup false [.mirror v] s
  let s := { s with
    tags := Tbl.mapVals s.tags (fun k t => if waits.contains k then { t with groups := t.groups ++ [g] } else t)
    spn := { s.spn with
      served := Tbl.mapVals s.spn.served (fun k x =>
        if waits.contains (16384 + k) then { x with groups := x.groups ++ [g] } else x)
      mwaits := s.spn.mwaits.filter (fun w => !(w.vol == v && w.waiting.contains id)) } }
  spanChange 0xFF 8 id v s

/-- The volumes of which a device holds a copy in RESYNC or IN_SET. -/
def mirroredOn (s : State) (id : Nat) : List Nat :=
  (s.flc.vols.filter (fun p => (liveCopies p.2).contains id)).map Prod.fst

/-- A device is no longer reachable: its entry goes and its copies go OUT. -/
def memberGone (id : Nat) (s : State) : State :=
  let s := { s with spn := { s.spn with members := Tbl.erase s.spn.members id } }
  (mirroredOn s id).foldl (fun s v => copyOut v id s) s

/-- Record the sender of an ANNOUNCE. -/
def recordMember (f : Flit) (s : State) : State :=
  let id := field f.payload 0 2
  let m : Member := { deviceId := field f.payload 4 16, group := field f.payload 20 4
                      portStates := field f.payload 24 3, originSeq := f.originSeq, since := s.now }
  let new := !Tbl.has s.spn.members id
  let s := { s with spn := { s.spn with members := Tbl.set s.spn.members id m } }
  if new then memberReturns id s else s

/-- Is an ANNOUNCE newer than the last one recorded from its origin (R25, R384)? (log entry 14) -/
def announceNewer (s : State) (f : Flit) : Bool :=
  match Tbl.get? s.spn.members f.origin with
  | none => true
  | some m => seqPrecedes m.originSeq f.originSeq

/-- ANNOUNCE: it is flooded on when newer and recorded; any other is discarded. An origin that bears the device's own
Span ID during a join ends the join (R385); the device's own ANNOUNCE come round a ring is discarded (log entry 14). -/
def takeAnnounce (p : Nat) (f : Flit) (s : State) : State :=
  if f.origin = s.spn.spanId then
    if s.spn.joining.isSome && !(field f.payload 4 16 == deviceId s) then joinConflict s else s
  else if !announceNewer s f then s
  else
    let s := flood (some p) { f with came := some p } s
    if f.leaving then memberGone f.origin s else recordMember f s

/-- ANNOUNCE. -/
def execAnnounce (port : Fin 3) (s : State) : Out :=
  match arrived s port tAnnounce with
  | none => .next s
  | some f => act s (powered s) (fun s => takeAnnounce port f (takeArrived port tAnnounce s))

/-- MEMBERSHIP_EXPIRY: 350 ms without an ANNOUNCE from a device. -/
def execMembershipExpiry (id : Fin 65536) (s : State) : Out :=
  match Tbl.get? s.spn.members id with
  | none => .next s
  | some m => act s (powered s && decide (350000 + m.since ≤ s.now)) (memberGone id)

end Sys2Proof.Machine
end

