-- ==== Sys2Proof/Machine/WearOps.lean ====
section
/-! DEFINITION. Wear, retirement, READ_ONLY, the usable capacity, and what a code word's end does to its channel and die
(R262 to R266, R273 to R275, R290 to R297). -/

namespace Sys2Proof.Machine

/-! ### Dies and channels -/

/-- The dies in service. -/
def diesServing (s : State) : List Nat := (s.flc.dies.map Prod.fst).filter (fun d => dieServes s d)

/-- Channels in service. -/
def channelsServing (s : State) : Nat := Tbl.countIf s.flc.channels (fun _ c => c.st == .inService)

/-- Change a die. -/
def modDie (d : Nat) (f : Die → Die) (s : State) : State := { s with flc := { s.flc with dies := Tbl.modify s.flc.dies d f } }

/-- Change a channel. -/
def modChan (c : Nat) (f : Chan → Chan) (s : State) : State :=
  { s with flc := { s.flc with channels := Tbl.modify s.flc.channels c f } }

/-- PE_DENSE of a class (Table 8.2). -/
def peDense (cls : Nat) : Nat := if cls = 3 then 1000 else 3000

/-- Twentieths of an erase that an erase of a block counts (R294): PE_DENSE / PE_SLC is 1/10 in classes A and B and 1/20
in class C. -/
def eraseCost (cls : Nat) (slc : Bool) : Nat := if !slc then 20 else if cls = 3 then 1 else 2

/-- Wear of a block of a die. -/
def blockWear (x : Die) (b : Nat) : Nat := Tbl.getD x.wear b 0

/-- AVG_PE and MAX_PE of a die, in erases. -/
def avgPe (x : Die) : Nat := (x.wear.foldl (fun a p => a + p.2) 0) / (20 * max x.blocks 1)
def maxPe (x : Die) : Nat := (x.wear.foldl (fun a p => max a p.2) 0) / 20

/-- WEAR_PCT: the average wear of the blocks in service as a percentage of PE_DENSE. -/
def wearPct (s : State) : Nat :=
  let ds := (diesServing s).filterMap (fun d => Tbl.get? s.flc.dies d)
  let blocks := ds.foldl (fun a x => a + x.blocks) 0
  (ds.foldl (fun a x => a + (x.wear.foldl (fun a p => a + p.2) 0) * 100 / peDense x.cls) 0) / (20 * max blocks 1)

/-- SPARE_PCT: the spare left as a percentage of the initial spare. -/
def sparePct (s : State) : Nat := s.flc.spareLeft * 100 / max s.flc.spareInit 1

/-- Raw bytes of the dies in service. -/
def rawBytes (s : State) : Nat :=
  ((diesServing s).filterMap (fun d => Tbl.get? s.flc.dies d)).foldl (fun a x => a + 2 ^ 30 * x.capGib) 0

/-- Raw bytes of the blocks in service. -/
def rawInService (s : State) : Nat :=
  ((diesServing s).filterMap (fun d => Tbl.get? s.flc.dies d)).foldl (fun a x =>
    a + 2 ^ 30 * x.capGib * (x.blocks - x.retiredBlocks) / max x.blocks 1) 0

/-- U' of R297: what the blocks in service hold together with over-provisioning of 3.5 % of R, parity counted and the
write buffer, the spare and the 7 GiB of R262 not (log entry 28). -/
def reducedU (s : State) : Nat :=
  (1000 * rawInService s - 35 * rawBytes s) * (s.flc.stripeW - 1) / (2 ^ 18 * (1000 * max s.flc.stripeW 1)) * 64

/-- The largest U that the DRAM fitted can map (R264) (log entry 28). -/
def dramU (s : State) : Nat := 2048 * (2 ^ 20 * (s.drc.a.mib + s.drc.b.mib) - 2 ^ 30) / 2 ^ 18 * 64

/-- U at a format with shares `wb` and `w` (R262, R264) (log entry 28). -/
def formatU (s : State) (wb w : Nat) : Nat := min (usableBlocks (rawBytes s) wb w) (dramU s)

/-! ### Warnings and READ_ONLY (R297) -/

/-- Raise a warning once: bit `b` of those raised. -/
def warnOnce (b kind a : Nat) (due : Bool) (s : State) : State :=
  if due && !bit s.flc.warned b then
    healthWarning kind a 0 { s with flc := { s.flc with warned := setBit s.flc.warned b true } }
  else s

/-- SPARE_LOW below 25 %, WEAR at 80 % and at 100 %. -/
def settleWarnings (s : State) : State :=
  let s := warnOnce 0 1 (sparePct s) (decide (s.flc.spareLeft * 4 < s.flc.spareInit)) s
  let s := warnOnce 1 2 (wearPct s) (decide (80 ≤ wearPct s)) s
  warnOnce 2 2 (wearPct s) (decide (100 ≤ wearPct s)) s

/-- Evacuations under way stop: RESULT 5 (Table 8.20). -/
def stopEvacuations (s : State) : State :=
  { s with flc := { s.flc with channels := Tbl.mapVals s.flc.channels (fun _ c =>
      if c.st == .evacuating then { c with st := .inService, svcOp := 0, result := 5 } else c) } }

/-- The device enters or leaves READ_ONLY as R253 and R297 decide (log entry 28). -/
def settleReadOnly (s : State) : State :=
  let few := decide ((diesServing s).length < 8)
  let u := reducedU s
  if s.flc.usable = 0 then s
  else if !s.flc.readOnly then
    if few || decide (u < s.flc.usable) then
      stopEvacuations (healthWarning 3 1 u { s with flc := { s.flc with readOnly := true, usableReduced := u } })
    else s
  else
    let s := { s with flc := { s.flc with usableReduced := u } }
    if few then s
    else if s.flc.usable ≤ u then healthWarning 3 0 u { s with flc := { s.flc with readOnly := false } }
    else if allocated s ≤ u then healthWarning 3 0 u { s with flc := { s.flc with readOnly := false, usable := u } }
    else s

/-! ### Retirement (R295, R296) -/

/-- The allotments that the map keeps on a die. -/
def onDie (s : State) (d : Nat) : Nat :=
  s.flc.vols.foldl (fun a v => a + Tbl.countIf v.2.map (fun _ e => e.die == d)) 0

/-- A die is retired: its pages are served by rebuild and its allotments relocated. -/
def retireDie (d : Nat) (s : State) : State :=
  let was := holdupOk s
  let s := modDie d (fun x => { x with retired := true, rebuilding := true, relocated := 0 }) s
  let s := logHealth 0x0006 0xFF 0xFFFF d 0 1 [] s
  settleWriteBack was (settleReadOnly (settleFaults (healthWarning 4 d (onDie s d) s)))

/-- A block is retired: it is replaced from the spare, recorded, and journaled. `reason` is that of log 0x0005. -/
def retireBlock (d b reason : Nat) (s : State) : State :=
  if s.flc.retiredList.any (fun r => r.1 == d && r.2.1 == b) then s
  else
    let s := modDie d (fun x => { x with retiredBlocks := x.retiredBlocks + 1 }) s
    let s := { s with flc := { s.flc with spareLeft := s.flc.spareLeft - 1
                                          retiredList := s.flc.retiredList ++ [(d, b, reason)] } }
    let s := logHealth 0x0005 0xFF 0xFFFF d 0 1 [] (appendGroup false [.blockRetired d b reason] s)
    let s := settleWarnings s
    let tooMany := match Tbl.get? s.flc.dies d with
      | some x => !x.retired && decide (x.blocks < x.retiredBlocks * 20)
      | none => false
    if tooMany then retireDie d s else settleReadOnly s

/-! ### Code words (R273 to R275, R290, R291) -/

/-- Code words whose decoding ended at a step from `a` to `b`; step 6 stands for none. -/
def atSteps (cws : List Nat) (a b : Nat) : Nat := (cws.filter (fun c => decide (a ≤ c ∧ c ≤ b))).length

/-- What the code words of a page do to the counters of channel and die: each is the step of Table 8.7 that decoded it, 0
or 1 for a plain decode, 6 for a lost one. -/
def countCodeWords (d b : Nat) (cws : List Nat) (offset : Nat) (s : State) : State :=
  let s := modChan (d / 16) (fun c => { c with
    decodes := c.decodes + atSteps cws 0 5, retryCnt := satAdd c.retryCnt (atSteps cws 2 2) 0xFFFF
    softCnt := satAdd c.softCnt (atSteps cws 3 4) 0xFFFF, rebuilt := satAdd c.rebuilt (atSteps cws 5 5) 0xFFFF
    lost := satAdd c.lost (atSteps cws 6 6) 0xFFFF }) s
  let s := modDie d (fun x => { x with
    timeouts := 0, reads := Tbl.set x.reads b (Tbl.getD x.reads b 0 + 1)
    offset := if atSteps cws 0 4 = 0 then x.offset else offset }) s
  { s with flc := { s.flc with life := { s.flc.life with
      recovered := s.flc.life.recovered + atSteps cws 3 5, lost := s.flc.life.lost + atSteps cws 6 6 } } }

/-- A block is to be refreshed. -/
def markRefresh (d b : Nat) (due : Bool) (s : State) : State :=
  if due && !s.flc.toRefresh.contains (d, b) then { s with flc := { s.flc with toRefresh := s.flc.toRefresh ++ [(d, b)] } }
  else s

/-- Blocks that lost code words held are poisoned (log entry 57). -/
def poisonLost (lost : List (Nat × Nat)) (s : State) : State :=
  lost.foldl (fun s x => match vol? s x.1 with
    | some u => poisonBlocks x.1 (lostBlocks u x.2) s
    | none => s) s

/-- A page was read: counters, the blocks lost, the block to refresh, and retirement after a rebuild. -/
def pageRead (d b : Nat) (cws : List Nat) (weak : Bool) (offset : Nat) (lost : List (Nat × Nat)) (s : State) : State :=
  let s := countCodeWords d b cws offset s
  let s := markRefresh d b (weak || decide (0 < atSteps cws 2 5)) s
  let s := if 0 < atSteps cws 5 5 then retireBlock d b 3 s else s
  if 0 < atSteps cws 6 6 then poisonLost lost s else s

/-! ### Superblocks -/

/-- Change a superblock. -/
def modSb (n : Nat) (f : Superblock → Superblock) (s : State) : State :=
  { s with flc := { s.flc with superblocks := Tbl.modify s.flc.superblocks n f } }

/-- Wear of a superblock: the sum over its blocks, in twentieths. -/
def sbWear (s : State) (x : Superblock) : Nat :=
  x.blocks.foldl (fun a p => a + (Tbl.get? s.flc.dies p.1).elim 0 (fun d => blockWear d p.2)) 0

/-- Does some read that resolved an entry to the superblock still run (R279)? -/
def pinned (s : State) (x : Superblock) : Bool := s.locks.any (fun l => l.held && !l.excl && x.pins.contains l.order)

/-- Does a MAP_MOVE out of superblock `n` wait for its page? -/
def movesWait (s : State) (n : Nat) : Bool :=
  s.flc.groups.any (fun g => g.entries.any (fun e =>
    match e with
    | .mapMove _ _ _ _ src _ => src == n
    | _ => false))

/-- Take an allotment off the list of a superblock (log entry 57). -/
def skipRef (n vol allot : Nat) (s : State) : State :=
  modSb n (fun b => { b with refs := b.refs.filter (fun r => !(r == (vol, allot))) }) s

/-- The blocks of a superblock are erased together: each counts its wear, `times` over, and is free. -/
def eraseWhole (n times : Nat) (s : State) : State :=
  match Tbl.get? s.flc.superblocks n with
  | none => s
  | some x =>
    let s := x.blocks.foldl (fun s p => modDie p.1 (fun d => { d with
      wear := Tbl.set d.wear p.2 (blockWear d p.2 + times * eraseCost d.cls x.slc)
      freeBlocks := d.freeBlocks + 1, reads := Tbl.erase d.reads p.2 }) s) s
    settleWarnings { s with flc := { s.flc with superblocks := Tbl.erase s.flc.superblocks n } }

end Sys2Proof.Machine
end

