-- ==== Sys2Proof/Machine/SpanXact.lean ====
section
/-! DEFINITION. Transactions of the span: requests served for other devices, answers to commands forwarded from here,
budgets, resends and cancels (R390 to R395, R401). -/

namespace Sys2Proof.Machine

/-! ### The home's side -/

/-- The key of a message served for another device. -/
def servedKey (origin xid : Nat) : Nat := 2 ^ 32 * origin + xid % 2 ^ 32

/-- The tag under which a served message holds locks and waits. -/
def servedTag (key : Nat) : Nat := 16384 + key

/-- Do this device and `id` belong to one group (R383)? -/
def sameGroup (s : State) (id : Nat) : Bool :=
  !(s.spn.group == 0) && (match Tbl.get? s.spn.members id with
    | some m => m.group == s.spn.group
    | none => false)

/-- Does `id` hold a copy of the volume? -/
def copyOf (u : Vol) (id : Nat) : Bool :=
  match u.mirror with
  | some m => m.primary && ((decide (2 ≤ m.copies) && m.id1 == id) || (decide (3 ≤ m.copies) && m.id2 == id))
  | none => false

/-- The opcodes that are forwarded (R390). -/
def forwardedOps : List Nat := lockOps

/-- What the home refuses: the status of the first check that fails. -/
def homeRefuses (s : State) (origin : Nat) (p : List Byte) : Option Nat :=
  let op := pkOpcode p
  if !forwardedOps.contains op then some stBadOpcode
  else match vol? s (pkVolume p) with
    | none => some stNoVolume
    | some u =>
      if !volServes s (pkVolume p) u then some stNoVolume
      else if !(copyOf u origin || (u.exported && sameGroup s origin)) then some stNotPermitted
      else if exclusiveOps.contains op && (s.flc.readOnly || copyWrong s op p) then some stReadOnly
      else if u.capacity < pkLba p + (if op = opInstallChunk then 1 else pkLength p) then some stBadRange
      else none

/-- BLOCK_OFFSET and blocks of the record that an INSTALL_CHUNK names, read from the package directory on the media. -/
def recordPlace (u : Vol) (p : List Byte) : Nat × Nat :=
  let dir := blocksOf u (pkLba p + 1) (hdDirBlocks (blocksOf u (pkLba p) 1))
  (dirOffset dir (field p 36 4), recBlocks (pkLength p))

/-- The range that a request locks. -/
def homeRange (u : Vol) (p : List Byte) : Nat × Nat :=
  if pkOpcode p = opInstallChunk then (pkLba p + (recordPlace u p).1, (recordPlace u p).2) else (pkLba p, pkLength p)

/-- Answer a request that was never admitted, or whose RESP is kept. -/
def answerReq (origin xid : Nat) (r : Reply) (s : State) : State :=
  sendMessage tResp origin xid noBudget false (respPayload r) [] s

/-- Admit a request: it takes its place in the intake order and asks for its range lock (R394). -/
def admitReq (origin xid : Nat) (ps : List (List Byte)) (budget : Nat) (s : State) : State :=
  let first := ps.headD []
  let p := bytesAt first 0 64
  let key := servedKey origin xid
  let v : Served := { mirror := false, pairSeq := field first 64 4, request := first, body := (ps.drop 1).flatten, reply := none
                      groups := [], deadline := if budget = noBudget then 0 else s.now + budget / 1000 }
  let s := { s with
    acceptCount := s.acceptCount + 1
    spn := { s.spn with pairRx := Tbl.set s.spn.pairRx origin ((field first 64 4 + 1) % 2 ^ 32)
                        gapWait := Tbl.erase s.spn.gapWait origin, served := Tbl.set s.spn.served key v } }
  match homeRefuses s origin p with
  | some st => answerServed key v { status := st } s
  | none =>
    match vol? s (pkVolume p) with
    | none => s
    | some u =>
      let r := homeRange u p
      requestLock (servedTag key)
        [lockEntry (servedTag key) (s.acceptCount - 1) (pkVolume p) r.1 r.2 (exclusiveOps.contains (pkOpcode p))] s

/-- A REQ arrives whole: a resent one is answered from the kept RESPs or ignored while its transaction runs; a PAIR_SEQ
ahead of the expected one waits; one that has been passed has no effect (R386, R393, R394) (log entry 59). -/
def takeReq (origin xid : Nat) (ps : List (List Byte)) (f : Flit) (s : State) : State :=
  let key := servedKey origin xid
  let q := field (ps.headD []) 64 4
  let ahead := (2 ^ 32 + q - Tbl.getD s.spn.pairRx origin 0) % 2 ^ 32
  let done := takeMessage tReq origin xid
  if f.resent && Tbl.has s.spn.served key then done s
  else match (if f.resent then s.spn.kept.find? (fun k => k.1 == key) else none) with
    | some k => sendMessage tResp origin xid noBudget false k.2 [] (done s)
    | none =>
      if s.spn.leaving.isSome then
        let s := done s
        let s := if ahead = 0 then { s with spn := { s.spn with pairRx := Tbl.set s.spn.pairRx origin ((q + 1) % 2 ^ 32) } } else s
        answerReq origin xid { status := stSpanUnreachable } s
      else if ahead = 0 then admitReq origin xid ps f.budget (done s)
      else if ahead < 2 ^ 31 then
        if Tbl.has s.spn.gapWait origin then s
        else { s with spn := { s.spn with gapWait := Tbl.set s.spn.gapWait origin s.now } }
      else answerReq origin xid { status := stAbortedByTimeout } (done s)

/-- The CRC-32C vector of blocks read: the value of a failing block is complemented, so that the origin knows it
(log entry 61). -/
def readVector (lba : Nat) (bad : List Nat) (bs : List Byte) : Nat → List Byte
  | 0 => []
  | n + 1 =>
    let i := bs.length / blockBytes - (n + 1)
    let c := crc32cPiece ((bs.drop (blockBytes * i)).take blockBytes)
    leBytes 4 (if bad.contains (lba + i) then 2 ^ 32 - 1 - c else c) ++ readVector lba bad bs n

/-- A request that reads: DATA with every block of the range, but for VERIFY, then RESP (R276, R390). -/
def serveRead (key : Nat) (v : Served) (lost crcFail : List Nat) (u : Vol) (p : List Byte) (s : State) : State :=
  let lba := pkLba p
  let n := pkLength p
  let lost := if keyLost s (pkVolume p) then (List.range n).map (fun i => lba + i) else lost
  let bad := failingBlocks u lba n lost crcFail
  let failing := bad.map Prod.fst
  let s := countHostRead (n - bad.length) s
  if pkOpcode p = opVerify then
    answerServed key v (match bad with
      | [] => { status := stOk, r0 := n, r1 := 0xFFFFFFFFFFFFFFFF }
      | b :: _ => { status := b.2, r0 := n - bad.length, r1 := b.1 }) s
  else
    let bs := ((List.range n).map (fun i =>
      if failing.contains (lba + i) then freeBytes { s with fresh := s.fresh + i } blockBytes else blocksOf u (lba + i) 1)).flatten
    let all := bs ++ readVector lba failing bs n
    let s := sendMessage tData (key / 2 ^ 32) (key % 2 ^ 32) noBudget false (all.take 220) (all.drop 220)
      { s with fresh := s.fresh + n }
    answerServed key v (match bad with
      | [] => { status := stOk, r0 := n }
      | b :: _ => { status := b.2, r0 := b.1, r1 := bad.length }) s

/-- The first 4 KiB piece of received data whose CRC-32C differs from its vector, if one does (R20). -/
def badPiece (data vec : List Byte) (n : Nat) : Option Nat :=
  (List.range n).find? (fun i => !(crc32cPiece ((data.drop (4096 * i)).take 4096) == field vec (4 * i) 4))

/-- The effect of a forwarded write waits for its journal groups and the copies; every one counts as FUA (R390, R398). -/
def serveWaits (key status done len r0 stored : Nat) (ids : List Nat) (s : State) : State :=
  let r : Reply := { status := status, r0 := r0, r1 := stored, partialEffect := decide (done < len) }
  let s := countHostWritten done { s with spn := { s.spn with
    served := Tbl.modify s.spn.served key (fun v => { v with reply := some r, groups := ids }) } }
  settleServed s

/-- A request that writes: WRITE, TRIM or INSTALL_CHUNK, with the outcome of its programs as for a local command
(log entry 58). -/
def serveWrite (key : Nat) (v : Served) (outcome : Fin 3) (units : Nat) (u : Vol) (p : List Byte) (s : State) : State :=
  let op := pkOpcode p
  let (lba, len) := homeRange u p
  let n := field v.request 68 1
  let bytes := if op = opWrite then blockBytes * len else if op = opInstallChunk then pkLength p else 0
  let data := bytesAt v.body 0 bytes
  let status := if keyLost s (pkVolume p) && !(op == opTrim) then stInternal else writeStatus outcome
  let units := if keyLost s (pkVolume p) && !(op == opTrim) then 0 else units
  let (status, units) := match badPiece data (v.body.drop bytes) ((4095 + bytes) / 4096) with
    | some i => (stInternal, if status = stOk then (lba + i) / 64 - lba / 64 else min units ((lba + i) / 64 - lba / 64))
    | none => (status, units)
  let done := if status = stOk then len else prefixBlocks lba len units
  let vn := pkVolume p
  let s := discardPackages vn lba done s
  let w := if op = opTrim then trimBlocks false vn lba done s
    else writeBlocks false (op == opWrite && u.compress && !pkNoCompress p && s.bsh.zstdEn) 1 vn lba done
      (bytesAt data 0 (blockBytes * done)) s
  let bs := if op = opTrim then [] else bytesAt data 0 (blockBytes * done)
  let s := mirrorSend (servedTag key) vn n p u lba done bs w.1
  serveWaits key status done len (if op = opInstallChunk then min (pkLength p) (blockBytes * done) else done)
    (if op = opWrite then storedBy w.1 w.2 else 0) w.2 s

/-- The work of a served request ends (log entry 17). -/
def serveReq (key : Nat) (v : Served) (lost crcFail : List Nat) (outcome : Fin 3) (units : Nat) (s : State) : State :=
  let p := bytesAt v.request 0 64
  match vol? s (pkVolume p) with
  | none => answerServed key v { status := stNoVolume } s
  | some u =>
    if exclusiveOps.contains (pkOpcode p) then serveWrite key v outcome units u p s else serveRead key v lost crcFail u p s

/-- REQ: the request is admitted when it is whole, and served when it holds its range lock. -/
def execReq (origin xid : Nat) (lost crcFail : List Nat) (outcome : Fin 3) (units : Nat) (s : State) : Out :=
  let key := servedKey origin xid
  match messageOf s tReq origin xid with
  | some (ps, f) => act s (serving s) (takeReq origin xid ps f)
  | none =>
    match Tbl.get? s.spn.served key with
    | none => .next s
    | some v => act s (serving s && !v.mirror && v.reply.isNone && lockHeld s (servedTag key))
        (serveReq key v lost crcFail outcome units)

/-- PAIR_SEQ of the requests of an origin that wait for a missing one. -/
def waitingSeqs (s : State) (origin : Nat) : List Nat :=
  (s.spn.inbox.filter (fun x => x.2.type == tReq && x.2.origin == origin && x.2.index == 0)).map (fun x =>
    field x.2.payload 64 4)

/-- PAIR_SEQ_GAP_EXPIRY: GAP_US without the missing number; the next one is admitted (R394). -/
def execPairSeqGapExpiry (origin : Fin 65536) (s : State) : Out :=
  match Tbl.get? s.spn.gapWait origin with
  | none => .next s
  | some since =>
    act s (powered s && decide (since + s.spn.gapUs ≤ s.now)) (fun s =>
      let e := Tbl.getD s.spn.pairRx origin 0
      let next := (waitingSeqs s origin).foldl (fun a q =>
        if (2 ^ 32 + q - e) % 2 ^ 32 < 2 ^ 31 && decide ((2 ^ 32 + q - e) % 2 ^ 32 < a) then (2 ^ 32 + q - e) % 2 ^ 32 else a) (2 ^ 31)
      { s with spn := { s.spn with
          gapWait := Tbl.erase s.spn.gapWait origin
          pairRx := if next = 2 ^ 31 then s.spn.pairRx else Tbl.set s.spn.pairRx origin ((e + next) % 2 ^ 32) } })

/-- A served request ends before its work did, or its decided reply takes another status (R64, R72, R391, R395). -/
def endServed (key : Nat) (v : Served) (status : Nat) (s : State) : State :=
  match v.reply with
  | none => answerServed key v { status := status, partialEffect := exclusiveOps.contains (pkOpcode (bytesAt v.request 0 64)) } s
  | some r => { s with spn := { s.spn with served := Tbl.set s.spn.served key { v with reply := some { r with status := status } } } }

/-- CANCEL: the home stops at its next safe point and answers ST_ABORTED (R395). -/
def execCancelFlit (origin xid : Nat) (s : State) : Out :=
  let key := servedKey origin xid
  act s (powered s && (messageOf s tCancel origin xid).isSome && (messageOf s tReq origin xid).isNone) (fun s =>
    let s := takeMessage tCancel origin xid s
    match Tbl.get? s.spn.served key with
    | some v => if v.mirror then s else endServed key v stAborted s
    | none => s)

/-- HOME_BUDGET_EXPIRY: the budget of a served request runs out (R391). -/
def execHomeBudgetExpiry (origin xid : Nat) (s : State) : Out :=
  let key := servedKey origin xid
  match Tbl.get? s.spn.served key with
  | none => .next s
  | some v =>
    act s (powered s && !v.mirror && !(v.deadline == 0) && decide (v.deadline ≤ s.now)) (endServed key v stAbortedByTimeout)

/-! ### The origin's side -/

/-- The reply that a RESP carries; the origin sets REMOTE. A write that ends without its full effect has PARTIAL set. -/
def respReply (p bs : List Byte) : Reply :=
  let f := field bs 1 1
  let st := field bs 0 1
  { status := st, r0 := field bs 4 8, r1 := field bs 12 8, sealed := bit f 1, remote := true, truncated := bit f 3
    applied := bit f 4
    partialEffect := bit f 0 || (exclusiveOps.contains (pkOpcode p) && !(st == stOk) && decide (field bs 4 8 < pkLength p)) }

/-- TIMEOUTS and UNREACHABLE count the commands that end so. -/
def countSpanEnd (status : Nat) (s : State) : State :=
  { s with spn := { s.spn with
      timeouts := if status = stAbortedByTimeout then satInc s.spn.timeouts 0xFFFF else s.spn.timeouts
      unreachable := if status = stSpanUnreachable then satInc s.spn.unreachable 0xFFFF else s.spn.unreachable } }

/-- A forwarded command ends with a reply. -/
def finishRemote (k : Nat) (r : Reply) (s : State) : State := finish k { r with remote := true } (countSpanEnd r.status s)

/-- Set REMOTE in the reply of a command that its own stages have ended. -/
def markRemote (k : Nat) (s : State) : State := modTag k (fun t => { t with reply := { t.reply with remote := true } }) s

/-- The blocks of a DATA message of `n` blocks: a block whose CRC-32C differs fails with `st`. -/
def dataReader (bs : List Byte) (n st : Nat) : Reader := fun i =>
  let b := bytesAt bs (blockBytes * i) blockBytes
  if i < n ∧ crc32c b = field bs (blockBytes * n + 4 * i) 4 then (stOk, b) else (st, [])

/-- The status of blocks that a DATA message does not hold good. -/
def dataStatus (r : Reply) : Nat := if r.status = stOk then stInternal else r.status

/-- The next transaction of a forwarded INSTALL_CHUNK: the header gives the length of the directory; with both, the checks
of R84 are made here, and the record goes to the home (log entry 17). -/
def installNext (n k : Nat) (x : Xact) (q : List Byte) (p data : List Byte) (r : Reply) (s : State) : State :=
  let hv := field x.first 2 2
  let rd := dataReader data (pkLength q) (dataStatus r)
  let slot := pkHandle p % 256
  let cap := (Tbl.get? s.spn.aliases (pkVolume p)).elim 0 (fun a => a.capacity)
  if pkLength q = 1 then
    match openHeader s rd (pkVolume p) (pkLba p) slot with
    | .error st => markRemote k (endAsset k { status := st } s)
    | .ok h => sendReq k n (readPacket p (pkLba p) (1 + max 1 (hdDirBlocks h))) [] x.home hv x.deadline s
  else
    let rec_ := gather s n p 0 (pkLength p)
    match installChecks s rd p rec_ cap with
    | .error (st, r0) => markRemote k (endAsset k { status := st, r0 := r0 } s)
    | .ok (_, _, o) =>
      sendReq k n p rec_ x.home hv x.deadline (keepPackage (pkVolume p) (pkLba p) slot o.header o.directory none s)

/-- The end of a transaction: the origin runs its own stages over what the home sent (log entries 17, 69). -/
def respDone (n k : Nat) (x : Xact) (crcFail again : List Nat) (t : Tag) (data : List Byte) (r : Reply) (s : State) : State :=
  let p := t.packet
  let q := bytesAt x.first 0 64
  let op := pkOpcode p
  let hasData := !data.isEmpty
  if t.st == .stopping || (!hasData && !(r.status == stOk)) then finishRemote k r s
  else if op = opRead then
    finishRemote k r (bumpFresh (deliver n p 0 (bytesAt data 0 (pkLength p * blockBytes)) s))
  else if op = opReadAsset then
    markRemote k (assetDone (dataReader data (pkLength p) (dataStatus r)) n crcFail again p k s)
  else if op = opScan then
    markRemote k (scanDone (dataReader data (pkLength p) (dataStatus r)) n crcFail again p k s)
  else if op = opInstallChunk && pkOpcode q == opRead then installNext n k x q p data r s
  else finishRemote k r s

/-- Does the request of a transaction bring DATA back? -/
def wantsData (q : List Byte) (status : Nat) : Bool :=
  [opRead, opReadAsset, opScan].contains (pkOpcode q) && (status == stOk || status == stMediaError || status == stInternal)

/-- RESP: with the DATA before it, where the request reads. A RESP whose transaction is over is thrown away. -/
def execResp (home xid : Nat) (crcFail again : List Nat) (s : State) : Out :=
  match messageOf s tResp home xid with
  | none => .next s
  | some (ps, _) =>
    let away := fun s => takeMessage tData home xid (takeMessage tResp home xid s)
    match Tbl.get? s.spn.xacts (xid % 2 ^ 32) with
    | none => act s (powered s) away
    | some x =>
      match (if x.home = home then Tbl.get? s.tags x.tag else none) with
      | none => act s (powered s) away
      | some t =>
        let n := keyInst x.tag
        let r := respReply t.packet ps.flatten
        let data := messageOf s tData home xid
        act s (serving s && t.work == .forwarded && (t.st == .running || t.st == .stopping) && mayWrite s n
            && !abortComing s x.tag && (data.isSome || !wantsData (bytesAt x.first 0 64) r.status)) (fun s =>
          respDone n x.tag x crcFail again t ((data.map (fun d => d.1.flatten)).getD [])
            r { (away s) with spn := { (away s).spn with xacts := Tbl.erase s.spn.xacts (xid % 2 ^ 32) } })

/-- SPAN_RESEND_US of the instance of a tag. -/
def resendUs (s : State) (k : Nat) : Nat := (Tbl.get? s.insts (keyInst k)).elim 200 (fun i => i.feat.spanResend)

/-- SPAN_RESEND_EXPIRY: silence, and a port state change announced since the REQ was sent (R392). -/
def execSpanResendExpiry (xid : Nat) (s : State) : Out :=
  match Tbl.get? s.spn.xacts xid with
  | none => .next s
  | some x =>
    let forwarded := (Tbl.get? s.tags x.tag).elim false (fun t => t.work == .forwarded && t.st == .running)
    act s (powered s && forwarded && x.portChange && !x.resent && x.cancelAt.isNone
        && decide (max x.sentAt x.lastRx + resendUs s x.tag ≤ s.now)) (fun s =>
      let s := { s with spn := { s.spn with reqResent := satInc s.spn.reqResent 0xFFFF
                                            xacts := Tbl.set s.spn.xacts xid { x with resent := true } } }
      sendMessage tReq x.home xid (1000 * (x.deadline - s.now)) true x.first x.rest s)

/-- A forwarded command ends without a RESP: RESULT0 is 0, and a write sets PARTIAL (R64, R391). -/
def noResp (status : Nat) (p : List Byte) : Reply :=
  { status := status, remote := true, partialEffect := exclusiveOps.contains (pkOpcode p) }

/-- SPAN_DEADLINE: no RESP 1 ms after the origin's own deadline; a key request ends the same way (R135, R391)
(log entry 64). -/
def execSpanDeadline (inst : Fin 64) (tag : Fin 256) (s : State) : Out :=
  let k := tagKey inst tag
  match Tbl.get? s.tags k, xactOf s k with
  | some t, some (_, x) =>
    act s (serving s && t.st == .running && !abortComing s k
        && ((t.work == .forwarded && decide (1000 + x.deadline ≤ s.now)) || (t.work == .keyGrant && decide (x.deadline ≤ s.now))))
      (fun s =>
        if t.work = .forwarded then finishRemote k (noResp stAbortedByTimeout t.packet) (dropXact k (cancelXact k s))
        else licenceRefused k stAbortedByTimeout 0 (countSpanEnd stAbortedByTimeout (dropXact k s)))
  | _, _ => .next s

/-- ABORT_RESP_TIMEOUT: no RESP within 1 ms of the abort point (R395). -/
def execAbortRespTimeout (inst : Fin 64) (tag : Fin 256) (s : State) : Out :=
  let k := tagKey inst tag
  match Tbl.get? s.tags k, xactOf s k with
  | some t, some (_, x) =>
    act s (powered s && t.st == .stopping && t.work == .forwarded && (x.cancelAt.elim false (fun c => decide (1000 + c ≤ s.now))))
      (fun s => finishRemote k (noResp stAborted t.packet) (dropXact k s))
  | _, _ => .next s

/-! ### Group licences (R135, R401) -/

/-- The payload of a KEY_GRANT. -/
def grantPayload (status : Nat) (eph wrapped : List Byte) : List Byte :=
  leBytes 1 status ++ bytesAt eph 0 97 ++ bytesAt wrapped 0 48

/-- What is wrong with the certificate of a member (Table 4.4): DEVICE_CA did not issue it, or its subject is no member of
the group (log entry 60). -/
def certRefused (s : State) (cert : List Byte) (group : Nat) : Option Nat :=
  let ca := anchor s.otp aDeviceCa
  if !(anchorWritten s.otp aDeviceCa && decide (bytesAt cert 128 48 = ca)
      && Config.ecdsaOk (Config.anchorKey ca) (bytesAt cert 0 192) (bytesAt cert 192 96)) then some stAuthFail
  else if s.spn.members.any (fun m => m.2.deviceId == field cert 8 16 && m.2.group == group && !(group == 0)) then none
  else some stNoLicense

/-- KEY_REQ at the anchor: the checks of R135, then the title key wrapped to the member's DKA (log entry 60). -/
def keyRequest (origin xid : Nat) (bs : List Byte) (s : State) : State :=
  let l := bytesAt bs 0 400
  let cert := bytesAt bs 400 288
  let answer (st : Nat) (eph wrapped : List Byte) (s : State) : State :=
    let pl := grantPayload st eph wrapped
    sendMessage tKeyGrant origin xid noBudget false pl [] s
  match (licenceSigner s l <|> certRefused s cert (field l 28 4)) with
  | some st => answer st [] [] s
  | none =>
    match unwrapTitle s l (bytesAt l 48 97) (bytesAt l 152 32) (bytesAt l 184 16) with
      | none => answer stAuthFail [] [] s
      | some key =>
        if !drbgServes s then answer stInternal [] [] s
        else
          let e := drbgBits s
          let w := Config.gcmSeal (licenceWrapKey (Config.ephShared e (bytesAt cert 24 97)) l) (List.replicate 12 0)
            (bytesAt l 0 48) (leBytes 32 key.toNat)
          answer stOk (Config.ephPublic e) w (drbgUsed s)

/-- KEY_REQ. -/
def execKeyReq (origin xid : Nat) (s : State) : Out :=
  match messageOf s tKeyReq origin xid with
  | none => .next s
  | some (ps, _) => act s (serving s && pkServes s) (fun s => keyRequest origin xid ps.flatten (takeMessage tKeyReq origin xid s))

/-- The grant of a group licence: its status ends the LICENSE_LOAD, or the title key unwraps with its EPH_PUB. -/
def keyGranted (n k : Nat) (l g : List Byte) (s : State) : State :=
  let st := field g 0 1
  if st ≠ stOk then licenceRefused k st 0 (countSpanEnd st s)
  else match unwrapTitle s l (bytesAt g 1 97) (bytesAt g 98 32) (bytesAt g 130 16) with
    | none => licenceRefused k stAuthFail 0 s
    | some key => fillLicence n k l key s

/-- KEY_GRANT. One whose LICENSE_LOAD is over is thrown away. -/
def execKeyGrant (anchorId xid : Nat) (s : State) : Out :=
  match messageOf s tKeyGrant anchorId xid with
  | none => .next s
  | some (ps, _) =>
    let away := takeMessage tKeyGrant anchorId xid
    match Tbl.get? s.spn.xacts (xid % 2 ^ 32) with
    | none => act s (powered s) away
    | some x =>
      let k := x.tag
      if x.home = anchorId ∧ (Tbl.get? s.tags k).isSome then
        act s (serving s && pkServes s && atWork s k opLicenseLoad .keyGrant) (fun s =>
          let s := away { s with spn := { s.spn with xacts := Tbl.erase s.spn.xacts (xid % 2 ^ 32) } }
          keyGranted (keyInst k) k ((x.first ++ x.rest).take 400) ps.flatten s)
      else act s (powered s) away

end Sys2Proof.Machine
end

