-- ==== Sys2Proof/Machine/Mirror.lean ====
section
/-! DEFINITION. SPAN_JOIN and SPAN_LEAVE, alias bindings, and mirrored volumes (R385, R386, R389, R396 to R400). -/

namespace Sys2Proof.Machine

/-! ### Joining and leaving -/

/-- Has the part no Exlet ports, or does NO_SPAN of the POLICY settings forbid a span (Table 13.5)? -/
def spanForbidden (s : State) : Bool := s.glb.arrangement == 2 || bit (policyByte s.otp) 3

/-- SPAN_JOIN: the checks of R385 in order; the named ports start training. -/
def spanJoin (p : List Byte) (k : Nat) (s : State) : State :=
  if spanForbidden s || !(s.spn.spanId == 0) then finishWith k stNotPermitted 0 0 s
  else if field p 36 2 = 0 then badField k 36 s
  else if field p 38 1 = 0 ∨ 7 < field p 38 1 then badField k 38 s
  else
    let s := { s with spn := { s.spn with spanId := field p 36 2, group := field p 40 4, joining := some k, joinedAt := s.now } }
    let s := [0, 1, 2].foldl (fun s q => if bit (field p 38 1) q then startTraining q s else s) s
    modTag k (fun t => { t with work := .joining }) s

/-- SPAN_JOIN. -/
def execSpanJoin (inst : Fin 64) (tag : Fin 256) (s : State) : Out := workEnds opSpanJoin inst tag true s spanJoin

/-- Has every named port come to rest for 10 ms, or have 120 ms passed since the command started? -/
def joinSettled (s : State) : Bool :=
  decide (120000 + s.spn.joinedAt ≤ s.now) || s.spn.ports.all (fun p =>
    p.2.st == .disabled || ((p.2.st == .active || p.2.st == .down || p.2.st == .conflict) && decide (10000 + p.2.since ≤ s.now)))

/-- JOIN_SETTLE_EXPIRY: the device is joined; RESULT0 counts the other devices found. -/
def execJoinSettleExpiry (s : State) : Out :=
  match s.spn.joining with
  | none => .next s
  | some k =>
    act s (powered s && joinSettled s && atWork s k opSpanJoin .joining) (fun s =>
      let s := announce false { s with spn := { s.spn with joining := none, joined := true } }
      finishWith k stOk s.spn.members.length 0 s)

/-- Does a volume stand for another device's, or hold a mirror role (R386)? -/
def spanRoles (s : State) : Bool :=
  s.spn.aliases.any (fun a => a.2.bind) || s.flc.vols.any (fun v => v.2.mirror.isSome)

/-- The end of a SPAN_LEAVE: LEAVING is announced, the ports are disabled, the group licences dropped. -/
def leaveSpan (k : Nat) (s : State) : State :=
  let s := announce true s
  let s := [0, 1, 2].foldl (fun s p => if (eport s p).st == .disabled then s
    else setPort p .disabled (modEPort p (fun q => { q with retry := [], waiting := [] }) s)) s
  let groupSlots := (s.sec.licences.filter (fun l => l.2.grouped && !(l.2.st == .dropping))).map Prod.fst
  let s := groupSlots.foldl (fun s l => dropLicence l none s) s
  finishWith k stOk 0 0 { s with spn := { s.spn with spanId := 0, group := 0, joined := false, leaving := none, members := [] } }

/-- SPAN_LEAVE: refused, or begun, or (once no transaction is left) ended. -/
def spanLeave (k : Nat) (s : State) : State :=
  if s.spn.leaving = some k then leaveSpan k s
  else if !s.spn.joined || spanRoles s then finishWith k stNotPermitted 0 0 s
  else { s with spn := { s.spn with leaving := some k } }

/-- SPAN_LEAVE. -/
def execSpanLeave (inst : Fin 64) (tag : Fin 256) (s : State) : Out :=
  workEnds opSpanLeave inst tag (!(s.spn.leaving == some (tagKey inst tag)) || (s.spn.xacts.isEmpty && s.spn.served.isEmpty)) s
    (fun _ k s => spanLeave k s)

/-! ### Aliases (R389) -/

/-- SPN_VOL_REMOTE is written: the alias entry of the selected volume, which a local volume does not have. -/
def aliasOf (s : State) (homeVol homeId : Nat) : Alias :=
  let a : Alias := Tbl.getD s.spn.aliases s.spn.volSel
    { homeId := 0, homeVol := 0, bind := false, bound := false, probeErr := 0, probeXid := 0, capacity := 0, compress := false
      access := 0 }
  { a with homeId := homeId, homeVol := homeVol, bound := false }

/-- BIND: a write of SPN_VOL_REMOTE with BIND 1 sends a PROBE to the home. -/
def execBind (fn : Fin 2) (homeVol : Fin 256) (homeId : Fin 65536) (s : State) : Out :=
  act s (bar0Answers s fn 0x16304 && (vol? s s.spn.volSel).isNone) (fun s =>
    let x := s.spn.nextXid
    let a := { aliasOf s homeVol homeId with bind := true, probeErr := 0, probeXid := x }
    sendMessage tProbe homeId x noBudget false (leBytes 1 homeVol) []
      { s with spn := { s.spn with nextXid := (x + 1) % 2 ^ 32, aliases := Tbl.set s.spn.aliases s.spn.volSel a } })

/-- UNBIND: a write with BIND 0. Later commands find no volume; earlier ones run to their replies. -/
def execUnbind (fn : Fin 2) (homeVol : Fin 256) (homeId : Fin 65536) (s : State) : Out :=
  act s (bar0Answers s fn 0x16304 && (vol? s s.spn.volSel).isNone) (fun s =>
    let a := { aliasOf s homeVol homeId with bind := false }
    discardVolumePackages s.spn.volSel { s with spn := { s.spn with aliases := Tbl.set s.spn.aliases s.spn.volSel a } })

/-- PROBE at the home. -/
def execProbe (origin xid : Nat) (s : State) : Out :=
  match messageOf s tProbe origin xid with
  | none => .next s
  | some (ps, _) =>
    act s (serving s) (fun s =>
      let ok := (vol? s (field ps.flatten 0 1)).bind (fun u => if volServes s (field ps.flatten 0 1) u && u.exported && sameGroup s origin then some u else none)
      let pl := match ok with
        | some u => leBytes 1 stOk ++ leBytes 1 (b2n u.compress) ++ leBytes 2 0 ++ leBytes 8 u.capacity
        | none => leBytes 1 stNotPermitted ++ leBytes 3 0 ++ leBytes 8 0
      sendMessage tProbeResp origin xid noBudget false pl [] (takeMessage tProbe origin xid s))

/-- PROBE_RESP: the alias is bound, or the status is kept in PROBE_ERR. -/
def execProbeResp (home xid : Nat) (s : State) : Out :=
  match messageOf s tProbeResp home xid with
  | none => .next s
  | some (ps, _) =>
    act s (powered s) (fun s =>
      let pl := ps.flatten
      let st := field pl 0 1
      { takeMessage tProbeResp home xid s with spn := { (takeMessage tProbeResp home xid s).spn with
        aliases := Tbl.mapVals s.spn.aliases (fun _ a =>
          if !(a.bind && !a.bound && a.probeXid == xid % 2 ^ 32) then a
          else if st = stOk then { a with bound := true, probeErr := 0, capacity := field pl 4 8, compress := bit (field pl 1 1) 0 }
          else { a with probeErr := st % 128 }) } })

/-! ### Messages about roles: a MIRROR_WRITE with the packet of SPAN_MIRROR_SET, whose byte 37 says what it tells (log
entry 25) -/

abbrev ctlTake : Nat := 0
abbrev ctlPromote : Nat := 1
abbrev ctlInSet : Nat := 2
abbrev ctlResync : Nat := 3
abbrev ctlRelease : Nat := 4

/-- The packet of such a message: LBA holds CAPACITY (log entry 25). -/
def ctlPacket (v kind cap copies id1 id2 : Nat) : List Byte :=
  let p := overlay (overlay (leBytes 64 opSpanMirrorSet) 2 (leBytes 2 v)) 8 (leBytes 8 cap)
  overlay p 36 (leBytes 1 copies ++ leBytes 1 kind ++ leBytes 2 id1 ++ leBytes 2 id2)

/-- Send one to copy `c`, for command `k` (log entry 25). -/
def ctlSend (k v kind cap copies id1 id2 : Nat) (s : State) (c : Nat) : State :=
  mirrorOne k v 0 (ctlPacket v kind cap copies id1 id2) [] s c

/-! ### SPAN_MIRROR_SET (R396) -/

/-- The copy devices that a packet names. -/
def copyIds (p : List Byte) : List Nat :=
  (if 2 ≤ field p 36 1 then [field p 38 2] else []) ++ (if 3 ≤ field p 36 1 then [field p 40 2] else [])

/-- A posting on a copy whose primary is unreachable and among the copies named: the former primary. -/
def promotes (s : State) (u : Vol) (p : List Byte) : Option Nat :=
  match u.mirror with
  | some m => if !m.primary && !reachable s m.primaryId && (copyIds p).contains m.primaryId then some m.primaryId else none
  | none => none

/-- Check 3: the Span IDs fit COPIES; the offset of the first that does not. -/
def mirrorIdsWrong (s : State) (p : List Byte) : Option Nat :=
  let c := field p 36 1
  let a := field p 38 2
  let b := field p 40 2
  let bad (x : Nat) : Bool := x == 0 || x == s.spn.spanId
  if c = 1 then (if a ≠ 0 then some 38 else if b ≠ 0 then some 40 else none)
  else if bad a then some 38
  else if c = 2 then (if b ≠ 0 then some 40 else none)
  else if bad b || a == b then some 40 else none

/-- Checks 1 to 4 of R396: the reply of the first that fails, or the former primary of a promotion. -/
def mirrorRefused (s : State) (p : List Byte) : Except Reply (Vol × Option Nat) :=
  match vol? s (pkVolume p) with
  | none => .error { status := stNotPermitted }
  | some u =>
    let old := promotes s u p
    let copyRole := (u.mirror.elim false (fun m => !m.primary))
    if !s.spn.joined || (copyRole && old.isNone) then .error { status := stNotPermitted }
    else if field p 36 1 = 0 ∨ 3 < field p 36 1 ∨ (old.isSome = true ∧ field p 36 1 < 2) then
      .error { status := stBadField, r0 := 36 }
    else match mirrorIdsWrong s p with
      | some o => .error { status := stBadField, r0 := o }
      | none =>
        if (copyIds p).all (fun c => reachable s c || old == some c) then .ok (u, old)
        else .error { status := stSpanUnreachable }

/-- The state of copy `c` in a volume's present set. -/
def copyState (u : Vol) (c : Nat) : Option CopySt :=
  match u.mirror with
  | some m =>
    if !m.primary then none
    else if 2 ≤ m.copies ∧ m.id1 = c then some m.st1 else if 3 ≤ m.copies ∧ m.id2 = c then some m.st2 else none
  | none => none

/-- The new set: a copy that stays keeps its state, a new one starts RESYNC, the former primary of a promotion starts OUT. -/
def newMirror (u : Vol) (old : Option Nat) (p : List Byte) : Option Mirror :=
  if field p 36 1 = 1 then none
  else
    let st (c : Nat) : CopySt := if old = some c then .out else (copyState u c).getD .resync
    some { primary := true, copies := field p 36 1, id1 := field p 38 2, id2 := field p 40 2, primaryId := 0
           st1 := st (field p 38 2), st2 := st (field p 40 2), sent1 := false, sent2 := false }

/-- Every new copy has answered: the set is journaled, and copies left out are released; or a copy refused. -/
def mirrorSetEnds (k : Nat) (s : State) : State :=
  match Tbl.get? s.tags k with
  | none => s
  | some t =>
    let p := t.packet
    let v := pkVolume p
    match vol? s v with
    | none => finishWith k stNoVolume 0 0 s
    | some u =>
      let old := promotes s u p
      let fresh := (copyIds p).filter (fun c => (copyState u c).isNone && !(old == some c))
      if t.reply.status ≠ stOk then
        finish k t.reply (fresh.foldl (ctlSend noTag v ctlRelease u.capacity 0 0 0) s)
      else
        let gone := [u.mirror.elim 0 (fun m => m.id1), u.mirror.elim 0 (fun m => m.id2)].filter (fun c =>
          (copyState u c).isSome && !(copyIds p).contains c)
        let s := gone.foldl (ctlSend noTag v ctlRelease u.capacity 0 0 0) s
        let s := modVol v (fun u => { u with mirror := newMirror u old p }) s
        let g := s.flc.nextGroup
        finishDurable k [g] {} (appendGroup false [.mirror v] s)

/-- SPAN_MIRROR_SET: checks 1 to 4, then every new copy is asked to take the role (check 5). -/
def spanMirrorSet (p : List Byte) (k : Nat) (s : State) : State :=
  match mirrorRefused s p with
  | .error r => finish k r s
  | .ok (u, old) =>
    let fresh := (copyIds p).filter (fun c => (copyState u c).isNone && !(old == some c))
    let s := modTag k (fun t => { t with work := .mirror }) s
    let s := fresh.foldl (ctlSend k (pkVolume p) (if old.isSome then ctlPromote else ctlTake) u.capacity (field p 36 1)
      (field p 38 2) (field p 40 2)) s
    if fresh.isEmpty then mirrorSetEnds k s else s

/-- SPAN_MIRROR_SET. -/
def execSpanMirrorSet (inst : Fin 64) (tag : Fin 256) (s : State) : Out := workEnds opSpanMirrorSet inst tag true s spanMirrorSet

/-! ### A copy's side (R398, R399) -/

/-- The role of a copy under `origin` (log entry 25). -/
def copyRole (origin : Nat) (p : List Byte) : Mirror :=
  { primary := false, copies := field p 36 1, id1 := field p 38 2, id2 := field p 40 2, primaryId := origin, st1 := .resync
    st2 := .out, sent1 := false, sent2 := false }

/-- Does the volume hold the copy role under `origin`? -/
def copiesFrom (u : Vol) (origin : Nat) : Bool := u.mirror.elim false (fun m => !m.primary && m.primaryId == origin)

/-- A message about the role: the status of its answer, and the volume's new role (log entry 25). -/
def takeCtl (s : State) (origin : Nat) (p : List Byte) : Nat × Option (Option Mirror) :=
  match vol? s (pkVolume p) with
  | none => (stNoVolume, none)
  | some u =>
    let kind := field p 37 1
    let own := copiesFrom u origin
    if kind ≤ ctlPromote then
      if u.capacity ≠ pkLba p then (stBadRange, none)
      else
        let former := u.mirror.elim false (fun m => !m.primary && (copyIds p).contains m.primaryId)
        if (kind = ctlTake ∧ (u.mirror.isNone ∨ own = true)) ∨ (kind = ctlPromote ∧ (former ∨ own = true)) then
          (stOk, some (some (copyRole origin p)))
        else (stNoVolume, none)
    else if !own then (stOk, none)
    else if kind = ctlRelease then (stOk, some none)
    else (stOk, some (u.mirror.map (fun m => { m with st1 := if kind = ctlInSet then .inSet else .resync })))

/-- A mirrored write of the primary is applied in its atomic-unit groups: the status, and the groups. -/
def applyMirror (origin : Nat) (p body : List Byte) (s : State) : Nat × State × List Nat :=
  let v := pkVolume p
  match vol? s v with
  | none => (stNoVolume, s, [])
  | some u =>
    if !copiesFrom u origin || keyLost s v then (stNotPermitted, s, [])
    else
      let lba := pkLba p
      let n := pkLength p
      let s := discardPackages v lba n s
      let w := if pkOpcode p = opTrim then trimBlocks false v lba n s
        else writeBlocks false (pkOpcode p == opWrite && u.compress && !pkNoCompress p && s.bsh.zstdEn) 1 v lba n
          (bytesAt body 0 (blockBytes * n)) s
      (stOk, w.1, w.2)

/-- A MIRROR_WRITE in its turn: it is answered once its groups are durable (log entry 59). -/
def takeMirror (origin xid : Nat) (first body : List Byte) (s : State) : State :=
  let p := bytesAt first 0 64
  let s := { s with spn := { s.spn with mirrorRx := Tbl.set s.spn.mirrorRx origin ((field first 64 4 + 1) % 2 ^ 32) } }
  let (st, s, ids) :=
    if pkOpcode p = opSpanMirrorSet then
      let (st, role) := takeCtl s origin p
      match role with
      | none => (st, s, [])
      | some m =>
        let g := s.flc.nextGroup
        (st, appendGroup false [.mirror (pkVolume p)] (modVol (pkVolume p) (fun u => { u with mirror := m }) s), [g])
    else applyMirror origin p body s
  let v : Served := { mirror := true, pairSeq := field first 64 4, request := first, body := [], reply := some { status := st }
                      groups := ids, deadline := 0 }
  settleServed { s with spn := { s.spn with served := Tbl.set s.spn.served (servedKey origin xid) v } }

/-- Does this device hold the primary role of the volume? -/
def holdsPrimary (s : State) (v : Nat) : Bool := (vol? s v).elim false (fun u => u.mirror.elim false (fun m => m.primary))

/-- MIRROR_WRITE: applied in PAIR_SEQ order; the first from a primary sets the order. -/
def execMirrorWrite (origin xid : Nat) (s : State) : Out :=
  match messageOf s tMirrorWrite origin xid with
  | none => .next s
  | some (ps, _) =>
    let first := ps.headD []
    let q := field first 64 4
    act s (serving s && !holdsPrimary s (pkVolume first) && Tbl.getD s.spn.mirrorRx origin q == q) (fun s =>
      takeMirror origin xid first (ps.drop 1).flatten (takeMessage tMirrorWrite origin xid s))

/-- PRIMARY_SUPERSEDED (R400): another device writes a volume whose primary role this one holds: it takes the copy role in
the new set. -/
def execPrimarySuperseded (origin xid : Nat) (s : State) : Out :=
  match messageOf s tMirrorWrite origin xid with
  | none => .next s
  | some (ps, _) =>
    let p := ps.headD []
    let v := pkVolume p
    act s (serving s && holdsPrimary s v) (fun s =>
      let s := modVol v (fun u => { u with mirror := u.mirror.map (fun m =>
        { m with primary := false, primaryId := origin, st1 := .resync, st2 := .out, sent1 := false, sent2 := false }) }) s
      let s := { s with spn := { s.spn with mwaits := s.spn.mwaits.filter (fun w => !(w.vol == v)) } }
      spanChange 0xFF 8 s.spn.spanId v (appendGroup false [.mirror v] s))

/-! ### The primary's side (R397, R398) -/

/-- A copy has answered: a write that waited for it goes on, a SPAN_MIRROR_SET notes a refusal. -/
def acked (copy xid status : Nat) (s : State) : State :=
  match s.spn.mwaits.find? (fun w => w.xid == xid && w.waiting.contains copy) with
  | none => s
  | some w =>
    let setsRole := (Tbl.get? s.tags w.tag).elim false (fun t => pkOpcode t.packet == opSpanMirrorSet && t.work == .mirror)
    if status ≠ stOk ∧ setsRole = false then s
    else
      let s := { s with spn := { s.spn with mwaits := s.spn.mwaits.filter (fun x => !(x.xid == xid && x.waiting.contains copy)) } }
      if setsRole then
        let s := if status = stOk then s else modTag w.tag (fun t => { t with reply := { t.reply with status := status } }) s
        if s.spn.mwaits.any (fun x => x.tag == w.tag) then s else mirrorSetEnds w.tag s
      else settleServed (settleDurable w.tag s)

/-- MIRROR_ACK. -/
def execMirrorAck (copy xid : Nat) (s : State) : Out :=
  match messageOf s tMirrorAck copy xid with
  | none => .next s
  | some (ps, _) =>
    act s (powered s) (fun s => acked copy (xid % 2 ^ 32) (field ps.flatten 0 1) (takeMessage tMirrorAck copy xid s))

/-- MIRROR_GRACE_EXPIRY: no acknowledgement within MIRROR_GRACE_US: the copy goes OUT (Table 11.5), or a device that was
asked to take the role counts as unreachable. -/
def execMirrorGraceExpiry (copy xid : Nat) (s : State) : Out :=
  match s.spn.mwaits.find? (fun w => w.xid == xid && w.waiting.contains copy) with
  | none => .next s
  | some w =>
    act s (powered s && decide (w.sentAt + s.spn.graceUs ≤ s.now)) (fun s =>
      if (vol? s w.vol).elim false (fun u => (liveCopies u).contains copy) then copyOut w.vol copy s
      else if (Tbl.get? s.tags w.tag).isSome then acked copy xid stSpanUnreachable s
      else { s with spn := { s.spn with mwaits := s.spn.mwaits.filter (fun x => !(x.xid == xid && x.waiting.contains copy)) } })

/-- The runs of allotments below `n` that a map leaves unmapped, as (first block, blocks), cut to what LENGTH holds. -/
def unmappedRuns (m : Tbl MapEnt) (n : Nat) : List (Nat × Nat) :=
  let r := m.foldl (fun (a : List (Nat × Nat) × Nat) e =>
    (if a.2 < e.1 then a.1 ++ [(a.2, e.1 - a.2)] else a.1, e.1 + 1)) ([], 0)
  let gaps := if r.2 < n then r.1 ++ [(r.2, n - r.2)] else r.1
  gaps.flatMap (fun g => (List.range ((2 ^ 28 - 1 + g.2) / 2 ^ 28)).map (fun i =>
    ((g.1 + 2 ^ 28 * i) * 8, min (2 ^ 28) (g.2 - 2 ^ 28 * i) * 8)))

/-- A pass sends one mapped allotment to copy `c` as a write (log entry 62). -/
def sendMapped (v : Nat) (u : Vol) (c : Nat) (s : State) (e : Nat × MapEnt) : State :=
  mirrorOne noTag v 0 (mirrorPacket (leBytes 64 opWrite) v (e.1 * 8) 8) (blocksOf u (e.1 * 8) 8) s c

/-- A pass sends one unmapped run to copy `c` as a trim. -/
def sendUnmapped (v c : Nat) (s : State) (r : Nat × Nat) : State :=
  mirrorOne noTag v 0 (mirrorPacket (leBytes 64 opTrim) v r.1 r.2) [] s c

/-- The messages of a pass over copy `c`: every allotment that the map holds, and a TRIM of every run that it does not
(log entry 62). -/
def sendPass (v : Nat) (u : Vol) (c : Nat) (s : State) : State :=
  let s := u.map.foldl (sendMapped v u c) (ctlSend noTag v ctlResync u.capacity 0 0 0 s c)
  (unmappedRuns u.map (u.capacity / 8)).foldl (sendUnmapped v c) s

/-- RESYNC_PASS_END for copy `j` of a volume: the pass is sent while no write holds a block of the volume; once the copy has
acknowledged all of it, the copy is IN_SET, the set journaled and EV_SPAN_CHANGE 9 raised. -/
def execResyncPassEnd (v : Nat) (second : Bool) (s : State) : Out :=
  match vol? s v with
  | none => .next s
  | some u =>
    match u.mirror with
    | none => .next s
    | some m =>
      let c := if second then m.id2 else m.id1
      let resync := m.primary && decide ((if second then 3 else 2) ≤ m.copies) && (if second then m.st2 else m.st1) == .resync
      let sent := if second then m.sent2 else m.sent1
      let mark (f : Mirror → Mirror) (s : State) : State := modVol v (fun u => { u with mirror := u.mirror.map f }) s
      if sent then
        act s (powered s && resync && !(s.spn.mwaits.any (fun w => w.vol == v && w.waiting.contains c))) (fun s =>
          let s := mark (fun m => if second then { m with st2 := .inSet, sent2 := false } else { m with st1 := .inSet, sent1 := false }) s
          let s := ctlSend noTag v ctlInSet u.capacity 0 0 0 s c
          spanChange 0xFF 9 c v (appendGroup false [.mirror v] s))
      else
        act s (powered s && resync && !(s.locks.any (fun l => l.vol == v && l.excl && l.held))) (fun s =>
          sendPass v u c (mark (fun m => if second then { m with sent2 := true } else { m with sent1 := true }) s))

end Sys2Proof.Machine
end

