-- ==== Sys2Proof/Machine/MemOps.lean ====
section
/-! DEFINITION. Check codes, stores to Hogshead, Firkin and DRAM, error injection, granule remaps, DRAM reads and repairs,
and the cache's lookups (R309 to R337, R341). -/

namespace Sys2Proof.Machine

/-! ### The extended Hamming codes (R310 to R312), by the code positions that are flipped -/

/-- Flip a code position: twice is none. -/
def toggle (ps : List Nat) (p : Nat) : List Nat := if ps.contains p then ps.filter (fun q => !(q == p)) else ps ++ [p]

/-- Flip some code positions. -/
def toggleAll (ps qs : List Nat) : List Nat := qs.foldl toggle ps

/-- The syndrome S: a flipped data or check bit at position p contributes p, and P0 contributes nothing. -/
def syndrome (ps : List Nat) : Nat := ps.foldl Nat.xor 0

/-- What a decoder decides. -/
inductive Verdict where
  | clean | corrected | uncorrectable | poison
deriving DecidableEq, Repr

/-- The decision of R312 in a code whose highest position is `top`. -/
def verdict (top : Nat) (ps : List Nat) : Verdict :=
  let sy := syndrome ps
  if ps.length % 2 = 0 then
    if sy = 0 then .clean else if top = 522 ∧ sy = 0x3FF then .poison else .uncorrectable
  else if sy ≤ top then .corrected else .uncorrectable

/-- Does the reader get the data: no error, or a corrected one? -/
def decodes (v : Verdict) : Bool := v == .clean || v == .corrected

/-- The data bit at a code position, if it is not that of a check bit. -/
def dataBitAt (p : Nat) : Option Nat :=
  if p = 0 then none else if 2 ^ Nat.log2 p = p then none else some (p - 2 - Nat.log2 p)

/-- Flip bit `i` of some bytes, bit (i mod 8) of byte i / 8. -/
def flipBit (bs : List Byte) (i : Nat) : List Byte :=
  bs.zipIdx.map (fun q => if q.2 = i / 8 then q.1 ^^^ BitVec.ofNat 8 (2 ^ (i % 8)) else q.1)

/-- The data as read, with its flipped bits. -/
def dataRead (bs : List Byte) (ps : List Nat) : List Byte := (ps.filterMap dataBitAt).foldl flipBit bs

/-- The data that a decoder gives when it corrects position S. -/
def dataCorrected (bs : List Byte) (ps : List Nat) : List Byte := dataRead bs (toggle ps (syndrome ps))

/-- The poison pattern: check bits c1 to c512 inverted. -/
def poisonPattern : List Nat := [1, 2, 4, 8, 16, 32, 64, 128, 256, 512]

/-! ### Injection (R341) -/

/-- The positions an armed injection flips (log entry 77). -/
def injected (m : Mem) : List Nat :=
  if m.injMode = 1 then [m.injA] else if m.injMode = 2 then toggle [m.injA] m.injB
  else if m.injMode = 3 then poisonPattern else []

/-- Is an injection armed for a target and address? -/
def injectionHits (m : Mem) (target addr engine : Nat) : Bool :=
  m.injArm && m.injTarget == target && m.injAddr == addr && (!(target == 1) || m.injEngine == engine)

/-- The device clears ARM. -/
def disarm (s : State) : State := { s with mem := { s.mem with injArm := false } }

/-! ### Hogshead and Firkin (R314, R318) -/

/-- Set the flipped positions of a byte. -/
def setErr (t : Tbl (List Nat)) (a : Nat) (ps : List Nat) : Tbl (List Nat) := if ps.isEmpty then Tbl.erase t a else Tbl.set t a ps

/-- One copy of a byte of Hogshead is written with fresh check bits. -/
def hogStoreOne (a : Nat) (b : Byte) (s : State) : State :=
  let hit := injectionHits s.mem 0 a 0
  let s := { s with mem := { s.mem with hog := Cells.write s.mem.hog a b
                                        hogErr := setErr s.mem.hogErr a (if hit then injected s.mem else []) } }
  if hit then disarm s else s

/-- Is an address in the twin region? -/
def inTwin (m : Mem) (a : Nat) : Bool := decide (m.twinBase ≤ a ∧ a < m.twinBase + m.twinSize)

/-- A byte of Hogshead is written; in the twin region both copies are. -/
def hogStore (a : Nat) (b : Byte) (s : State) : State :=
  if 2 ^ 25 ≤ a then s
  else
    let s := hogStoreOne a b s
    if inTwin s.mem a then hogStoreOne (a + s.mem.twinSize) b s else s

/-- A byte of an engine's Firkin is written. -/
def firkinStore (e off : Nat) (b : Byte) (s : State) : State :=
  if 2 ^ 19 ≤ off then s
  else
    let hit := injectionHits s.mem 1 off e
    let a := 2 ^ 19 * e + off
    let s := { s with mem := { s.mem with firkin := Cells.write s.mem.firkin a b
                                          firkinErr := setErr s.mem.firkinErr a (if hit then injected s.mem else []) } }
    if hit then disarm s else s

/-- Note the last error: MEM_LAST_ERR_ADDR and MEM_LAST_ERR_INFO (log entry 78). -/
def noteError (addr source unit kind : Nat) (s : State) : State :=
  { s with mem := { s.mem with lastAddr := addr % 2 ^ 32, lastSource := source, lastUnit := unit, lastKind := kind } }

/-- A correctable or uncorrectable SRAM error was found. -/
def countSram (addr source unit : Nat) (bad : Bool) (s : State) : State :=
  let s := noteError addr source unit (if bad then 2 else 1) s
  if bad then { s with mem := { s.mem with uncorrectable := satInc s.mem.uncorrectable 0xFFFF } }
  else { s with mem := { s.mem with corrected := satInc s.mem.corrected 0xFFFF } }

/-! ### Remaps (R319, R321, R322) -/

/-- The bank that serves the addresses of bank `b`: the spare that replaced it, or itself. -/
def servingBank (m : Mem) (b : Nat) : Nat := if m.bank32 = b then 32 else if m.bank33 = b then 33 else b

/-- A repair made in service waits for its record (R322). -/
def noteRepair (kind unit addr : Nat) (s : State) : State :=
  { s with mem := { s.mem with repairs := s.mem.repairs ++ [{ kind := kind, unit := unit, address := addr, seq := s.glb.seq }] } }

/-- Remap entries that a bank holds. -/
def bankRemaps (m : Mem) (u : Nat) : Nat := Tbl.countIf m.remaps (fun _ r => r.unit == u)

/-- Remap the granule of a Hogshead address, unless it is remapped or the store or the bank's share of it is full. -/
def remapGranule (a : Nat) (s : State) : State :=
  let u := servingBank s.mem (a / 256 % 32)
  let g := a / 8192
  if s.mem.remaps.any (fun r => r.2.unit == u && r.2.line == g) || decide (64 ≤ bankRemaps s.mem u)
    || s.mem.remapFailed then s
  else match Tbl.lowestFree s.mem.remaps 0 512 with
    | none => s
    | some k => noteRepair 1 u g { s with mem := { s.mem with
        remaps := Tbl.set s.mem.remaps k { unit := u, line := g, factory := false } } }

/-- Spare lines of an engine's Firkin in use. -/
def firkinLines (m : Mem) (e : Nat) : Nat := Tbl.countIf m.firkinRemaps (fun k _ => k / 32 == e)

/-- Is the line remapped? -/
def lineRemapped (m : Mem) (e line : Nat) : Bool := m.firkinRemaps.any (fun r => r.1 / 32 == e && r.2.line == line)

/-- Remap a line of an engine's Firkin to a free spare line, where there is one. -/
def remapLine (e line : Nat) (s : State) : State :=
  if lineRemapped s.mem e line then s
  else match Tbl.lowestFree s.mem.firkinRemaps (32 * e) 32 with
    | none => s
    | some k => noteRepair 3 e line { s with mem := { s.mem with
        firkinRemaps := Tbl.set s.mem.firkinRemaps k { unit := e, line := line, factory := false } } }

/-! ### DRAM sides (R315 to R317, R324 to R328) -/

/-- Side B or side A. -/
def sideOf (s : State) (b : Bool) : Side := if b then s.drc.b else s.drc.a

/-- Change a side. -/
def modSide (b : Bool) (f : Side → Side) (s : State) : State :=
  if b then { s with drc := { s.drc with b := f s.drc.b } } else { s with drc := { s.drc with a := f s.drc.a } }

/-- Does a side serve accesses? -/
def sideServes (s : State) (b : Bool) : Bool := (sideOf s b).st == .inService

/-- Where a logical address lies: the side that a read turns to and the side offset, and whether it is mirrored (R326, R327).
-/
def dramPlace (s : State) (a : Nat) : Bool × Nat × Bool :=
  let m := 2 ^ 20 * s.drc.mirrorMib
  if a < m then
    let b := decide (a / 2048 % 2 = 1)
    (if sideServes s b then b else !b, a, true)
  else
    let k := (a - m) / 2048
    (decide (k % 2 = 1), m + k / 2 * 2048 + (a - m) % 2048, false)

/-- Errors of the granule at a side offset. -/
def sideErrs (s : State) (b : Bool) (off : Nat) : List Nat := Tbl.getD (sideOf s b).errs (off / 64) []

/-- The granule's data as stored. -/
def sideData (s : State) (b : Bool) (off : Nat) : List Byte := Cells.readN (sideOf s b).cells (off / 64 * 64) 64

/-- A whole granule is stored on a side with these flips in its code word; a side that is shed logs its bytes instead (R426),
and a failed one takes nothing. -/
def sideStore (b : Bool) (off : Nat) (bs : List Byte) (ps : List Nat) (s : State) : State :=
  let g := off / 64
  match (sideOf s b).st with
  | .inService =>
    let hit := injectionHits s.mem (if b then 3 else 2) g 0
    let ps := if hit then injected s.mem else ps
    let s := modSide b (fun x => { x with cells := Cells.writeN x.cells (g * 64) bs, errs := setErr x.errs g ps }) s
    if hit then disarm s else s
  | .shed => modSide b (fun x => { x with logged := x.logged ++ bs.zipIdx.map (fun q => (g * 64 + q.2, q.1)) }) s
  | _ => s

/-- A correctable granule was met. -/
def countCorrected (b : Bool) (off : Nat) (s : State) : State :=
  modSide b (fun x => { x with corrected := satInc x.corrected 0xFFFF }) (noteError (off / 64) (4 + b2n b) 0 1 s)

/-- An uncorrectable or POISON read. -/
def countBad (b : Bool) (off : Nat) (v : Verdict) (s : State) : State :=
  modSide b (fun x => { x with
      uncorrectable := satInc x.uncorrectable 0xFF
      recent := (x.recent.filter (fun r => !(r.1 == off / 64) && decide (s.now ≤ 10000 + r.2))) ++ [(off / 64, s.now)] })
    (noteError (off / 64) (4 + b2n b) 0 (if v = .poison then 3 else 2) s)

/-- A granule is written with the poison pattern. -/
def storePoison (b : Bool) (off : Nat) (bs : List Byte) (s : State) : State :=
  modSide b (fun x => { x with poisonWritten := satInc x.poisonWritten 0xFF })
    (noteError (off / 64) (4 + b2n b) 0 4 (sideStore b off bs poisonPattern s))

/-- The data a decoder gives. -/
def decoded (s : State) (b : Bool) (off : Nat) : List Byte :=
  let ps := sideErrs s b off
  if verdict 522 ps = .clean then sideData s b off else dataCorrected (sideData s b off) ps

/-- A granule was rewritten from the other side. -/
def countRepair (s : State) : State := { s with drc := { s.drc with mirrorRepairs := satInc s.drc.mirrorRepairs 0xFFFF } }

/-- Read a granule: does the reader get data? A bad one in the mirrored region is rewritten from the other side. -/
def dramReadGranule (a : Nat) (s : State) : Bool × State :=
  let (b, off, mirrored) := dramPlace s a
  match verdict 522 (sideErrs s b off) with
  | .clean => (sideServes s b, s)
  | .corrected => (sideServes s b, countCorrected b off s)
  | v =>
    let s := countBad b off v s
    if mirrored && sideServes s (!b) then
      match verdict 522 (sideErrs s (!b) off) with
      | .clean => (true, countRepair (sideStore b off (decoded s (!b) off) [] s))
      | .corrected => (true, countRepair (sideStore b off (decoded s (!b) off) [] (countCorrected (!b) off s)))
      | w => (false, countBad (!b) off w s)
    else (false, s)

/-- Lay the enabled bytes of a write over a granule. -/
def mergeBytes (bs : List Byte) (new : List (Nat × Byte)) : List Byte := new.foldl (fun a q => overlay a q.1 [q.2]) bs

/-- A narrow write that finds an uncorrectable error in a single copy: merged, with the poison pattern (log entry 73). -/
def mergePoison (b : Bool) (off : Nat) (new : List (Nat × Byte)) (s : State) : State :=
  storePoison b off (mergeBytes (dataRead (sideData s b off) (sideErrs s b off)) new) s

/-- A narrow write to one granule (Table 9.2) (log entry 73). -/
def narrowWrite (a : Nat) (new : List (Nat × Byte)) (s : State) : State :=
  let (b, off, mirrored) := dramPlace s a
  if !sideServes s b then s else
  let s := { s with drc := { s.drc with rmw := s.drc.rmw + 1 } }
  let both (bs : List Byte) (s : State) : State :=
    let s := sideStore b off bs [] s
    if mirrored then sideStore (!b) off bs [] s else s
  match verdict 522 (sideErrs s b off) with
  | .clean => both (mergeBytes (decoded s b off) new) s
  | .corrected => both (mergeBytes (decoded s b off) new) (countCorrected b off s)
  | _ =>
    if !mirrored then mergePoison b off new s
    else if sideServes s (!b) && decodes (verdict 522 (sideErrs s (!b) off)) then
      countRepair (both (mergeBytes (decoded s (!b) off) new) s)
    else mergePoison (!b) off new (mergePoison b off new s)

/-- A write of a whole granule: fresh check bits on every side it lies on, without reading. -/
def wholeWrite (a : Nat) (bs : List Byte) (s : State) : State :=
  let (b, off, mirrored) := dramPlace s a
  let s := sideStore b off bs [] s
  if mirrored then sideStore (!b) off bs [] s else s

/-- A write-buffer entry is written to DRAM, granule by granule. -/
def drainEntry (e : WEntry) (s : State) : State :=
  [0, 1].foldl (fun s g =>
    let en := (List.range 64).filter (fun i => e.enables.contains (g * 64 + i))
    let new := en.map (fun i => (i, Cells.read e.bytes (g * 64 + i)))
    if en.isEmpty then s
    else if en.length = 64 then wholeWrite (e.line * 128 + g * 64) (new.map Prod.snd) s
    else narrowWrite (e.line * 128 + g * 64) new s) s

/-- The oldest entry of the write buffer is written to DRAM. -/
def drainFirst (s : State) : State :=
  match s.cch.wbuf with
  | [] => s
  | e :: es => drainEntry e { s with cch := { s.cch with wbuf := es } }

/-- A byte is written to DRAM: it enters the write buffer, merged into its line's entry; with all 64 entries taken by other
lines the write waits until the oldest has been written (R332). -/
def dramStore (a : Nat) (b : Byte) (s : State) : State :=
  let line := a / 128
  let s := if 64 ≤ s.cch.wbuf.length && !(s.cch.wbuf.any (fun e => e.line == line)) then drainFirst s else s
  let put (e : WEntry) : WEntry :=
    { e with bytes := Cells.write e.bytes (a % 128) b
             enables := if e.enables.contains (a % 128) then e.enables else e.enables ++ [a % 128] }
  let w := s.cch.wbuf
  let w := if w.any (fun e => e.line == line) then w.map (fun e => if e.line = line then put e else e)
    else w ++ [put { line := line, bytes := [], enables := [] }]
  { s with cch := { s.cch with wbuf := w } }

/-- Does an access wait: its single copy lies on a side that is shed or trains, or no side serves (R426)? -/
def dramHeld (s : State) (a : Nat) : Bool :=
  let waits (b : Bool) : Bool := (sideOf s b).st == .shed || (sideOf s b).st == .training || (sideOf s b).st == .selfRefresh
  let (b, _, mirrored) := dramPlace s a
  if mirrored then !sideServes s b && (waits b || waits (!b)) else waits b

/-! ### The cache (R329 to R337) -/

/-- Set of a line. -/
def setOf (line : Nat) : Nat := line % 4096

/-- Ways in which a class may allocate: powered, in its mask, and not kept for a fill under way. -/
def allowedWays (c : Cch) (set cls : Nat) : List Nat :=
  (List.range 16).filter (fun w => !bit c.wayPwr w && bit (c.masks.getD cls 0) w
    && !(c.fills.any (fun f => setOf f.1 == set && f.2 == some w)))

/-- Is way `w` under node `n` of the tree? Leaf 16 + w is way w. -/
def underNode (n w : Nat) : Bool := (List.range 5).any (fun j => (16 + w) / 2 ^ j == n)

/-- The walk down the tree. -/
def plruWalk (bits_ : Nat) (allowed : List Nat) : Nat → Nat → Nat
  | 0, n => n
  | k + 1, n =>
    let side := b2n (bit bits_ n)
    let side := if allowed.any (fun w => underNode (2 * n + side) w) then side else 1 - side
    plruWalk bits_ allowed k (2 * n + side)

/-- The way to fill in a set, if any is allowed. -/
def chooseWay (c : Cch) (set cls : Nat) : Option Nat :=
  let ws := allowedWays c set cls
  if ws.isEmpty then none
  else match ws.find? (fun w => !Tbl.has c.lines (set * 16 + w)) with
    | some w => some w
    | none => some (plruWalk (Tbl.getD c.plru set 0) ws 4 1 - 16)

/-- The tree points away from way `w`. -/
def touch (set w : Nat) (c : Cch) : Cch :=
  let b := (List.range 4).foldl (fun a j =>
    let n := (16 + w) / 2 ^ j
    setBit a (n / 2) (n % 2 == 0)) (Tbl.getD c.plru set 0)
  { c with plru := Tbl.set c.plru set b }

/-- Put a line into the victim buffer of 16: the oldest goes. -/
def pushVictim (l : CLine) (c : Cch) : Cch :=
  { c with victims := (if c.victims.length < 16 then c.victims else c.victims.drop 1) ++ [l] }

/-- Put a line into the side buffer of 64: the oldest goes, counted when it was not used. -/
def pushSide (l : CLine) (c : Cch) : Cch :=
  if c.side.length < 64 then { c with side := c.side ++ [l] }
  else { c with side := c.side.drop 1 ++ [l]
                discarded := if (c.side.headD l).used then c.discarded else c.discarded + 1 }

/-- Does even parity miss some 8 bytes of the data? -/
def dataParityBad (l : CLine) : Bool :=
  (List.range 16).any (fun g => (l.dataErr.filter (fun p => p / 64 == g)).length % 2 == 1)

/-- Does the parity of the tag entry fail? (log entry 72) -/
def tagParityBad (l : CLine) : Bool := l.tagErr.length % 2 == 1

/-- Count a parity error; those of a way are kept with their time for a millisecond. -/
def countParity (tag : Bool) (way : Option Nat) (now : Nat) (c : Cch) : Cch :=
  let times := (c.parityTimes.filter (fun p => decide (now ≤ 1000 + p.2)))
  { c with parityData := if tag then c.parityData else satInc c.parityData 0xFFFF
           parityTag := if tag then satInc c.parityTag 0xFFFF else c.parityTag
           parityTimes := match way with
             | some w => times ++ [(w, now)]
             | none => times }

/-- A lookup finds tag parity errors in the set and in the two buffers: those entries are invalid (log entry 72). -/
def tagCheck (now set : Nat) (c : Cch) : Cch :=
  let bad := (List.range 16).filter (fun w => (Tbl.get? c.lines (set * 16 + w)).elim false tagParityBad)
  let c := bad.foldl (fun c w => countParity true (some w) now { c with lines := Tbl.erase c.lines (set * 16 + w) }) c
  let loose := (c.victims.filter tagParityBad).length + (c.side.filter tagParityBad).length
  let c := { c with victims := c.victims.filter (fun l => !tagParityBad l), side := c.side.filter (fun l => !tagParityBad l) }
  (List.range loose).foldl (fun c _ => countParity true none now c) c

/-- The way of a set that holds a line. -/
def wayOf (c : Cch) (line : Nat) : Option Nat :=
  (List.range 16).find? (fun w => (Tbl.get? c.lines (setOf line * 16 + w)).elim false (fun l => l.line == line))

/-- Put a line into way `w`; what stood there enters the victim buffer. -/
def install (w : Nat) (l : CLine) (c : Cch) : Cch :=
  let k := setOf l.line * 16 + w
  let c := match Tbl.get? c.lines k with
    | some old => pushVictim old c
    | none => c
  touch (setOf l.line) w { c with lines := Tbl.set c.lines k l }

/-- A miss forms or carries on a stream of its class (R333) (log entry 71). -/
def noteMiss (cls line : Nat) (c : Cch) : Cch :=
  let known (t : Stream) : Bool := t.cls == cls && t.line + 1 == line
  let c := { c with
    misses := c.misses + 1
    streams :=
      if c.streams.any known then c.streams.map (fun t => if known t then { t with line := line, due := true } else t)
      else if (Tbl.get? c.lastMiss cls).elim false (fun l => l + 1 == line) then
        (if c.streams.length < 16 then c.streams else c.streams.drop 1) ++ [(Stream.mk cls line true)]
      else c.streams }
  { c with lastMiss := Tbl.set c.lastMiss cls line }

/-- A read that misses everywhere: it joins a fill under way, or issues one, whose victim moves at that moment
(log entry 71). -/
def missRead (cls line : Nat) (c : Cch) : Cch :=
  let c := noteMiss cls line c
  if c.fills.any (fun f => f.1 == line) then c
  else
    let w := if c.enable then chooseWay c (setOf line) cls else none
    let k := (w.map (fun w => setOf line * 16 + w)).getD 65536
    let c := match Tbl.get? c.lines k with
      | some old => pushVictim old { c with lines := Tbl.erase c.lines k }
      | none => c
    { c with fills := c.fills ++ [(line, w)] }

/-- A read of a line by a class (log entry 71). -/
def lookup (now cls line : Nat) (c : Cch) : Cch :=
  if !c.enabled then c
  else
    let c := tagCheck now (setOf line) c
    match wayOf c line with
    | some w =>
      let k := setOf line * 16 + w
      if (Tbl.get? c.lines k).elim false dataParityBad then
        countParity false (some w) now { c with lines := Tbl.erase c.lines k, hits := c.hits + 1 }
      else touch (setOf line) w { c with hits := c.hits + 1 }
    | none =>
      match c.victims.find? (fun l => l.line == line) with
      | some l =>
        let c := { c with hits := c.hits + 1 }
        if dataParityBad l then countParity false none now { c with victims := c.victims.filter (fun x => !(x.line == line)) }
        else { c with victimHits := satInc c.victimHits 0xFFFFFFFF }
      | none =>
        match c.side.find? (fun l => l.line == line) with
        | none => missRead cls line c
        | some l =>
          let c := { c with hits := c.hits + 1 }
          let rest := c.side.filter (fun x => !(x.line == line))
          if dataParityBad l then countParity false none now { c with side := rest }
          else match if c.enable then chooseWay c (setOf line) cls else none with
            | some w => install w { l with used := false } { c with side := rest, promoted := c.promoted + 1 }
            | none => { c with side := c.side.map (fun x => if x.line = line then { x with used := true } else x) }

/-- Is a line already in the cache or on its way? (log entry 70) -/
def cached (c : Cch) (line : Nat) : Bool :=
  (wayOf c line).isSome || c.victims.any (fun l => l.line == line) || c.side.any (fun l => l.line == line)
    || c.fills.any (fun f => f.1 == line)

/-- A line comes from DRAM: an armed injection of the cache flips bits of it. -/
def freshLine (s : State) (line : Nat) : CLine × State :=
  if injectionHits s.mem 4 line 0 then ({ line := line, dataErr := injected s.mem }, disarm s)
  else if injectionHits s.mem 5 line 0 then ({ line := line, tagErr := injected s.mem }, disarm s)
  else ({ line := line }, s)

/-- Read both granules of a line. -/
def dramReadLine (line : Nat) (s : State) : Bool × State :=
  let (ok0, s) := dramReadGranule (line * 128) s
  let (ok1, s) := dramReadGranule (line * 128 + 64) s
  (ok0 && ok1, s)

/-- A way's 4,096 lines are invalid (log entry 76). -/
def dropWay (w : Nat) (c : Cch) : Cch := { c with lines := c.lines.filter (fun p => !(p.1 % 16 == w)) }

/-- Once the write buffer is empty a disable completes, and ways being powered down are gated (R336, R337)
(log entry 76). -/
def settleCache (s : State) : State :=
  if !s.cch.wbuf.isEmpty then s
  else
    let s :=
      if !s.cch.enable && s.cch.enabled then
        { s with cch := { s.cch with lines := [], victims := [], side := [], fills := s.cch.fills.map (fun f => (f.1, none))
                                     enabled := s.cch.enableWaits, enable := s.cch.enableWaits, enableWaits := false } }
      else s
    (List.range 16).foldl (fun s w =>
      if bit s.cch.wayPwr w && !bit s.cch.waySts w then
        { s with cch := { s.cch with waySts := setBit s.cch.waySts w true }
                 clk := { s.clk with gate := setBit s.clk.gate (160 + w) true
                                     stopped := setBit s.clk.stopped (160 + w) true } }
      else s) s

/-- A write of CCH_WAY_PWR: ways whose bit is set newly leave allocation and are invalidated; ways whose bit is cleared
return, empty (log entry 75). -/
def writeWayPwr (v : Nat) (s : State) : State :=
  let s := (List.range 16).foldl (fun s w =>
    if bit v w && !bit s.cch.wayPwr w then
      { s with cch := dropWay w { s.cch with wayPwr := setBit s.cch.wayPwr w true
                                             fills := s.cch.fills.map (fun f => if f.2 = some w then (f.1, none) else f) } }
    else if !bit v w && bit s.cch.wayPwr w then
      { s with cch := { s.cch with wayPwr := setBit s.cch.wayPwr w false, waySts := setBit s.cch.waySts w false }
               clk := { s.clk with gate := setBit s.clk.gate (160 + w) false
                                   stopped := setBit s.clk.stopped (160 + w) false } }
    else s) s
  settleCache s

/-- A write of CCH_CTL: a value outside a field's range leaves that field. -/
def writeCchCtl (v : Nat) (s : State) : State :=
  let d := bits v 4 3
  let c := { s.cch with prefetchEn := bit v 1, pfDepth := if 1 ≤ d ∧ d ≤ 4 then d else s.cch.pfDepth }
  let c :=
    if !bit v 0 then { c with enable := false, enableWaits := false }
    else if c.enable then c
    else if c.enabled then { c with enableWaits := true }
    else { c with enable := true, enabled := true }
  settleCache { s with cch := c }

end Sys2Proof.Machine
end

