-- ==== Sys2Proof/Machine/Sched.lean ====
section
/-! DEFINITION. The hardware task scheduler: posts, tasks, dispatch, checkpoints, takeovers, epochs, the trace ring (R171 to
R191, R357 to R361). -/

namespace Sys2Proof.Machine

/-! ### The trace ring (R190, R191) -/

/-- A record has no task and no engine. -/
abbrev noCtx : Nat := 0xFFFF
abbrev noEngine : Nat := 0xFF

/-- Is the ring stopped: frozen, or full with STOP_WHEN_FULL set? -/
def traceStopped (c : Sch) : Bool := c.traceFreeze || (c.traceStop && decide (0 < c.traceWraps))

/-- Write a trace record of Table 5.6, or count it while the ring is stopped. `owner` is none where no owner is concerned;
what the OWNER byte then holds is a free value (log entry 65). -/
def trace (kind ctx engine : Nat) (owner : Option Nat) (aux arg : Nat) (s : State) : State :=
  let c := s.sch
  let chosen := c.traceOwner == 0x7F || owner == some c.traceOwner
  if !c.traceEnable || !bit c.traceKinds (kind - 1) || !chosen then s
  else if traceStopped c then { s with sch := { c with traceDropped := satInc c.traceDropped 0xFFFFFFFF } }
  else
    let o := owner.getD (Config.freeNat s.fresh 0 % 128)
    let rec_ := leBytes 6 s.glb.seq ++ leBytes 2 ctx ++ leBytes 1 kind ++ leBytes 1 engine ++ leBytes 1 o ++ leBytes 1 aux
      ++ leBytes 4 arg
    let s := { s with sch := { c with
      trace := Tbl.set c.trace c.traceIndex rec_, traceIndex := (c.traceIndex + 1) % 65536
      traceWraps := if c.traceIndex = 65535 then satInc c.traceWraps 0xFFFF else c.traceWraps } }
    if owner.isNone then bumpFresh s else s

/-- A record about a task. -/
def traceTask (kind ctx engine aux arg : Nat) (s : State) : State :=
  match Tbl.get? s.sch.tasks ctx with
  | some t => trace kind (ctx + 4096 * t.prio) engine (some t.owner) aux arg s
  | none => s

/-- TRACE_CLEAR: a write of SCH_TRACE_CTL; with CLEAR set, INDEX, WRAPS and DROPPED become 0. -/
def writeTraceCtl (v : Nat) (s : State) : State :=
  let c := { s.sch with traceEnable := bit v 0, traceStop := bit v 1, traceFreeze := bit v 2 }
  { s with sch := if bit v 3 then { c with traceIndex := 0, traceWraps := 0, traceDropped := 0 } else c }

/-- TRACE_CLEAR: a write of `value` with CLEAR 1. -/
def execTraceClear (fn : Fin 2) (value : BitVec 32) (s : State) : Out :=
  act s (bar0Answers s fn 0x8100 && bit value.toNat 3) (writeTraceCtl value.toNat)

/-- The record at RIDX; a place that nothing has written reads 0. -/
def traceAt (s : State) : List Byte := bytesAt (Tbl.getD s.sch.trace s.sch.traceRidx []) 0 16

/-- SCH_TRACE_DATA_3_READ: bytes 12 to 15 of the record at RIDX; RIDX goes on. -/
def execSchTraceData3Read (fn : Fin 2) (s : State) : Out :=
  act s (bar0Answers s fn 0x811C) (fun s =>
    { s with hif := { s.hif with readData := bytesAt (traceAt s) 12 4 }
             sch := { s.sch with traceRidx := (s.sch.traceRidx + 1) % 65536 } })

/-! ### Tasks (R171, R172, R178, R179) -/

/-- The present generation of a context (log entry 31). -/
def ctxGen (s : State) (c : Nat) : Nat := Tbl.getD s.sch.gens c 0

/-- The context that a handle names: its generation is the present one and it is not FREE. -/
def ctxOfHandle (s : State) (h : Nat) : Option Nat :=
  let c := h % 4096
  if h / 4096 % 256 = ctxGen s c ∧ (Tbl.has s.sch.tasks c) = true then some c else none

/-- The handle of a context (log entry 31). -/
def handleOf (s : State) (c : Nat) : Nat := c + 4096 * ctxGen s c

/-- Change a task. -/
def modTask (c : Nat) (f : Task → Task) (s : State) : State := { s with sch := { s.sch with tasks := Tbl.modify s.sch.tasks c f } }

/-- Change an engine. -/
def modEngine (e : Nat) (f : Engine → Engine) (s : State) : State :=
  { s with sch := { s.sch with engines := Tbl.modify s.sch.engines e f } }

/-- The context returns to FREE: its generation advances modulo 256. -/
def freeCtx (c : Nat) (s : State) : State :=
  { s with sch := { s.sch with tasks := Tbl.erase s.sch.tasks c, gens := Tbl.set s.sch.gens c ((ctxGen s c + 1) % 256) } }

/-- Is a wait satisfied (R178)? -/
def waitMet (pending mask : BitVec 32) (all : Bool) : Bool :=
  if all then pending &&& mask == mask else !(pending &&& mask == 0)

/-- The flags of the mask move from PENDING to DELIVERED (log entry 67). -/
def deliverFlags (t : Task) (mask : BitVec 32) : Task :=
  { t with delivered := t.delivered ||| (t.pending &&& mask), pending := t.pending &&& ~~~mask }

/-- A task becomes READY, last of those that are. `flags` are those delivered. -/
def makeReady (c flags : Nat) (s : State) : State :=
  let n := s.sch.readyCounter
  let s := modTask c (fun t => { t with st := .ready, engine := noEngine, readyOrder := n })
    { s with sch := { s.sch with readyCounter := n + 1 } }
  traceTask 0x02 c noEngine 0 flags s

/-- Set flag `k` of a context: a waiting task whose wait is then satisfied becomes READY. -/
def postFlag (c k source : Nat) (s : State) : State :=
  let s := traceTask 0x01 c noEngine source k s
  let s := modTask c (fun t => { t with pending := t.pending ||| BitVec.ofNat 32 (2 ^ k) }) s
  match Tbl.get? s.sch.tasks c with
  | none => s
  | some t =>
    if t.st = .waiting ∧ waitMet t.pending t.waitMask t.waitAll = true then
      let flags := t.pending &&& t.waitMask
      makeReady c flags.toNat (modTask c (fun t => deliverFlags t t.waitMask) s)
    else s

/-- An orphan post: it reaches no context and is counted (log entry 66). -/
def orphan (source arg : Nat) (s : State) : State :=
  trace 0x0B noCtx noEngine none source arg { s with sch := { s.sch with orphans := satInc s.sch.orphans 0xFFFFFFFF } }

/-- A post to a task handle and flag 0 to 31 (log entry 66). -/
def postTask (source h k : Nat) (s : State) : State :=
  match ctxOfHandle s h with
  | some c => postFlag c k source s
  | none => orphan source (h % 2 ^ 20 + 2 ^ 26 * k) s

/-- A post to a command and flag offset 0 to 7, through the binding table (R174). -/
def postCommand (source key k : Nat) (s : State) : State :=
  match Tbl.get? s.sch.bindings key with
  | some b => postTask source b.handle (b.base + k) s
  | none => orphan source (keyTag key + keyInst key * 2 ^ 20 + 2 ^ 26 * k) s

/-- POST: a source posts to a handle (`inst` none) and flag, or to a command and flag offset. -/
def execPost (source : Fin 38) (handle : BitVec 20) (inst : Option (Fin 64)) (tag : Fin 256) (flag : Fin 32) (s : State) : Out :=
  act s (powered s && (inst.isNone || decide (flag.val < 8))) (fun s =>
    match inst with
    | some n => postCommand source (tagKey n tag) flag s
    | none => postTask source handle.toNat flag s)

/-- EVENT_QUEUE_STALL: a post that a full queue held back for `cycles` is applied. -/
def execEventQueueStall (source : Fin 38) (handle : BitVec 20) (inst : Option (Fin 64)) (tag : Fin 256) (flag : Fin 32)
    (cycles : Fin 11) (s : State) : Out :=
  act s (powered s && (inst.isNone || decide (flag.val < 8)) && decide (1 ≤ cycles.val)) (fun s =>
    let s := { s with sch := { s.sch with heldCount := satInc s.sch.heldCount 0xFFFFFFFF } }
    let s := trace 0x0A noCtx noEngine none source cycles s
    match inst with
    | some n => postCommand source (tagKey n tag) flag s
    | none => postTask source handle.toNat flag s)

/-- SPAWN: firmware, running in `spawner`, starts a task in a free context. -/
def execSpawn (ctx : Fin 4096) (prio : Fin 8) (owner : Fin 65) (damzu : Bool) (program : Nat) (wait : Option (BitVec 32 × Bool))
    (spawner : BitVec 20) (s : State) : Out :=
  act s (powered s && !Tbl.has s.sch.tasks ctx) (fun s =>
    let t : Task := { st := .waiting, prio := prio, owner := owner, damzu := damzu, pending := 0, delivered := 0
                      waitMask := (wait.map Prod.fst).getD 0, waitAll := (wait.map Prod.snd).getD false, engine := noEngine
                      readyOrder := 0, since := 0, ckptAt := 0, program := if damzu then program else 0, frameDelivered := 0 }
    let s := traceTask 0x0F ctx noEngine 0 spawner.toNat { s with sch := { s.sch with tasks := Tbl.set s.sch.tasks ctx t } }
    if wait.isSome then s else makeReady ctx 0 s)

/-! ### Credit (R183, R357 to R359), in nanoseconds of engine time -/

/-- Capacity of the engines over an epoch of 100 µs. -/
abbrev engineCapacity : Nat := 3200000

/-- Engine credit of an owner. -/
def engineCredit (s : State) (o : Nat) : Int :=
  if o = 64 then s.sch.devCredit
  else match Tbl.get? s.insts o with
    | some i => i.share.credit.headD 0
    | none => 0

/-- Has an owner reached its engine cap in this epoch (R359)? -/
def capReached (s : State) (o : Nat) : Bool :=
  match Tbl.get? s.insts o with
  | some i => o < 64 && !(i.share.cap.engine == 0)
      && decide (i.share.cap.engine * engineCapacity / 1000 ≤ i.share.used.engine + i.share.excess.engine)
  | none => false

/-- Charge `us` of run time to an owner (log entry 68). -/
def charge (o us : Nat) (s : State) : State :=
  let ns := 1000 * us
  if o = 64 then { s with sch := { s.sch with devCredit := s.sch.devCredit - ns } }
  else modInst o (fun i => { i with share := { i.share with
    credit := (i.share.credit.headD 0 - ns) :: i.share.credit.drop 1
    used := { i.share.used with engine := i.share.used.engine + ns } } }) s

/-! ### Dispatch (R182 to R185) -/

/-- The tasks that may be dispatched. -/
def readyTasks (s : State) : Tbl Task := s.sch.tasks.filter (fun p => p.2.st == .ready && !capReached s p.2.owner)

/-- The highest priority with a ready task. -/
def topPrio (ts : Tbl Task) : Nat := ts.foldl (fun a p => max a p.2.prio) 0

/-- The first owner after `last`, going round, among some. -/
def nextOwner (owners : List Nat) (last : Nat) : Nat :=
  match (List.range 65).find? (fun i => owners.contains ((last + 1 + i) % 65)) with
  | some i => (last + 1 + i) % 65
  | none => 0

/-- The owner to serve: the greatest remaining credit, the lowest number on a tie; round robin when none has credit left
(log entry 68). -/
def chosenOwner (s : State) (owners : List Nat) (last : Nat) : Nat :=
  if owners.all (fun o => decide (engineCredit s o ≤ 0)) then nextOwner owners last
  else owners.foldl (fun a o =>
    if engineCredit s a < engineCredit s o ∨ (engineCredit s a = engineCredit s o ∧ o < a) then o else a) (owners.headD 0)

/-- The task that R182 selects. -/
def selected (s : State) : Option (Nat × Task) :=
  let ts := readyTasks s
  let top := ts.filter (fun p => p.2.prio == topPrio ts)
  let o := chosenOwner s (top.map (fun p => p.2.owner)) s.sch.lastOwner
  (top.filter (fun p => p.2.owner == o)).foldl (fun a p =>
    match a with
    | some q => if p.2.readyOrder < q.2.readyOrder then some p else a
    | none => some p) none

/-- Is an engine free: in service and running nothing? -/
def engineFree (x : Engine) : Bool := x.role == .inService && x.ctx.isNone

/-- Run a task on an engine: the task window is loaded when it holds another program or firmware scratch (R170). -/
def dispatchTo (c e : Nat) (s : State) : State :=
  match Tbl.get? s.sch.tasks c, Tbl.get? s.sch.engines e with
  | some t, some x =>
    let loads := t.damzu && !(x.window == t.program)
    let n := s.sch.dispatchCounter
    let s := { s with sch := { s.sch with dispatchCounter := n + 1, lastOwner := t.owner } }
    let s := modTask c (fun t => { t with st := .running, engine := e, since := s.now, ckptAt := s.now
                                          frameDelivered := t.delivered }) s
    let s := modEngine e (fun x => { x with ctx := some c, window := if t.damzu then t.program else 0, order := n }) s
    traceTask 0x03 c e 0 (b2n loads) s
  | _, _ => s

/-- DISPATCH to engine `engine`, which a free engine whose window holds the task's program is preferred to. -/
def execDispatch (engine : Fin 36) (s : State) : Out :=
  match Tbl.get? s.sch.engines engine, selected s with
  | some x, some (c, t) =>
    let fits (x : Engine) : Bool := x.window == t.program
    act s (powered s && !s.sch.hold && engineFree x
        && (fits x || !(s.sch.engines.any (fun p => engineFree p.2 && fits p.2)))) (dispatchTo c engine)
  | _, _ => .next s

/-! ### Checkpoints (R186, R187) -/

/-- An effect as a checkpoint carries it: 0 a post (handle, flag), 1 a byte of Hogshead (address, value), 2 any other, 3 a
byte of DRAM (logical address, value). Kind 4, a byte of the engine's own Firkin (offset, value), is none: it was written as
the task ran. -/
def effectOf (e : Fin 5 × Nat × Nat) : Option Effect :=
  if e.1.val = 0 then some (.post (e.2.1 % 2 ^ 20) (e.2.2 % 32))
  else if e.1.val = 1 then some (.hogWrite e.2.1 (BitVec.ofNat 8 e.2.2))
  else if e.1.val = 2 then some (.request e.2.1)
  else if e.1.val = 3 then some (.dramWrite e.2.1 (BitVec.ofNat 8 e.2.2)) else none

/-- The bytes of its Firkin that a task wrote since its last checkpoint (log entry 77). -/
def storeFirkin (e : Nat) (es : List (Fin 5 × Nat × Nat)) (s : State) : State :=
  es.foldl (fun s x => if x.1.val = 4 then firkinStore e x.2.1 (BitVec.ofNat 8 x.2.2) s else s) s

/-- A checkpoint of the task that an engine runs is committed: its run time is charged, DELIVERED is discarded, the log half
waits to be applied. -/
def commitCkpt (e c lines : Nat) (xs : List (Fin 5 × Nat × Nat)) (s : State) : State :=
  match Tbl.get? s.sch.tasks c with
  | none => s
  | some t =>
    let es := xs.filterMap effectOf
    let s := storeFirkin e xs s
    let s := charge t.owner (s.now - t.ckptAt) s
    let s := modTask c (fun t => { t with delivered := 0, frameDelivered := 0, ckptAt := s.now }) s
    let s := modEngine e (fun x => { x with applying := some { ctx := c, lines := lines, effects := es } }) s
    traceTask 0x06 c e 0 (lines % 65536 + es.length % 65536 * 65536) s

/-- The engine lets go of its task. -/
def releaseEngine (e : Nat) (s : State) : State := modEngine e (fun x => { x with ctx := none }) s

/-- Does a checkpoint fit one half of the log: 32 KiB of lines and staged bytes, 256 other effects; is the other half free? -/
def ckptFits (x : Engine) (lines : Nat) (es : List (Fin 5 × Nat × Nat)) : Bool :=
  let staged (e : Fin 5 × Nat × Nat) : Bool := e.1.val == 1 || e.1.val == 3
  x.applying.isNone && decide (lines * 64 + (es.filter staged).length ≤ 32768)
    && decide ((es.filter (fun e => !staged e && !(e.1.val == 4))).length ≤ 256)

/-- The context that an engine runs, in state RUNNING, when a checkpoint of it fits. -/
def ckptOf (s : State) (e lines : Nat) (es : List (Fin 5 × Nat × Nat)) : Option (Nat × Task) :=
  match Tbl.get? s.sch.engines e with
  | none => none
  | some x =>
    match x.ctx with
    | none => none
    | some c =>
      match Tbl.get? s.sch.tasks c with
      | none => none
      | some t => if powered s && t.st == .running && ckptFits x lines es then some (c, t) else none

/-- Switch a task out to READY after its checkpoint, for a reason of Table 5.7. -/
def switchOut (e c reason : Nat) (s : State) : State := makeReady c 0 (traceTask 0x05 c e 0 reason (releaseEngine e s))

/-- Release one effect: posts come from source 32. -/
def releaseEffect (s : State) (e : Effect) : State :=
  match e with
  | .post h k => postTask 32 h k s
  | .hogWrite a b => hogStore a b s
  | .dramWrite a b => dramStore a b s
  | .request _ => s

/-- The committed half of an engine's log is applied in order. -/
def applyHalf (e : Nat) (s : State) : State :=
  match (Tbl.get? s.sch.engines e).bind (fun x => x.applying) with
  | some h => h.effects.foldl releaseEffect (modEngine e (fun x => { x with applying := none }) s)
  | none => s

/-- CHECKPOINT_APPLY_DONE. -/
def execCheckpointApplyDone (engine : Fin 36) (s : State) : Out := act s (powered s) (applyHalf engine)

/-! ### Cancels (R179 to R181) -/

/-- State codes of Table 5.4. -/
def taskCode : TaskSt → Nat
  | .waiting => 1
  | .ready => 2
  | .running => 3
  | .held => 4
  | .stopping => 5

/-- Cancel one context: a running task stops at its next instruction boundary, any other is freed at once. -/
def cancelCtx (c : Nat) (s : State) : State :=
  match Tbl.get? s.sch.tasks c with
  | none => s
  | some t =>
    if t.st = .stopping then s
    else
      let s := traceTask 0x07 c t.engine 0 (taskCode t.st) s
      if t.st = .running then modTask c (fun t => { t with st := .stopping }) s else freeCtx c s

/-- Cancel every context of an owner, in one cycle. -/
def cancelOwner (o : Nat) (s : State) : State :=
  ((s.sch.tasks.filter (fun p => p.2.owner == o)).map Prod.fst).foldl (fun s c => cancelCtx c s) s

/-- CANCEL of a task by its handle, or (`owner` given) of every context of an owner. -/
def execCancel (handle : BitVec 20) (owner : Option (Fin 65)) (s : State) : Out :=
  act s (powered s) (fun s =>
    match owner with
    | some o => cancelOwner o s
    | none =>
      match ctxOfHandle s handle.toNat with
      | some c => cancelCtx c s
      | none => s)

/-- ENGINE_STOPPED: the cancelled task of an engine has stopped; its context is FREE. -/
def execEngineStopped (engine : Fin 36) (s : State) : Out :=
  match (Tbl.get? s.sch.engines engine).bind (fun x => x.ctx) with
  | none => .next s
  | some c =>
    act s (powered s && ((Tbl.get? s.sch.tasks c).elim false (fun t => t.st == .stopping))) (fun s =>
      freeCtx c (releaseEngine engine s))

/-! ### Takeover (R188, R407 code 1) -/

/-- The interrupted task returns to READY, first of its priority; flags delivered since its last checkpoint while it ran are
pending again. A cancelled one is freed. -/
def interrupted (c : Nat) (s : State) : State :=
  match Tbl.get? s.sch.tasks c with
  | none => s
  | some t =>
    if t.st = .stopping then freeCtx c s
    else
      let first := s.sch.tasks.foldl (fun a p => min a p.2.readyOrder) 0 - 1
      let s := modTask c (fun t => { t with
        st := .ready, engine := noEngine, readyOrder := first, delivered := t.frameDelivered
        pending := t.pending ||| (t.delivered &&& ~~~t.frameDelivered) }) s
      traceTask 0x02 c noEngine 0 0 s

/-- An engine in service fails: its domain is gated, its committed log half applied, a standing spare takes its place and its
task (log entries 67, 75). -/
def engineFault (e ns : Nat) (x : Engine) (s : State) : State :=
  let spare := engineSpare s
  let s := modEngine e (fun x => { x with role := .failed, ctx := none }) (applyHalf e s)
  let s := { s with clk := { s.clk with gate := setBit s.clk.gate e true, stopped := setBit s.clk.stopped e true } }
  let s := match spare with
    | some sp => modEngine sp (fun y => { y with role := .inService })
        { s with sch := { s.sch with replaces := Tbl.set s.sch.replaces (sp - 32) e } }
    | none => s
  let s := { s with sch := { s.sch with takeovers := satInc s.sch.takeovers 0xFFFF } }
  let by_ := spare.getD noEngine
  let s := match x.ctx with
    | some c =>
      let s := interrupted c (traceTask 0x09 c by_ 0 e s)
      match spare with
      | some sp => if s.sch.hold || !Tbl.has s.sch.tasks c then s else dispatchTo c sp s
      | none => s
    | none => trace 0x09 noCtx by_ none 0 e s
  takeover 1 e by_ ns s

/-- An engine whose Firkin needs a 33rd spare line is retired at its checkpoint commit (R321). -/
def retireDue (e : Nat) (s : State) : State :=
  match s.mem.retiring.find? (fun r => r.1 == e), Tbl.get? s.sch.engines e with
  | some r, some x =>
    let s := { s with mem := { s.mem with retiring := s.mem.retiring.filter (fun r => !(r.1 == e)) } }
    if x.role = .inService then engineFault e r.2 x s else s
  | _, _ => s

/-- ENGINE_FAULT: the interruption took `ns`. A standing spare that fails only ceases to stand. -/
def execEngineFault (engine : Fin 36) (ns : Nat) (s : State) : Out :=
  match Tbl.get? s.sch.engines engine with
  | none => .next s
  | some x =>
    act s (powered s && (x.role == .inService || x.role == .spare)) (fun s =>
      if x.role = .inService then engineFault engine ns x s
      else settleFaults (modEngine engine (fun x => { x with role := .failed }) s))

/-! ### The ends of a run (R178, R184, R187) -/

/-- CHECKPOINT_INTERVAL: after CKPT_US of run time, before the staged effects overflow, or when firmware asks. While HOLD is
set the task is switched out to HELD (R185). -/
def execCheckpointInterval (engine : Fin 36) (lines : Nat) (effects : List (Fin 5 × Nat × Nat)) (s : State) : Out :=
  match ckptOf s engine lines effects with
  | none => .next s
  | some (c, _) =>
    let s := commitCkpt engine c lines effects s
    if s.sch.hold then
      .next (retireDue engine (modTask c (fun t => { t with st := .held, engine := noEngine })
        (traceTask 0x05 c engine 0 3 (releaseEngine engine s))))
    else .next (retireDue engine s)

/-- YIELD. -/
def execYield (engine : Fin 36) (lines : Nat) (effects : List (Fin 5 × Nat × Nat)) (s : State) : Out :=
  match ckptOf s engine lines effects with
  | none => .next s
  | some (c, _) => .next (retireDue engine (switchOut engine c 0 (commitCkpt engine c lines effects s)))

/-- SLICE_EXPIRY: SLICE_US since the dispatch, and a ready task of equal priority waits. -/
def execSliceExpiry (engine : Fin 36) (lines : Nat) (effects : List (Fin 5 × Nat × Nat)) (s : State) : Out :=
  match ckptOf s engine lines effects with
  | none => .next s
  | some (c, t) =>
    act s (decide (t.since + s.sch.sliceUs ≤ s.now) && (readyTasks s).any (fun p => p.2.prio == t.prio)) (fun s =>
      retireDue engine (switchOut engine c 1 (commitCkpt engine c lines effects s)))

/-- The engine to preempt: it runs the lowest-priority task, of equals the one dispatched most recently. -/
def victim (s : State) : Option (Nat × Nat) :=
  (s.sch.engines.filterMap (fun p => match p.2.ctx with
    | some c => (Tbl.get? s.sch.tasks c).bind (fun t => if t.st = .running then some (p.1, t.prio, p.2.order) else none)
    | none => none)).foldl (fun (a : Option (Nat × Nat × Nat)) p =>
      match a with
      | some q => if p.2.1 < q.2.1 ∨ (p.2.1 = q.2.1 ∧ q.2.2 < p.2.2) then some p else a
      | none => some p) none |>.map (fun q => (q.1, q.2.1))

/-- PREEMPTION: no engine is free, and a ready task has a higher priority than the lowest that runs. -/
def execPreemption (engine : Fin 36) (lines : Nat) (effects : List (Fin 5 × Nat × Nat)) (s : State) : Out :=
  match ckptOf s engine lines effects, victim s with
  | some (c, _), some (e, prio) =>
    act s (!s.sch.hold && e == engine.val && !(s.sch.engines.any (fun p => engineFree p.2))
        && (readyTasks s).any (fun p => decide (prio < p.2.prio))) (fun s =>
      retireDue engine (switchOut engine c 2 (commitCkpt engine c lines effects s)))
  | _, _ => .next s

/-- WAIT: satisfied at once the task goes on with the flags delivered; otherwise it checkpoints and waits. -/
def execWait (engine : Fin 36) (mask : BitVec 32) (all : Bool) (lines : Nat) (effects : List (Fin 5 × Nat × Nat)) (s : State) :
    Out :=
  match ckptOf s engine lines effects with
  | none => .next s
  | some (c, t) =>
    let s := traceTask 0x04 c engine (b2n all) mask.toNat s
    let s := modTask c (fun t => { t with waitMask := mask, waitAll := all }) s
    if waitMet t.pending mask all then .next (modTask c (fun t => deliverFlags t mask) s)
    else .next (retireDue engine (modTask c (fun t => { t with st := .waiting, engine := noEngine })
      (releaseEngine engine (commitCkpt engine c lines effects s))))

/-- EXIT. -/
def execExit (engine : Fin 36) (code : BitVec 32) (lines : Nat) (effects : List (Fin 5 × Nat × Nat)) (s : State) : Out :=
  match ckptOf s engine lines effects with
  | none => .next s
  | some (c, _) =>
    .next (retireDue engine (freeCtx c (releaseEngine engine (traceTask 0x08 c engine 0 code.toNat
      (commitCkpt engine c lines effects s)))))

/-! ### Epochs (R357 to R361) -/

/-- Sum of one weight over every instance and owner 64 (log entry 68). -/
def weightSum (s : State) (f : Three → Nat) : Nat :=
  s.insts.foldl (fun a p => a + f p.2.share.nextWeight) 0 + s.sch.devWeight

/-- Use beyond a cap, in the resource's units; none without a cap. -/
def beyondCap (cap used capacity : Nat) : Nat := if cap = 0 then 0 else used - cap * capacity / 1000

/-- The share of an instance over an epoch boundary. Use of codec and flash comes in per mille of capacity. -/
def nextShare (we wc wf codec flash : Nat) (x : Share) : Share :=
  let used (u o : Nat) := u + o
  { weight := x.nextWeight, cap := x.nextCap, nextWeight := x.nextWeight, nextCap := x.nextCap
    credit := [(engineCapacity * x.nextWeight.engine / max we 1 : Nat), (1000 * x.nextWeight.codec / max wc 1 : Nat),
               (1000 * x.nextWeight.flash / max wf 1 : Nat)]
    used := { engine := 0, codec := 0, flash := 0 }
    excess := { engine := beyondCap x.cap.engine (used x.used.engine x.excess.engine) engineCapacity
                codec := beyondCap x.cap.codec (used codec x.excess.codec) 1000
                flash := beyondCap x.cap.flash (used flash x.excess.flash) 1000 }
    lastUse := { engine := min 1000 (1000 * x.used.engine / engineCapacity), codec := codec, flash := flash } }

/-- EPOCH: every 100 µs. `uses` gives for an instance the per mille of codec and flash capacity that it used
(log entry 68). -/
def execEpoch (uses : List (Fin 64 × Fin 1001 × Fin 1001)) (s : State) : Out :=
  act s (powered s && decide ((s.sch.epoch + 1) * 100 ≤ s.now)) (fun s =>
    let we := weightSum s Three.engine
    let wc := weightSum s Three.codec
    let wf := weightSum s Three.flash
    let s := { s with
      insts := Tbl.mapVals s.insts (fun n i =>
        let u := uses.find? (fun u => u.1.val == n)
        { i with share := nextShare we wc wf (u.elim 0 (fun u => u.2.1.val)) (u.elim 0 (fun u => u.2.2.val)) i.share })
      sch := { s.sch with epoch := s.sch.epoch + 1, devCredit := (engineCapacity * s.sch.devWeight / max we 1 : Nat) } }
    trace 0x0C noCtx noEngine none 0 (s.sch.epoch % 2 ^ 32) s)

end Sys2Proof.Machine
end

