-- ==== Sys2Proof/Machine/ResetOps.lean ====
section
/-! DEFINITION. What ends the commands of an instance: stopping one command's work, the reset of an instance (R362), and its
end (R73, R347, R364). -/

namespace Sys2Proof.Machine

/-! ### Stopping one command (R71, R72, R356, R395) -/

/-- The ports of a SPAN_JOIN that ends early are disabled again, and the Span ID goes. -/
def undoJoin (s : State) : State :=
  let s := [0, 1, 2].foldl (fun s p => if (eport s p).st == .disabled then s
    else setPort p .disabled (modEPort p (fun q => { q with retry := [], waiting := [] }) s)) s
  { s with spn := { s.spn with joining := none, spanId := 0, group := 0 } }

/-- A MAILBOX_NOTE ends before its ACK: PEND is clear (log entry 29). -/
def dropNote (k : Nat) (s : State) : State :=
  modInst (keyInst k) (fun i => if i.mbox.noteTag = k then { i with mbox := { i.mbox with pend := false } } else i) s

/-- An object that a tag waits to end goes on ending without it. -/
def unnameTag (k : Nat) (s : State) : State :=
  { s with
    sec := { s.sec with
      licences := Tbl.mapVals s.sec.licences (fun _ l => if l.dropTag = some k then { l with dropTag := none } else l)
      seals := Tbl.mapVals s.sec.seals (fun _ x => if x.closeTag = some k then { x with closeTag := none } else x) }
    dmz := { s.dmz with
      progs := Tbl.mapVals s.dmz.progs (fun _ x => if x.unloadTag = some k then { x with unloadTag := none } else x) } }

/-- What else a command under way leaves when it stops short: its transaction is cancelled and forgotten, its codec context
EMPTY, its workers and units gone. -/
def dropWork (k : Nat) (t : Tag) (s : State) : State :=
  let op := pkOpcode t.packet
  let s := dropUnits k (dropWorkers k (releaseLock k s))
  let s := match t.work with
    | .forwarded => dropXact k (cancelXact k s)
    | .keyGrant => dropXact k s
    | .joining => undoJoin s
    | .note => dropNote k s
    | .mirror => freeWaits k s
    | .lastUser => unnameTag k s
    | _ => s
  let s := if s.spn.leaving = some k then { s with spn := { s.spn with leaving := none } } else s
  if (op == opCodec || op == opCodecResume) && t.started then putCtx (keyInst k) (pkContext t.packet) none s else s

/-- The reply of a command that a reset or an abort ends, with the status of that end: result words and APPLIED as R72 gives
them. A write that had done nothing yet has PARTIAL set; an object that waits for its last user goes all the same
(log entry 30). -/
def cutReply (status : Nat) (t : Tag) : Reply :=
  let op := pkOpcode t.packet
  if t.st = .done ∨ t.work = .durable ∨ (t.work = .mirror ∧ prefixOps.contains op = true) then
    { t.reply with status := status
                   applied := t.reply.applied || (decide (t.reply.status ≤ 4) && !unappliedOps.contains op && !prefixOps.contains op) }
  else { status := status, partialEffect := prefixOps.contains op, remote := t.work == .forwarded
         applied := t.work == .lastUser }

/-! ### Resetting an instance (R362) -/

/-- Every busy tag of the instance takes ST_ABORTED_BY_RESET; its work stops (log entry 30). -/
def resetTag (k : Nat) (s : State) : State :=
  match Tbl.get? s.tags k with
  | none => s
  | some t =>
    let s := if t.st = .done then s else dropWork k t s
    modTag k (fun t => { t with st := .done, reply := cutReply stAbortedByReset t, after := none, uses := []
                                work := .resetting }) s

/-- The instance's licences, sessions, programs, contexts and cursors go, its tables are emptied, its mailboxes cleared. -/
def freeObjects (n : Nat) (s : State) : State :=
  let s := ((s.sec.licences.filter (fun l => l.2.inst == n)).map Prod.fst).foldl (fun s x => freeLicence x s) s
  let s := ((s.sec.seals.filter (fun l => l.2.inst == n)).map Prod.fst).foldl (fun s x => freeSeal x s) s
  let s := ((s.dmz.progs.filter (fun l => l.2.inst == n)).map Prod.fst).foldl (fun s x => freeProgram x s) s
  let s := { s with bsh := { s.bsh with ctxs := s.bsh.ctxs.filter (fun c => !(c.1 / 65 == n)) } }
  let s := freeCursors (fun c => c.inst == n) s
  let s := ((s.idx.tables.filter (fun t => t.2.owner == n)).map Prod.fst).foldl (fun s x => emptyTable x s) s
  modInst n (fun i => { i with mbox := { resetMbox with word := i.mbox.word, noteTag := i.mbox.noteTag } }) (settleTable s)

/-- Steps 1 to 6 of R362: fence, cancel, decide the replies, free the objects (log entry 29). -/
def resetInstance (n : Nat) (st : InstSt) (s : State) : State :=
  let s := modInst n (fun i => { i with fenced := true, st := st }) s
  let s := cancelOwner n s
  let s := ((busyOf s n).map Prod.fst).foldl (fun s k => resetTag k s) s
  freeObjects n s

/-- The reset of an instance is done: it is ACTIVE again, or drains (Table 10.1). -/
def resetEnds (n : Nat) (s : State) : State :=
  settleDrain n (modInst n (fun i => { i with fenced := false, st := if i.drain then .draining else .active }) s)

/-- Every index table of an instance is deleted (R242). -/
def deleteTables (n : Nat) (s : State) : State :=
  settleTable (((s.idx.tables.filter (fun t => t.2.owner == n)).map Prod.fst).foldl (fun s x => deleteTable x s) s)

/-- The instance is ABSENT. -/
def eraseInst (n : Nat) (s : State) : State := { s with insts := Tbl.erase s.insts n }

/-- The end of INSTANCE_DESTROY: tables, ACCESS bits, PASID, vectors and window go (R347). -/
def destroyEnds (n : Nat) (s : State) : State :=
  let s := deleteTables n s
  let s := { s with
    flc := { s.flc with vols := Tbl.mapVals s.flc.vols (fun _ u => { u with access := setBit u.access n false }) }
    spn := { s.spn with aliases := Tbl.mapVals s.spn.aliases (fun _ a => { a with access := setBit a.access n false }) } }
  eraseInst n s

end Sys2Proof.Machine
end

