-- ==== Sys2Proof/Machine/Instances.lean ====
section
/-! DEFINITION. Instances, mailboxes, migration and page logs (R343 to R371). -/

namespace Sys2Proof.Machine

/-! ### INSTANCE_CREATE, INSTANCE_RESET, INSTANCE_DESTROY -/

/-- Do the vectors [b, b + c) overlap those of another instance? -/
def vectorsOverlap (s : State) (b c : Nat) : Bool :=
  s.insts.any (fun p => decide (b < p.2.vecBase + p.2.vecCount ∧ p.2.vecBase < b + c))

/-- The slices in existence. -/
def sliceCount (s : State) : Nat := Tbl.countIf s.insts (fun _ i => i.slice)

/-- The checks of R346: the reply of the first that fails. -/
def instanceRefused (s : State) (p : List Byte) : Option Reply :=
  let n := field p 36 1
  let slice := field p 37 1 == 1
  let pasid := field p 40 4
  let base := field p 44 2
  let count := field p 46 2
  if n = 0 ∨ 63 < n ∨ (Tbl.has s.insts n) = true then some { status := stBadField, r0 := 36 }
  else if 1 < field p 37 1 then some { status := stBadField, r0 := 37 }
  else if 2 ^ 20 ≤ pasid || (slice && pasid == 0) || (!(pasid == 0) && s.insts.any (fun q => q.2.pasid == pasid)) then
    some { status := stBadField, r0 := 40 }
  else if count = 0 ∨ 32 < count then some { status := stBadField, r0 := 46 }
  else if base < 32 || decide (2048 < base + count) || vectorsOverlap s base count then some { status := stBadField, r0 := 44 }
  else if field p 48 2 = 0 ∨ 1023 < field p 48 2 then some { status := stBadField, r0 := 48 }
  else if 1000 < field p 50 2 then some { status := stBadField, r0 := 50 }
  else if slice && decide (16 ≤ sliceCount s) then some { status := stNotPermitted }
  else none

/-- The slice window that a new slice takes: the lowest free one. -/
def freeSliceWin (s : State) : Nat :=
  ((List.range 16).find? (fun w => !(s.insts.any (fun p => p.2.slice && p.2.sliceWin == w)))).getD 0

/-- The new instance, served on the port that carried the command. -/
def newInst (s : State) (p : List Byte) (port : Nat) : Inst :=
  let slice := field p 37 1 == 1
  { st := .active, slice := slice, pasid := field p 40 4, vecBase := field p 44 2, vecCount := field p 46 2, port := port
    sliceWin := if slice then freeSliceWin s else 0, rights := 0xF, drain := false, fenced := false, slots := []
    ring := resetRing (if slice then 6 else 9), share := resetShare (three (field p 48 2)) (three (field p 50 2))
    mbox := resetMbox, feat := resetFeat }

/-- INSTANCE_CREATE passes or fails its checks (log entry 11). -/
def createInstance (n : Nat) (p : List Byte) (k : Nat) (s : State) : State :=
  match instanceRefused s p with
  | some r => finish k r s
  | none =>
    let port := (Tbl.get? s.insts n).elim 0 (fun i => i.port)
    finishWith k stOk (field p 36 1) 0 { s with insts := Tbl.set s.insts (field p 36 1) (newInst s p port) }

/-- INSTANCE_CREATE (log entry 11). -/
def execInstanceCreate (inst : Fin 64) (tag : Fin 256) (s : State) : Out :=
  workEnds opInstanceCreate inst tag true s (createInstance inst)

/-- A reset of instance INSTANCE to state `st`; its own reply carries `r0` of the tags ended and waits for them. -/
def beginReset (st : InstSt) (r0 : Nat → Nat) (p : List Byte) (k : Nat) (s : State) : State :=
  let n := field p 36 1
  if Tbl.has s.insts n then
    let count := (busyOf s n).length
    modTag k (fun t => { t with work := .resetting }) (finishWith k stOk (r0 count) 0 (resetInstance n st s))
  else badField k 36 s

/-- INSTANCE_RESET: steps 1 to 6 of R362; step 7 is the commit of its reply. -/
def execInstanceReset (inst : Fin 64) (tag : Fin 256) (s : State) : Out :=
  workEnds opInstanceReset inst tag true s (beginReset .resetting id)

/-- INSTANCE_DESTROY: as a reset; the release follows with the commit of its reply (R347). -/
def execInstanceDestroy (inst : Fin 64) (tag : Fin 256) (s : State) : Out :=
  workEnds opInstanceDestroy inst tag true s (beginReset .destroying (fun _ => 0))

/-! ### MGR_INST_CTL (R345, R352, R365) -/

/-- A write of MGR_INST_CTL for the selected instance: DRAIN, but in instance 0; PORT, while no tag is busy and there are two
ports. -/
def writeInstCtl (v : Nat) (s : State) : State :=
  let n := s.mgr.instSel
  let moves := s.glb.arrangement == 1 && (busyOf s n).isEmpty
  let s := modInst n (fun i =>
    let i := if moves then { i with port := bits v 8 1 } else i
    if n = 0 then i
    else
      let d := bit v 0
      { i with drain := d
               st := if d && i.st == .active then .draining
                     else if !d && (i.st == .draining || i.st == .drained) then .active else i.st }) s
  settleDrain n s

/-- DRAIN of the selected instance. -/
def selectedDrain (s : State) : Option Bool := (Tbl.get? s.insts s.mgr.instSel).map (fun i => i.drain)

/-- DRAIN_SET: a write that sets DRAIN. -/
def execDrainSet (fn : Fin 2) (value : BitVec 32) (s : State) : Out :=
  act s (bar0Answers s fn 0x401C && bit value.toNat 0 && selectedDrain s == some false) (writeInstCtl value.toNat)

/-- DRAIN_CLEARED: a write that clears DRAIN. -/
def execDrainCleared (fn : Fin 2) (value : BitVec 32) (s : State) : Out :=
  act s (bar0Answers s fn 0x401C && !bit value.toNat 0 && selectedDrain s == some true) (writeInstCtl value.toNat)

/-- MGR_INST_CTL_PORT_WRITE: a write that leaves DRAIN as it is. -/
def execMgrInstCtlPortWrite (fn : Fin 2) (value : BitVec 32) (s : State) : Out :=
  act s (bar0Answers s fn 0x401C && selectedDrain s == some (bit value.toNat 0)) (writeInstCtl value.toNat)

/-! ### Mailboxes (R353 to R356) -/

/-- Is a note of the instance under way: from its start to the commit of its reply? -/
def noteBusy (s : State) (n : Nat) : Bool := (Tbl.get? s.insts n).elim false (fun i => !(i.mbox.noteLen == 0))

/-- MAILBOX_NOTE: the area is frozen, PEND set, the manager told. -/
def execMailboxNote (inst : Fin 64) (tag : Fin 256) (s : State) : Out :=
  workEnds opMailboxNote inst tag (!noteBusy s inst) s (fun p k s =>
    let len := field p 36 4
    let s := modInst inst (fun i => { i with mbox := { i.mbox with pend := true, noteTag := k, noteLen := len } }) s
    mailboxEvent 0 0 inst len 0 (modTag k (fun t => { t with work := .note }) s))

/-- ACK: a write of MGR_MBOX_CTL with OP 1 completes the selected instance's note (log entry 26). -/
def execAck (fn : Fin 2) (s : State) : Out :=
  match Tbl.get? s.insts s.mgr.instSel with
  | none => .next s
  | some i =>
    act s (bar0Answers s fn 0x4070 && i.mbox.pend && atWork s i.mbox.noteTag opMailboxNote .note) (fun s =>
      finishWith i.mbox.noteTag stOk s.mgr.ack 0
        (modInst s.mgr.instSel (fun i => { i with mbox := { i.mbox with pend := false } }) s))

/-- A message is delivered to instance `n` (log entry 26). -/
def sendMail (n len : Nat) (i : Inst) (s : State) : State :=
  let bs := Cells.readN s.mgr.out 0 len
  let s := modInst n (fun i => { i with mbox := { i.mbox with
    inn := Cells.writeN i.mbox.inn 0 bs, deliv := true, msgLen := len } }) s
  let s := mailboxEvent n 1 n len 0 s
  if n = 0 ∨ 2 ≤ i.vecCount then signalInst n 1 s else s

/-- SEND: a write of MGR_MBOX_CTL with OP 2 and LEN. -/
def execSend (fn : Fin 2) (len : Fin 512) (s : State) : Out :=
  match Tbl.get? s.insts s.mgr.instSel with
  | none => .next s
  | some i =>
    act s (bar0Answers s fn 0x4070 && !i.mbox.deliv && i.st == .active && decide (1 ≤ len.val ∧ len.val ≤ 256))
      (sendMail s.mgr.instSel len i)

/-! ### Migration (R370, R371) -/

/-- TW_RING_CFG or SL_RING_CFG. -/
def ringCfgWord (r : Ring) : Nat := r.sizeLog2 + 2 ^ 31 * b2n r.enable

/-- TW_IRQ_CTL, or SL_IRQ of a slice. -/
def irqCtlWord (slice : Bool) (r : Ring) : Nat :=
  2 ^ 31 * b2n r.irqEnable + (if slice then 0 else 2 ^ 16 * r.coalTime + r.coalCount * 2 ^ 8)

/-- The image of an instance (Table 10.5). -/
def instImage (i : Inst) : List Byte :=
  let r := i.ring
  let b := leBytes 4 0x4B374D49 ++ leBytes 2 1 ++ leBytes 1 (b2n i.slice) ++ leBytes 1 0 ++ leBytes 8 r.base
    ++ leBytes 4 (ringCfgWord r) ++ leBytes 2 r.head ++ leBytes 2 r.tail ++ leBytes 1 (b2n r.phase)
    ++ leBytes 1 (b2n i.feat.writeBack) ++ leBytes 1 i.feat.shrinkMargin ++ leBytes 1 i.feat.codecContexts
    ++ leBytes 4 (irqCtlWord i.slice r) ++ leBytes 4 i.feat.spanBudget ++ leBytes 2 i.feat.eventMask ++ leBytes 10 0
    ++ leBytes 8 i.feat.spanResend ++ leBytes 120 0 ++ leBytes 76 0
  b ++ leBytes 4 (crc32c b)

/-- RESULT of MGR_MIG_STS. -/
def migResult (r : Nat) (s : State) : State := { s with mgr := { s.mgr with migResult := r } }

/-- EXPORT: a write of MGR_MIG_CTL with OP 1; `hostError` says that the image could not be written (log entry 79). -/
def execExport (fn : Fin 2) (hostError : Bool) (s : State) : Out :=
  act s (bar0Answers s fn 0x4308) (fun s =>
    match Tbl.get? s.insts s.mgr.instSel with
    | none => migResult 2 s
    | some i =>
      if !(i.st == .drained) then migResult 2 s
      else if hostError then migResult 4 s
      else migResult 1 (hostWrite 0 s.mgr.migAddr (instImage i) s))

/-- Does an image match the instance, with every field in its range? (log entry 79) -/
def imageLegal (i : Inst) (b : List Byte) : Bool :=
  let size := bits (field b 16 4) 0 31
  let irq := field b 28 4
  field b 0 4 == 0x4B374D49 && field b 4 2 == 1 && field b 252 4 == crc32c (b.take 252) && field b 6 1 == b2n i.slice
    && field b 7 1 == 0 && field b 8 8 % 4096 == 0
    && (if i.slice then decide (6 ≤ size ∧ size ≤ 12) else decide (9 ≤ size ∧ size ≤ 16))
    && decide (field b 20 2 < 2 ^ size ∧ field b 22 2 < 2 ^ size) && decide (field b 24 1 ≤ 1)
    && featureValueLegal 0x01 (field b 25 1) && featureValueLegal 0x11 (field b 26 1) && featureValueLegal 0x10 (field b 27 1)
    && bits irq 0 8 == 0 && bits irq 28 3 == 0 && (!i.slice || bits irq 0 31 == 0)
    && featureValueLegal 0x02 (field b 32 4) && allZero (bytesAt b 38 10) && featureValueLegal 0x20 (field b 48 8)
    && allZero (bytesAt b 56 196)

/-- May WRITE_BACK be set (R67)? -/
def writeBackAllowed (s : State) : Bool := s.hif.wbAllow && holdupOk s

/-- The instance as an image gives it. -/
def importImage (s : State) (b : List Byte) (i : Inst) : Inst :=
  let cfg := field b 16 4
  let irq := field b 28 4
  { i with
    ring := { i.ring with
      base := field b 8 8, enable := bit cfg 31, sizeLog2 := bits cfg 0 31, head := field b 20 2, tail := field b 22 2
      phase := bit (field b 24 1) 0, irqEnable := bit irq 31, coalTime := bits irq 16 12, coalCount := bits irq 8 8 }
    feat := { i.feat with
      writeBack := bit (field b 25 1) 0 && writeBackAllowed s, shrinkMargin := field b 26 1, codecContexts := field b 27 1
      spanBudget := field b 32 4, eventMask := field b 36 2, spanResend := field b 48 8 } }

/-- IMPORT: a write of MGR_MIG_CTL with OP 2 (log entry 79). -/
def execImport (fn : Fin 2) (hostError : Bool) (s : State) : Out :=
  act s (bar0Answers s fn 0x4308) (fun s =>
    let b := hostRead s 0 s.mgr.migAddr 256
    match Tbl.get? s.insts s.mgr.instSel with
    | none => migResult 2 s
    | some i =>
      if !(i.st == .active) || i.ring.enable || !(busyOf s s.mgr.instSel).isEmpty then migResult 2 s
      else if hostError then migResult 4 s
      else if !imageLegal i b then migResult 3 s
      else migResult 1 (modInst s.mgr.instSel (importImage s b) s))

/-! ### Page logs (R366 to R369) -/

/-- Change page log `k`. -/
def modLog (k : Nat) (f : PLog → PLog) (s : State) : State :=
  { s with mgr := { s.mgr with logs := Tbl.set s.mgr.logs k (f (Tbl.getD s.mgr.logs k resetPLog)) } }

/-- A write of MGR_LOG_CTL_k: the fields change only while ENABLE is 0, and no two enabled logs name one instance. While ENABLE
is 1 a write that does more than clear it leaves the register (R488). -/
def writeLogCtl (k v : Nat) (s : State) : State :=
  let l := Tbl.getD s.mgr.logs k resetPLog
  let only := bits v 16 6 == l.inst && bits v 0 5 == l.sizeLog2
  let l := if l.enable then l
    else { l with inst := if bits v 16 6 = 0 then l.inst else bits v 16 6
                  sizeLog2 := if 9 ≤ bits v 0 5 ∧ bits v 0 5 ≤ 20 then bits v 0 5 else l.sizeLog2 }
  let taken := s.mgr.logs.any (fun p => !(p.1 == k) && p.2.enable && p.2.inst == l.inst)
  let l := if !bit v 31 then (if l.enable && !only then l else { l with enable := false })
    else if l.enable || taken then l
    else { l with enable := true, head := 0, tail := 0, marker := 0, phase := true, remembered := [], owed := [], syncs := []
                  stalled := false }
  modLog k (fun _ => l) s

/-- MGR_LOG_CTL_WRITE. -/
def execMgrLogCtlWrite (fn : Fin 2) (k : Fin 4) (value : BitVec 32) (s : State) : Out :=
  act s (bar0Answers s fn 0x4400) (writeLogCtl k value.toNat)

/-- Append one entry to a log: `x` holds PAGE and MARKER (log entry 80). -/
def appendLog (k x : Nat) (f : PLog → PLog) (s : State) : State :=
  let l := Tbl.getD s.mgr.logs k resetPLog
  let t := (l.tail + 1) % 2 ^ l.sizeLog2
  let s := hostWrite 0 (l.base + 8 * l.tail) (leBytes 8 (x + b2n l.phase)) s
  modLog k (fun l => f { l with tail := t, phase := if t = 0 then !l.phase else l.phase }) s

/-- An entry was written: it counts for every SYNC that waits, and its page is remembered, of at most 512 (log entry 80). -/
def entryWritten (l : PLog) : PLog :=
  match l.owed with
  | [] => l
  | pg :: rest =>
    let r := l.remembered ++ [pg]
    { l with owed := rest, syncs := l.syncs.map (fun n => n - 1), stalled := false, remembered := r.drop (r.length - 512) }

/-- PAGE_LOG_ENTRY: the next page owed is listed, or its write is held for log space and counted once. -/
def execPageLogEntry (k : Fin 4) (s : State) : Out :=
  let l := Tbl.getD s.mgr.logs k resetPLog
  match l.owed with
  | [] => .next s
  | pg :: _ =>
    act s (powered s && l.enable && !(l.syncs.headD 1 == 0) && portLive s ((Tbl.get? s.insts 0).elim 0 (fun i => i.port))) (fun s =>
      if logFull l then
        if l.stalled then s else modLog k (fun l => { l with stalled := true, stalls := satInc l.stalls 0xFFFF }) s
      else appendLog k (4096 * pg) entryWritten s)

/-- SYNC: a write of MGR_LOG_SYNC_k with SYNC 1. -/
def execSync (fn : Fin 2) (k : Fin 4) (s : State) : Out :=
  act s (bar0Answers s fn 0x4414 && (Tbl.getD s.mgr.logs k resetPLog).enable)
    (modLog k (fun l => { l with syncs := l.syncs ++ [l.owed.length] }))

/-- LOG_MARKER: every page owed before the SYNC is listed: the marker is appended and the pages are forgotten. -/
def execLogMarker (k : Fin 4) (s : State) : Out :=
  let l := Tbl.getD s.mgr.logs k resetPLog
  act s (powered s && l.enable && l.syncs.headD 1 == 0 && !logFull l
      && portLive s ((Tbl.get? s.insts 0).elim 0 (fun i => i.port)))
    (appendLog k (4096 * (l.marker + 1) + 2) (fun l =>
      { l with marker := l.marker + 1, remembered := [], syncs := l.syncs.drop 1 }))

end Sys2Proof.Machine
end

