-- ==== Sys2Proof/Machine/Memories.lean ====
section
/-! DEFINITION. Rows of the memories and the cache: scrub, repairs, side failure, fills, drains, way power, injection (R319 to
R341). -/

namespace Sys2Proof.Machine

/-! ### The SRAM scrubber (R323) -/

/-- Bit errors that nature made since, by address: code positions that flip. -/
def flipSram (t : Tbl (List Nat)) (fs : List (Nat × List Nat)) : Tbl (List Nat) :=
  fs.foldl (fun t f => setErr t f.1 (toggleAll (Tbl.getD t f.1 []) (f.2.filter (fun p => decide (p ≤ 12))))) t

/-- A byte as stored, its flips dropped once the corrected byte is rewritten. -/
def correctedByte (b : Byte) (ps : List Nat) : Byte := (dataCorrected [b] ps).headD b

/-- Note an uncorrectable error of a bank, kept for 10 ms (R320) (log entry 78). -/
def noteBankError (a : Nat) (s : State) : State :=
  let e := (servingBank s.mem (a / 256 % 32), a / 8192)
  let keep := s.mem.recent.filter (fun r => !((r.1, r.2.1) == e) && decide (s.now ≤ 10000 + r.2.2))
  { s with mem := { s.mem with recent := keep ++ [(e.1, e.2, s.now)] } }

/-- Where the other copy of a byte of the twin region lies. -/
def twinOf (m : Mem) (a : Nat) : Option Nat :=
  if inTwin m a then some (a + m.twinSize)
  else if m.twinBase + m.twinSize ≤ a ∧ a < m.twinBase + 2 * m.twinSize then some (a - m.twinSize) else none

/-- Restore a byte of the twin region from its other copy, where that one decodes. -/
def restoreTwin (a : Nat) (s : State) : State :=
  match twinOf s.mem a with
  | none => s
  | some c =>
    let ps := Tbl.getD s.mem.hogErr c []
    if decodes (verdict 12 ps) then
      let b := Cells.read s.mem.hog c
      hogStoreOne a (if verdict 12 ps = .clean then b else correctedByte b ps) s
    else s

/-- The scrubber reads one byte of Hogshead that holds an error; `hard` says that it persists after the rewrite. -/
def scrubHog (a : Nat) (ps : List Nat) (hard : Bool) (s : State) : State :=
  let unit := servingBank s.mem (a / 256 % 32)
  match verdict 12 ps with
  | .clean => s
  | .corrected =>
    let s := hogStoreOne a (correctedByte (Cells.read s.mem.hog a) ps) (countSram a 0 unit false s)
    if hard then remapGranule a s else s
  | _ => restoreTwin a (remapGranule a (noteBankError a (countSram a 0 unit true s)))

/-- The scrubber reads one byte of a Firkin that holds an error. -/
def scrubFirkin (a : Nat) (ps : List Nat) (hard : Bool) (s : State) : State :=
  let e := a / 2 ^ 19
  let off := a % 2 ^ 19
  match verdict 12 ps with
  | .clean => s
  | .corrected =>
    let s := firkinStore e off (correctedByte (Cells.read s.mem.firkin a) ps) (countSram off 1 e false s)
    if hard then remapLine e (off / 64) s else s
  | _ => remapLine e (off / 64) (countSram off 1 e true s)

/-- The byte of Hogshead that a byte of the remap store stands for: the granule of its entry, by logical address
(log entry 74). -/
def remapTarget (m : Mem) (a : Nat) : Option Nat :=
  (Tbl.get? m.remaps (a / 256)).bind (fun r =>
    ((List.range 32).find? (fun b => servingBank m b == r.unit)).map (fun b => (r.line * 32 + b) * 256 + a % 256))

/-- The scrubber meets the flips `ps` in a byte of the remap store (log entry 74). -/
def scrubStore (a : Nat) (ps : List Nat) (s : State) : State :=
  match verdict 12 ps with
  | .clean => s
  | .corrected => countSram a 2 0 false s
  | _ =>
    let s := countSram a 2 0 true s
    match remapTarget s.mem a with
    | some h => restoreTwin h { s with mem := { s.mem with hogErr := setErr s.mem.hogErr h ps } }
    | none => s

/-- The scrubber meets the flips `ps` in a byte of the trace ring: a record with an uncorrectable byte reads with KIND 0. -/
def scrubTrace (a : Nat) (ps : List Nat) (s : State) : State :=
  match verdict 12 ps with
  | .clean => s
  | .corrected => countSram a 3 0 false s
  | _ => { countSram a 3 0 true s with sch := { s.sch with trace := Tbl.modify s.sch.trace (a / 16) (fun r => overlay r 8 [0]) } }

/-- The scrubber reads bytes [first, first + len) of a memory (log entry 70). -/
def scrubSram (target first len : Nat) (nature : List (Nat × List Nat)) (hard : List Nat) (s : State) : State :=
  let within (a : Nat) : Bool := decide (first ≤ a ∧ a < first + len)
  let fs := nature.filter (fun f => within f.1)
  if target = 0 then
    let s := { s with mem := { s.mem with hogErr := flipSram s.mem.hogErr (fs.filter (fun f => decide (f.1 < 2 ^ 25))) } }
    (s.mem.hogErr.filter (fun p => within p.1)).foldl (fun s p => scrubHog p.1 p.2 (hard.contains p.1) s) s
  else if target = 1 then
    let s := { s with mem := { s.mem with firkinErr := flipSram s.mem.firkinErr (fs.filter (fun f => decide (f.1 < 36 * 2 ^ 19))) } }
    (s.mem.firkinErr.filter (fun p => within p.1)).foldl (fun s p => scrubFirkin p.1 p.2 (hard.contains p.1) s) s
  else if target = 2 then fs.foldl (fun s f => scrubStore f.1 f.2 s) s
  else fs.foldl (fun s f => scrubTrace f.1 f.2 s) s

/-- SRAM_SCRUB over bytes of Hogshead (`target` 0), the Firkins (1), the remap store (2) or the trace ring (3). `nature` are
bit errors that have come about there, `hard` the bytes whose error persists after the rewrite, and `pass` ends a full
pass. -/
def execSramScrub (target : Fin 4) (first len : Nat) (nature : List (Nat × List Nat)) (hard : List Nat) (pass : Bool)
    (s : State) : Out :=
  act s (powered s && !flushing s && s.mem.sramScrubEn) (fun s =>
    let s := scrubSram target first len nature hard s
    if pass then { s with mem := { s.mem with sramPassAt := s.now } } else s)

/-! ### The DRAM scrubber (R324) -/

/-- Bit errors that nature made in granules of a side. -/
def flipSide (b : Bool) (fs : List (Nat × List Nat)) (s : State) : State :=
  fs.foldl (fun s f => modSide b (fun x =>
    { x with errs := setErr x.errs f.1 (toggleAll (Tbl.getD x.errs f.1 []) (f.2.filter (fun p => decide (p ≤ 522)))) }) s) s

/-- The scrubber reads one granule that holds an error. A poisoned granule stays as it is (log entries 70, 73). -/
def scrubGranule (b : Bool) (g : Nat) (s : State) : State :=
  let off := g * 64
  let ps := sideErrs s b off
  let other := sideErrs s (!b) off
  match verdict 522 ps with
  | .clean => s
  | .corrected => sideStore b off (dataCorrected (sideData s b off) ps) [] (countCorrected b off s)
  | v =>
    let s := countBad b off v s
    if off < 2 ^ 20 * s.drc.mirrorMib ∧ sideServes s (!b) = true ∧ decodes (verdict 522 other) = true then
      countRepair (sideStore b off (decoded s (!b) off) [] s)
    else if v = .poison then s
    else storePoison b off (dataRead (sideData s b off) ps) s

/-- DRAM_SCRUB of granules [first, first + count) of a side; `pass` ends a full pass over every side in service. -/
def execDramScrub (sideB : Bool) (first count : Nat) (nature : List (Nat × List Nat)) (pass : Bool) (s : State) : Out :=
  act s (powered s && !flushing s && s.mem.dramScrubEn && sideServes s sideB) (fun s =>
    let within (g : Nat) : Bool := decide (first ≤ g ∧ g < first + count)
    let s := flipSide sideB (nature.filter (fun f => within f.1)) s
    let s := (((sideOf s sideB).errs.map Prod.fst).filter within).foldl (fun s g => scrubGranule sideB g s) s
    if pass then { s with mem := { s.mem with dramPassAt := s.now } } else s)

/-! ### Repairs (R320, R321) -/

/-- Is the bank to be replaced, for the reason given: 0 a 65th remap, 1 a failed test, 2 sixteen uncorrectable errors within
10 ms, 3 its address decoder? -/
def bankDue (s : State) (unit reason : Nat) : Bool :=
  if reason = 0 then decide (64 ≤ bankRemaps s.mem unit) || !(Tbl.lowestFree s.mem.remaps 0 512).isSome
    || s.mem.remapFailed
  else if reason = 2 then
    decide (16 ≤ (s.mem.recent.filter (fun r => r.1 == unit && decide (s.now ≤ 10000 + r.2.2))).length)
  else true

/-- Every byte of a granule becomes the code of 0x00 with c1 and c2 inverted. -/
def wreckGranule (b g : Nat) (m : Mem) : Mem :=
  let a := (g * 32 + b) * 256
  { m with hog := Cells.clear m.hog a 256
           hogErr := (List.range 256).foldl (fun t i => Tbl.set t (a + i) [1, 2]) m.hogErr }

/-- HOGSHEAD_BANK_REPLACE: bank `unit` gives way to a standing spare; `unreadable` are the bank-local granules that could not
be read, and `ns` the interruption. -/
def execHogsheadBankReplace (unit : Fin 34) (reason : Fin 4) (unreadable : List (Fin 4096)) (ns : Nat) (s : State) : Out :=
  match (List.range 32).find? (fun b => servingBank s.mem b == unit.val), bankSpare s with
  | some b, some sp =>
    act s (powered s && unitOk s.mem.bankOk unit && bankDue s unit reason && !(sp == unit.val)) (fun s =>
      let m := s.mem
      let m := { m with
        bankOk := setBit m.bankOk unit false
        bank32 := if sp = 32 then b else if unit.val = 32 then 0xFF else m.bank32
        bank33 := if sp = 33 then b else if unit.val = 33 then 0xFF else m.bank33
        remaps := m.remaps.filter (fun r => !(r.2.unit == unit.val))
        recent := m.recent.filter (fun r => !(r.1 == unit.val)) }
      let m := unreadable.foldl (fun m g => wreckGranule b g.val m) m
      let s := noteRepair 2 unit sp { s with mem := m }
      let s := unreadable.foldl (fun s g =>
        (List.range 256).foldl (fun s i => restoreTwin ((g.val * 32 + b) * 256 + i) s) s) s
      takeover 9 unit sp ns s)
  | _, _ => .next s

/-- FIRKIN_LINE_REMAP: a failing line takes a spare line; with none left the engine is retired at its next checkpoint commit,
or at once when it runs nothing. -/
def execFirkinLineRemap (engine : Fin 36) (line : Fin 8192) (ns : Nat) (s : State) : Out :=
  match Tbl.get? s.sch.engines engine with
  | none => .next s
  | some x =>
    act s (powered s && (x.role == .inService || x.role == .spare) && !lineRemapped s.mem engine line
        && !(s.mem.retiring.any (fun r => r.1 == engine.val))) (fun s =>
      if firkinLines s.mem engine < 32 then remapLine engine line s
      else if x.role = .spare then settleFaults (modEngine engine (fun x => { x with role := .failed }) s)
      else
        let s := { s with mem := { s.mem with retiring := s.mem.retiring ++ [(engine.val, ns)] } }
        if x.ctx.isNone then retireDue engine s else s)

/-- Is a side due to fail, for the reason given: 0 sixteen uncorrectable granules within 10 ms, 1 its controller or PHY, 2 a
retraining? -/
def sideDue (s : State) (b : Bool) (reason : Nat) : Bool :=
  if reason = 0 then decide (16 ≤ ((sideOf s b).recent.filter (fun r => decide (s.now ≤ 10000 + r.2))).length)
  else if reason = 2 then (sideOf s b).retraining.isSome else true

/-- A DRAM side fails: it is out until a power-on reset, the packages held on it go, and the takeover is reported (R328). -/
def failSide (b : Bool) (dropped : List (Nat × Nat)) (ns : Nat) (s : State) : State :=
  let s := modSide b (fun x => { x with st := .failed, retrain := false, retraining := none, logged := [] }) s
  let s := { s with bsh := { s.bsh with packages := s.bsh.packages.filter (fun p => !dropped.contains (p.vol, p.lba)) } }
  takeover 10 (b2n b) 0xFF ns s

/-- DRAM_SIDE_FAIL: `dropped` are the packages (volume, LBA) that the side held. The units whose buffer lay on the side
re-run as R21 lays down: STAGE_UNIT_DONE. -/
def execDramSideFail (sideB : Bool) (reason : Fin 3) (dropped : List (Nat × Nat)) (ns : Nat) (s : State) : Out :=
  let st := (sideOf s sideB).st
  act s (powered s && (st == .inService || st == .shed || st == .training) && sideDue s sideB reason)
    (failSide sideB dropped ns)

/-! ### The cache (R329 to R337) -/

/-- CACHE_FILL: after the reads `reads` (class, line) have looked the cache up, the fetch of `line` returns. `nature` are bit
errors that have come about in granules, by side. -/
def execCacheFill (reads : List (Fin 4 × Nat)) (line : Nat) (nature : List (Bool × Nat × List Nat)) (s : State) : Out :=
  let c := reads.foldl (fun c r => lookup s.now r.1 r.2 c) s.cch
  match c.fills.find? (fun f => f.1 == line) with
  | none => .next s
  | some f =>
    act s (powered s && !(c.wbuf.any (fun e => e.line == line)) && !dramHeld s (line * 128)) (fun s =>
      let s := { s with cch := { c with fills := c.fills.filter (fun x => !(x.1 == line)) } }
      let s := nature.foldl (fun s x => flipSide x.1 [(x.2.1, x.2.2)] s) s
      let r := dramReadLine line s
      match f.2, r.1 with
      | some w, true =>
        let q := freshLine r.2 line
        { q.2 with cch := install w q.1 q.2.cch }
      | _, _ => r.2)

/-- PREFETCH: the lines that follow a stream's last miss come into the side buffer, but those already there. -/
def execPrefetch (cls : Fin 4) (line : Nat) (nature : List (Bool × Nat × List Nat)) (s : State) : Out :=
  let is (t : Stream) : Bool := t.cls == cls.val && t.line == line && t.due
  act s (powered s && s.cch.enable && s.cch.enabled && s.cch.prefetchEn && s.cch.streams.any is) (fun s =>
    let s := nature.foldl (fun s x => flipSide x.1 [(x.2.1, x.2.2)] s) s
    let s := { s with cch := { s.cch with streams := s.cch.streams.map (fun t => if is t then { t with due := false } else t) } }
    (List.range s.cch.pfDepth).foldl (fun s i =>
      let l := line + 1 + i
      if cached s.cch l then s
      else
        let r := dramReadLine l s
        if r.1 then
          let q := freshLine r.2 l
          { q.2 with cch := pushSide q.1 q.2.cch }
        else r.2) s)

/-- WRITE_BUFFER_DRAIN: the oldest entry is written to DRAM; a disable or a way's power-down that waited for the empty buffer
completes. -/
def execWriteBufferDrain (nature : List (Bool × Nat × List Nat)) (s : State) : Out :=
  match s.cch.wbuf with
  | [] => .next s
  | e :: _ =>
    act s (powered s && !dramHeld s (e.line * 128)) (fun s =>
      settleCache (drainFirst (nature.foldl (fun s x => flipSide x.1 [(x.2.1, x.2.2)] s) s)))

/-- CACHE_DISABLE: a write of CCH_CTL with ENABLE 0. -/
def execCacheDisable (fn : Fin 2) (value : BitVec 32) (s : State) : Out :=
  act s (bar0Answers s fn 0xE000 && !bit value.toNat 0) (writeCchCtl value.toNat)

/-- CACHE_ENABLE: a write of CCH_CTL with ENABLE 1. -/
def execCacheEnable (fn : Fin 2) (value : BitVec 32) (s : State) : Out :=
  act s (bar0Answers s fn 0xE000 && bit value.toNat 0) (writeCchCtl value.toNat)

/-- CCH_WAY_PWR_WRITE. -/
def execCchWayPwrWrite (fn : Fin 2) (value : BitVec 32) (s : State) : Out :=
  act s (bar0Answers s fn 0xE008) (writeWayPwr value.toNat)

/-- CACHE_WAY_FAULT: eight parity errors of one way within a millisecond power it down. -/
def execCacheWayFault (way : Fin 16) (ns : Nat) (s : State) : Out :=
  let errs := s.cch.parityTimes.filter (fun p => p.1 == way.val && decide (s.now ≤ 1000 + p.2))
  act s (powered s && !bit s.cch.wayPwr way && decide (8 ≤ errs.length)) (fun s =>
    takeover 16 way 0xFF ns (writeWayPwr (setBit s.cch.wayPwr way true) s))

/-! ### Injection (R341) -/

/-- Is a code position legal for a target of MEM_INJ_CTL? -/
def injBitLegal (target p : Nat) : Bool :=
  if target ≤ 1 then decide (p ≤ 12) else if target ≤ 3 then decide (p ≤ 522) else decide (p < 1024)

/-- A write of MEM_INJ_CTL: a value outside a field's range leaves that field. -/
def writeInjCtl (v : Nat) (s : State) : State :=
  let m := s.mem
  let target := if bits v 28 3 ≤ 5 then bits v 28 3 else m.injTarget
  let mode := bits v 26 2
  { s with mem := { m with
      injArm := bit v 31, injTarget := target
      injMode := if mode = 3 ∧ ¬(target = 2 ∨ target = 3) then m.injMode else mode
      injEngine := if bits v 20 6 < 36 then bits v 20 6 else m.injEngine
      injA := if injBitLegal target (bits v 0 10) then bits v 0 10 else m.injA
      injB := if injBitLegal target (bits v 10 10) then bits v 10 10 else m.injB } }

/-- MEM_INJ_ARM: a write of MEM_INJ_CTL with ARM 1. -/
def execMemInjArm (fn : Fin 2) (value : BitVec 32) (s : State) : Out :=
  act s (bar0Answers s fn 0xF034 && bit value.toNat 31) (writeInjCtl value.toNat)

end Sys2Proof.Machine
end

