-- ==== Sys2Proof/Machine/Avail.lean ====
section
/-! DEFINITION. Host read errors, checked pairs, reference clocks, host ports and the test of the spares (R408 to R413,
R499). -/

namespace Sys2Proof.Machine

/-! ### HOST_READ_ERROR (R499) -/

/-- Does a command of this opcode read what the operand names: 0 the input in its buffer, 1 a dictionary, 2 a window
reference, 3 the scatter list? -/
def readsHost (what : Fin 4) (p : List Byte) : Bool :=
  let op := pkOpcode p
  if what.val = 3 then pkSgl p
  else if what.val = 2 then op == opCodec || op == opCodecResume
  else if what.val = 1 then op == opCodec || op == opCodecResume || op == opCodecRestore
  else [opWrite, opInstallChunk, opProgramLoad, opCodec, opCodecResume, opCodecRestore, opLicenseLoad, opSealOpen,
        opFwStage].contains op

/-- HOST_ERRORS counts the read. -/
def countHostError (s : State) : State :=
  { s with hif := { s.hif with hostErrors := satInc s.hif.hostErrors 0xFFFF } }

/-- RESULT0 of a codec job whose read failed. -/
def codecReadField (what : Fin 4) : Nat := if what.val = 1 then 20 else if what.val = 2 then 36 else 24

/-- The command whose read failed ends. `units` atomic units of a write were read in full (log entry 83). -/
def readErrorEnds (n : Nat) (what : Fin 4) (units : Nat) (p : List Byte) (k : Nat) (s : State) : State :=
  let op := pkOpcode p
  if op = opCodecRestore then badField k 24 (putCtx n (pkContext p) none s)
  else if what.val = 3 then badField k 24 s
  else if op = opWrite then writeDone n stWriteFault units p k s
  else if op = opInstallChunk then installDone n stWriteFault units [] p k s
  else if op = opCodec ∨ op = opCodecResume then
    codecFails n (pkContext p) k stBadField (codecReadField what) 0
      (codecOutput n (field p 36 8) (field p 44 4) [] true s)
  else badField k 24 s

/-- HOST_READ_ERROR: a memory read of a running command ends in an error completion or a timeout (log entry 83). -/
def execHostReadError (inst : Fin 64) (tag : Fin 256) (what : Fin 4) (units : Nat) (s : State) : Out :=
  let k := tagKey inst tag
  match Tbl.get? s.tags k with
  | none => .next s
  | some t =>
    let op := pkOpcode t.packet
    act s (serving s && t.work == .working && (t.st == .running || t.st == .stopping) && !abortComing s k
        && readsHost what t.packet && (!(op == opWrite || op == opInstallChunk) || what.val == 3 || lockHeld s k)
        && (!(op == opCodec || op == opCodecResume) || mayWrite s inst))
      (fun s => readErrorEnds inst what units t.packet k (countHostError s))

/-! ### Checked pairs (R408) -/

/-- PAIR_MISCOMPARE: `pass` says that one copy passed its self-check. -/
def execPairMiscompare (pair : Fin 22) (pass : Bool) (ns : Nat) (s : State) : Out :=
  act s (powered s) (fun s =>
    if pass && !bit s.pwr.pairsSingle pair then
      let s := { s with pwr := { s.pwr with pairsSingle := setBit s.pwr.pairsSingle pair true } }
      takeover 17 pair 0xFF ns (logHealth 0x0029 0xFF 0xFFFF pair 0 1 [] s)
    else internalReset 4 false s)

/-! ### Reference clocks (R31, R413) -/

/-- The present root reference. -/
def rootRef (s : State) : Nat := b2n s.clk.rootActive

/-- A PLL loses its lock, or its reference its limits (log entries 86, 144). -/
def dropRefClock (ref : Nat) (s : State) : State :=
  if ref = 0 then { s with clk := { s.clk with refOk0 := false, lock0 := false, lostAt0 := s.now } }
  else { s with clk := { s.clk with refOk1 := false, lock1 := false, lostAt1 := s.now } }

/-- The hitless switch to the standby PLL: counted and logged (log entry 85). -/
def switchRoot (s : State) : State :=
  let s := { s with clk := { s.clk with
    rootActive := !s.clk.rootActive, switchCount := satInc s.clk.switchCount 0xFFFF, rootPending := false } }
  logHealth 0x0026 0xFF 0xFFFF (rootRef s) 0 1 [] s

/-- REFCLK_LOSS: reference `ref` is lost (log entries 86, 144). -/
def execRefclkLoss (ref : Fin 2) (ns : Nat) (s : State) : Out :=
  act s (powered s && (if ref.val = 0 then s.clk.refOk0 else s.clk.refOk1)) (fun s =>
    if ref.val = rootRef s then
      if s.clk.autoSwitch && standbyLocked s then
        let s := switchRoot (dropRefClock ref s)
        takeover 15 ref (rootRef s) ns s
      else internalReset 3 (!(if ref.val = 0 then s.clk.refOk1 else s.clk.refOk0)) (dropRefClock ref s)
    else settleFaults (dropRefClock ref s))

/-- A ROOT_REQ that waits takes effect once the standby PLL is locked (Table 1.9) (log entry 85). -/
def settleRoot (s : State) : State :=
  if s.clk.rootPending && s.clk.rootReq == s.clk.rootActive then { s with clk := { s.clk with rootPending := false } }
  else if s.clk.rootPending && standbyLocked s then switchRoot s else s

/-- PLL_RELOCK: the reference of a PLL that is not locked has been within limits for 100 ms (log entry 86). -/
def execPllRelock (ref : Fin 2) (s : State) : Out :=
  let locked := if ref.val = 0 then s.clk.lock0 else s.clk.lock1
  let ok := if ref.val = 0 then s.clk.refOk0 else s.clk.refOk1
  let lost := if ref.val = 0 then s.clk.lostAt0 else s.clk.lostAt1
  act s (powered s && decide (2 ≤ s.glb.stage) && s.clk.stbyEn && !locked && (ok || decide (100000 + lost ≤ s.now))) (fun s =>
    settleRoot (if ref.val = 0 then { s with clk := { s.clk with refOk0 := true, lock0 := true } }
      else { s with clk := { s.clk with refOk1 := true, lock1 := true } }))

/-- A write of CLK_ROOT_CTL. With STBY_EN at 0 the standby PLL does not run (log entry 85). -/
def writeRootCtl (v : Nat) (s : State) : State :=
  let req := bit v 0
  let stby := bit v 2
  let s := { s with clk := { s.clk with
    stbyEn := stby, autoSwitch := bit v 1, rootReq := req
    rootPending := if req == s.clk.rootReq then s.clk.rootPending else !(req == s.clk.rootActive)
    lock0 := s.clk.lock0 && (stby || !s.clk.rootActive), lock1 := s.clk.lock1 && (stby || s.clk.rootActive) } }
  settleFaults (settleRoot s)

/-- ROOT_REQ_CHANGE: a write of CLK_ROOT_CTL that changes ROOT_REQ. -/
def execRootReqChange (fn : Fin 2) (value : BitVec 32) (s : State) : Out :=
  act s (bar0Answers s fn 0x1000 && !(bit value.toNat 0 == s.clk.rootReq)) (writeRootCtl value.toNat)

/-! ### Host ports (R411, R412) -/

/-- Does the other port take over: dual x4, PAIRED set, and its link up? -/
def portCovered (s : State) (p : Nat) : Bool :=
  s.glb.arrangement == 1 && s.hif.paired && (portOf s (1 - p)).linkUp && !(portOf s (1 - p)).perst

/-- The link of a port is down (Table 14.8). -/
def linkDown (q : HPort) : HPort := { q with linkUp := false, pm := 4, width := 0, speed := 0 }

/-- The instances of a failed port move to the other, and the messages that were not acknowledged are sent again. -/
def movePort (p : Nat) (vectors : List Nat) (ns : Nat) (s : State) : State :=
  let moved := Tbl.countIf s.insts (fun _ i => i.port == p)
  let vs := vectors ++ (portOf s p).heldMsix
  let s := modPort p (fun q => { q with heldMsix := [] })
    { s with insts := Tbl.mapVals s.insts (fun _ i => if i.port = p then { i with port := 1 - p } else i) }
  let s := vs.foldl (fun s v => signalPort (1 - p) v s) s
  takeover 13 p (1 - p) ns (logHealth 0x0027 0xFF 0xFFFF p 0 moved [] s)

/-- HOST_PORT_FAIL: `vectors` are the MSI-X messages that the failed link had not acknowledged. -/
def execHostPortFail (port : Fin 2) (vectors : List Nat) (ns : Nat) (s : State) : Out :=
  act s (powered s && (portOf s port).linkUp) (fun s =>
    let covered := portCovered s port
    let s := modPort port (fun q => { linkDown q with failures := satInc q.failures 0xFFFF }) s
    if covered then movePort port vectors ns s
    else settleFaults (modPort port (fun q => { q with heldMsix := vectors ++ q.heldMsix })
      { s with pwr := { s.pwr with portsDown := setBit s.pwr.portsDown port true } }))

/-- The messages that a port held are sent, unless its function is in D3hot (R462). -/
def releaseMsix (p : Nat) (s : State) : State :=
  if portLive s p then
    let vs := (portOf s p).heldMsix
    vs.foldl (fun s v => signalPort p v s) (modPort p (fun q => { q with heldMsix := [] }) s)
  else s

/-- The lanes that a port has in an arrangement: none for port 1 outside the dual x4 arrangement (Table 14.2). -/
def portLanes (s : State) (p : Nat) : Nat :=
  if p = 0 then (if s.glb.arrangement = 0 then 8 else 4) else if s.glb.arrangement = 1 then 4 else 0

/-- Is this a width that a port with `n` lanes can train to? -/
def widthOk (n w : Nat) : Bool := decide (w ≤ n) && (w == 1 || w == 2 || w == 4 || w == 8)

/-- The link of a port is in L0, trained to a width and speed. -/
def linkUpAs (p width speed : Nat) (reversed : Bool) (polarity : Nat) (s : State) : State :=
  releaseMsix p (modPort p (fun q => { q with
    linkUp := true, pm := 0, width := width, speed := speed, reversed := reversed, polarity := polarity % 256 }) s)

/-- The highest link speed (Table 13.5, R458). -/
def maxSpeed (s : State) : Nat := setting s.otp 1 4 1 5 (fun v => decide (1 ≤ v ∧ v ≤ 5))

/-- LINK_RETURN: the link of a port whose PERST_N is released trains to L0; requests that waited go on. -/
def execLinkReturn (port : Fin 2) (width : Nat) (speed : Fin 6) (reversed : Bool) (polarity : Nat) (s : State) : Out :=
  act s (powered s && !(portOf s port).linkUp && !(portOf s port).perst && widthOk (portLanes s port) width
      && decide (1 ≤ speed.val ∧ speed.val ≤ maxSpeed s))
    (fun s => linkUpAs port width speed reversed polarity
      { s with pwr := { s.pwr with portsDown := setBit s.pwr.portsDown port false } })

/-! ### The test of the standing spares (R410) -/

/-- A standing spare of a pool fails its checker test: pools 0 engines, 1 decompression lanes, 2 compression lanes, 3 AES
lanes, 4 public-key engines, 5 soft-decision decoders, 6 index banks, 7 Hogshead banks. -/
def spareFails (pool unit : Nat) (s : State) : State :=
  let off (m : Nat) : Nat := setBit m unit false
  if pool = 0 then
    match Tbl.get? s.sch.engines unit with
    | some e => if e.role = .spare then modEngine unit (fun e => { e with role := .failed }) s else s
    | none => s
  else if pool = 1 then
    if unit = 8 ∧ s.bsh.dReplaced = 0xFF then { s with bsh := { s.bsh with dOk := off s.bsh.dOk } } else s
  else if pool = 2 then
    if unit = 4 ∧ s.bsh.cReplaced = 0xFF then { s with bsh := { s.bsh with cOk := off s.bsh.cOk } } else s
  else if pool = 3 then
    if (unit = 10 ∧ s.sec.a10Replaces = 0xFF) ∨ (unit = 11 ∧ s.sec.a11Replaces = 0xFF) then
      { s with sec := { s.sec with aesOk := off s.sec.aesOk } } else s
  else if pool = 4 then
    if unit = 1 ∧ s.sec.pk1Replaces = 0xFF then { s with sec := { s.sec with pkOk := off s.sec.pkOk } } else s
  else if pool = 5 then
    if unit = 4 ∧ s.flc.softReplaces = 0xFF then { s with flc := { s.flc with softOk := off s.flc.softOk } } else s
  else if pool = 6 then
    if unit = 16 ∧ s.idx.replaces = 0xFF then { s with idx := { s.idx with bankOk := off s.idx.bankOk } } else s
  else if (unit = 32 ∧ s.mem.bank32 = 0xFF) ∨ (unit = 33 ∧ s.mem.bank33 = 0xFF) then
    { s with mem := { s.mem with bankOk := off s.mem.bankOk } }
  else s

/-- SPARE_CHECK: Scruple tests every standing spare, each 10 s; `failing` are the spares that fail. -/
def execSpareCheck (failing : List (Fin 8 × Nat)) (s : State) : Out :=
  act s (powered s && decide (5 ≤ s.glb.stage) && decide (10000000 + s.pwr.spareCheckAt ≤ s.now)) (fun s =>
    settleFaults (failing.foldl (fun s x => spareFails x.1 x.2 s) { s with pwr := { s.pwr with spareCheckAt := s.now } }))

end Sys2Proof.Machine
end

