-- ==== Sys2Proof/Machine/Media.lean ====
section
/-! DEFINITION. The flash in the background: pages read, programmed and erased, the journal, garbage collection, patrol,
refresh, wear levelling, faults of dies and channels, and the service carriers (R252, R268 to R298). -/

namespace Sys2Proof.Machine

/-! ### Pages and blocks -/

/-- Garbage collection has read an allotment of superblock `n`: it is programmed into the target while the map still names
the source; a lost one is skipped (Table 8.8). -/
def gcRead (n vol allot : Nat) (isLost : Bool) (s : State) : State :=
  match Tbl.get? s.flc.superblocks n with
  | none => s
  | some x =>
    if !(x.st == .copying || x.st == .journaling) || !x.refs.contains (vol, allot) then s
    else if isLost then skipRef n vol allot s
    else modSb n (fun b => { b with st := .verifying }) s

/-- PAGE_READ_DONE: a page of block `block` of die `die`. `cws` gives for each code word the step of Table 8.7 that decoded
it (0 or 1 without the ladder, 6 when none did), `weak` says that more than 120 bits of one were corrected, `lost` are the
blocks (volume, LBA) that lost code words held; `gc` names the superblock and allotment when garbage collection reads. -/
def execPageReadDone (die block : Nat) (cws : List (Fin 7)) (weak : Bool) (offset : Nat) (lost : List (Nat × Nat))
    (gc : Option (Nat × Nat × Nat)) (s : State) : Out :=
  act s (powered s && Tbl.has s.flc.dies die && decide (1 ≤ cws.length ∧ cws.length ≤ 4)) (fun s =>
    let cws := cws.map (fun c => c.val)
    let s := pageRead die block cws weak offset lost s
    match gc with
    | some (n, v, a) => gcRead n v a (decide (0 < atSteps cws 6 6)) s
    | none => s)

/-- The shares of free space that programs and erases leave: new data goes to dense superblocks below 10 % and to the
write buffer again above 20 % (R268); fold and garbage collection rise below 25 % or 1 % and fall above 40 % and 2 %
(R271) (log entry 50). -/
def noteFree (wb dense : Nat) (s : State) : State :=
  { s with flc := { s.flc with
      wbFreePct := wb, denseFreePct := dense
      denseDirect := if wb < 10 then true else if 20 < wb then false else s.flc.denseDirect
      gcRaised := if wb < 25 ∨ dense < 1 then true else if 40 < wb ∧ 2 < dense then false else s.flc.gcRaised } }

/-- A page of a superblock is programmed; the superblock takes the block when this is its first page. -/
def programmed (n die block : Nat) (slc closes : Bool) (s : State) : State :=
  let x : Superblock := match Tbl.get? s.flc.superblocks n with
    | some x => x
    | none => { st := .opened, slc := slc, blocks := [], refs := [], pins := [], written := s.now, toErase := [] }
  let new := !x.blocks.contains (die, block)
  let x := { x with blocks := if new then x.blocks ++ [(die, block)] else x.blocks, written := s.now
                    st := if closes && x.st == .opened then .closed else x.st }
  let s := modDie die (fun d => { d with timeouts := 0, freeBlocks := if new then d.freeBlocks - 1 else d.freeBlocks }) s
  { s with flc := { s.flc with superblocks := Tbl.set s.flc.superblocks n x
                               life := { s.flc.life with mediaWritten := s.flc.life.mediaWritten + 1 } } }

/-- A page program fails: the block is retired and the data goes to another block (R272); the copy of a garbage
collection from `src` is made again (R281). -/
def programFailed (die block : Nat) (src : Option Nat) (s : State) : State :=
  let s := modChan (die / 16) (fun c => { c with progFails := satInc c.progFails 0xFFFF }) s
  let s := { s with flc := { s.flc with life := { s.flc.life with programFails := s.flc.life.programFails + 1 } } }
  let s := logHealth 0x0003 0xFF 0xFFFF die 0 1 [] (modDie die (fun d => { d with timeouts := 0 }) s)
  let s := retireBlock die block 1 s
  match src with
  | some n => modSb n (fun b => if b.st = .verifying then { b with st := .copying } else b) s
  | none => s

/-- PROGRAM_DONE: a page of superblock `sb`; `closes` marks its last page, `src` the source of a garbage collection's
copy, and `wbFree` and `denseFree` the free space in per cent (log entry 50). -/
def execProgramDone (sb die block : Nat) (slc closes pass : Bool) (src : Option Nat) (wbFree denseFree : Fin 101)
    (s : State) : Out :=
  act s (powered s && dieServes s die && chanWrites s (die / 16) && (match Tbl.get? s.flc.superblocks sb with
      | some x => x.st == .opened && x.slc == slc
      | none => true)) (fun s =>
    if pass then noteFree wbFree denseFree (programmed sb die block slc closes s) else programFailed die block src s)

/-- The block is off the list of a superblock's erase; after the last one the superblock is free. -/
def erasedOne (n die block : Nat) (s : State) : State :=
  let s := modSb n (fun b => { b with toErase := b.toErase.filter (fun p => !(p == (die, block))) }) s
  match Tbl.get? s.flc.superblocks n with
  | some x => if x.toErase.isEmpty then { s with flc := { s.flc with superblocks := Tbl.erase s.flc.superblocks n } } else s
  | none => s

/-- ERASE_DONE (R280, R282, R294): the block joins the free pool, or is retired (log entry 50). -/
def execEraseDone (sb die block : Nat) (pass : Bool) (wbFree denseFree : Fin 101) (s : State) : Out :=
  match Tbl.get? s.flc.superblocks sb with
  | none => .next s
  | some x =>
    act s (powered s && chanWrites s (die / 16) && x.st == .erasing && x.toErase.contains (die, block)) (fun s =>
      let s := erasedOne sb die block s
      let s := modDie die (fun d => { d with
        timeouts := 0, reads := Tbl.erase d.reads block
        wear := Tbl.set d.wear block (blockWear d block + eraseCost d.cls x.slc) }) s
      if pass then settleWarnings (noteFree wbFree denseFree (modDie die (fun d => { d with freeBlocks := d.freeBlocks + 1 }) s))
      else
        let s := modChan (die / 16) (fun c => { c with eraseFails := satInc c.eraseFails 0xFFFF }) s
        let s := { s with flc := { s.flc with life := { s.flc.life with eraseFails := s.flc.life.eraseFails + 1 } } }
        retireBlock die block 2 (logHealth 0x0004 0xFF 0xFFFF die 0 1 [] s))

/-! ### The journal (R283 to R286) -/

/-- Host bytes that a held group keeps (R67). -/
def groupHeld (g : Group) : Nat :=
  if !g.held then 0
  else g.entries.foldl (fun a e =>
    match e with
    | .mapSet _ _ _ count _ _ => a + blockBytes * count
    | .trimRange _ _ count => a + blockBytes * count
    | _ => a) 0

/-- The sources whose moves stand in a group. -/
def moveSources (g : Group) : List Nat :=
  g.entries.filterMap (fun e =>
    match e with
    | .mapMove _ _ _ _ src _ => some src
    | _ => none)

/-- The first `n` groups are durable in one page: they take effect, numbers become available, and what waits on them goes
on. -/
def pageDurable (n : Nat) (s : State) : State :=
  let gs := s.flc.groups.take n
  let s := gs.foldl (fun s g => applyGroup g s) s
  let s := { s with flc := { s.flc with
      groups := s.flc.groups.drop n, pageSeq := s.flc.pageSeq + 1
      heldBytes := s.flc.heldBytes - gs.foldl (fun a g => a + groupHeld g) 0 } }
  let s := (gs.flatMap moveSources).foldl (fun s m =>
    modSb m (fun b => if b.st = .journaling then { b with st := .copying } else b) s) s
  let s := drainLog s.flc.logWaiting.length s
  groupsDurable (gs.map (fun g => g.id)) s

/-- JOURNAL_PAGE_DURABLE: a page of the first `n` groups, whole, at most 511 entries, is programmed in both copies. -/
def execJournalPageDurable (n : Nat) (s : State) : Out :=
  let entries := (s.flc.groups.take n).foldl (fun a g => a + g.entries.length) 0
  act s (programsRun s && decide (1 ≤ n ∧ n ≤ s.flc.groups.length ∧ entries ≤ 511)) (pageDurable n)

/-- MAP_SEGMENT_WRITE: segment `seg` (volume * 2^32 + allotment / 524,288) includes every durable page. -/
def execMapSegmentWrite (seg : Nat) (s : State) : Out :=
  act s (programsRun s && s.flc.dirty.contains seg) (fun s =>
    { s with flc := { s.flc with dirty := s.flc.dirty.filter (fun x => !(x == seg))
                                 segSeq := Tbl.set s.flc.segSeq seg (s.flc.pageSeq - 1) } })

/-! ### Garbage collection (R277 to R281) -/

/-- A superblock that must go first: it holds a block of a retired or an evacuating die or a retired block, or a sanitize
waits for it. -/
def needed (s : State) (x : Superblock) : Bool :=
  x.blocks.any (fun p => (Tbl.get? s.flc.dies p.1).elim false (fun d => d.retired)
      || (Tbl.get? s.flc.channels (p.1 / 16)).elim false (fun c => c.st == .evacuating)
      || s.flc.retiredList.any (fun r => r.1 == p.1 && r.2.1 == p.2))
    || s.flc.sanitizing.any (fun y => y.unmapped && !(y.method == 0))

/-- `x` comes before `y` as a source: fewer referenced allotments, or as many and less worn (R279) (log entry 49). -/
def sourceBefore (s : State) (x y : Superblock) : Bool :=
  decide (x.refs.length < y.refs.length)
    || (x.refs.length == y.refs.length && decide (sbWear s x * max y.blocks.length 1 ≤ sbWear s y * max x.blocks.length 1))

/-- May superblock `x` be selected: no other closed superblock of its kind comes before, or it is needed? (log entry 49) -/
def selectable (s : State) (x : Superblock) : Bool :=
  x.st == .closed && (needed s x || s.flc.superblocks.all (fun p =>
    !(p.2.st == .closed && p.2.slc == x.slc) || sourceBefore s x p.2))

/-- May fold or garbage collection run: from THROTTLE_2 on only garbage collection at priority 5 (Table 12.7)?
(log entry 49) -/
def gcRuns (s : State) (fold : Bool) : Bool :=
  powered s && !flushing s && (decide (deviceActions s < 3) || (!fold && s.flc.gcRaised))

/-- GC_SELECT: garbage collection, or a fold of a write-buffer superblock, takes a source. -/
def execGcSelect (sb : Nat) (s : State) : Out :=
  match Tbl.get? s.flc.superblocks sb with
  | none => .next s
  | some x => act s (gcRuns s x.slc && selectable s x) (modSb sb (fun b => { b with st := .copying }))

/-- The entry of a copy in superblock `dst`: the die and page are the device's own choice; poison, kind and length stay. -/
def movedEnt (s : State) (dst : Nat) (e : MapEnt) (i : Nat) : MapEnt :=
  let bs := (Tbl.get? s.flc.superblocks dst).elim [] (fun b => b.blocks)
  let page := Config.freeNat s.fresh (4 * i + 1) % 2 ^ 24
  { e with die := (bs.getD (Config.freeNat s.fresh (4 * i) % max bs.length 1) (0, 0)).1
           page := if e.packed then page else page / 2 * 2
           slot := if e.packed then Config.freeNat s.fresh (4 * i + 2) % 16 else 0 }

/-- Append a MAP_MOVE of an allotment from superblock `src` to `dst` (log entry 57). -/
def appendMove (src dst vol allot : Nat) (s : State) : State :=
  match (vol? s vol).bind (fun u => Tbl.get? u.map allot) with
  | none => s
  | some old => bumpFresh (appendGroup false [.mapMove vol allot old (movedEnt s dst old 0) src dst] s)

/-- Can superblock `dst` take a copy from `src`? -/
def targetOk (s : State) (src dst : Nat) : Bool :=
  !(src == dst) && (match Tbl.get? s.flc.superblocks dst with
    | some x => x.st == .opened && !x.slc
    | none => false)

/-- GC_COPY_VERIFIED: the copy of an allotment of `sb` in `dst` passes verification, and its MAP_MOVE goes to the journal
(log entry 49). -/
def execGcCopyVerified (sb vol allot dst : Nat) (s : State) : Out :=
  match Tbl.get? s.flc.superblocks sb with
  | none => .next s
  | some x =>
    act s (powered s && x.st == .verifying && x.refs.contains (vol, allot) && targetOk s sb dst) (fun s =>
      modSb sb (fun b => { b with st := .journaling }) (appendMove sb dst vol allot s))

/-- GC_ERASE_SOURCE: no allotment is left, every move is durable, no read pins the source. -/
def execGcEraseSource (sb : Nat) (s : State) : Out :=
  match Tbl.get? s.flc.superblocks sb with
  | none => .next s
  | some x =>
    act s (programsRun s && x.st == .copying && x.refs.isEmpty && !movesWait s sb && !pinned s x)
      (modSb sb (fun b => { b with st := .erasing, toErase := b.blocks }))

/-! ### Patrol, refresh, wear levelling (R289 to R291, R294) -/

/-- Does patrol run on a channel (R289, Table 12.7)? -/
def patrolRuns (s : State) (c : Nat) : Bool :=
  powered s && !flushing s && decide (thermalOf s c < 3) && (match Tbl.get? s.flc.channels c with
    | some x => x.patrolEn && (x.st == .inService || x.st == .evacuating)
    | none => false)

/-- PATROL_READ: as PAGE_READ_DONE; recovered code words are logged, a lost parity page marks its stripe, and `last` ends a
pass over the whole media. -/
def execPatrolRead (die block : Nat) (cws : List (Fin 7)) (weak : Bool) (offset : Nat) (lost : List (Nat × Nat))
    (parity last : Bool) (s : State) : Out :=
  act s (patrolRuns s (die / 16) && Tbl.has s.flc.dies die && decide (1 ≤ cws.length ∧ cws.length ≤ 4)) (fun s =>
    let cws := cws.map (fun c => c.val)
    let s := pageRead die block cws weak offset (if parity then [] else lost) s
    let n := atSteps cws 3 5
    let s := if n = 0 then s else logHealth 0x0001 0xFF 0xFFFF die 0 n [] s
    let s := markRefresh die block (parity && decide (0 < atSteps cws 6 6)) s
    if last then { s with flc := { s.flc with life := { s.flc.life with patrolAt := s.now } } } else s)

/-- Is a block due for a refresh (R290)? -/
def refreshDue (s : State) (die block : Nat) : Bool :=
  s.flc.toRefresh.contains (die, block) || (match Tbl.get? s.flc.dies die with
    | some d => decide (Config.disturbReads d.part ≤ Tbl.getD d.reads block 0)
    | none => false)

/-- REFRESH: the allotments that the block holds (of a lost parity page, its stripe) are copied from `sb` to `dst`, as
garbage collection copies them. -/
def execRefresh (sb die block dst : Nat) (allots : List (Nat × Nat)) (s : State) : Out :=
  match Tbl.get? s.flc.superblocks sb with
  | none => .next s
  | some x =>
    act s (powered s && x.blocks.contains (die, block) && refreshDue s die block && allots.all (fun r => x.refs.contains r)
        && targetOk s sb dst) (fun s =>
      let s := allots.foldl (fun s r => appendMove sb dst r.1 r.2 s) s
      let s := modDie die (fun d => { d with reads := Tbl.erase d.reads block }) s
      { s with flc := { s.flc with toRefresh := s.flc.toRefresh.filter (fun p => !(p == (die, block))) } })

/-- Wear of the most and of the least worn block in service, and PE_DENSE of the former. -/
def wearSpread (s : State) : Nat × Nat × Nat :=
  ((diesServing s).filterMap (fun d => Tbl.get? s.flc.dies d)).foldl (fun a x =>
    let hi := x.wear.foldl (fun a p => max a p.2) 0
    let lo := if x.wear.length < x.blocks then 0 else x.wear.foldl (fun a p => min a p.2) hi
    (max a.1 hi, if a.2.2 = 0 then lo else min a.2.1 lo, if a.1 < hi ∨ a.2.2 = 0 then peDense x.cls else a.2.2)) (0, 0, 0)

/-- WEAR_LEVEL_MOVE: the superblock written longest ago becomes a source. -/
def execWearLevelMove (sb : Nat) (s : State) : Out :=
  match Tbl.get? s.flc.superblocks sb with
  | none => .next s
  | some x =>
    let w := wearSpread s
    act s (gcRuns s false && x.st == .closed && decide (w.2.2 * 20 < (w.1 - w.2.1) * 10)
        && s.flc.superblocks.all (fun p => !(p.2.st == .closed) || decide (x.written ≤ p.2.written)))
      (modSb sb (fun b => { b with st := .copying }))

/-! ### Faults of dies and channels (R296, R407) -/

/-- DIE_TIMEOUT: an operation of the die passed its timeout; the third in a row retires the die. -/
def execDieTimeout (die ns : Nat) (s : State) : Out :=
  act s (powered s && dieServes s die) (fun s =>
    let s := takeover 11 die 0xFF ns (modDie die (fun d => { d with timeouts := d.timeouts + 1 }) s)
    match Tbl.get? s.flc.dies die with
    | some d => if 3 ≤ d.timeouts then retireDie die s else s
    | none => s)

/-- REBUILD_DONE: nothing that the map names is left on a retired die. -/
def execRebuildDone (die : Nat) (s : State) : Out :=
  match Tbl.get? s.flc.dies die with
  | none => .next s
  | some d =>
    act s (powered s && d.rebuilding && onDie s die == 0) (fun s =>
      healthWarning 5 die d.relocated (modDie die (fun d => { d with rebuilding := false }) s))

/-- Is the fault of a channel covered: W ≤ C, and no other channel failed or shed? (log entry 56) -/
def channelCovered (s : State) (c : Nat) : Bool :=
  decide (s.flc.stripeW ≤ channelsServing s) && s.flc.channels.all (fun p =>
    p.1 == c || !(p.2.st == .failed || p.2.st == .shed))

/-- A channel fails (log entry 56). -/
def channelLost (c ns : Nat) (s : State) : State :=
  let covered := channelCovered s c
  let was := holdupOk s
  let s := healthWarning 8 c 0 (settleFaults (modChan c (fun x => { x with st := .failed, retraining := none }) s))
  settleWriteBack was (settleReadOnly (if covered then takeover 12 c 0xFF ns s else s))

/-- CHANNEL_LOST, for one of the causes of code 12. -/
def execChannelLost (ch : Fin 16) (ns : Nat) (s : State) : Out :=
  match Tbl.get? s.flc.channels ch with
  | none => .next s
  | some c =>
    act s (powered s && (c.st == .inService || c.st == .shed || c.st == .evacuating || c.st == .training)) (channelLost ch ns)

/-! ### Service carriers (R298) -/

/-- A carrier operation ends with its RESULT, recorded in the health log. -/
def carrierEnds (c op result : Nat) (s : State) : State :=
  logHealth 0x0011 0xFF 0xFFFF c 0 0 [BitVec.ofNat 8 op, BitVec.ofNat 8 result]
    (modChan c (fun x => { x with svcOp := 0, result := result, progress := if result = 1 then 100 else x.progress }) s)

/-- The channels that an evacuation of `c` would leave could not hold U, or would hold fewer than 8 dies. -/
def evacuationRefused (s : State) (c : Nat) : Bool :=
  let t := { s with flc := { s.flc with channels := Tbl.mapVals s.flc.channels (fun k x =>
    if k = c ∨ x.st = .evacuating then { x with st := .evacuated } else x) } }
  decide ((diesServing t).length < 8) || decide (reducedU t < s.flc.usable)

/-- EVACUATE written to FLC_SVC_CTL. -/
def evacuate (c : Nat) (x : Chan) (s : State) : State :=
  if !(x.svcOp == 0) then s
  else if !(x.st == .inService) then carrierEnds c 1 3 s
  else if evacuationRefused s c then carrierEnds c 1 2 s
  else modChan c (fun x => { x with st := .evacuating, svcOp := 1, progress := 0, result := 0 }) s

/-- Nothing that the map or a superblock names is left on a channel. -/
def channelEmpty (s : State) (c : Nat) : Bool :=
  s.flc.dies.all (fun d => !(d.1 / 16 == c) || onDie s d.1 == 0)
    && s.flc.superblocks.all (fun p => p.2.refs.isEmpty || !p.2.blocks.any (fun b => b.1 / 16 == c))

/-- EVACUATE: the write of OP 1, or (`ends`) the end of the copying it began. -/
def execEvacuate (fn : Fin 2) (ch : Fin 16) (ends : Bool) (s : State) : Out :=
  match Tbl.get? s.flc.channels ch with
  | none => .next s
  | some x =>
    if ends then
      act s (powered s && x.svcOp == 1 && channelEmpty s ch) (fun s =>
        settleWriteBack (holdupOk s)
          (carrierEnds ch 1 1 (modChan ch (fun x => if x.st = .evacuating then { x with st := .evacuated } else x) s)))
    else act s (bar0Answers s fn (0x10024 + 0x400 * ch.val)) (evacuate ch x)

/-- RELEASE: applies only to an evacuated channel. -/
def execRelease (fn : Fin 2) (ch : Fin 16) (s : State) : Out :=
  match Tbl.get? s.flc.channels ch with
  | none => .next s
  | some x =>
    act s (bar0Answers s fn (0x10024 + 0x400 * ch.val) && x.svcOp == 0) (fun s =>
      if x.st = .evacuated then carrierEnds ch 2 1 (modChan ch (fun x => { x with st := .released }) s)
      else carrierEnds ch 2 3 s)

/-- The record of a qualified die: its index in the qualified-parts table, class, capacity in GiB, blocks, and blocks that
its factory marks call bad (log entry 52). -/
def newDie (part cls gib blocks bad : Nat) : Die :=
  { present := true, refused := false, retired := false, part := part, cls := cls, capGib := gib, blocks := blocks
    wear := [], freeBlocks := blocks - bad, retiredBlocks := 0, timeouts := 0, rebuilding := false, relocated := 0
    offset := 0, reads := [] }

/-- A die that R252 leaves unused. -/
def refusedDie : Die :=
  { present := true, refused := true, retired := false, part := 0xFF, cls := 0, capGib := 0, blocks := 0, wear := []
    freeBlocks := 0, retiredBlocks := 0, timeouts := 0, rebuilding := false, relocated := 0, offset := 0, reads := [] }

/-- A part refused under R252: PART_REFUSED in the log and as a warning. -/
def refusePart (d : Nat) (s : State) : State := healthWarning 6 d 0 (logHealth 0x0012 0xFF 0xFFFF d 0 1 [] s)

/-- The dies found on a channel: (k, part, class, GiB, blocks, bad blocks); `refused` failed R252 (log entry 52). -/
def fitDies (c : Nat) (dies : List (Fin 16 × Nat × Nat × Nat × Nat × Nat)) (refused : List (Fin 16)) (s : State) : State :=
  let old := s.flc.dies.filter (fun p => !(p.1 / 16 == c))
  let t := dies.foldl (fun t d => Tbl.set t (16 * c + d.1.val) (newDie d.2.1 d.2.2.1 d.2.2.2.1 d.2.2.2.2.1 d.2.2.2.2.2)) old
  let t := refused.foldl (fun t k => Tbl.set t (16 * c + k.val) refusedDie) t
  refused.foldl (fun s k => refusePart (16 * c + k.val) s) { s with flc := { s.flc with dies := t } }

/-- The junction temperature that FLC_TRAIN shows: TS⌊c / 2⌋ in whole degrees, as a byte. -/
def trainTemp (s : State) (sensor : Nat) : Nat :=
  match Tbl.get? s.pwr.sensors sensor with
  | some x => (x.temp / 8 % 256).toNat
  | none => 0

/-- A training of a channel ends well (log entry 51). -/
def channelTrained (c rate : Nat) (s : State) : State :=
  modChan c (fun x => { x with st := .inService, rate := rate, trainCount := satInc x.trainCount 0xFF
                               trainTemp := trainTemp s (c / 2), trainAt := s.now }) s

/-- INSERTED ends: the dies are in service, or a part failed R252 (4), or training failed (6). What of the new capacity
becomes spare is the device's choice (log entry 51). -/
def insertedEnds (c rate : Nat) (trained : Bool) (dies : List (Fin 16 × Nat × Nat × Nat × Nat × Nat)) (refused : List (Fin 16))
    (s : State) : State :=
  if !trained then carrierEnds c 3 6 (modChan c (fun x => { x with st := .released }) s)
  else
    let s := fitDies c dies refused s
    let s := if dies.isEmpty then modChan c (fun x => { x with st := .released }) s else channelTrained c rate s
    let blocks := dies.foldl (fun a d => a + d.2.2.2.2.1) 0
    let s := bumpFresh { s with flc := { s.flc with spareLeft := s.flc.spareLeft + Config.freeNat s.fresh 0 % (blocks + 1) } }
    settleReadOnly (carrierEnds c 3 (if refused.isEmpty then 1 else 4) s)

/-- INSERTED: the write of OP 3 on a released channel, or (`ends`) the end of identifying and training. -/
def execInserted (fn : Fin 2) (ch : Fin 16) (ends trained : Bool) (rate : Nat)
    (dies : List (Fin 16 × Nat × Nat × Nat × Nat × Nat)) (refused : List (Fin 16)) (s : State) : Out :=
  match Tbl.get? s.flc.channels ch with
  | none => .next s
  | some x =>
    if ends then act s (powered s && x.svcOp == 3 && decide (rate ≤ 3200)) (insertedEnds ch rate trained dies refused)
    else act s (bar0Answers s fn (0x10024 + 0x400 * ch.val) && x.svcOp == 0) (fun s =>
      if x.st = .released then modChan ch (fun x => { x with st := .training, svcOp := 3, progress := 0, result := 0 }) s
      else carrierEnds ch 3 3 s)

end Sys2Proof.Machine
end

