-- ==== Sys2Proof/Machine/Supply.lean ====
section
/-! DEFINITION. The supply supervisor and the power-loss flush (R419 to R423). -/

namespace Sys2Proof.Machine

/-! ### Rails (Table 12.4), in mV -/

/-- Warning level of a rail. -/
def warnMv (r : Nat) : Nat := [720, 768, 720, 816, 1152, 1152, 480, 1728].getD r 0
/-- Reset level. -/
def resetMv (r : Nat) : Nat := [690, 736, 690, 782, 1104, 1104, 460, 1656].getD r 0
/-- Hysteresis. -/
def hystMv (r : Nat) : Nat := [7, 8, 7, 8, 12, 12, 5, 18].getD r 0
/-- Over-voltage level. -/
def overMv (r : Nat) : Nat := [788, 840, 788, 893, 1260, 1260, 525, 1890].getD r 0

/-- PWR_RAIL_n takes a measured voltage: MV, and MIN_MV as the lowest since POR (log entry 145). -/
def noteRail (r mv : Nat) (s : State) : State :=
  let low := match Tbl.get? s.pwr.rails r with
    | some (m, _) => min m mv
    | none => mv
  { s with pwr := { s.pwr with rails := Tbl.set s.pwr.rails r (low, mv) } }

/-- Supply states in which a dip is under way. -/
def dipping (s : State) : Bool := s.pwr.supply == .warning || s.pwr.supply == .recovering

/-- The dip's lowest voltage, on its first rail (log entry 87). -/
def noteDip (r mv : Nat) (s : State) : State :=
  { s with pwr := { s.pwr with dipMv := if r = s.pwr.dipRail then min s.pwr.dipMv mv else s.pwr.dipMv } }

/-- A dip begins. -/
def beginDip (r mv : Nat) (s : State) : State :=
  { s with pwr := { s.pwr with
      supply := .warning, dips := satInc s.pwr.dips 0xFFFF, lastRail := r, dipRail := r, dipStart := s.now, dipMv := mv
      dipLong := false } }

/-- RAIL_BELOW_WARNING: rail `rail` has stayed below its warning level for 1 µs, at `mv`. -/
def execRailBelowWarning (rail : Fin 8) (mv : Nat) (s : State) : Out :=
  act s (powered s && decide (mv < warnMv rail ∧ resetMv rail ≤ mv)) (fun s =>
    let was := holdupOk s
    let s := noteRail rail mv { s with pwr := { s.pwr with below := setBit s.pwr.below rail true } }
    if s.pwr.supply = .normal then settleWriteBack was (beginDip rail mv s)
    else if dipping s then noteDip rail mv { s with pwr := { s.pwr with supply := .warning } }
    else s)

/-- RAILS_ABOVE_WARNING: every rail stands at or above its warning level plus its hysteresis, at `mvs`. The dwell starts. -/
def execRailsAboveWarning (mvs : List Nat) (s : State) : Out :=
  act s (powered s && mvs.length == 8 && (mvs.zipIdx).all (fun x => decide (warnMv x.2 + hystMv x.2 ≤ x.1))
      && !(s.pwr.below == 0)) (fun s =>
    let s := (mvs.zipIdx).foldl (fun s x => noteRail x.2 x.1 s) s
    { s with pwr := { s.pwr with
        below := 0, dwellAt := s.now, supply := if s.pwr.supply = .warning then .recovering else s.pwr.supply } })

/-- EV_SUPPLY_DIP (Table 12.9). -/
def supplyDip (rail flags mv us : Nat) (s : State) : State :=
  raise 0 { code := 0x0021, status := stOk, r0 := 0x0021 + 2 ^ 16 * rail + 2 ^ 24 * flags + mv % 2 ^ 16 * 2 ^ 32, r1 := us } s

/-- The dip is over: it is logged and reported (log entry 87). -/
def endDip (s : State) : State :=
  let us := s.pwr.dwellAt - s.pwr.dipStart
  let s := settleFaults s
  let s := { s with pwr := { s.pwr with supply := .normal, dipLast := us % 2 ^ 32, dipLong := false } }
  supplyDip s.pwr.dipRail 0 s.pwr.dipMv us (logHealth 0x0020 0xFF 0xFFFF s.pwr.dipRail 0 us (leBytes 2 s.pwr.dipMv) s)

/-- DWELL_END: every rail has been above warning for 100 µs. -/
def execDwellEnd (s : State) : Out :=
  act s (powered s && s.pwr.supply == .recovering && decide (s.pwr.dwellAt + 100 ≤ s.now)) endDip

/-- DIP_LONG: 1 s since the dip began, once in a dip (log entry 88). -/
def execDipLong (s : State) : Out :=
  act s (powered s && dipping s && !s.pwr.dipLong && decide (1000000 + s.pwr.dipStart ≤ s.now)) (fun s =>
    supplyDip s.pwr.dipRail 1 s.pwr.dipMv (s.now - s.pwr.dipStart)
      (settleFaults { s with pwr := { s.pwr with dipLong := true } }))

/-- RAIL_OVER_VOLTAGE: a rail has stayed above its over-voltage level for `us`, at most at `mv`. -/
def execRailOverVoltage (rail : Fin 8) (mv us : Nat) (s : State) : Out :=
  act s (powered s && decide (overMv rail < mv ∧ 1 ≤ us)) (fun s =>
    supplyDip rail 2 mv us (logHealth 0x0020 0xFF 0xFFFF rail 0 us (leBytes 2 mv) (noteRail rail mv s)))

/-- RAIL_BELOW_RESET: an internal power-on reset, held until every rail is in its recommended range again (R437)
(log entry 145). -/
def execRailBelowReset (rail : Fin 8) (mv : Nat) (s : State) : Out :=
  act s (decide (mv < resetMv rail)) (internalReset 1 true)

/-! ### The flush (R422, R423) -/

/-- The engines that the flush gates: all in service but the four lowest (log entry 89). -/
def gatedEngines (s : State) : List Nat :=
  ((s.sch.engines.filter (fun e => e.2.role == .inService)).map Prod.fst).drop 4

/-- Gate clock domains, or ungate them: a gated domain stops (log entry 75). -/
def gateDomains (on : Bool) (ds : List Nat) (s : State) : State :=
  ds.foldl (fun s d => { s with clk := { s.clk with gate := setBit s.clk.gate d on, stopped := setBit s.clk.stopped d on } }) s

/-- FLUSH begins (log entries 88, 89). -/
def beginFlush (s : State) : State :=
  let was := holdupOk s
  let s := settleFaults s
  let s := { s with pwr := { s.pwr with
    supply := .flush, flushAt := s.now, flushDone := false, deassertWaits := false, dipLong := false } }
  settleWriteBack was (gateDomains true (gatedEngines s) s)

/-- PWR_FAIL_ASSERT: PWR_FAIL_N has been asserted for 1 µs (log entry 145). -/
def execPwrFailAssert (s : State) : Out :=
  act s (!s.pwr.pwrFail) (fun s =>
    let s := { s with pwr := { s.pwr with pwrFail := true } }
    if powered s && decide (5 ≤ s.glb.stage) && (s.pwr.supply == .normal || dipping s) then beginFlush s
    else { s with pwr := { s.pwr with deassertWaits := false } })

/-- The health log entries numbered and not yet written are written to the ring, which holds the newest 65,536
(R306). -/
def writeLog (s : State) : State :=
  let l := s.flc.log ++ s.flc.logPending
  { s with flc := { s.flc with log := l.drop (l.length - 65536), logPending := [] } }

/-- The learned repairs not yet written are written (R322). -/
def writeRepairs (s : State) : State :=
  { s with mem := { s.mem with learned := s.mem.learned ++ s.mem.repairs, repairs := [] } }

/-- A side of DRAM goes into self-refresh, or leaves it. -/
def sleepSide (x : Side) : Side := { x with st := if x.st = .inService ∨ x.st = .shed then .selfRefresh else x.st }
def wakeSide (x : Side) : Side :=
  { x with st := if x.st = .selfRefresh then (if x.retraining.isSome then .shed else .inService) else x.st }

/-- Steps 2 to 5 of R422: everything held is durable, the log and the repairs are written, the DRAM is in self-refresh. -/
def flushAll (s : State) : State :=
  let s := writeRepairs (writeLog (pageDurable s.flc.groups.length s))
  { s with drc := { s.drc with a := sleepSide s.drc.a, b := sleepSide s.drc.b } }

/-- Every rail has been above warning for 100 µs. -/
def railsGood (s : State) : Bool := s.pwr.below == 0 && decide (s.pwr.dwellAt + 100 ≤ s.now)

/-- The device resumes (R423). -/
def resumeSupply (s : State) : State :=
  let s := { s with
    pwr := { s.pwr with supply := .normal, deassertWaits := false }
    drc := { s.drc with a := wakeSide s.drc.a, b := wakeSide s.drc.b } }
  gateDomains false (gatedEngines s) s

/-- PWR_FAIL_N is deasserted in FLUSHED: the device resumes when the rails are good. -/
def settleResume (s : State) : State := if s.pwr.deassertWaits && railsGood s then resumeSupply s else s

/-- FLUSH_DONE: FLUSHED; the flush is logged and its time recorded. A deassertion that waited takes effect now
(log entry 89). -/
def execFlushDone (s : State) : Out :=
  act s (powered s && s.pwr.supply == .flush) (fun s =>
    let us := s.now - s.pwr.flushAt
    let mib := s.flc.heldBytes / 1048576
    let s := flushAll s
    let s := { s with pwr := { s.pwr with supply := .flushed, flushDone := true, flushUs := min us 0xFFFFFF } }
    settleResume (logHealth 0x0021 0xFF 0xFFFF 0xFFFF 0 us (leBytes 4 mib) s))

/-- PWR_FAIL_DEASSERT: PWR_FAIL_N is deasserted, or the rails have been good for 100 µs after it. -/
def execPwrFailDeassert (s : State) : Out :=
  act s ((s.pwr.pwrFail || (s.pwr.supply == .flushed && s.pwr.deassertWaits))) (fun s =>
    let s := { s with pwr := { s.pwr with pwrFail := false } }
    if s.pwr.supply = .flush then { s with pwr := { s.pwr with deassertWaits := true } }
    else if s.pwr.supply = .flushed then settleResume { s with pwr := { s.pwr with deassertWaits := true } }
    else s)

/-- HOLDUP_RDY_CHANGE: HOLDUP_RDY_N is asserted or deasserted. -/
def execHoldupRdyChange (asserted : Bool) (s : State) : Out :=
  .next (settleWriteBack (holdupOk s) { s with pwr := { s.pwr with holdupRdy := asserted } })

end Sys2Proof.Machine
end

