-- ==== Sys2Proof/Machine/Thermal.lean ====
section
/-! DEFINITION. Temperature, the power cap, and retraining under load (R424 to R432). -/

namespace Sys2Proof.Machine

/-! ### Sensors (R427 to R431): 0 to 11 are TS0 to TS11, 12 to 19 are EXT0 to EXT7; temperatures in 1/8 °C -/

/-- A sensor before its first sample. -/
def newSensor : Sensor := { state := 0, temp := 0, failed := false, ups := [0, 0, 0, 0], downs := 0, bad := 0, good := 0 }

/-- The sensor as it stands. -/
def sensorOf (s : State) (n : Nat) : Sensor := Tbl.getD s.pwr.sensors n newSensor

/-- Change a sensor. -/
def setSensor (n : Nat) (x : Sensor) (s : State) : State :=
  { s with pwr := { s.pwr with sensors := Tbl.set s.pwr.sensors n x } }

/-- WARN, THR1, THR2 and CRIT of a sensor, in °C. -/
def limitsOf (s : State) (n : Nat) : List Nat :=
  if n < 12 then s.pwr.tlimDie else Tbl.getD s.pwr.tlimExt (n - 12) [70, 75, 80, 85]

/-- The limit of a state from 1 to 4, in 1/8 °C. -/
def limitAt (ls : List Nat) (k : Nat) : Int := 8 * (ls.getD (k - 1) 0 : Int)

/-- A remote channel's TYPE: none measures nothing. -/
def sensorEnabled (s : State) (n : Nat) : Bool :=
  decide (n < 12) || !((Tbl.getD s.pwr.extCfg (n - 12) (0, 0, 0)).2.2 == 0)

/-- Channel mask of a sensor's scope; 0 for the device. -/
def sensorMask (s : State) (n : Nat) : Nat := if n < 12 then 0 else (Tbl.getD s.pwr.extCfg (n - 12) (0, 0, 0)).1

/-- A temperature as 16 bits of two's complement. -/
def temp16 (t : Int) : Nat := (t % 65536).toNat

/-- One sample counts: at or above each limit, and below the limit of the present state less 2 °C. -/
def countSample (ls : List Nat) (t : Int) (x : Sensor) : Sensor :=
  { x with
    temp := t
    ups := (List.range 4).map (fun k => if limitAt ls (k + 1) ≤ t then x.ups.getD k 0 + 1 else 0)
    downs := if 0 < x.state ∧ t < limitAt ls x.state - 16 then x.downs + 1 else 0 }

/-- The state after a sample: the highest reached in 8 samples, or one lower after 8 below. -/
def stateAfter (x : Sensor) : Nat :=
  let up := (List.range 4).foldl (fun a k => if 8 ≤ x.ups.getD k 0 then k + 1 else a) 0
  if x.state < up then up else if 8 ≤ x.downs then x.state - 1 else x.state

/-- EV_THERMAL and THERMAL of the health log for a change of a sensor's state, 7 standing for failed. -/
def thermalChange (n new prev : Nat) (t : Int) (s : State) : State :=
  let s := logHealth 0x0022 0xFF 0xFFFF n 0 (Config.logCount 0x0022 [new, prev]) (leBytes 2 (temp16 t)) s
  raise 0 { code := 0x0020, status := stOk
            r0 := 0x0020 + 2 ^ 16 * n + 2 ^ 24 * new + 2 ^ 28 * prev + temp16 t * 2 ^ 32, r1 := sensorMask s n } s

/-- A sample of a sensor that is not failed takes effect (log entry 94). -/
def takeSample (n : Nat) (t : Int) (s : State) : State :=
  let x := countSample (limitsOf s n) t (sensorOf s n)
  let k := stateAfter x
  if k = x.state then setSensor n x s
  else thermalChange n k x.state t (setSensor n { x with state := k, downs := 0 } s)

/-- A sensor is failed or ignored from now on (log entry 91). -/
def failSensor (n : Nat) (reading : Option Int) (s : State) : State :=
  let x := sensorOf s n
  let s := setSensor n { x with failed := true, good := 0, ups := [0, 0, 0, 0], downs := 0 } s
  let s := logHealth 0x0028 0xFF 0xFFFF n 0 ((reading.map temp16).getD (Config.logCount 0x0028 [])) [] s
  thermalChange n 7 x.state x.temp s

/-- A failed sensor counts again (log entry 91). -/
def restoreSensor (n : Nat) (t : Int) (s : State) : State :=
  let x := sensorOf s n
  thermalChange n x.state 7 t (setSensor n { x with failed := false, temp := t, bad := 0, good := 0 } s)

/-- Is a remote reading valid: −40 to 150 °C? (log entry 140) -/
def remoteValid : Option Int → Bool
  | some t => decide (-320 ≤ t ∧ t ≤ 1200)
  | none => false

/-- What TEMP holds after a reading that is not valid: the reading, or, open, short or out of range, a value that the
spec does not state (log entry 93). -/
def badTemp (s : State) : Option Int → Int
  | some t => t
  | none => (Config.freeNat s.fresh 0 % 2 ^ 16 : Nat) - 2 ^ 15

/-- A sample of a remote channel (log entry 140). -/
def remoteSample (n : Nat) (r : Option Int) (s : State) : State :=
  let x := sensorOf s n
  match remoteValid r, r with
  | true, some t =>
    if !x.failed then takeSample n t (setSensor n { x with bad := 0 } s)
    else if 7 ≤ x.good then restoreSensor n t s
    else setSensor n { x with good := x.good + 1, temp := t } s
  | _, _ =>
    let x := { x with bad := x.bad + 1, good := 0, ups := [0, 0, 0, 0], downs := 0, temp := badTemp s r }
    bumpFresh (if x.bad = 3 ∧ x.failed = false then failSensor n r (setSensor n x s) else setSensor n x s)

/-- An on-die sensor reads more than 15 °C from the median of the others that read in range (log entry 91). -/
def deviates (s : State) (n : Nat) (t : Int) : Bool :=
  let others := (s.pwr.sensors.filter (fun p => decide (p.1 < 12) && !(p.1 == n) && p.2.bad == 0)).map (fun p => p.2.temp)
  !others.isEmpty && (decide (t < median others - 120) || decide (median others + 120 < t))

/-- A sample of an on-die sensor; `none` is a reading out of range (log entry 92). -/
def dieSample (n : Nat) (r : Option Int) (s : State) : State :=
  let x := sensorOf s n
  match r with
  | none =>
    let s := bumpFresh (setSensor n { x with bad := x.bad + 1, ups := [0, 0, 0, 0], downs := 0, temp := badTemp s none } s)
    if x.failed then s else failSensor n none s
  | some t =>
    if deviates s n t then
      let s := setSensor n { x with bad := 0, temp := t } s
      if x.failed then s else failSensor n (some t) s
    else if x.failed then restoreSensor n t s
    else takeSample n t (setSensor n { x with bad := 0 } s)

/-- The open superblocks that include a channel are padded and closed (R425). -/
def closeOn (c : Nat) (s : State) : State :=
  { s with flc := { s.flc with superblocks := Tbl.mapVals s.flc.superblocks (fun _ x =>
      if x.st = .opened ∧ x.blocks.any (fun b => b.1 / 16 == c) = true then { x with st := .closed, written := s.now } else x) } }

/-- A channel is shed. -/
def shedChannel (c : Nat) (s : State) : State := modChan c (fun x => { x with st := .shed }) (closeOn c s)

/-- CRITICAL on a channel's scope sheds it, where R425 allows; it returns once the scope is below CRITICAL (Table 12.7)
(log entry 95). -/
def settleShed (s : State) : State :=
  (List.range 16).foldl (fun s c =>
    match Tbl.get? s.flc.channels c with
    | none => s
    | some x =>
      if channelThermal s c = 4 then
        if x.st == .inService && x.retraining.isNone && channelCovered s c then shedChannel c s else s
      else if x.st == .shed && x.retraining.isNone then modChan c (fun x => { x with st := .inService }) s
      else s) s

/-- Have all on-die sensors been read below 100 °C since the reset (R430)? (log entry 95) -/
def coolAgain (s : State) : Bool :=
  (List.range 12).all (fun n => match Tbl.get? s.pwr.sensors n with
    | some x => x.bad == 0 && decide (x.temp < 800)
    | none => false)

/-- SENSOR_SAMPLE: `reading` in 1/8 °C, `none` when open, short or out of range. While a thermal reset is held the samples
only tell when the part is cool (log entry 94). -/
def execSensorSample (sensor : Fin 20) (reading : Option Int) (s : State) : Out :=
  let n := sensor.val
  act s (!s.glb.ended && sensorEnabled s n && (n < 12 || powered s)) (fun s =>
    if s.glb.held then
      match reading with
      | some t => setSensor n { newSensor with temp := t } s
      | none => setSensor n { newSensor with bad := 1 } s
    else
      let s := if n < 12 then dieSample n reading s else remoteSample n reading s
      let x := sensorOf s n
      if decide (n < 12 ∧ 1000 ≤ x.temp) && !x.failed && reading.isSome then internalReset 2 true s
      else settleShed (settleFaults s))

/-- THERMAL_TRIP: an on-die sensor that is not ignored reads 125 °C or more. -/
def execThermalTrip (sensor : Fin 12) (temp : Int) (s : State) : Out :=
  act s (powered s && decide (1000 ≤ temp) && !(sensorOf s sensor).failed) (internalReset 2 true)

/-- POWER_CAP_ESTIMATE: each 100 µs; `mw` is the estimate (R432) (log entry 95). -/
def execPowerCapEstimate (mw : Nat) (s : State) : Out :=
  act s (powered s && decide (5 ≤ s.glb.stage) && decide (s.pwr.capAt + 100 ≤ s.now)) (fun s =>
    let cap := (Tbl.get? s.insts 0).elim 19 (fun i => i.feat.powerCap)
    let level := if mw ≤ 1000 * cap then 0 else if s.pwr.capLevel = 0 then 2 else 3
    { s with pwr := { s.pwr with capLevel := level, capActive := !(level == 0), capAt := s.now } })

/-! ### Retraining under load (R424 to R426): interfaces 0 to 15 are channels, 16 and 17 the DRAM sides A and B -/

/-- The °C of an 8-bit TEMP field. -/
def tempField (x : Nat) : Int := if 128 ≤ x % 256 then (x % 256 : Int) - 256 else (x % 256 : Int)

/-- The temperature trigger: more than 10 °C from the last training. -/
def tempMoved (s : State) (sensor trained : Nat) : Bool :=
  let d := (sensorOf s sensor).temp - 8 * tempField trained
  decide (d < -80 ∨ 80 < d)

/-- Does the trigger stand: 0 errors, 1 temperature, 2 the manager's RETRAIN bit? -/
def triggered (s : State) (trigger sensor trained : Nat) (retrain : Bool) : Bool :=
  if trigger = 1 then tempMoved s sensor trained else if trigger = 2 then retrain else true

/-- Has the second since an interface's last retraining passed? One that has never retrained need not wait
(log entry 96). -/
def heldOff (s : State) (last : Nat) : Bool := !(last == 0) && decide (s.now < 1000000 + last)

/-- A flash channel begins to retrain: shed where R425 allows, otherwise in place (log entry 96). -/
def retrainChannel (c trigger : Nat) (s : State) : State :=
  let s := if channelCovered s c then shedChannel c s else modChan c (fun x => { x with st := .training }) s
  modChan c (fun x => { x with retraining := some (s.now, trigger), lastRetrain := s.now }) s

/-- A DRAM side begins to retrain: shed while the other side is in service, otherwise in place (log entry 96). -/
def retrainSide (b : Bool) (trigger : Nat) (s : State) : State :=
  modSide b (fun x => { x with
    st := if sideServes s (!b) then .shed else .training, retraining := some (s.now, trigger), lastRetrain := s.now }) s

/-- RETRAIN_START. -/
def execRetrainStart (iface : Fin 18) (trigger : Fin 3) (s : State) : Out :=
  if iface.val < 16 then
    match Tbl.get? s.flc.channels iface with
    | none => .next s
    | some x =>
      act s (powered s && decide (5 ≤ s.glb.stage) && !flushing s && (x.st == .inService || x.st == .shed) && x.retraining.isNone
          && !(s.flc.channels.any (fun c => c.2.retraining.isSome)) && !heldOff s x.lastRetrain
          && triggered s trigger (iface / 2) x.trainTemp x.retrain) (retrainChannel iface trigger)
  else
    let b := iface.val == 17
    let x := sideOf s b
    act s (powered s && decide (5 ≤ s.glb.stage) && !flushing s && x.st == .inService && x.retraining.isNone
        && !heldOff s x.lastRetrain && triggered s trigger (8 + b2n b) x.trainTemp x.retrain) (retrainSide b trigger)

/-- RETRAIN of the health log (log entry 36). -/
def logRetrain (unit : Nat) (r : Nat × Nat) (s : State) : State :=
  logHealth 0x0025 0xFF 0xFFFF unit 0 (s.now - r.1) (leBytes 1 r.2) s

/-- The retraining of a channel ends. -/
def channelRetrained (c : Nat) (pass : Bool) (ns : Nat) (r : Nat × Nat) (s : State) : State :=
  let s := logRetrain c r { s with pwr := { s.pwr with retrainFlash := satInc s.pwr.retrainFlash 0xFFFF } }
  let s := modChan c (fun x => { x with retrain := false, retraining := none }) s
  if pass then settleShed (modChan c (fun x => { x with
    st := .inService, trainCount := satInc x.trainCount 0xFF, trainTemp := trainTemp s (c / 2), trainAt := s.now }) s)
  else channelLost c ns s

/-- The writes that a shed side missed are replayed to it (R426). -/
def replaySide (x : Side) : Side :=
  { x with cells := x.logged.foldl (fun m w => Cells.write m w.1 w.2) x.cells
           errs := x.logged.foldl (fun e w => Tbl.erase e (w.1 / 64)) x.errs, logged := [] }

/-- The retraining of a DRAM side ends. -/
def sideRetrained (b pass : Bool) (dropped : List (Nat × Nat)) (ns : Nat) (r : Nat × Nat) (s : State) : State :=
  let s := logRetrain (16 + b2n b) r { s with pwr := { s.pwr with retrainDram := satInc s.pwr.retrainDram 0xFFFF } }
  let s := modSide b (fun x => { x with retrain := false, retraining := none }) s
  if pass then modSide b (fun x => { replaySide x with
    st := .inService, trainCount := satInc x.trainCount 0xFF, trainTemp := trainTemp s (8 + b2n b), trainAt := s.now }) s
  else failSide b dropped ns s

/-- RETRAIN_DONE: the interface returns to service, or the failed retraining is a fault of code 12 or 10. `dropped` are the
packages held on a side that fails. -/
def execRetrainDone (iface : Fin 18) (pass : Bool) (dropped : List (Nat × Nat)) (ns : Nat) (s : State) : Out :=
  if iface.val < 16 then
    match (Tbl.get? s.flc.channels iface).bind (fun x => x.retraining) with
    | none => .next s
    | some r => act s (powered s) (channelRetrained iface pass ns r)
  else
    match (sideOf s (iface.val == 17)).retraining with
    | none => .next s
    | some r => act s (powered s) (sideRetrained (iface.val == 17) pass dropped ns r)

end Sys2Proof.Machine
end

