-- ==== Sys2Proof/Machine/Activation.lean ====
section
/-! DEFINITION. Logs, features, and the staging and activation of firmware (R50, R67, R75, R113, R150, R151, R305, R306,
R404, R414 to R418, R432, R444). -/

namespace Sys2Proof.Machine

/-! ### LOG_READ (R305) -/

/-- The 64 bytes of a health log entry (Table 8.16). -/
def entryBytes (e : HEntry) : List Byte :=
  leBytes 6 e.seq ++ leBytes 2 e.kind ++ leBytes 8 e.time ++ leBytes 2 e.cycle ++ leBytes 1 e.inst ++ leBytes 1 0
    ++ leBytes 2 e.vol ++ leBytes 2 e.unit ++ leBytes 8 e.lba ++ leBytes 4 e.count ++ bytesAt e.detail 0 28

/-- HSTATE (Table 8.15). -/
def hstate (s : State) : Nat :=
  b2n s.flc.readOnly + 2 * b2n (decide (s.flc.spareLeft * 4 < s.flc.spareInit)) + 4 * b2n (decide (80 ≤ wearPct s))
    + 8 * b2n (s.flc.dies.any (fun d => d.2.rebuilding)) + 16 * b2n (s.flc.channels.any (fun c => c.2.st == .evacuating))

/-- Blocks poisoned now. -/
def poisonedBlocks (s : State) : Nat := s.flc.runs.foldl (fun a r => a + r.count) 0

/-- Seconds that a lifetime count of seconds has reached: those before this power-on and those since. -/
def powerOnS (s : State) : Nat := s.flc.life.powerOnS + s.now / 1000000

/-- The health summary (Table 8.15). -/
def healthSummary (s : State) : List Byte :=
  let l := s.flc.life
  bytesAt (leBytes 4 0x4B37484C ++ leBytes 2 1 ++ leBytes 1 (hstate s) ++ leBytes 1 s.flc.stripeW ++ leBytes 8 (rawBytes s)
    ++ leBytes 8 s.flc.usable ++ leBytes 8 (allocated s) ++ leBytes 8 l.hostWritten ++ leBytes 8 (l.mediaWritten / 64)
    ++ leBytes 8 l.hostRead ++ leBytes 1 (sparePct s) ++ leBytes 1 s.flc.wbPct ++ leBytes 2 (wearPct s)
    ++ leBytes 2 (diesServing s).length ++ leBytes 2 (Tbl.countIf s.flc.dies (fun _ d => d.retired))
    ++ leBytes 1 (channelsServing s) ++ leBytes 1 s.flc.softOk ++ leBytes 1 s.flc.softReplaces ++ leBytes 1 0
    ++ leBytes 4 (poisonedBlocks s) ++ leBytes 4 l.recovered ++ leBytes 4 l.lost ++ leBytes 4 l.programFails
    ++ leBytes 4 l.eraseFails ++ leBytes 4 l.powerCycles ++ leBytes 4 l.unsafeShutdowns ++ leBytes 8 (powerOnS s)
    ++ leBytes 4 ((s.now - l.patrolAt) / 1000000)) 0 512

/-- The poisoned runs that an instance sees (log entry 97). -/
def runsSeen (s : State) (n : Nat) : List PoisonRun :=
  (s.flc.runs.filter (fun r => n == 0 || (match vol? s r.vol with
    | some u => bit u.access n
    | none => false))).take 65536

/-- An entry of the poisoned runs. -/
def runBytes (r : PoisonRun) : List Byte :=
  leBytes 2 r.vol ++ leBytes 2 0 ++ leBytes 4 r.count ++ leBytes 8 r.first ++ leBytes 6 r.seq ++ leBytes 2 0

/-- STATE of a die (Table 8.14). -/
def dieState (s : State) (d : Nat) : Nat :=
  match Tbl.get? s.flc.dies d with
  | none => 0
  | some x =>
    if !x.present then 0 else if x.refused then 3 else if x.retired then 2
    else match Tbl.get? s.flc.channels (d / 16) with
      | some c => if c.st = .inService then 1 else 4
      | none => 4

/-- A die that is not fitted. -/
def noDie : Die :=
  { present := false, refused := false, retired := false, part := 0, cls := 0, capGib := 0, blocks := 0, wear := []
    freeBlocks := 0, retiredBlocks := 0, timeouts := 0, rebuilding := false, relocated := 0, offset := 0, reads := [] }

/-- An entry of the die wear. -/
def dieBytes (s : State) (d : Nat) : List Byte :=
  let x := Tbl.getD s.flc.dies d noDie
  leBytes 4 (avgPe x) ++ leBytes 4 (maxPe x) ++ leBytes 4 x.retiredBlocks ++ leBytes 4 x.freeBlocks ++ leBytes 1 x.cls
    ++ leBytes 1 (dieState s d) ++ leBytes 14 0

/-- An entry of the retired blocks. -/
def retiredBytes (r : Nat × Nat × Nat) : List Byte :=
  leBytes 1 r.1 ++ leBytes 1 r.2.2 ++ leBytes 2 0 ++ leBytes 4 r.2.1

/-- STORED_BYTES of a volume. -/
def storedBytes (u : Vol) : Nat := u.map.foldl (fun a e => a + entBytes e.2) 0

/-- An entry of the volumes. -/
def volumeBytes (s : State) (v : Nat) : List Byte :=
  match vol? s v with
  | some u => if u.serves then
      leBytes 8 u.capacity ++ leBytes 1 (b2n u.compress) ++ leBytes 1 1 ++ leBytes 6 0 ++ leBytes 8 u.map.length
        ++ leBytes 8 (storedBytes u)
    else List.replicate 32 0
  | none => List.replicate 32 0

/-- The bytes of a log as it stands, for an instance, and its entries' numbers: none for a log that carries none
(log entry 97). -/
def logBytes (s : State) (n id : Nat) : List Byte × Nat × List Nat :=
  if id = 1 then (healthSummary s, 512, [])
  else if id = 2 then (s.flc.log.flatMap entryBytes, 64, s.flc.log.map (fun e => e.seq))
  else if id = 3 then ((runsSeen s n).flatMap runBytes, 24, (runsSeen s n).map (fun r => r.seq))
  else if id = 4 then ((List.range 256).flatMap (dieBytes s), 32, [])
  else if id = 5 then ((s.flc.retiredList.take 65536).flatMap retiredBytes, 8, [])
  else ((List.range 256).flatMap (volumeBytes s), 32, [])

/-- The newest of some numbers (R25), or the current value (log entry 97). -/
def newestSeq (s : State) : List Nat → Nat
  | [] => s.glb.seq
  | q :: qs => qs.foldl (fun a b => if seqPrecedes a b then b else a) q

/-- LOG_READ: as much from OFFSET on as fits in BUFLEN (R305) (log entries 97, 134). -/
def logRead (n : Nat) (p : List Byte) (k : Nat) (s : State) : State :=
  let id := field p 36 2
  let off := field p 40 8
  if id = 0 ∨ 6 < id then badField k 36 s
  else if !(n == 0) && !(id == 1 || id == 3) then finishWith k stNotPermitted 0 0 s
  else
    let l := logBytes s n id
    let out := (l.1.drop off).take (pkBufLen p)
    let first := (off + l.2.1 - 1) / l.2.1
    let last := (off + out.length) / l.2.1
    finishWith k stOk out.length (newestSeq s ((l.2.2.take last).drop first)) (deliver n p 0 out s)

/-- LOG_READ. -/
def execLogRead (inst : Fin 64) (tag : Fin 256) (s : State) : Out :=
  workEnds opLogRead inst tag (mayWrite s inst) s (logRead inst)

/-! ### Features (Tables 2.8, 3.8, 11.9, 12.8) -/

/-- The value of a feature. -/
def featureValue (s : State) (i : Inst) (id : Nat) : Nat :=
  match id with
  | 0x01 => b2n i.feat.writeBack
  | 0x02 => i.feat.spanBudget
  | 0x03 => i.feat.eventMask
  | 0x10 => i.feat.codecContexts
  | 0x11 => i.feat.shrinkMargin
  | 0x12 => b2n s.bsh.deflateEn + 2 * b2n s.bsh.zstdEn
  | 0x20 => i.feat.spanResend
  | 0x30 => i.feat.powerCap
  | _ => i.feat.alertLevel

/-- The default of a feature; of CODEC_FORMATS Table 3.8 gives none, and it is a free value (log entry 98). -/
def featureDefault (s : State) (id : Nat) : Nat :=
  match id with
  | 0x01 => 0
  | 0x02 => 10000
  | 0x03 => 0xFFFF
  | 0x10 => 8
  | 0x11 => 1
  | 0x12 => (Config.freeWord s.fresh).toNat
  | 0x20 => 200
  | 0x30 => 19
  | _ => 1

/-- A feature takes a value. -/
def setFeature (n id v : Nat) (s : State) : State :=
  match id with
  | 0x10 => setContexts n v s
  | 0x01 => modInst n (fun i => { i with feat := { i.feat with writeBack := v == 1 } }) s
  | 0x02 => modInst n (fun i => { i with feat := { i.feat with spanBudget := v } }) s
  | 0x03 => modInst n (fun i => { i with feat := { i.feat with eventMask := v } }) s
  | 0x11 => modInst n (fun i => { i with feat := { i.feat with shrinkMargin := v } }) s
  | 0x20 => modInst n (fun i => { i with feat := { i.feat with spanResend := v } }) s
  | 0x30 => modInst n (fun i => { i with feat := { i.feat with powerCap := v } }) s
  | _ => modInst n (fun i => { i with feat := { i.feat with alertLevel := v } }) s

/-- May a legal value be set now (R67, R113)? (log entry 18) -/
def featureAllowed (s : State) (n id v : Nat) : Bool :=
  if id = 1 then v == 0 || writeBackAllowed s else if id = 0x10 then contextsAllowed s n v else true

/-- FEATURE_SET: RESULT0 is the previous value (log entry 18). -/
def featureSet (n : Nat) (p : List Byte) (k : Nat) (s : State) : State :=
  let id := field p 36 2
  let v := field p 40 8
  match Tbl.get? s.insts n with
  | none => s
  | some i =>
    if featureAllowed s n id v then finishWith k stOk (featureValue s i id) 0 (setFeature n id v s)
    else finishWith k stNotPermitted 0 0 s

/-- FEATURE_SET. -/
def execFeatureSet (inst : Fin 64) (tag : Fin 256) (s : State) : Out :=
  workEnds opFeatureSet inst tag (Tbl.has s.insts inst) s (featureSet inst)

/-- FEATURE_GET: the current value and the default. -/
def featureGet (n : Nat) (p : List Byte) (k : Nat) (s : State) : State :=
  match Tbl.get? s.insts n with
  | none => s
  | some i =>
    let id := field p 36 2
    finishWith k stOk (featureValue s i id) (featureDefault s id) (if id = 0x12 then bumpFresh s else s)

/-- FEATURE_GET. -/
def execFeatureGet (inst : Fin 64) (tag : Fin 256) (s : State) : Out :=
  workEnds opFeatureGet inst tag (Tbl.has s.insts inst) s (featureGet inst)

/-! ### Images (Table 4.13, R150, R444) -/

/-- The largest component of a kind (Table 13.3); kinds outside the table are illegal. -/
def kindLimit (kind : Nat) : Nat := [0, 131072, 8388608, 1048576, 524288, 262144, 262144, 65536].getD kind 0

/-- Component entry `i` of a header. -/
def component (h : List Byte) (i : Nat) : List Byte := bytesAt h (64 + 64 * i) 64

/-- The kinds of the components in use. -/
def imageKinds (h : List Byte) : List Nat := (List.range (field h 20 4)).map (fun i => field (component h i) 0 4)

/-- Is the format of a header over `len` bytes legal (Table 4.13, R444)? -/
def imageFormat (h : List Byte) (len : Nat) : Bool :=
  let ks := imageKinds h
  field h 0 4 == 0x4B375949 && field h 4 2 == 1 && field h 6 2 == 0 && field h 8 4 == len
    && decide (4096 ≤ len ∧ len ≤ 16777216) && decide (field h 16 2 ≤ 128) && decide (field h 18 2 < 4)
    && decide (1 ≤ field h 20 4 ∧ field h 20 4 ≤ 16) && allZero (bytesAt h 24 40) && allZero (bytesAt h 1185 2815)
    && ks.all (fun x => decide (1 ≤ x ∧ x ≤ 7) && ks.count x == 1) && [1, 3, 4, 6].all ks.contains
    && (List.range (field h 20 4)).all (fun i =>
      let c := component h i
      decide (field c 8 4 ≤ kindLimit (field c 0 4)) && field c 12 4 == 0
        && decide (4096 ≤ field c 4 4 ∧ field c 4 4 + field c 8 4 ≤ len))

/-- Does every component's hash match? (log entry 99) -/
def componentsMatch (bytes : Cells) (h : List Byte) : Bool :=
  (List.range (field h 20 4)).all (fun i =>
    let c := component h i
    decide (sha (Cells.readN bytes (field c 4 4) (field c 8 4)) = bytesAt c 16 48))

/-- The status of the first check of R150 that fails: ST_KEY_REVOKED for the signer and the SVN (R151) (log entry 19). -/
def imageRefused (o : Otp) (bytes : Cells) (len : Nat) : Option Nat :=
  let h := Cells.readN bytes 0 4096
  let pub := bytesAt h 1088 97
  if !imageFormat h len then some stAuthFail
  else if !(anchorMatches o aFwRoot1 pub || (anchorMatches o aFwRoot0 pub && !fwRoot0Revoked o)) then some stKeyRevoked
  else if !Config.ecdsaOk pub (bytesAt h 0 4000) (bytesAt h 4000 96) then some stAuthFail
  else if field h 16 2 < arbValue o then some stKeyRevoked
  else if bit (field h 18 2) 0 && !(lifecycle o == 1 || lifecycle o == 3) then some stAuthFail
  else if !componentsMatch bytes h then some stAuthFail
  else none

/-- The image that some bytes hold. -/
def imageOf (bytes : Cells) (len : Nat) : Image :=
  let h := Cells.readN bytes 0 4096
  { fwVersion := field h 12 4, svn := field h 16 2, debugBuild := bit (field h 18 2) 0
    evaluatedBuild := bit (field h 18 2) 1, measurement := Config.sha384 (bytesAt h 0 4000), len := len, bytes := bytes }

/-! ### FW_STAGE (R414) -/

/-- The staged pieces are discarded (log entry 100). -/
def dropPieces (s : State) : State := { s with glb := { s.glb with staged := none, pieces := [], stagedBytes := 0 } }

/-- The checks of R414 in order: RESULT0 of the first that fails (log entry 99). -/
def stageRefused (s : State) (p : List Byte) (pieces : Cells) : Option Nat :=
  let off := field p 36 4
  let ends := off + pkBufLen p
  if !(off == 0 || off == s.glb.stagedBytes) then some 36
  else if !(decide (4 ≤ pkBufLen p ∧ pkBufLen p ≤ 1048576 ∧ ends ≤ 16777216) && pkBufLen p % 4 == 0) then some 32
  else if field p 40 1 == 1 && !(ends == leNat (Cells.readN pieces 8 4)) then some 40
  else none

/-- FW_STAGE: a piece joins those held; the last one puts the image to the test (log entry 99). -/
def fwStage (n : Nat) (p : List Byte) (k : Nat) (s : State) : State :=
  let off := field p 36 4
  let pieces := Cells.writeN (if off = 0 then [] else s.glb.pieces) off (gather s n p 0 (min (pkBufLen p) 1048576))
  let ends := off + pkBufLen p
  match stageRefused s p pieces with
  | some o => badField k o s
  | none =>
    let s := if off = 0 then dropPieces s else s
    let s := { s with glb := { s.glb with pieces := pieces, stagedBytes := ends } }
    if field p 40 1 = 0 then finishWith k stOk ends 0 s
    else match imageRefused s.otp pieces ends with
      | some st => if st = stAuthFail then authFailed k (dropPieces s) else finishWith k st 0 0 (dropPieces s)
      | none => finishWith k stOk ends 0
          { s with glb := { s.glb with staged := some (imageOf pieces ends), pieces := [] } }

/-- FW_STAGE. The image is written to the system area before the reply: it waits while no program starts. -/
def execFwStage (inst : Fin 64) (tag : Fin 256) (s : State) : Out :=
  workEnds opFwStage inst tag (programsRun s) s (fwStage inst)

/-! ### FW_ACTIVATE (R415 to R418) -/

/-- FW_ACTIVATE: its checks, then the preparation. `accepts` is the answer of the activation component. -/
def fwActivate (accepts : Bool) (k : Nat) (s : State) : State :=
  match s.glb.staged with
  | none => finishWith k stNotPermitted 0 0 s
  | some x =>
    match imageRefused s.otp x.bytes x.len with
    | some st => if st = stAuthFail then authFailed k s else finishWith k st 0 0 s
    | none =>
      if accepts then modTag k (fun t => { t with work := .switching }) s else finishWith k stNotPermitted 0 0 s

/-- FW_ACTIVATE. -/
def execFwActivate (inst : Fin 64) (tag : Fin 256) (accepts : Bool) (s : State) : Out :=
  workEnds opFwActivate inst tag true s (fun _ k s => fwActivate accepts k s)

/-- The FW_ACTIVATE that has prepared its switch. -/
def switchTag (s : State) : Option Nat :=
  (s.tags.find? (fun p => p.2.work == .switching && p.2.st == .running)).map Prod.fst

/-- ACTIVATION_SWITCH: HOLD is set, and the commands in flight are held (R75, R185, Table 2.11) (log entry 101). -/
def execActivationSwitch (s : State) : Out :=
  match switchTag s with
  | none => .next s
  | some k =>
    act s (serving s && !s.sch.hold) (fun s =>
      let s := trace 0x0D noCtx noEngine none 0 1 { s with sch := { s.sch with hold := true } }
      { s with tags := Tbl.mapVals s.tags (fun j t => if j ≠ k ∧ t.st = .running then { t with st := .held } else t) })

/-- Is every engine idle, with no log half being applied? -/
def enginesIdle (s : State) : Bool := s.sch.engines.all (fun e => e.2.ctx.isNone && e.2.applying.isNone)

/-- HOLD is cleared: held tasks are READY again, in the order of their contexts, and held commands run on
(log entry 101). -/
def clearHold (s : State) : State :=
  let s := trace 0x0D noCtx noEngine none 0 0 { s with sch := { s.sch with hold := false } }
  let held := (s.sch.tasks.filter (fun t => t.2.st == .held)).map Prod.fst
  let s := held.foldl (fun s c => makeReady c 0 s) s
  { s with tags := Tbl.mapVals s.tags (fun _ t => if t.st = .held then { t with st := .running } else t) }

/-- The new firmware runs, and the old image is the staged one: the log, the event and the reply (log entry 100). -/
def activated (k pause : Nat) (x : Image) (s : State) : State :=
  let old := s.glb.running
  let s := { s with glb := { s.glb with running := x, stored := x, staged := some old, pieces := [], stagedBytes := 0 } }
  let s := logHealth 0x0024 0xFF 0xFFFF 0xFFFF 0 pause (Config.logDetail 0x0024 [x.fwVersion, old.fwVersion]) s
  let s := raise 0 { code := 0x0023, status := stOk, r0 := 0x0023 + 2 ^ 32 * x.fwVersion
                     r1 := old.fwVersion + pause % 2 ^ 32 * 2 ^ 32 } s
  finishWith k stOk x.fwVersion pause s

/-- ACTIVATION_SWITCH_END: every engine has loaded the new code; `pause` is the time that HOLD was set, in ns. -/
def execActivationSwitchEnd (pause : Nat) (s : State) : Out :=
  match switchTag s, s.glb.staged with
  | some k, some x => act s (powered s && s.sch.hold && enginesIdle s) (fun s => activated k pause x (clearHold s))
  | _, _ => .next s

/-! ### The health log and the learned repairs go to flash (R306, R322) -/

/-- HEALTH_LOG_WRITE. -/
def execHealthLogWrite (s : State) : Out := act s (programsRun s && !s.flc.logPending.isEmpty) writeLog

/-- LEARNED_REPAIR_WRITE. -/
def execLearnedRepairWrite (s : State) : Out := act s (programsRun s && !s.mem.repairs.isEmpty) writeRepairs

end Sys2Proof.Machine
end

