-- ==== Sys2Proof/Machine/Lanes.lean ====
section
/-! DEFINITION. Failures of lanes, public-key engines and decoders (R96, R160, R407, R410, R502). -/

namespace Sys2Proof.Machine

/-- Which unit runs the failed unit's work again: a spare that stands, or with none standing another unit of the pool
in service. `units` is the pool's size, `spares` the spares that stand. -/
def rerunOk (mask units failed by_ : Nat) (spares : List Nat) : Bool :=
  if spares.isEmpty then
    (!(by_ == failed) && decide (by_ < units) && unitOk mask by_)
      || (by_ == 0xFF && (List.range units).all (fun u => u == failed || !unitOk mask u))
  else spares.contains by_

/-- The spares of some pool that stand, but the failed unit itself. -/
def standing (mask failed : Nat) (sp : List (Nat × Nat)) : List Nat :=
  (sp.filter (fun x => !(x.1 == failed) && spareStands mask x.1 x.2)).map Prod.fst

/-- REPLACES of spare `sp` once `by_` has taken over `failed`. -/
def replaced (sp by_ failed old : Nat) : Nat := if by_ = sp ∧ old = 0xFF then failed else old

/-- A Bushel or AES lane fails: its unit runs again on `by_`. -/
def laneFault (pool lane by_ ns : Nat) (s : State) : State :=
  let s :=
    if pool = 0 then { s with bsh := { s.bsh with dOk := setBit s.bsh.dOk lane false
                                                  dReplaced := replaced 8 by_ lane s.bsh.dReplaced } }
    else if pool = 1 then { s with bsh := { s.bsh with cOk := setBit s.bsh.cOk lane false
                                                       cReplaced := replaced 4 by_ lane s.bsh.cReplaced } }
    else { s with sec := { s.sec with aesOk := setBit s.sec.aesOk lane false
                                      a10Replaces := replaced 10 by_ lane s.sec.a10Replaces
                                      a11Replaces := replaced 11 by_ lane s.sec.a11Replaces } }
  takeover (pool + 2) lane by_ ns s

/-- May the lane fail, and may `by_` run its unit again? Pool 0 decompresses, 1 compresses, 2 is AES. -/
def laneFaultOk (s : State) (pool lane by_ : Nat) : Bool :=
  if pool = 0 then decide (lane < 9) && unitOk s.bsh.dOk lane
      && rerunOk s.bsh.dOk 9 lane by_ (standing s.bsh.dOk lane [(8, s.bsh.dReplaced)])
  else if pool = 1 then decide (lane < 5) && unitOk s.bsh.cOk lane
      && rerunOk s.bsh.cOk 5 lane by_ (standing s.bsh.cOk lane [(4, s.bsh.cReplaced)])
  else decide (lane < 12) && unitOk s.sec.aesOk lane
      && rerunOk s.sec.aesOk 12 lane by_ (standing s.sec.aesOk lane [(10, s.sec.a10Replaces), (11, s.sec.a11Replaces)])

/-- LANE_FAULT. -/
def execLaneFault (pool : Fin 3) (lane by_ ns : Nat) (s : State) : Out :=
  act s (powered s && laneFaultOk s pool lane by_) (laneFault pool lane by_ ns)

/-- SHA_LANE_FAULT: there is no spare; another lane runs the hash again. -/
def execShaLaneFault (lane : Fin 4) (by_ ns : Nat) (s : State) : Out :=
  act s (powered s && unitOk s.sec.shaOk lane && rerunOk s.sec.shaOk 4 lane by_ []) (fun s =>
    takeover 5 lane by_ ns { s with sec := { s.sec with shaOk := setBit s.sec.shaOk lane false } })

/-- PK_ENGINE_FAULT: the other engine runs the operation again from its inputs (R160). -/
def execPkEngineFault (engine : Fin 2) (ns : Nat) (s : State) : Out :=
  act s (powered s && unitOk s.sec.pkOk engine) (fun s =>
    let other := 1 - engine.val
    let by_ := if unitOk s.sec.pkOk other then other else 0xFF
    takeover 6 engine by_ ns { s with sec := { s.sec with
      pkOk := setBit s.sec.pkOk engine false
      pk1Replaces := if engine.val = 0 ∧ by_ = 1 then 0 else s.sec.pk1Replaces } })

/-- SOFT_DECODER_FAULT: decoder 4, or another decoder of the pool, decodes again. -/
def execSoftDecoderFault (decoder : Fin 5) (by_ ns : Nat) (s : State) : Out :=
  act s (powered s && unitOk s.flc.softOk decoder
      && rerunOk s.flc.softOk 5 decoder by_ (standing s.flc.softOk decoder [(4, s.flc.softReplaces)])) (fun s =>
    takeover 7 decoder by_ ns { s with flc := { s.flc with
      softOk := setBit s.flc.softOk decoder false
      softReplaces := replaced 4 by_ decoder s.flc.softReplaces } })

end Sys2Proof.Machine
end

