-- ==== Sys2Proof/Machine/Stage.lean ====
section
/-! DEFINITION. The stages of a unit: which it visits, and what a stage that finishes does (R14 to R22, R87, R88, R122). -/

namespace Sys2Proof.Machine

abbrev sXts : Nat := 0
abbrev sGcm : Nat := 1
abbrev sBushel : Nat := 2
abbrev sFilter : Nat := 3
abbrev sSeal : Nat := 4
abbrev sDma : Nat := 5
abbrev sCompress : Nat := 6
abbrev sProgram : Nat := 7

/-- The opcodes whose data passes the stages. -/
def stageOps : List Nat :=
  [opRead, opVerify, opWrite, opInstallChunk, opReadAsset, opScan, opCodec, opCodecResume]

/-- The order of the stages: the write path, a codec job, or a read path (R15). -/
def stageOrder (op : Nat) : List Nat :=
  if op = opWrite ∨ op = opInstallChunk then [sDma, sCompress, sXts, sProgram]
  else if op = opCodec ∨ op = opCodecResume then [sBushel, sCompress, sDma]
  else [sXts, sGcm, sBushel, sFilter, sSeal, sDma]

/-- Does the command read a package? -/
def readsPackage (p : List Byte) : Bool := pkOpcode p == opReadAsset || (pkOpcode p == opScan && !(field p 48 4 == 0))

/-- Is allotment `i` of the command's range packed? -/
def unitPacked (s : State) (p : List Byte) (i : Nat) : Bool :=
  match vol? s (pkVolume p) with
  | some u => match Tbl.get? u.map (pkLba p / 8 + i) with
    | some e => e.packed
    | none => false
  | none => false

/-- STAGES of a unit. -/
def stagesOf (s : State) (n : Nat) (p : List Byte) (i : Nat) : Nat :=
  let op := pkOpcode p
  if op = opRead ∨ op = opVerify then 33 + 4 * b2n (unitPacked s p i)
  else if op = opWrite then 161 + 64 * b2n (writeCompresses s p)
  else if op = opInstallChunk then 161
  else if op = opReadAsset then
    if (filterProgram s n (field p 48 4)).isSome then 15
    else 39 + 8 * b2n (!(field p 48 4 == 0)) + 16 * b2n (pkSeal p)
  else if op = opScan then (if readsPackage p then 15 else 9 + 4 * b2n (unitPacked s p i))
  else if op = opCodec ∧ field p 48 1 = 1 then 96
  else 36

/-- Does the command have a unit `i`? -/
def hasUnit (p : List Byte) (i : Nat) : Bool :=
  let op := pkOpcode p
  if readsPackage p then decide (field p 36 4 ≤ i ∧ i < field p 36 4 + field p 40 4)
  else if op = opInstallChunk ∨ op = opCodec ∨ op = opCodecResume then i == 0
  else decide (i ≤ (pkLba p + pkLength p - 1) / 8 - pkLba p / 8)

/-- The stage after `cur` in the order, among the bits of STAGES; 0xFF when the unit is finished. -/
def nextStage (order : List Nat) (stages cur : Nat) : Nat :=
  (((order.dropWhile (fun x => !(x == cur))).drop 1).find? (fun x => bit stages x)).getD 0xFF

/-- The first stage. -/
def firstStage (order : List Nat) (stages : Nat) : Nat := (order.find? (fun x => bit stages x)).getD 0xFF

/-- The descriptor that the command task writes (Table 1.3). Where its buffers lie is the task's own affair. -/
def newUnit (s : State) (n : Nat) (t : Tag) (i : Nat) : UnitDesc :=
  let p := t.packet
  let op := pkOpcode p
  let stages := stagesOf s n p i
  let pkg := readsPackage p || op == opInstallChunk
  let licence := if op = opScan then field p 48 4 else if pkg then pkHandle p else 0
  { stages := stages, next := firstStage (stageOrder op) stages
    format := if op = opCodec then field p 49 1 else if bit stages sBushel || bit stages sCompress then 4 else 0
    status := stOk, retry := 0, inBuf := Config.freeNat s.fresh 0 % 2 ^ 25, inLen := 0
    outBuf := Config.freeNat s.fresh 1 % 2 ^ 25, outLen := 0, xtsKey := pkVolume p % 256, gcmKey := licence % 256
    sealSession := if pkSeal p then field p 44 4 % 1024 else 0, chunk := i
    tweak := if pkg then pkLba p else (pkLba p / 8 + i) * 8, crcVec := Config.freeNat s.fresh 2 % 2 ^ 25
    program := if op = opScan then pkHandle p else if op = opReadAsset then field p 48 4 else 0
    intakeSeq := t.intakeSeq, codecCtx := if op = opCodec ∨ op = opCodecResume then field p 52 4 else 0, deadline := 0
    isProtected := false, reread := false }

/-- Does stage `x` of the command check a CRC-32C (Table 1.4)? -/
def stageChecks (p : List Byte) (stages x : Nat) : Bool :=
  let op := pkOpcode p
  if op = opWrite then x == (if bit stages sCompress then sCompress else sXts)
  else if op = opReadAsset then x == (if bit stages sSeal then sSeal else if bit stages sDma then sDma else sFilter)
  else if op = opScan then x == sFilter
  else if op = opRead ∨ op = opVerify then x == sDma || (x == sBushel && bit stages sBushel)
  else (op == opCodec || op == opCodecResume) && x == sDma

/-- The pool whose lane wrote the data before the failing check (R21); none on a WRITE. -/
def producingPool (p : List Byte) (stages : Nat) : Option Nat :=
  let op := pkOpcode p
  if op = opWrite ∨ op = opInstallChunk then none
  else if bit stages sBushel then some 0
  else if bit stages sCompress then some 1
  else some 2

/-- The pool whose lane runs stage `x`, and the lanes of it in service. -/
def laneOk (s : State) (x lane : Nat) : Bool :=
  if x = sXts ∨ x = sGcm ∨ x = sSeal then unitOk s.sec.aesOk lane
  else if x = sBushel then s.bsh.enable && unitOk s.bsh.dOk lane
  else if x = sCompress then s.bsh.enable && unitOk s.bsh.cOk lane
  else true

/-- Lane counters of BSH, in bytes (log entry 45). -/
def countLane (x lane inLen outLen : Nat) (s : State) : State :=
  if x = sBushel then { s with bsh := { s.bsh with dOut := Tbl.set s.bsh.dOut lane (Tbl.getD s.bsh.dOut lane 0 + outLen) } }
  else if x = sCompress then { s with bsh := { s.bsh with cIn := Tbl.set s.bsh.cIn lane (Tbl.getD s.bsh.cIn lane 0 + inLen) } }
  else s

/-- A stage finished its output. -/
def stageGood (n : Nat) (p : List Byte) (lane len : Nat) (u : UnitDesc) (s : State) : UnitDesc × State :=
  if u.next = sDma ∧ u.isProtected = true then
    ({ u with status := stInternal }, logHealth 0x000B n (pkVolume p) 0 u.tweak 1 [] s)
  else
    let need := match Tbl.get? s.sec.licences u.gcmKey with
      | some l => l.sealRequired
      | none => false
    ({ u with next := nextStage (stageOrder (pkOpcode p)) u.stages u.next
              inBuf := u.outBuf, inLen := u.outLen, outBuf := Config.freeNat s.fresh 3 % 2 ^ 25, outLen := len
              isProtected := if u.next = sGcm then need else if u.next = sSeal then false else u.isProtected },
     countLane u.next lane u.outLen len s)

/-- A CRC-32C check failed: the unit runs again, or ends with ST_INTERNAL (R21). -/
def stageCrc (n : Nat) (p : List Byte) (u : UnitDesc) (s : State) : UnitDesc × State :=
  if u.retry = 0 then
    ({ u with retry := 1, next := firstStage (stageOrder (pkOpcode p)) u.stages }, logHealth 0x0007 n (pkVolume p) 0 u.tweak 1 [] s)
  else ({ u with status := stInternal }, logHealth 0x0008 n (pkVolume p) 0 u.tweak 1 [] s)

/-- A GCM tag failed: the chunk is read once more with full recovery, or ends with ST_AUTH_FAIL (R88) (log entry 37). -/
def stageTag (n : Nat) (p : List Byte) (u : UnitDesc) (s : State) : UnitDesc × State :=
  let s := logHealth 0x0009 n (pkVolume p) 0 u.tweak 1 [] s
  if u.reread then ({ u with status := stAuthFail }, s)
  else ({ u with reread := true, next := firstStage (stageOrder (pkOpcode p)) u.stages }, s)

/-- What a stage may find besides a good unit: 1 a CRC-32C mismatch, 2 a GCM tag that fails, or the status of an error. -/
def outcomeOk (s : State) (p : List Byte) (u : UnitDesc) (outcome lane by_ : Nat) : Bool :=
  if outcome = 0 then laneOk s u.next lane
  else if outcome = 1 then stageChecks p u.stages u.next && (match producingPool p u.stages with
    | some pool => laneFaultOk s pool lane by_
    | none => true)
  else if outcome = 2 then u.next == sGcm
  else if u.next = sXts then outcome == stMediaError
  else if u.next = sGcm then outcome == stAuthFail || outcome == stCodecData || outcome == stKeyRevoked
  else if u.next = sBushel then outcome == stCodecData || outcome == stCodecLimit
  else u.next == sFilter && (outcome == stProgramFault || outcome == stProgramBudget)

/-- A stage finishes a unit (log entry 45). -/
def stageDone (n : Nat) (p : List Byte) (k i lane len outcome by_ ns : Nat) (u : UnitDesc) (s : State) : State :=
  let (v, s) :=
    if outcome = 0 then stageGood n p lane len u s
    else if outcome = 1 then
      let (v, s) := stageCrc n p u s
      match producingPool p u.stages with
      | some pool => (v, laneFault pool lane by_ ns s)
      | none => (v, s)
    else if outcome = 2 then stageTag n p u s
    else ({ u with status := outcome }, s)
  bumpFresh { s with units := Tbl.set s.units (unitKey k i) v }

/-- STAGE_UNIT_DONE: lane `lane` finishes the present stage of unit `i` with `len` bytes of output. After a mismatch the
lane that wrote the data is out of service, and `by_` runs the unit again. -/
def execStageUnitDone (inst : Fin 64) (tag : Fin 256) (i lane len outcome by_ ns : Nat) (s : State) : Out :=
  let k := tagKey inst tag
  match Tbl.get? s.tags k with
  | none => .next s
  | some t =>
    let u := (Tbl.get? s.units (unitKey k i)).getD (newUnit s inst t i)
    act s (serving s && t.st == .running && t.work == .working && stageOps.contains (pkOpcode t.packet)
        && hasUnit t.packet i && u.status == stOk && !(u.next == 0xFF) && outcomeOk s t.packet u outcome lane by_)
      (stageDone inst t.packet k i lane len outcome by_ ns u)

end Sys2Proof.Machine
end

