-- ==== Sys2Proof/Machine/Regs.lean ====
section
/-! DEFINITION. What each register reads (R484 to R498; Tables 1.9 to 1.11, 2.3, 2.13, 3.14, 4.22, 5.10, 7.8, 8.20, 9.10, 10.3,
10.7, 10.9, 11.11, 12.12, 13.8, 14.8, 15.5). -/

namespace Sys2Proof.Machine

/-- A register word from its fields: (lowest bit, width, value); what no field covers is reserved and reads 0 (R487). -/
def pack (fs : List (Nat × Nat × Nat)) : Nat := fs.foldl (fun a f => a + f.2.2 % 2 ^ f.2.1 * 2 ^ f.1) 0

/-- Bit `k` for each `k` below `n` that meets `f`. -/
def bitmap (n : Nat) (f : Nat → Bool) : Nat := (List.range n).foldl (fun a k => a + b2n (f k) * 2 ^ k) 0

/-- The word of four bytes of a memory. -/
def wordAt (m : Cells) (a : Nat) : Nat := leNat (Cells.readN m a 4)

/-- The low 32 bits. -/
def lo32 (x : Nat) : Nat := x % 2 ^ 32

/-- Bits [63:32]. -/
def hi32 (x : Nat) : Nat := bits x 32 32

/-- An age in units of `unit` µs, at most 0xFFFF; 0 before the first event. -/
def ageOf (s : State) (since unit : Nat) : Nat := min ((s.now - since) / unit) 0xFFFF

/-! ### GLB, CLK -/

/-- The latches of a function; what is no function has none (R490). -/
def latchOf (s : State) (fn : Nat) : Latch := if fn = 0 then s.glb.latch0 else if fn = 1 then s.glb.latch1 else resetLatch

/-- A GLB register. -/
def readGlb (s : State) (fn off : Nat) : Nat :=
  let g := s.glb
  let l := latchOf s fn
  if off = 0x00 then 0x0940A000
  else if off = 0x04 then pack [(28, 4, g.stage), (26, 2, g.arrangement), (25, 1, b2n s.otp.porRequired), (24, 1, b2n g.unclean), (22, 2, g.bootSrc)]
  else if off = 0x08 then b2n g.shutdown
  else if off = 0x0C then g.cause % 1024
  else if off = 0x10 then pack [(16, 6, g.fails), (8, 8, g.candidate), (0, 2, g.rootCopy)]
  else if off = 0x14 then lo32 g.running.fwVersion
  else if off = 0x18 then pack [(16, 16, g.configMs), (0, 16, g.readyMs)]
  else if off = 0x20 then lo32 g.seq
  else if off = 0x24 then l.seqHi
  else if off = 0x28 then lo32 s.now
  else if off = 0x2C then l.timeHi
  else if off = 0x30 then lo32 g.recovAddr
  else if off = 0x34 then l.recovHi
  else if off = 0x38 then g.recovLen
  else if off = 0x40 then g.recovResult
  else 0

/-- A CLK register. -/
def readClk (s : State) (off : Nat) : Nat :=
  let c := s.clk
  if off = 0 then b2n c.rootReq + 2 * b2n c.autoSwitch + 4 * b2n c.stbyEn
  else if off = 4 then pack [(16, 16, c.switchCount), (4, 1, b2n c.refOk1), (3, 1, b2n c.refOk0), (2, 1, b2n c.lock1), (1, 1, b2n c.lock0),
    (0, 1, b2n c.rootActive)]
  else if 0x40 ≤ off ∧ off < 0x5C then bits c.gate (8 * (off - 0x40)) 32
  else if 0x60 ≤ off ∧ off < 0x7C then bits c.stopped (8 * (off - 0x60)) 32
  else 0

/-! ### HIF -/

/-- The level at GPIO pin `k`: its input, what it drives, the activity wave, or READY (R471). -/
def gpioLevel (s : State) (k : Nat) : Bool :=
  let m := bits s.hif.gpioMode (2 * k) 2
  if m = 0 then bit s.hif.gpioIn k else if m = 1 then bit s.hif.gpioOut k else if m = 2 then s.hif.activity else s.glb.stage == 8

/-- HIF_PORT_STS_p, HIF_PORT_ERR_p, HIF_PORT_EVT_p (log entry 114). -/
def readPort (s : State) (p off : Nat) : Nat :=
  let q := portOf s p
  if off = 0 then pack [(31, 1, b2n q.linkUp), (30, 1, b2n q.sris), (24, 3, q.pm), (16, 4, q.width), (12, 3, q.speed),
    (8, 1, b2n q.reversed), (0, 8, q.polarity)]
  else if off = 4 then pack [(16, 16, q.replays), (0, 16, q.rxErrors)]
  else if off = 8 then pack [(16, 16, q.failures), (0, 16, q.recoveries)]
  else 0

/-- HIF_INST_STS_n. -/
def readInstSts (s : State) (n : Nat) : Nat :=
  match Tbl.get? s.insts n with
  | none => 0
  | some i => pack [(31, 1, b2n i.fenced), (30, 1, b2n i.ring.enable), (16, 9, (busyOf s n).length),
      (0, 9, Tbl.countIf (busyOf s n) (fun _ t => !t.started && t.st == .queued))]

/-- HIF_SLICE_MAP_w. -/
def readSliceMap (s : State) (w : Nat) : Nat :=
  match s.insts.find? (fun p => p.2.slice && p.2.sliceWin == w) with
  | some (n, _) => 2 ^ 31 + n
  | none => 0

/-- A HIF register. -/
def readHif (s : State) (off : Nat) : Nat :=
  let h := s.hif
  if off = 0 then (if s.glb.arrangement = 1 then b2n h.paired else 0)
  else if 0x10 ≤ off ∧ off < 0x30 then readPort s ((off - 0x10) / 16) (off % 16)
  else if off = 0x40 then pack [(8, 4, h.gpioOut), (0, 8, h.gpioMode)]
  else if off = 0x44 then bitmap 4 (gpioLevel s)
  else if off = 0x100 then pack [(16, 15, Tbl.countIf s.tags (fun _ t => t.st == .queued)), (0, 14, Tbl.countIf s.tags (fun _ t => t.started))]
  else if off = 0x104 then b2n (h.wbAllow && !bit (policyByte s.otp) 2) + 2 * b2n (holdupOk s)
  else if 0x200 ≤ off ∧ off < 0x300 then readInstSts s ((off - 0x200) / 4)
  else if 0x300 ≤ off ∧ off < 0x400 then (Tbl.get? s.insts ((off - 0x300) / 4)).elim 0 (fun i => lo32 i.ring.lastSeq)
  else if 0x400 ≤ off ∧ off < 0x440 then readSliceMap s ((off - 0x400) / 4)
  else if off = 0x440 then pack [(24, 8, h.locked), (16, 8, h.malformed), (0, 16, h.hostErrors)]
  else 0

/-! ### MGR -/

/-- Code of an instance state (Table 10.1). -/
def instCode : InstSt → Nat
  | .active => 1
  | .resetting => 2
  | .draining => 3
  | .drained => 4
  | .destroying => 5

/-- Three numbers as MGR_INST_WEIGHT, _CAP and _USE hold them. -/
def packThree (t : Three) : Nat := pack [(20, 10, t.flash), (10, 10, t.codec), (0, 10, t.engine)]

/-- A register of the instance in MGR_INST_SEL; of an ABSENT one it reads 0 (R374). -/
def readSelected (i : Inst) (off : Nat) : Nat :=
  if off = 0x14 then pack [(31, 1, 1), (30, 1, b2n i.slice), (27, 3, instCode i.st), (26, 1, i.port), (20, 4, i.sliceWin), (0, 20, i.pasid)]
  else if off = 0x18 then pack [(16, 6, i.vecCount), (0, 11, i.vecBase)]
  else if off = 0x1C then pack [(8, 1, i.port), (0, 1, b2n i.drain)]
  else if off = 0x20 then i.rights % 16
  else if off = 0x24 then packThree i.share.nextWeight
  else if off = 0x28 then packThree i.share.nextCap
  else if off = 0x2C then packThree i.share.lastUse
  else if off = 0x78 then i.mbox.word
  else if off = 0x7C then (if i.mbox.pend then i.mbox.noteLen % 512 else 0)
  else if 0x100 ≤ off ∧ off < 0x200 then wordAt i.mbox.out (off - 0x100)
  else 0

/-- ACCESS of the volume in MGR_VOL_SEL: a local volume or a bound alias, 0 for one that does not exist. -/
def volAccess (s : State) : Nat :=
  match vol? s s.mgr.volSel with
  | some u => if volServes s s.mgr.volSel u then u.access else 0
  | none => (Tbl.get? s.spn.aliases s.mgr.volSel).elim 0 (fun a => if a.bind && a.bound then a.access else 0)

/-- A page log's register. -/
def readLog (l : PLog) (off : Nat) : Nat :=
  if off = 0 then pack [(31, 1, b2n l.enable), (16, 6, l.inst), (0, 5, l.sizeLog2)]
  else if off = 4 then lo32 l.base
  else if off = 8 then hi32 l.base
  else if off = 0xC then l.head
  else if off = 0x10 then l.tail
  else if off = 0x18 then pack [(16, 16, l.stalls), (0, 16, l.marker)]
  else 0

/-- A MGR register. -/
def readMgr (s : State) (off : Nat) : Nat :=
  let m := s.mgr
  let who (f : Inst → Bool) (k : Nat) : Bool := (Tbl.get? s.insts k).elim false f
  if off = 0 then b2n m.priv
  else if off = 4 then pack [(16, 5, Tbl.countIf s.insts (fun _ i => i.slice)), (0, 7, s.insts.length)]
  else if off = 0x10 then m.instSel
  else if off = 0x40 then m.volSel
  else if off = 0x44 then lo32 (volAccess s)
  else if off = 0x48 then hi32 (volAccess s)
  else if off = 0x60 then bitmap 32 (who (fun i => i.mbox.pend))
  else if off = 0x64 then bitmap 32 (fun k => who (fun i => i.mbox.pend) (k + 32))
  else if off = 0x68 then bitmap 32 (who (fun i => i.mbox.deliv))
  else if off = 0x6C then bitmap 32 (fun k => who (fun i => i.mbox.deliv) (k + 32))
  else if off = 0x74 then m.ack
  else if 0x200 ≤ off ∧ off < 0x300 then wordAt m.out (off - 0x200)
  else if off = 0x300 then lo32 m.migAddr
  else if off = 0x304 then hi32 m.migAddr
  else if off = 0x30C then m.migResult
  else if 0x400 ≤ off ∧ off < 0x480 then readLog (Tbl.getD m.logs ((off - 0x400) / 32) resetPLog) (off % 32)
  else match Tbl.get? s.insts m.instSel with
    | some i => readSelected i off
    | none => 0

/-! ### SCH and BSH -/

/-- Is the engine in service or a standing spare? -/
def engineOk (s : State) (e : Nat) : Bool := (Tbl.get? s.sch.engines e).elim false (fun x => x.role == .inService || x.role == .spare)

/-- Code of an engine's role. -/
def roleCode : EngRole → Nat
  | .inService => 0
  | .spare => 1
  | .failed => 2
  | .untested => 3

/-- SCH_CTX_INFO, _PENDING and _WAIT of a context; a FREE context reads 0 but for its generation (log entry 127). -/
def readCtx (s : State) (off : Nat) : Nat :=
  let c := s.sch.ctxSel
  match Tbl.get? s.sch.tasks c with
  | none => if off = 0x34 then pack [(16, 8, ctxGen s c)] else 0
  | some t =>
    if off = 0x34 then pack [(24, 8, t.engine), (16, 8, ctxGen s c), (15, 1, b2n t.damzu), (12, 3, taskCode t.st), (11, 1, b2n t.waitAll),
      (8, 3, t.prio), (0, 7, t.owner)]
    else if off = 0x38 then t.pending.toNat
    else t.waitMask.toNat

/-- A SCH register (log entries 127, 128). -/
def readSch (s : State) (off : Nat) : Nat :=
  let c := s.sch
  if off = 0 then pack [(16, 8, c.sliceUs), (0, 5, c.ckptUs)]
  else if off = 4 then pack [(31, 1, b2n c.hold), (16, 6, Tbl.countIf c.engines (fun _ x => x.role == .inService)), (0, 13, if c.engines.isEmpty then 0 else 4096 - c.tasks.length)]
  else if off = 8 then bitmap 32 (engineOk s)
  else if off = 0xC then bitmap 4 (fun k => engineOk s (32 + k))
  else if off = 0x10 then (List.range 4).foldl (fun a k => a + Tbl.getD c.replaces k 0xFF * 256 ^ k) 0
  else if off = 0x14 then pack [(16, 13, Tbl.countIf c.tasks (fun _ t => t.st == .ready)), (0, 13, Tbl.countIf c.tasks (fun _ t => t.st == .waiting))]
  else if off = 0x18 then c.heldCount
  else if off = 0x1C then c.orphans
  else if off = 0x20 then c.takeovers
  else if off = 0x30 then c.ctxSel
  else if off = 0x34 ∨ off = 0x38 ∨ off = 0x3C then readCtx s off
  else if 0x40 ≤ off ∧ off < 0xD0 then
    match Tbl.get? c.engines ((off - 0x40) / 4) with
    | some x => pack [(30, 2, roleCode x.role), (12, 1, b2n x.ctx.isSome), (0, 12, x.ctx.getD 0)]
    | none => 0
  else if off = 0x100 then b2n c.traceEnable + 2 * b2n c.traceStop + 4 * b2n c.traceFreeze
  else if off = 0x104 then pack [(16, 7, c.traceOwner), (1, 15, c.traceKinds)]
  else if off = 0x108 then pack [(16, 16, c.traceWraps), (0, 16, c.traceIndex)]
  else if off = 0x10C then c.traceRidx
  else if 0x110 ≤ off ∧ off < 0x120 then field (traceAt s) (off - 0x110) 4
  else if off = 0x120 then c.traceDropped
  else 0

/-- Does no lane and no stage queue of Bushel hold a unit? (log entry 128) -/
def bushelIdle (s : State) : Bool :=
  !(s.bsh.dOk == 0) && !(s.units.any (fun u => u.2.next == sBushel || u.2.next == sCompress))
    && !(s.tags.any (fun p => p.2.st == .running && p.2.work == .working && [opCodec, opCodecResume].contains (pkOpcode p.2.packet)))

/-- A BSH register. -/
def readBsh (s : State) (off : Nat) : Nat :=
  let b := s.bsh
  if off = 0 then b2n b.enable + 16 * b2n b.deflateEn + 32 * b2n b.zstdEn
  else if off = 4 then pack [(24, 1, b2n (bushelIdle s)), (16, 5, b.cOk), (0, 9, b.dOk)]
  else if off = 8 then pack [(8, 8, b.cReplaced), (0, 8, b.dReplaced)]
  else if 0x10 ≤ off ∧ off < 0x34 then lo32 (Tbl.getD b.dOut ((off - 0x10) / 4) 0 / 65536)
  else if 0x40 ≤ off ∧ off < 0x54 then lo32 (Tbl.getD b.cIn ((off - 0x40) / 4) 0 / 65536)
  else if off = 0x60 then pack [(16, 16, b.limitErr), (0, 16, b.dataErr)]
  else if off = 0x64 then pack [(16, 11, if s.sch.engines.isEmpty then 0 else s.insts.foldl (fun a p => a + p.2.feat.codecContexts) 0), (0, 11, b.ctxs.length)]
  else if off = 0x68 then pack [(16, 5, (b.packages.filter (fun p => p.dict.isSome)).length), (0, 11, b.packages.length)]
  else 0

/-! ### SEC and IDX -/

/-- A SEC register. -/
def readSec (s : State) (off : Nat) : Nat :=
  let c := s.sec
  if off = 0 then secCtl s
  else if off = 4 then pack [(15, 1, b2n c.entropyFail), (14, 1, b2n (drbgServes s)), (13, 1, b2n c.ladderBlocked), (12, 1, b2n c.debugOpened),
    (11, 1, b2n (evaluated s)), (10, 1, b2n (fwRoot0Revoked s.otp)), (0, 3, lifecycle s.otp)]
  else if off = 8 then pack [(31, 1, b2n c.commitBusy), (30, 1, b2n c.commitFail), (16, 8, s.glb.running.svn),
    (8, 8, s.glb.staged.elim 0xFF (fun x => x.svn)), (0, 8, arbValue s.otp)]
  else if off = 0x10 then pack [(18, 10, c.seals.length), (9, 9, c.volKeys.length), (0, 9, c.licences.length)]
  else if off = 0x14 then pack [(16, 2, c.pkOk), (12, 4, c.shaOk), (0, 12, c.aesOk)]
  else if off = 0x18 then pack [(16, 8, c.pk1Replaces), (8, 8, c.a11Replaces), (0, 8, c.a10Replaces)]
  else if off = 0x1C then pack [(16, 16, c.authFail), (8, 8, c.licenceRefused), (0, 8, c.unlockRefused)]
  else if off = 0x20 then pack [(16, 16, c.reseeds), (0, 8, c.healthFails)]
  else if off = 0x24 then pack [(16, 13, c.revEntries.length), (0, 16, c.revSequence)]
  else if 0x40 ≤ off ∧ off < 0x50 then bits c.challenge.toNat (8 * (off - 0x40)) 32
  else if off = 0x58 then pack [(16, 8, c.unlockWords.length), (8, 8, c.unlockResult)]
  else 0

/-- Is no operation, move or respread of the index unit under way? (log entry 128) -/
def indexIdle (s : State) : Bool :=
  !(s.idx.bankOk == 0) && s.idx.req.isNone && !(s.idx.tables.any (fun t => t.2.respread))
    && !(s.tags.any (fun p => p.2.st == .running && decide (0x11 ≤ pkOpcode p.2.packet ∧ pkOpcode p.2.packet ≤ 0x14)))

/-- HOLE of a table: 0 none, 1 to 4 for 8 to 64. -/
def holeCode (h : Nat) : Nat := if h = 0 then 0 else Nat.log2 h - 2

/-- IDX_TBL_INFO, _BASE and _USED of the table in IDX_TBL_SEL (log entry 130). -/
def readTable (s : State) (off : Nat) : Nat :=
  match Tbl.get? s.idx.tables s.idx.sel with
  | none => 0
  | some t =>
    if off = 0x34 then pack [(31, 1, 1), (24, 7, t.size / 1024), (20, 3, holeCode t.hole), (12, 5, t.matchBits / 8),
      (8, 2, t.keyBits / 32 - 1), (0, 6, t.owner)]
    else if off = 0x38 then t.base
    else Tbl.countIf s.idx.entries (fun _ e => e.table == s.idx.sel)

/-- An IDX register. -/
def readIdx (s : State) (off : Nat) : Nat :=
  let x := s.idx
  if off = 0 then pack [(8, 8, x.cursorMs), (0, 1, b2n x.enable)]
  else if off = 4 then pack [(24, 1, b2n (indexIdle s)), (0, 17, x.bankOk)]
  else if off = 8 then x.replaces
  else if off = 0xC then
    if x.bankOk = 0 then 0 else pack [(16, 9, x.tables.length), (0, 8, 128 - x.tables.foldl (fun a t => a + t.2.size / 1024) 0)]
  else if off = 0x10 then Tbl.countIf x.cursors (fun _ c => c.live)
  else if off = 0x14 then lo32 (x.searches / 65536)
  else if off = 0x18 then pack [(16, 16, x.corrected), (8, 8, x.takeovers), (0, 8, x.repeated)]
  else if off = 0x20 then x.cfg
  else if off = 0x28 then pack [(31, 1, b2n x.req.isSome), (0, 8, x.result)]
  else if off = 0x2C then lo32 x.handle
  else if off = 0x30 then x.sel
  else if off = 0x34 ∨ off = 0x38 ∨ off = 0x3C then readTable s off
  else 0

/-! ### CCH, MEM, DRC -/

/-- Is a disable, an enable or a change of way power under way? -/
def cacheChanging (c : Cch) : Bool := !(c.enable == c.enabled) || c.enableWaits || !(c.wayPwr == c.waySts)

/-- A CCH register. -/
def readCch (s : State) (off : Nat) : Nat :=
  let c := s.cch
  if off = 0 then pack [(4, 3, c.pfDepth), (1, 1, b2n c.prefetchEn), (0, 1, b2n c.enable)]
  else if off = 4 then pack [(16, 8, c.wbuf.length), (1, 1, b2n (decide (5 ≤ s.glb.stage) && cacheChanging c)), (0, 1, b2n c.enabled)]
  else if off = 8 then c.wayPwr
  else if off = 0xC then c.waySts
  else if 0x10 ≤ off ∧ off < 0x20 then c.masks.getD ((off - 0x10) / 4) 0
  else if off = 0x20 then lo32 (c.hits / 65536)
  else if off = 0x24 then lo32 (c.misses / 65536)
  else if off = 0x28 then pack [(16, 16, min (c.promoted / 256) 0xFFFF), (0, 16, min (c.discarded / 256) 0xFFFF)]
  else if off = 0x2C then min c.victimHits 0xFFFFFFFF
  else if off = 0x30 then pack [(16, 16, c.parityData), (0, 16, c.parityTag)]
  else 0

/-- MEM_REMAP_INFO of the entry in MEM_REMAP_SEL. -/
def readRemap (m : Mem) : Nat :=
  let e := if m.remapSel < 512 then Tbl.get? m.remaps m.remapSel else Tbl.get? m.firkinRemaps (m.remapSel - 512)
  e.elim 0 (fun r => pack [(31, 1, 1), (30, 1, b2n r.factory), (22, 6, r.unit), (0, 13, r.line)])

/-- A MEM register. -/
def readMem (s : State) (off : Nat) : Nat :=
  let m := s.mem
  if off = 0 then pack [(16, 8, m.dramPeriod), (8, 8, m.sramPeriod), (1, 1, b2n m.dramScrubEn), (0, 1, b2n m.sramScrubEn)]
  else if off = 4 then lo32 m.bankOk
  else if off = 8 then bits m.bankOk 32 2
  else if off = 0xC then pack [(8, 8, m.bank33), (0, 8, m.bank32)]
  else if off = 0x10 then pack [(16, 16, m.twinSize / 4096), (0, 13, m.twinBase / 4096)]
  else if off = 0x14 then pack [(16, 10, m.remaps.length), (0, 11, m.firkinRemaps.length)]
  else if off = 0x18 then m.remapSel
  else if off = 0x1C then readRemap m
  else if off = 0x20 then pack [(16, 16, m.corrected), (0, 16, m.uncorrectable)]
  else if off = 0x24 then pack [(16, 16, ageOf s m.dramPassAt 60000000), (0, 16, ageOf s m.sramPassAt 1000)]
  else if off = 0x28 then lo32 m.lastAddr
  else if off = 0x2C then pack [(24, 8, m.lastSource), (16, 8, m.lastUnit), (8, 8, m.lastKind)]
  else if off = 0x30 then lo32 m.injAddr
  else if off = 0x34 then pack [(31, 1, b2n m.injArm), (28, 3, m.injTarget), (26, 2, m.injMode), (20, 6, m.injEngine), (10, 10, m.injB), (0, 10, m.injA)]
  else 0

/-- State code of a DRAM side (DRC_STS). -/
def sideCode : SideSt → Nat
  | .absent => 0
  | .training => 1
  | .inService => 2
  | .shed => 3
  | .failed => 4
  | .selfRefresh => 5

/-- DRC_ERR_CNT_s. -/
def sideErrCnt (x : Side) : Nat := pack [(16, 16, x.corrected), (8, 8, x.uncorrectable), (0, 8, x.poisonWritten)]

/-- DRC_TRAIN_s. -/
def sideTrain (s : State) (x : Side) : Nat :=
  pack [(24, 8, x.trainCount), (16, 8, x.trainTemp), (0, 16, if x.trainCount = 0 then 0 else ageOf s x.trainAt 1000)]

/-- A DRC register. -/
def readDrc (s : State) (off : Nat) : Nat :=
  let d := s.drc
  if off = 0 then b2n d.a.retrain + 2 * b2n d.b.retrain
  else if off = 4 then pack [(24, 4, sideCode d.b.st), (16, 4, sideCode d.a.st), (0, 16, d.rate)]
  else if off = 8 then pack [(16, 16, d.b.mib), (0, 16, d.a.mib)]
  else if off = 0xC then pack [(16, 16, d.a.mib * 31 / 32), (0, 16, d.mirrorMib)]
  else if off = 0x10 then sideErrCnt d.a
  else if off = 0x14 then sideErrCnt d.b
  else if off = 0x18 then sideTrain s d.a
  else if off = 0x1C then sideTrain s d.b
  else if off = 0x20 then lo32 (d.rmw / 65536)
  else if off = 0x24 then d.mirrorRepairs
  else 0

/-! ### FLC -/

/-- State code of a channel (FLC_STS_n). -/
def chanCode : ChSt → Nat
  | .absent => 0
  | .training => 1
  | .inService => 2
  | .shed => 3
  | .evacuating => 4
  | .evacuated => 5
  | .released => 6
  | .failed => 7

/-- FLC_DIE_INFO, _WEAR and _BLOCKS of die `d`; 0 until the dies have been identified in STAGE 3 (log entries 128, 129). -/
def readDie (s : State) (d off : Nat) : Nat :=
  match Tbl.get? s.flc.dies d with
  | none => if off = 0x34 ∧ 3 < s.glb.stage then pack [(24, 8, 0xFF)] else 0
  | some x =>
    if off = 0x34 then
      if !x.present ∨ x.refused then pack [(24, 8, 0xFF)]
      else pack [(24, 8, x.part), (16, 8, if dieState s d = 1 then x.cls else 0), (0, 9, x.capGib)]
    else if off = 0x38 then pack [(16, 16, min (maxPe x) 0xFFFF), (0, 16, min (avgPe x) 0xFFFF)]
    else pack [(16, 16, x.retiredBlocks), (0, 16, x.freeBlocks)]

/-- A register of channel `n`. FLC_QUEUE_n reads a free value: the operations of the channel are not followed one by one
(log entry 63). -/
def readFlc (s : State) (n off : Nat) : Nat :=
  let c := Tbl.getD s.flc.channels n resetChan
  let die (k : Nat) : Die := Tbl.getD s.flc.dies (16 * n + k) noDie
  if off = 0 then b2n c.patrolEn + 2 * b2n c.retrain
  else if off = 4 then pack [(24, 4, chanCode c.st), (16, 5, ((List.range 16).filter (fun k => dieServes s (16 * n + k))).length), (0, 12, c.rate)]
  else if off = 8 then pack [(16, 16, bitmap 16 (fun k => (die k).retired)), (0, 16, bitmap 16 (fun k => (die k).present))]
  else if off = 0xC then pack [(24, 8, c.trainCount), (16, 8, c.trainTemp), (0, 16, if c.trainCount = 0 then 0 else ageOf s c.trainAt 1000)]
  else if off = 0x10 then (if c.st = .absent then 0 else lo32 (Config.freeNat s.fresh 0))
  else if off = 0x14 then lo32 (c.decodes / 65536)
  else if off = 0x18 then pack [(16, 16, c.softCnt), (0, 16, c.retryCnt)]
  else if off = 0x1C then pack [(16, 16, c.rebuilt), (0, 16, c.lost)]
  else if off = 0x20 then pack [(16, 16, c.progFails), (0, 16, c.eraseFails)]
  else if off = 0x28 then pack [(31, 1, b2n (!(c.svcOp == 0))), (8, 8, c.progress), (0, 8, c.result)]
  else if off = 0x30 then c.dieSel
  else if off = 0x34 ∨ off = 0x38 ∨ off = 0x3C then readDie s (16 * n + c.dieSel) off
  else 0

/-! ### SPN -/

/-- SPN_PORT_STS_p, _ERR_p, _FLITS_p and _DOWN_p. -/
def readEPort (s : State) (p off : Nat) : Nat :=
  let q := Tbl.getD s.spn.ports p resetEPort
  if off = 0 then pack [(16, 16, q.neighbour), (8, 2, q.nbPort), (0, 3, portCode q.st)]
  else if off = 4 then pack [(16, 16, q.crcErr), (0, 16, q.resends)]
  else if off = 8 then lo32 (q.flits / 65536)
  else pack [(16, 16, q.downs)]

/-- SPN_VOL_REMOTE to SPN_VOL_MIRROR_IDS of the volume in SPN_VOL_SEL. RESYNC_PCT during a pass is a free value
(log entry 63). -/
def readSpanVol (s : State) (off : Nat) : Nat :=
  let v := s.spn.volSel
  let a := Tbl.get? s.spn.aliases v
  let u := vol? s v
  if off = 0x304 then a.elim 0 (fun a => pack [(31, 1, b2n a.bind), (30, 1, b2n (a.bind && a.bound)), (16, 8, a.homeVol), (0, 16, a.homeId)])
  else if off = 0x308 then pack [(1, 7, a.elim 0 (fun a => a.probeErr)), (0, 1, u.elim 0 (fun u => b2n u.exported))]
  else match u.bind (fun u => u.mirror) with
    | none => 0
    | some m =>
      let resync := m.st1 == .resync || m.st2 == .resync
      if off = 0x30C then pack [(30, 2, if m.primary then 1 else 2), (28, 2, m.copies),
        (26, 2, b2n (m.st1 == .inSet) + 2 * b2n (m.st2 == .inSet)), (24, 2, b2n (m.st1 == .resync) + 2 * b2n (m.st2 == .resync)),
        (16, 8, if resync then Config.freeNat s.fresh 0 % 101 else 0)]
      else pack [(16, 16, if m.primary then m.id2 else m.primaryId), (0, 16, m.id1)]

/-- A SPN register. -/
def readSpn (s : State) (off : Nat) : Nat :=
  let x := s.spn
  let attr (p alt : Nat) (v : Bool) : Nat := pack [(31, 1, b2n v), (4, 2, alt), (0, 2, p)]
  if off = 0 then pack [(16, 16, x.hopLimit), (0, 16, x.graceUs)]
  else if off = 4 then pack [(31, 1, b2n x.joined), (16, 3, bitmap 3 (fun p => (Tbl.getD x.ports p resetEPort).st == .active)), (0, 16, if x.joined then x.spanId else 0)]
  else if off = 8 then x.group
  else if off = 0xC then x.members.length
  else if off = 0x10 then x.gapUs
  else if 0x20 ≤ off ∧ off < 0x50 then readEPort s ((off - 0x20) / 16) (off % 16)
  else if off = 0x60 then attr x.dfltPort x.dfltAlt x.dfltValid
  else if 0x100 ≤ off ∧ off < 0x300 then
    let n := (off - 0x100) / 8
    if off % 8 = 0 then (let r := Tbl.getD x.ranges n (0, 0); pack [(16, 16, r.2), (0, 16, r.1)])
    else (let a := Tbl.getD x.attrs n (3, 3, false); attr a.1 a.2.1 a.2.2)
  else if off = 0x300 then x.volSel
  else if 0x304 ≤ off ∧ off ≤ 0x310 then readSpanVol s off
  else if off = 0x320 then pack [(16, 16, (x.served.filter (fun v => !v.2.mirror)).length), (0, 16, x.xacts.length)]
  else if off = 0x324 then pack [(16, 16, x.timeouts), (0, 16, x.unreachable)]
  else if off = 0x328 then pack [(16, 16, x.drops), (0, 16, x.reqResent)]
  else 0

/-! ### PWR -/

/-- State code of the supply (Table 12.5). -/
def supplyCode : SupSt → Nat
  | .normal => 0
  | .warning => 1
  | .recovering => 2
  | .flush => 3
  | .flushed => 4

/-- Four limits as a PWR_TLIM register holds them. -/
def packLimits (l : List Nat) : Nat := pack [(24, 8, l.getD 3 0), (16, 8, l.getD 2 0), (8, 8, l.getD 1 0), (0, 8, l.getD 0 0)]

/-- The limits of an EXT sensor after reset (Table 12.12). -/
def extLimits : List Nat := [70, 75, 80, 85]

/-- A PWR register (log entry 93). -/
def readPwr (s : State) (off : Nat) : Nat :=
  let p := s.pwr
  if off = 0 then pack [(15, 1, b2n p.pwrFail), (14, 1, b2n p.holdupRdy), (13, 1, b2n (thermAlert s)), (12, 1, b2n (faultPinCause s)),
    (11, 1, b2n p.capActive), (4, 3, deviceThermal s), (0, 3, supplyCode p.supply)]
  else if off = 4 then faultSts s % 64
  else if off = 8 then p.faultMask
  else if off = 0x10 then pack [(16, 16, p.dips), (0, 8, p.lastRail)]
  else if off = 0x14 then lo32 p.dipLast
  else if off = 0x18 then p.holdup
  else if off = 0x1C then pack [(16, 16, min (flushRate s) 0xFFFF), (0, 16, limitMib s)]
  else if off = 0x20 then pack [(31, 1, b2n p.flushDone), (0, 24, min p.flushUs 0xFFFFFF)]
  else if off = 0x24 then pack [(16, 16, p.retrainFlash), (0, 16, p.retrainDram)]
  else if off = 0x30 then packLimits p.tlimDie
  else if 0x40 ≤ off ∧ off < 0x60 then (let r := Tbl.getD p.rails ((off - 0x40) / 4) (0, 0); pack [(16, 16, r.1), (0, 16, r.2)])
  else if 0x60 ≤ off ∧ off < 0x80 then (let c := Tbl.getD p.extCfg ((off - 0x60) / 4) (0, 0, 0); pack [(16, 16, c.1), (4, 10, c.2.1), (0, 2, c.2.2)])
  else if 0x80 ≤ off ∧ off < 0xA0 then packLimits (Tbl.getD p.tlimExt ((off - 0x80) / 4) extLimits)
  else if 0xA0 ≤ off ∧ off < 0xF0 then
    (let x := sensorOf s ((off - 0xA0) / 4); pack [(31, 1, b2n x.failed), (28, 3, x.state), (0, 16, temp16 x.temp)])
  else 0

/-! ### OTP and DBG -/

/-- GROUP_g of OTP_GROUP_STS. -/
def groupSts (o : Otp) (g : Nat) : Nat :=
  pack [(0, 4, bitmap 4 (genUsed o g)), (4, 2, (winnerOf o g).getD 0), (6, 1, b2n (winnerOf o g).isSome), (7, 1, b2n (genUsed o g 3))]

/-- Is a factory repair in the fuse array: an entry whose KIND is not 0 (R452)? -/
def anyRepair (o : Otp) : Bool := (List.range 64).any (fun i => !(bits (wordAt o.fuses (0x280 + 4 * i)) 30 2 == 0))

/-- An OTP register; the words of ISEED read 0 (R123). -/
def readOtp (s : State) (off : Nat) : Nat :=
  let o := s.otp
  if off = 0 then pack [(8, 8, o.result), (0, 8, o.words.length)]
  else if off = 4 then o.sel
  else if off = 0x10 then (List.range 4).foldl (fun a g => a + groupSts o g * 256 ^ g) 0
  else if off = 0x14 then pack [(0, 1, b2n (iseedWritten s)), (1, 9, bitmap 9 (anchorWritten o)), (10, 1, b2n (fwRoot0Revoked o)), (11, 1, b2n (anyRepair o))]
  else if off = 0x18 then o.readAddr
  else if off = 0x1C then (if o.readAddr < 0x20 then 0 else wordAt o.fuses o.readAddr)
  else 0

/-- Scopes of the debug access port that are open (R454): all in BLANK, FACTORY and RMA; in SECURED those of the token accepted
since POR; none in SCRAPPED (R157, R470), and none before STAGE 1 takes the lifecycle state (R440) (log entry 128). -/
def dbgScope (s : State) : Nat :=
  let lc := lifecycle s.otp
  if s.glb.stage = 0 then 0
  else if lc = 0 ∨ lc = 1 ∨ lc = 3 then 0x1F
  else if lc = 2 then (if s.sec.debugOpened then s.sec.scope % 32 else 0)
  else 0

/-- Is the port open? (log entry 128) -/
def dbgOpen (s : State) : Bool :=
  let lc := lifecycle s.otp
  !(s.glb.stage == 0) && (lc == 0 || lc == 1 || lc == 3 || (lc == 2 && s.sec.debugOpened))

/-- A DBG register; all but DBG_STS read 0 while the port is closed (R455). -/
def readDbg (s : State) (off : Nat) : Nat :=
  if off = 0 then pack [(31, 1, b2n (dbgOpen s)), (0, 5, dbgScope s)]
  else if !dbgOpen s then 0
  else if off = 8 then lo32 s.dbg.addr
  else if off = 0xC then hi32 s.dbg.addr
  else if off = 0x10 then s.dbg.data
  else 0

/-! ### BAR0 -/

/-- The register at a 4-byte aligned offset of BAR0, as function `fn` reads it; an offset that names none reads 0
(log entry 133). -/
def readReg (s : State) (fn off : Nat) : Nat :=
  let b := blockOf off
  if b = 0 then readGlb s fn off
  else if b = 1 then readClk s (off - 0x1000)
  else if b = 2 then readHif s (off - 0x2000)
  else if b = 3 then readMgr s (off - 0x4000)
  else if b = 4 then readSch s (off - 0x8000)
  else if b = 5 then readBsh s (off - 0xA000)
  else if b = 6 then readSec s (off - 0xC000)
  else if b = 7 then readIdx s (off - 0xD000)
  else if b = 8 then readCch s (off - 0xE000)
  else if b = 9 then readMem s (off - 0xF000)
  else if b = 10 then readFlc s ((off - 0x10000) / 0x400) (off % 0x400)
  else if b = 11 then readDrc s (off - 0x14000)
  else if b = 12 then readSpn s (off - 0x16000)
  else if b = 13 then readPwr s (off - 0x17000)
  else if b = 14 then readOtp s (off - 0x18000)
  else if b = 15 then readDbg s (off - 0x19000)
  else 0

/-! ### Windows -/

/-- A register of an instance window (Table 15.11); the slots of busy tags return the packets as accepted (R41). -/
def readWindow (s : State) (n off : Nat) (i : Inst) : Nat :=
  let r := i.ring
  let busy (k : Nat) : Bool := Tbl.has s.tags (tagKey n k)
  if off < 0x4000 then
    match Tbl.get? s.tags (tagKey n (off / 64)) with
    | some t => field t.packet (off % 64) 4
    | none => wordAt i.slots off
  else if off = 0x4008 then pack [(16, 8, r.refused), (0, 9, (busyOf s n).length)]
  else if 0x4020 ≤ off ∧ off < 0x4040 then bitmap 32 (fun k => busy ((off - 0x4020) * 8 + k))
  else if off = 0x4100 then lo32 r.base
  else if off = 0x4104 then hi32 r.base
  else if off = 0x4108 then pack [(31, 1, b2n r.enable), (0, 5, r.sizeLog2)]
  else if off = 0x410C then r.head
  else if off = 0x4110 then r.tail
  else if off = 0x4114 then pack [(24, 8, r.evtLost), (16, 8, r.evtQ.length), (3, 1, b2n r.headRefused), (2, 1, b2n r.cfgRefused),
    (1, 1, b2n (ringFull r)), (0, 1, b2n r.phase)]
  else if 0x5000 ≤ off ∧ off < 0x5100 then wordAt i.mbox.out (off - 0x5000)
  else if 0x5100 ≤ off ∧ off < 0x5200 then wordAt i.mbox.inn (off - 0x5100)
  else if off = 0x6000 then pack [(31, 1, b2n r.irqEnable), (16, 12, r.coalTime), (8, 8, r.coalCount)]
  else if off = 0x6004 then b2n r.pending
  else if off = 0x6014 then pack [(31, 1, b2n (!(i.mbox.noteLen == 0))), (30, 1, b2n i.mbox.deliv), (0, 9, if i.mbox.deliv then i.mbox.msgLen else 0)]
  else 0

/-- A register of a slice window (Table 15.12). -/
def readSlice (s : State) (n off : Nat) (i : Inst) : Nat :=
  let r := i.ring
  if off < 0x800 then readWindow s n off i
  else if off = 0x804 then bitmap 32 (fun k => Tbl.has s.tags (tagKey n k))
  else if off = 0x808 then i.pasid % 2 ^ 20
  else if off = 0x810 then lo32 r.base
  else if off = 0x814 then hi32 r.base
  else if off = 0x818 then pack [(31, 1, b2n r.enable), (0, 4, r.sizeLog2)]
  else if off = 0x81C then r.head
  else if off = 0x820 then r.tail
  else if off = 0x830 then pack [(31, 1, b2n r.irqEnable)]
  else if off = 0x844 then readWindow s n 0x6014 i
  else if 0xC00 ≤ off ∧ off < 0xE00 then readWindow s n (0x5000 + (off - 0xC00)) i
  else 0

end Sys2Proof.Machine
end

