-- ==== Sys2Proof/Machine/Security.lean ====
section
/-! DEFINITION. Licences, revocation lists, seal sessions, attestation, the anti-rollback commit, debug unlock, the
entropy source and the DRBG (R133 to R165). -/

namespace Sys2Proof.Machine

/-! ### LICENSE_LOAD (R133, R135, R139) -/

abbrev licenceMagic : Nat := 0x4B374C49
abbrev revocationMagic : Nat := 0x4B37524C

/-- The input at BUFFER, as far as BUFLEN reaches. -/
def inputOf (s : State) (n : Nat) (p : List Byte) (len : Nat) : List Byte := gather s n p 0 (min len (pkBufLen p))

/-- The reachable device of a DEVICE_ID. -/
def memberOf (s : State) (dev : Nat) : Option Nat := (s.spn.members.find? (fun m => m.2.deviceId == dev)).map Prod.fst

/-- A key request to the anchor of a group licence: the licence, then the member's DKA certificate. It runs under the
SPAN_BUDGET of the instance (R135, R401) (log entry 64). -/
def requestKey (k n anchorId : Nat) (l : List Byte) (s : State) : State :=
  let x := s.spn.nextXid
  let us := match Tbl.get? s.insts n with
    | some i => i.feat.spanBudget
    | none => 0
  let bs := l ++ bytesAt (Config.dkaCert (iseed s) s.otp.ladderLc) 0 288
  let s := { s with spn := { s.spn with
    nextXid := (x + 1) % 2 ^ 32
    xacts := Tbl.set s.spn.xacts x
      { tag := k, home := anchorId, pairSeq := 0, deadline := s.now + us, sentAt := s.now, lastRx := s.now
        portChange := false, resent := false, cancelAt := none, first := bs.take 220, rest := bs.drop 220 } } }
  sendMessage tKeyReq anchorId x (1000 * us) false (bs.take 220) (bs.drop 220)
    (modTag k (fun t => { t with work := .keyGrant }) s)

/-- LICENSE_LOAD of a licence: the checks of R133 in order. -/
def licenceLoad (n : Nat) (p : List Byte) (k : Nat) (s : State) : State :=
  let l := bytesAt (inputOf s n p 400) 0 400
  if pkBufLen p ≠ 400 then licenceRefused k stBadField 32 s
  else if !licenceFormat l then licenceRefused k stBadField 24 s
  else if !contentAllowed s then licenceRefused k stNotPermitted 0 s
  else match licenceSigner s l with
    | some st => licenceRefused k st 0 s
    | none =>
      if field l 32 16 = deviceId s then
        match unwrapTitle s l (bytesAt l 48 97) (bytesAt l 152 32) (bytesAt l 184 16) with
        | none => licenceRefused k stAuthFail 0 s
        | some key => fillLicence n k l key s
      else match memberOf s (field l 32 16) with
        | none => licenceRefused k stSpanUnreachable 0 s
        | some a => requestKey k n a l s

/-- The MAGIC that tells a licence from a revocation list. -/
def loadMagic (s : State) (n : Nat) (p : List Byte) : Nat := field (inputOf s n p 4) 0 4

/-- Does a tag's input begin with the magic of a revocation list? -/
def isRevocation (s : State) (n k : Nat) : Bool :=
  match Tbl.get? s.tags k with
  | some t => loadMagic s n t.packet == revocationMagic
  | none => false

/-- LICENSE_LOAD. A public-key engine serves it (R160). -/
def execLicenseLoad (inst : Fin 64) (tag : Fin 256) (s : State) : Out :=
  workEnds opLicenseLoad inst tag (!isRevocation s inst (tagKey inst tag) && pkServes s) s (licenceLoad inst)

/-- An entry of a revocation list. -/
def revEntry (l : List Byte) (i : Nat) : RevEntry :=
  let o := 128 + 16 * i
  { licence := field l o 1 == 1, keyGenMin := field l (o + 4) 4, id := field l (o + 8) 8 }

/-- The format of a revocation list of `count` entries (Table 4.7). -/
def revocationFormat (l : List Byte) (count : Nat) : Bool :=
  field l 4 2 == 1 && allZero (bytesAt l 6 2) && decide (count ≤ 4096) && allZero (bytesAt l 20 4)
    && allZero (bytesAt l 121 7)
    && (List.range count).all (fun i => decide (field l (128 + 16 * i) 1 ≤ 1) && allZero (bytesAt l (129 + 16 * i) 3))

/-- LICENSE_LOAD of a revocation list: accepted, it is durable at once and in force (R139, R140). -/
def revocationLoad (n : Nat) (p : List Byte) (k : Nat) (s : State) : State :=
  let l := inputOf s n p (224 + 16 * 4096)
  let count := field l 16 4
  let len := 224 + 16 * count
  let pub := bytesAt l 24 97
  if pkBufLen p ≠ len then licenceRefused k stBadField 32 s
  else if !revocationFormat l count || decide (field l 8 8 ≤ s.sec.revSequence) then licenceRefused k stBadField 24 s
  else if !((anchorMatches s.otp aContentRoot0 pub || anchorMatches s.otp aContentRoot1 pub)
      && Config.ecdsaOk pub (bytesAt l 0 (len - 96)) (bytesAt l (len - 96) 96)) then licenceRefused k stAuthFail 0 s
  else
    let s := { s with sec := { s.sec with revSequence := field l 8 8, revEntries := (List.range count).map (revEntry l) } }
    finishWith k stOk 0 (field l 8 8) (applyRevocation s)

/-- LICENSE_LOAD of a revocation list. -/
def execRevocationListLoad (inst : Fin 64) (tag : Fin 256) (s : State) : Out :=
  workEnds opLicenseLoad inst tag (isRevocation s inst (tagKey inst tag) && pkServes s) s (revocationLoad inst)

/-- LICENSE_DROP (R137). -/
def execLicenseDrop (inst : Fin 64) (tag : Fin 256) (s : State) : Out :=
  workEnds opLicenseDrop inst tag true s (fun p k s => dropLicence (pkHandle p % 256) (some k) s)

/-! ### Seal sessions (R142 to R148) -/

/-- Check 2 of R143. -/
def sealFormat (b : List Byte) : Bool :=
  field b 0 4 == 0x4B37534F && field b 4 2 == 1 && allZero (bytesAt b 6 2) && allZero (bytesAt b 137 7)
    && field b 144 4 == 0x4B374354 && field b 148 2 == 1 && field b 150 1 == 3

/-- Check 4 of R143. -/
def sealRootOk (s : State) (b : List Byte) : Bool :=
  let root := bytesAt b 40 97
  (anchorMatches s.otp aConsumerRoot0 root || anchorMatches s.otp aConsumerRoot1 root)
    && decide (bytesAt b 272 48 = sha root) && Config.ecdsaOk root (bytesAt b 144 192) (bytesAt b 336 96)

/-- The response of Table 4.9. -/
def sealResponse (s : State) (handle : Nat) (b eph : List Byte) : List Byte :=
  let body := leBytes 4 0x4B375352 ++ leBytes 2 1 ++ leBytes 2 0 ++ leBytes 4 handle ++ leBytes 4 0 ++ bytesAt b 8 32
    ++ bytesAt eph 0 97 ++ leBytes 7 0 ++ sha (bytesAt b 168 97) ++ bytesAt (Config.dikCert (iseed s)) 0 288
  body ++ bytesAt (Config.dikSign (iseed s) body) 0 96

/-- The session that SEAL_OPEN makes (R144, R145); its handle generation starts at 1 (R501). -/
def openSeal (n k no out : Nat) (b : List Byte) (s : State) : State :=
  let gen := nextGen s.sec.sealGens no (2 ^ 22)
  let handle := no + 1024 * gen
  let d := drbgBits s
  let eph := Config.ephPublic d
  let z := Config.ephShared d (bytesAt b 168 97)
  let okm := Config.kdf z (ascii "KR940 seal")
    (leBytes 4 handle ++ bytesAt b 8 32 ++ sha (bytesAt b 168 97) ++ bytesAt eph 0 97) 288
  let bs := leBytes 36 okm.toNat
  let x : Seal := { st := .opened, inst := n, gen := gen, key := BitVec.ofNat 256 (leNat (bs.take 32))
                    noncePrefix := BitVec.ofNat 32 (leNat (bs.drop 32)), counter := 0, closeTag := none }
  let r := sealResponse s handle b eph
  let s := drbgUsed { s with sec := { s.sec with seals := Tbl.set s.sec.seals no x
                                                 sealGens := Tbl.set s.sec.sealGens no gen } }
  finishWith k stOk handle 584 (hostWrite n out r s)

/-- SEAL_OPEN: the checks of R143 in order; without a serving DRBG ST_INTERNAL (R159). -/
def sealOpen (n : Nat) (p : List Byte) (k : Nat) (s : State) : State :=
  let b := bytesAt (inputOf s n p 432) 0 432
  if pkBufLen p ≠ 432 then badField k 32 s
  else if field p 44 4 < 584 then badField k 44 s
  else if !sealFormat b then badField k 24 s
  else if !contentAllowed s || decide (64 ≤ Tbl.countIf s.sec.seals (fun _ x => x.inst == n)) then
    finishWith k stNotPermitted 0 0 s
  else match Tbl.lowestFree s.sec.seals 1 1023 with
    | none => finishWith k stNotPermitted 0 0 s
    | some no =>
      if !sealRootOk s b then authFailed k s
      else if !drbgServes s then finishWith k stInternal 0 0 s
      else openSeal n k no (field p 36 8) b s

/-- SEAL_OPEN. -/
def execSealOpen (inst : Fin 64) (tag : Fin 256) (s : State) : Out :=
  workEnds opSealOpen inst tag (pkServes s && mayWrite s inst) s (sealOpen inst)

/-- SEAL_CLOSE (R148). -/
def execSealClose (inst : Fin 64) (tag : Fin 256) (s : State) : Out :=
  workEnds opSealClose inst tag true s (fun p k s => closeSeal (pkHandle p % 1024) k s)

/-! ### Attestation (R153) -/

/-- A section of the report (log entry 36). -/
def reportSection (kind : Nat) (bs : List Byte) : List Byte := leBytes 2 kind ++ leBytes 2 bs.length ++ bs

/-- The OTP security fields but ISEED and ARB, in the order of Table 4.2, followed by SEC_CTL (POLICY_HASH)
(log entry 35). -/
def policyInput (s : State) : List Byte :=
  let a := anchor s.otp
  a aFwRoot0 ++ a aFwRoot1 ++ leBytes 1 (b2n (fwRoot0Revoked s.otp)) ++ a aContentRoot0 ++ a aContentRoot1
    ++ a aConsumerRoot0 ++ a aConsumerRoot1 ++ a aDeviceCa ++ a aDebugRoot ++ a aProgramRoot
    ++ leBytes 1 (lifecycle s.otp) ++ leBytes 4 (secCtl s)

/-- The content of the section of SELECT bit `b`. -/
def reportContent (s : State) (n b : Nat) : List Byte :=
  if b = 0 then bytesAt (Config.dikCert (iseed s)) 0 288
  else if b = 1 then bytesAt (Config.dkaCert (iseed s) s.otp.ladderLc) 0 288
  else if b = 2 then (s.dmz.progs.filter (fun p => p.2.inst == n)).flatMap (fun p => hashBytes p.2.hash)
  else if b = 3 then
    match s.glb.staged with
    | some i => hashBytes i.measurement ++ leBytes 2 i.svn
    | none => List.replicate 50 0
  else if b = 4 then (s.sec.licences.filter (fun p => p.2.inst == n)).flatMap (fun p =>
    leBytes 8 p.2.licenceId ++ leBytes 8 p.2.titleId ++ leBytes 4 (Config.licenceStateCode (stateNo p.2.st)))
  else leBytes 2 s.spn.spanId ++ leBytes 4 s.spn.group
where
  /-- The place of a licence state in Table 4.6. -/
  stateNo : LicSt → Nat
    | .loaded => 1
    | .revoked => 2
    | .dropping => 3

/-- The sections that SELECT names, in ascending bit order. -/
def reportSections (s : State) (n sel : Nat) : List Byte :=
  (List.range 6).flatMap (fun b => if bit sel b then reportSection b (reportContent s n b) else [])

/-- The report of Table 4.14. -/
def report (s : State) (n sel : Nat) (nonce : List Byte) : List Byte :=
  let secs := reportSections s n sel
  let body := leBytes 4 0x4B374154 ++ leBytes 4 (304 + secs.length) ++ leBytes 4 sel ++ leBytes 4 n ++ nonce
    ++ leBytes 6 s.glb.seq ++ leBytes 1 (lifecycle s.otp)
    ++ leBytes 1 (b2n (evaluated s) + 2 * b2n s.sec.debugOpened + 4 * b2n s.sec.entropyFail)
    ++ leBytes 16 (deviceId s) ++ leBytes 2 (arbValue s.otp) ++ leBytes 2 s.glb.running.svn
    ++ leBytes 4 s.glb.running.fwVersion ++ hashBytes Config.romHash ++ hashBytes s.glb.running.measurement
    ++ sha (policyInput s) ++ secs
  body ++ bytesAt (Config.dikSign (iseed s) body) 0 96

/-- ATTEST: the checks of R153 in order. -/
def attest (n : Nat) (p : List Byte) (k : Nat) (s : State) : State :=
  let sel := field p 52 4
  if n ≠ 0 ∧ tenantAttest s = false then finishWith k stNotPermitted 0 0 s
  else if 64 ≤ sel ∨ (n ≠ 0 ∧ (bit sel 3 || bit sel 5) = true) then badField k 52 s
  else
    let r := report s n sel (bytesAt p 36 16)
    if pkBufLen p < r.length then badField k 32 s
    else finishWith k stOk r.length 0 (deliver n p 0 r s)

/-- ATTEST. -/
def execAttest (inst : Fin 64) (tag : Fin 256) (s : State) : Out :=
  workEnds opAttest inst tag (pkServes s && mayWrite s inst) s (attest inst)

/-! ### Anti-rollback (R152) -/

/-- Bit `i` of ARB is set (log entry 34). -/
def arbBit (o : Otp) (i : Nat) : Bool := (Cells.read o.fuses (0x1F8 + i / 8)).getLsbD (i % 8)

/-- Set a bit of the fuse array. -/
def setFuse (addr i : Nat) (o : Otp) : Otp :=
  { o with fuses := Cells.write o.fuses addr (Cells.read o.fuses addr ||| BitVec.ofNat 8 (2 ^ i)) }

/-- COMMIT: `made` are the ARB bits that took; fewer than the rise of the value is a commit that fails to verify
(log entry 34). -/
def commit (made : List Nat) (s : State) : State :=
  let rise := s.glb.running.svn - arbValue s.otp
  let new := ((made.filter (fun i => decide (i < 128) && !arbBit s.otp i)).eraseDups).take rise
  let o := new.foldl (fun o i => setFuse (0x1F8 + i / 8) (i % 8) o) s.otp
  { s with otp := o, sec := { s.sec with commitBusy := false, commitFail := decide (new.length < rise) } }

/-- COMMIT: ignored when IMAGE_SVN does not exceed VALUE. -/
def execCommit (fn : Fin 2) (made : List Nat) (s : State) : Out :=
  act s (bar0Answers s fn 0xC00C && !s.sec.commitBusy && decide (arbValue s.otp < s.glb.running.svn)) (commit made)

/-! ### Debug unlock (R157, R165) -/

/-- Do the unlock registers answer: function 0 or 1, or the debug access port (2)? -/
def unlockAnswers (s : State) (src off : Nat) : Bool := if src = 2 then powered s else bar0Answers s src off

/-- SEC_UNLOCK_DATA: words beyond 108 are discarded. -/
def execSecUnlockDataWrite (src : Fin 3) (word : BitVec 32) (s : State) : Out :=
  act s (unlockAnswers s src 0xC050 && decide (s.sec.unlockWords.length < 108)) (fun s =>
    { s with sec := { s.sec with unlockWords := s.sec.unlockWords ++ [word.toNat] } })

/-- Format of a token. -/
def tokenFormat (t : List Byte) : Bool :=
  field t 0 4 == 0x4B37554B && field t 4 2 == 1 && (field t 6 1 == 1 || field t 6 1 == 2) && allZero (bytesAt t 7 1)
    && allZero (bytesAt t 44 4) && allZero (bytesAt t 145 191)

/-- RESULT of a token: 1 when it is accepted (log entries 19, 32). -/
def tokenResult (s : State) (t : List Byte) : Nat :=
  if s.sec.unlockWords.length < 108 then 2
  else if lifecycle s.otp ≠ 2 then 5
  else if !tokenFormat t then 2
  else if field t 8 16 ≠ deviceId s ∨ field t 24 16 ≠ s.sec.challenge.toNat then 4
  else if !(anchorMatches s.otp aDebugRoot (bytesAt t 48 97)
      && Config.ecdsaOk (bytesAt t 48 97) (bytesAt t 0 336) (bytesAt t 336 96)) then 3
  else 1

/-- A fresh challenge from the DRBG. -/
def freshChallenge (s : State) : State :=
  let c := (drbgBits s).setWidth 128
  drbgUsed { s with sec := { s.sec with challenge := c } }

/-- A LEVEL 1 token: every key slot is zeroised and the ladder blocked before the port opens. -/
def openDebug (scope : Nat) (s : State) : State :=
  let s := zeroiseSlots s
  { s with sec := { s.sec with volKeys := [], ladderBlocked := true, debugOpened := true, scope := scope } }

/-- SUBMIT (log entry 32). -/
def submit (s : State) : State :=
  let t := s.sec.unlockWords.flatMap (leBytes 4)
  let r := tokenResult s t
  let s := { s with sec := { s.sec with
    unlockResult := r, unlockRefused := if r = 1 then s.sec.unlockRefused else satInc s.sec.unlockRefused 0xFF } }
  let s := if r = 1 then
      if field t 6 1 = 1 then openDebug (field t 40 4) s else { s with sec := { s.sec with rmaPermit := true } }
    else s
  freshChallenge s

/-- SUBMIT. -/
def execSubmit (src : Fin 3) (s : State) : Out := act s (unlockAnswers s src 0xC054 && pkServes s) submit

/-- RESTART: the words received are discarded. -/
def execRestart (src : Fin 3) (s : State) : Out :=
  act s (unlockAnswers s src 0xC054) (fun s => { s with sec := { s.sec with unlockWords := [] } })

/-! ### The entropy source and the DRBG (R158, R159) -/

/-- A health test fails: the DRBG stops, and the start-up tests are repeated 1 s later (log entry 33). -/
def entropyFails (s : State) : State :=
  let s := { s with sec := { s.sec with entropyFail := true, drbgReady := false
                                        healthFails := satInc s.sec.healthFails 0xFF } }
  logHealth 0x000D 0xFF 0xFFFF 0 0 0 [] s

/-- ENTROPY_HEALTH_FAIL. -/
def execEntropyHealthFail (s : State) : Out :=
  act s (powered s && !s.sec.entropyFail) (fun s =>
    entropyFails { s with sec := { s.sec with retests := 0, retestAt := 1000000 + s.now } })

/-- A reseed. -/
def reseed (s : State) : State :=
  { s with sec := { s.sec with drbgReady := true, reseeds := satInc s.sec.reseeds 0xFFFF, generates := 0 } }

/-- ENTROPY_RETEST: one of the two repeats (log entry 33). -/
def execEntropyRetest (pass : Bool) (s : State) : Out :=
  act s (powered s && s.sec.entropyFail && decide (s.sec.retests < 2 ∧ s.sec.retestAt ≤ s.now)) (fun s =>
    if pass then reseed { s with sec := { s.sec with entropyFail := false, retests := s.sec.retests + 1 } }
    else entropyFails { s with sec := { s.sec with retests := s.sec.retests + 1, retestAt := 1000000 + s.now } })

/-- DRBG_RESEED: after 65,536 generate requests. -/
def execDrbgReseed (s : State) : Out :=
  act s (powered s && drbgServes s && decide (65536 ≤ s.sec.generates)) reseed

end Sys2Proof.Machine
end

