-- ==== Sys2Proof/Machine/Volume.lean ====
section
/-! DEFINITION. VOLUME_CREATE, VOLUME_DELETE and SANITIZE (R128 to R130, R299 to R303). -/

namespace Sys2Proof.Machine

/-- The checks of R299 in order: the reply of the first that fails (log entry 54). -/
def createRefused (s : State) (p : List Byte) : Option Reply :=
  let v := pkVolume p
  let cap := field p 40 8
  if 255 < v ∨ (vol? s v).isSome then some { status := stBadField, r0 := 2 }
  else if 1 < field p 36 1 then some { status := stBadField, r0 := 36 }
  else if cap % 64 ≠ 0 ∨ cap < 64 ∨ 2 ^ 40 < cap then some { status := stBadField, r0 := 40 }
  else if s.flc.readOnly then some { status := stReadOnly }
  else if s.flc.usable < allocated s + cap then some { status := stBadRange }
  else if !drbgServes s then some { status := stInternal }
  else none

/-- A new volume, which serves no command yet. -/
def newVolume (p : List Byte) : Vol :=
  { capacity := field p 40 8, compress := bit (field p 36 1) 0, access := field p 48 8, serves := false, epoch := 0, lc := 0
    key := 0, keyGood := false, data := [], durable := [], map := [], mapDurable := [], exported := false
    deleted := false, mirror := none }

/-- VOLUME_CREATE passes or fails its checks. -/
def createVolume (p : List Byte) (k : Nat) (s : State) : State :=
  match createRefused s p with
  | some r => finish k r s
  | none =>
    let v := pkVolume p
    let s := newVolumeKey v { s with flc := { s.flc with vols := Tbl.set s.flc.vols v (newVolume p) } }
    let g := s.flc.nextGroup
    finishDurable k [g] { status := stOk, r0 := field p 40 8 } (appendGroup false [.volume v true] s)

/-- Does an earlier VOLUME_CREATE still wait for its checks (R299)? (log entry 55) -/
def earlierCreate (s : State) (order : Nat) : Bool :=
  s.tags.any (fun p => pkOpcode p.2.packet == opVolumeCreate && decide (p.2.order < order)
    && (p.2.st == .queued || (p.2.st == .running && p.2.work == .working)))

/-- The acceptance order of a tag. -/
def orderOf (s : State) (k : Nat) : Nat := (Tbl.get? s.tags k).elim 0 (fun t => t.order)

/-- VOLUME_CREATE (log entry 55). -/
def execVolumeCreate (inst : Fin 64) (tag : Fin 256) (s : State) : Out :=
  workEnds opVolumeCreate inst tag (!earlierCreate s (orderOf s (tagKey inst tag))) s createVolume

/-- Does another command on the volume run: one that started here, or one served for another device? -/
def volumeBusy (s : State) (k v : Nat) : Bool :=
  s.tags.any (fun p => !(p.1 == k) && p.2.started && !(p.2.st == .done) && volumeOps.contains (pkOpcode p.2.packet)
    && pkVolume p.2.packet == v)
  || s.spn.served.any (fun p => pkVolume (p.2.request.take 64) == v)

/-- VOLUME_DELETE: nothing of the volume is left but its number (R300) (log entry 126). -/
def deleteVolume (p : List Byte) (k : Nat) (s : State) : State :=
  let v := pkVolume p
  let s := discardVolumePackages v (unmapAll v (destroyKey v s))
  let s := modVol v (fun u => { u with serves := false, deleted := true }) s
  let g := s.flc.nextGroup
  finishDurable k [g] {} (appendGroup false [.volume v false] s)

/-- VOLUME_DELETE: commands that started earlier run to their ends first. -/
def execVolumeDelete (inst : Fin 64) (tag : Fin 256) (s : State) : Out :=
  let k := tagKey inst tag
  let v := (Tbl.get? s.tags k).elim 0 (fun t => pkVolume t.packet)
  workEnds opVolumeDelete inst tag (!volumeBusy s k v) s deleteVolume

/-! ### SANITIZE (R302, R303) -/

/-- The volumes that a sanitize acts on (log entry 126). -/
def sanitVols (s : State) (v : Nat) : List Nat := if v = 0xFFFF then s.flc.vols.map Prod.fst else [v]

/-- One volume unmapped; METHOD 0 also gives it a new key. -/
def sanitOne (method : Nat) (s : State) (v : Nat) : State :=
  let s := discardVolumePackages v (unmapAll v s)
  if method = 0 then newVolumeKey v (destroyKey v s) else s

/-- The superblocks to erase hold nothing that another volume needs, and no read pins them. -/
def sanitErasable (s : State) (v : Nat) (sbs : List Nat) : Bool :=
  sbs.all (fun n => match Tbl.get? s.flc.superblocks n with
    | some x => x.refs.all (fun r => (sanitVols s v).contains r.1) && !movesWait s n && !pinned s x
    | none => true)

/-- The erases of METHOD 1 and 2; a whole-device sanitize erases the write buffer and sets U and W again. -/
def sanitErase (x : Sanit) (sbs : List Nat) (w : Nat) (s : State) : State :=
  let s := if x.method = 0 then s else sbs.foldl (fun s n => eraseWhole n x.method s) s
  if x.vol = 0xFFFF then
    let s := ((s.flc.superblocks.filter (fun p => p.2.slc)).map Prod.fst).foldl (fun s n => eraseWhole n 1 s) s
    let w := min w (diesServing s).length
    { s with flc := { s.flc with stripeW := w, usable := formatU s s.flc.wbPct w } }
  else s

/-- The entry of a sanitize under way goes. -/
def dropSanit (v : Nat) (s : State) : State :=
  { s with flc := { s.flc with sanitizing := s.flc.sanitizing.filter (fun x => !(x.vol == v)) } }

/-- The stages of a sanitize: its start entry; once that is durable, the unmapping; then the erases and the end entry
(log entry 53). -/
def sanitStep (method : Nat) (sbs : List Nat) (w : Nat) (p : List Byte) (k : Nat) (s : State) : State :=
  let v := pkVolume p
  match s.flc.sanitizing.find? (fun x => x.vol == v) with
  | none =>
    if method = 0 && !drbgServes s then finishWith k stInternal 0 0 s
    else
      let g := s.flc.nextGroup
      let s := { s with flc := { s.flc with sanitizing := s.flc.sanitizing ++ [{ vol := v, method := method, start := g, unmapped := false }] } }
      modTag k (fun t => { t with groups := [g] }) (appendGroup false [.sanitize v true] s)
  | some x =>
    if !x.unmapped then
      let s := { s with flc := { s.flc with sanitizing := s.flc.sanitizing.map (fun y => if y.vol = v then { y with unmapped := true } else y) } }
      (sanitVols s v).foldl (sanitOne method) s
    else
      let total := (sanitVols s v).foldl (fun a n => a + (vol? s n).elim 0 (fun u => u.capacity)) 0
      let s := dropSanit v (sanitErase x sbs w s)
      let g := s.flc.nextGroup
      finishDurable k [g] { status := stOk, r0 := total } (appendGroup false [.sanitize v false] s)

/-- May the next stage of the sanitize run? -/
def sanitReady (s : State) (k method : Nat) (sbs : List Nat) (w : Nat) : Bool :=
  match Tbl.get? s.tags k with
  | none => false
  | some t =>
    let v := pkVolume t.packet
    field t.packet 36 1 == method && t.groups.isEmpty && decide (8 ≤ w ∧ w ≤ 32)
      && (s.locks.filter (fun l => l.tag == k)).all (fun l => l.held)
      && (match s.flc.sanitizing.find? (fun x => x.vol == v) with
        | some x => !x.unmapped || (sanitErasable s v sbs && (method == 0 || programsRun s))
        | none => true)

/-- SANITIZE with METHOD 0; `w` is the stripe width of the parts in service (R266). -/
def execSanitizeCryptographicErase (inst : Fin 64) (tag : Fin 256) (w : Nat) (s : State) : Out :=
  workEnds opSanitize inst tag (sanitReady s (tagKey inst tag) 0 [] w) s (sanitStep 0 [] w)

/-- SANITIZE with METHOD 1: `sbs` are the superblocks that hold pages of the volume, live or stale. -/
def execSanitizeBlockErase (inst : Fin 64) (tag : Fin 256) (sbs : List Nat) (w : Nat) (s : State) : Out :=
  workEnds opSanitize inst tag (sanitReady s (tagKey inst tag) 1 sbs w) s (sanitStep 1 sbs w)

/-- SANITIZE with METHOD 2: each block is programmed with zeros and erased again. -/
def execSanitizeOverwrite (inst : Fin 64) (tag : Fin 256) (sbs : List Nat) (w : Nat) (s : State) : Out :=
  workEnds opSanitize inst tag (sanitReady s (tagKey inst tag) 2 sbs w) s (sanitStep 2 sbs w)

end Sys2Proof.Machine
end

