-- ==== Sys2Proof/Machine/Startup.lean ====
section
/-! DEFINITION. The power-on reset, the phases of start-up, the recovery image, fuse programming and the clean shutdown
(R437 to R453, R463, R471). -/

namespace Sys2Proof.Machine

/-! ### The power-on reset (R437, R463) -/

/-- The pins as the end of a power-on reset samples them: straps and references. With no reference the reset goes on
(log entry 103). -/
def sampledPins (straps smba : Nat) (ref0 ref1 : Bool) (s : State) : State :=
  let port (p : Nat) (q : HPort) : HPort :=
    { q with sris := bit straps (2 + p), pm := if p = 1 ∧ bits straps 0 2 ≠ 1 then 5 else 4 }
  { s with
    glb := { s.glb with arrangement := if bits straps 0 2 = 3 then 2 else bits straps 0 2, held := !(ref0 || ref1) }
    clk := { s.clk with refOk0 := ref0, refOk1 := ref1, rootActive := !ref0 && ref1 }
    hif := { s.hif with straps := straps, smba := smba, port0 := port 0 s.hif.port0, port1 := port 1 s.hif.port1 }
    now := 0 }

/-- POWER_ON_RESET: every rail has been within its recommended range for 1 ms. `off`: the rails came up from off; otherwise
an internal power-on reset that is held ends. `straps` are MODE (bits 0 and 1) and SRIS, `ref0` and `ref1` say which
references are present (log entry 103). -/
def execPowerOnReset (straps : Fin 16) (smba : Fin 4) (ref0 ref1 off : Bool) (s : State) : Out :=
  act s (off || (s.glb.held && (!bit s.glb.cause 2 || coolAgain s))) (fun s =>
    sampledPins straps smba ref0 ref1 (if off then powerReset 1 true straps smba s else s))

/-! ### STAGE 1, FUSES (R125, R448 to R452) -/

/-- Start-up goes to a stage. -/
def toStage (n : Nat) (s : State) : State := { s with glb := { s.glb with stage := n } }

/-- Repair entry `i` of the fuse array. -/
def repairEntry (o : Otp) (i : Nat) : Nat := leNat (Cells.readN o.fuses (0x280 + 4 * i) 4)

/-- Apply one repair, of the fuses or learned: a granule remap, a bank replaced or a line remap, unless it is made. -/
def applyRepair (factory : Bool) (kind unit addr : Nat) (s : State) : State :=
  let m := s.mem
  if kind = 1 then
    if m.remaps.any (fun r => r.2.unit == unit && r.2.line == addr) then s
    else match Tbl.lowestFree m.remaps 0 512 with
      | none => s
      | some k => { s with mem := { m with remaps := Tbl.set m.remaps k { unit := unit, line := addr, factory := factory } } }
  else if kind = 2 then
    if m.bank32 = unit ∨ m.bank33 = unit then s
    else if addr = 32 ∧ m.bank32 = 0xFF then { s with mem := { m with bank32 := unit, bankOk := setBit m.bankOk unit false } }
    else if addr = 33 ∧ m.bank33 = 0xFF then { s with mem := { m with bank33 := unit, bankOk := setBit m.bankOk unit false } }
    else s
  else if kind = 3 then
    if lineRemapped m unit addr then s
    else match Tbl.lowestFree m.firkinRemaps (32 * unit) 32 with
      | none => s
      | some k => { s with mem := { m with
          firkinRemaps := Tbl.set m.firkinRemaps k { unit := unit, line := addr, factory := factory } } }
  else s

/-- The factory repairs, in ascending order. -/
def factoryRepairs (s : State) : State :=
  (List.range 64).foldl (fun s i =>
    let e := repairEntry s.otp i
    applyRepair true (bits e 30 2) (bits e 24 6) (bits e 0 13) s) s

/-- The security controller has read the array: lifecycle, settings, key ladder, PLLs, entropy and the unlock challenge,
which a DEVICE_RESET keeps (log entry 109). -/
def takeFuses (o : StartOutcome) (s : State) : State :=
  let s := { s with
    otp := { s.otp with ladderLc := lifecycle s.otp, won := winners s.otp }
    clk := { s.clk with lock0 := s.clk.refOk0, lock1 := s.clk.refOk1 } }
  let s := { s with sec := { s.sec with ladderBlocked := !iseedWritten s || s.sec.debugOpened || s.otp.porRequired } }
  let s := factoryRepairs s
  let s := if o.entropyOk then reseed s
    else entropyFails { s with sec := { s.sec with retests := 0, retestAt := 1000000 + s.now } }
  if bit s.glb.cause 5 then s else freshChallenge s

/-- STAGE 1 ends. In BLANK only the ROM runs, and in SCRAPPED no firmware (Table 4.15): start-up stays here
(log entry 108). -/
def endFuses (o : StartOutcome) (s : State) : State :=
  if !o.fusesAgree then toStage 10 s
  else
    let s := takeFuses o s
    if lifecycle s.otp = 0 ∨ lifecycle s.otp = 7 then s else toStage 2 s

/-! ### STAGE 2, SCRUPLE (R339, R340, R408, R410) -/

/-- The units of a pool that fail. -/
def failedIn (o : StartOutcome) (pool : Nat) : List Nat := (o.failed.filter (fun x => x.1 == pool)).map Prod.snd

/-- A mask of the units below `n` that do not fail. -/
def okMask (n : Nat) (bad : List Nat) : Nat := (List.range n).foldl (fun a k => if bad.contains k then a else a + 2 ^ k) 0

/-- Units of the pools 0 to 8, their spares included. -/
def poolSizes : List Nat := [36, 9, 5, 12, 2, 5, 17, 34, 4]

/-- A failure that leaves no unit in a pool, or both copies of a pair failed (R443). -/
def scrupleFatal (o : StartOutcome) : Bool :=
  (poolSizes.zipIdx).any (fun p => (List.range p.1).all (fun k => (failedIn o p.2).contains k)) || o.pairs.any (fun p => p.2)

/-- The failed units below `n`, ascending. -/
def failedBelow (n : Nat) (bad : List Nat) : List Nat := (List.range n).filter (fun k => bad.contains k)

/-- Which of `bad` (units below `n`) the `j`-th of the working spares takes: 0xFF for none (log entry 104). -/
def spareTakes (n sp : Nat) (bad : List Nat) (j : Nat) : Nat := if bad.contains sp then 0xFF else (failedBelow n bad).getD j 0xFF

/-- Engines 0 to 35 after the tests: each failed engine is replaced by a working spare, in order. -/
def testEngines (bad : List Nat) (c : Sch) : Sch :=
  let spares := [32, 33, 34, 35].filter (fun k => !bad.contains k)
  let used := (failedBelow 32 bad).zip spares
  let eng (k : Nat) : Engine :=
    { role := if bad.contains k then .failed else if k < 32 ∨ used.any (fun u => u.2 == k) = true then .inService else .spare
      ctx := none, window := 0, order := 0, applying := none }
  { c with engines := (List.range 36).map (fun k => (k, eng k))
           replaces := used.foldl (fun t u => Tbl.set t (u.2 - 32) u.1) [] }

/-- The Hogshead banks: a bank that fails is replaced by a working spare bank that stands. -/
def testBanks (bad : List Nat) (m : Mem) : Mem :=
  let m := { m with bankOk := (List.range 34).foldl (fun a k =>
    if bad.contains k ∨ m.bank32 = k ∨ m.bank33 = k then a else a + 2 ^ k) 0 }
  ((failedBelow 32 bad).filter (fun k => !(m.bank32 == k) && !(m.bank33 == k))).foldl (fun m k =>
    if m.bank32 = 0xFF ∧ bad.contains 32 = false then { m with bank32 := k, remaps := m.remaps.filter (fun r => !(r.2.unit == k)) }
    else if m.bank33 = 0xFF ∧ bad.contains 33 = false then
      { m with bank33 := k, remaps := m.remaps.filter (fun r => !(r.2.unit == k)) }
    else m) m

/-- The tests of every unit that is not memory or an engine; spares take the places of units that fail (log entry 104). -/
def testUnits (o : StartOutcome) (s : State) : State :=
  let a10 := spareTakes 10 10 (failedIn o 3) 0
  { s with
    bsh := { s.bsh with
      dOk := okMask 9 (failedIn o 1), cOk := okMask 5 (failedIn o 2)
      dReplaced := spareTakes 8 8 (failedIn o 1) 0, cReplaced := spareTakes 4 4 (failedIn o 2) 0 }
    sec := { s.sec with
      aesOk := okMask 12 (failedIn o 3), pkOk := okMask 2 (failedIn o 4), shaOk := okMask 4 (failedIn o 8)
      a10Replaces := a10, a11Replaces := spareTakes 10 11 (failedIn o 3) (if a10 = 0xFF then 0 else 1)
      pk1Replaces := spareTakes 1 1 (failedIn o 4) 0 }
    flc := { s.flc with softOk := okMask 5 (failedIn o 5), softReplaces := spareTakes 4 4 (failedIn o 5) 0 }
    idx := { s.idx with bankOk := okMask 17 (failedIn o 6), replaces := spareTakes 16 16 (failedIn o 6) 0 }
    pwr := { s.pwr with pairsSingle := o.pairs.foldl (fun a p => setBit a p.1 true) s.pwr.pairsSingle } }

/-- STAGE 2 ends. -/
def endScruple (o : StartOutcome) (s : State) : State :=
  if scrupleFatal o then toStage 10 s
  else
    let s := testUnits o s
    let s := { s with sch := testEngines (failedIn o 0) s.sch
                      mem := { testBanks (failedIn o 7) s.mem with remapFailed := o.remapFails } }
    toStage 3 (writeWayPwr ((failedIn o 9).foldl (fun a w => if w < 16 then setBit a w true else a) 0) s)

/-! ### STAGE 3, TRAINING (R252, R253, R325, R328, R445) -/

/-- Train one DRAM side of `mib` MiB (log entry 104). -/
def trainSide (b : Bool) (mib : Nat) (ok : Bool) (s : State) : State :=
  if mib = 0 then s
  else
    let s := modSide b (fun x => { x with
      st := .inService, mib := min mib 16384, trainCount := 1, trainTemp := trainTemp s (8 + b2n b), trainAt := s.now }) s
    if ok then s else failSide b [] 0 s

/-- The record of a die found again keeps what the device knows of it; the die of another part is new (log entry 105). -/
def foundDie (old : Option Die) (d : FoundDie) : Die :=
  let new := newDie d.2.1 d.2.2.1 d.2.2.2.1 d.2.2.2.2.1 d.2.2.2.2.2
  match old with
  | some x => if x.part = new.part ∧ x.capGib = new.capGib ∧ x.blocks = new.blocks ∧ x.refused = false then { x with present := true }
    else new
  | none => new

/-- Identify and train one channel: the rate it passes at, its dies, and those refused. A channel with no die to serve is
absent (log entry 105). -/
def trainChannel (t : Tbl Die) (f : FoundChannel) (s : State) : State :=
  let c := f.ch.val
  let ds := f.dies.foldl (fun a d => Tbl.set a (16 * c + d.1.val) (foundDie (Tbl.get? t (16 * c + d.1.val)) d)) s.flc.dies
  let ds := f.refused.foldl (fun a k => Tbl.set a (16 * c + k.val) refusedDie) ds
  let s := f.refused.foldl (fun s k => refusePart (16 * c + k.val) s) { s with flc := { s.flc with dies := ds } }
  if f.dies.isEmpty then s else channelTrained c f.rate s

/-- Every channel before training, and every known die taken as not found. -/
def clearChannels (s : State) : State :=
  { s with flc := { s.flc with
      channels := (List.range 16).map (fun c => (c, resetChan))
      dies := Tbl.mapVals s.flc.dies (fun _ d => { d with present := false }) } }

/-- STAGE 3 ends: FAILED with fewer than 8 dies in service, or with no DRAM side (log entry 104). -/
def endTraining (o : StartOutcome) (s : State) : State :=
  let s := trainSide true o.mib o.sideB (trainSide false o.mib o.sideA s)
  let s := { s with drc := { s.drc with rate := o.dramRate } }
  let known := s.flc.dies
  let s := o.channels.foldl (fun s f => trainChannel known f s) (clearChannels s)
  if (diesServing s).length < 8 ∨ (sideServes s false || sideServes s true) = false then toStage 10 s else toStage 4 s

/-! ### STAGE 4, IMAGE (R150, R442) -/

/-- Copies 0 to 2 of the running image, the copy in use first; then the staged image and the NOR, as ORDER allows. -/
def candidates (order copy : Nat) : List Nat :=
  let nand := copy :: [0, 1, 2].filter (fun k => !(k == copy)) ++ [3]
  if order = 2 then [4] else if order = 1 then nand else nand ++ [4]

/-- The image of a candidate. -/
def candidateImage (o : StartOutcome) (s : State) (k : Nat) : Option Image :=
  if o.unreadable.contains k then none
  else if k < 3 then some s.glb.stored
  else if k = 3 then s.glb.staged
  else some (imageOf (Cells.ofList o.nor) o.nor.length)

/-- Does a candidate pass R150? -/
def candidatePasses (o : StartOutcome) (s : State) (k : Nat) : Option Image :=
  match candidateImage o s k with
  | none => none
  | some x => if (imageRefused s.otp x.bytes x.len).isNone then some x else none

/-- Try the candidates in order: the candidate and image that run, and the mask of those that failed. -/
def tryCandidates (o : StartOutcome) (s : State) : List Nat → Nat → Option (Nat × Image) × Nat
  | [], fails => (none, fails)
  | k :: ks, fails =>
    match candidatePasses o s k with
    | some x => (some (k, x), fails)
    | none => tryCandidates o s ks (setBit fails k true)

/-- The image that runs; STAGE 5 begins. -/
def runImage (candidate src : Nat) (x : Image) (s : State) : State :=
  toStage 5 { s with glb := { s.glb with running := x, candidate := candidate, bootSrc := src, configMs := min (s.now / 1000) 0xFFFF } }

/-- STAGE 4 ends: the first candidate that passes runs, and without one the device is in RECOVERY. -/
def endImage (o : StartOutcome) (s : State) : State :=
  let order := setting s.otp 0 0 1 0 (fun v => decide (v ≤ 2))
  let r := tryCandidates o s (candidates order o.rootCopy) 0
  let s := { s with glb := { s.glb with rootCopy := o.rootCopy, fails := r.2 } }
  match r.1 with
  | some (k, x) => runImage k (if k = 4 then 1 else 0) x s
  | none => toStage 9 s

/-! ### STAGES 5 to 8 (R128, R130, R287, R288, R303, R322, R326, R446) -/

/-- M in MiB: U / 4,096 and 4 MiB, rounded up (R326). -/
def mirrorSize (usable : Nat) : Nat := (5 * 2 ^ 20 - 1 + usable) / 2 ^ 20

/-- The clock domains that firmware gates in the single x4 arrangement (R30). -/
def unusedDomains (s : State) : List Nat :=
  if s.glb.arrangement = 2 then [195, 196, 197, 198, 200] ++ (List.range 9).map (fun k => 203 + k) else []

/-- STAGE 5 ends: firmware has filled the status registers, set the class masks (R330) and placed the twin region. -/
def endConfig (o : StartOutcome) (s : State) : State :=
  let s := (o.rails.zipIdx).foldl (fun s x => if x.2 < 8 then noteRail x.2 x.1 s else s) s
  let s := gateDomains true (unusedDomains s) s
  let s := { s with
    mem := { s.mem with twinBase := o.twinBase, twinSize := 6980 * 1024 }
    cch := { s.cch with enabled := s.cch.enable, masks := [0xFFFF, 0x0FFF, 0x0000, 0x00F0] } }
  toStage 6 { s with drc := { s.drc with mirrorMib := mirrorSize s.flc.usable } }

/-- One volume at STAGE 6: its key is unwrapped; a record of another lifecycle is re-keyed and unmapped (R130); a damaged
key leaves the volume unreadable (R128) (log entries 24, 106). -/
def mapVolume (v : Nat) (u : Vol) (s : State) : State :=
  if s.sec.ladderBlocked then s
  else if u.lc ≠ s.otp.ladderLc then
    if !drbgServes s then s
    else
      let s := newVolumeKey v (destroyKey v (unmapAll v s))
      logHealth 0x0010 0xFF v 0 0 0 (Config.logDetail 0x0010 [v, u.lc, s.otp.ladderLc]) (appendGroup false [.sanitize v false] s)
  else if u.keyGood then { s with sec := { s.sec with volKeys := Tbl.set s.sec.volKeys v u.key } }
  else healthWarning 7 v 0 (logHealth 0x000C 0xFF v 0 0 0 [] s)

/-- STAGE 6 ends: keys, the revocation list, the learned repairs. The mark of a clean journal stays for STAGE 7 to read
(log entries 106, 107). -/
def endMap (s : State) : State :=
  let clean := s.flc.clean
  let s := s.flc.vols.foldl (fun s p => mapVolume p.1 p.2 s) s
  let s := { s with flc := { s.flc with clean := clean } }
  toStage 7 (s.mem.learned.foldl (fun s r => applyRepair false r.kind r.unit r.address s) s)

/-- The first format (R262, R266): the spare is 2 % of the blocks (log entries 23, 53). -/
def firstFormat (o : StartOutcome) (s : State) : State :=
  let w := min o.w (diesServing s).length
  let wb := setting s.otp 3 0 1 0 (fun v => v == 0 || decide (2 ≤ v ∧ v ≤ 6))
  let wb := if wb = 0 then o.wb else wb
  let blocks := ((diesServing s).filterMap (fun d => Tbl.get? s.flc.dies d)).foldl (fun a d => a + d.blocks) 0
  let short := decide (dramU s < usableBlocks (rawBytes s) wb w)
  let s := { s with flc := { s.flc with
    wbPct := wb, stripeW := w, usable := formatU s wb w, spareInit := blocks / 50, spareLeft := blocks / 50 } }
  let s := { s with drc := { s.drc with mirrorMib := mirrorSize s.flc.usable } }
  if short then bumpFresh (logHealth (Config.freeNat s.fresh 0) 0xFF 0xFFFF 0xFFFF 0 0 [] s) else s

/-- A sanitize that a power loss interrupted ends (R303) (log entries 53, 106). -/
def resumeSanitize (w : Nat) (x : Sanit) (s : State) : State :=
  let s := if x.unmapped then s else (sanitVols s x.vol).foldl (sanitOne x.method) s
  let sbs := (s.flc.superblocks.filter (fun p => p.2.refs.all (fun r => (sanitVols s x.vol).contains r.1))).map Prod.fst
  let s := dropSanit x.vol (sanitErase x sbs w s)
  logHealth 0x0010 0xFF x.vol 0 0 0 [] (appendGroup false [.sanitize x.vol false] s)

/-- A new limit L + 2^20 of the sequence counter is journaled (R27): the counter stands at the last durable L, but for a
DEVICE_RESET, which keeps it. -/
def newLimit (s : State) : State :=
  let l := (2 ^ 20 + s.glb.seqLimit) % seqMod
  appendGroup false [.seqLimit l] { s with glb := { s.glb with seqJournaled := l } }

/-- STAGE 7 ends: the journal is replayed, unless it was marked clean; numbering begins. -/
def endReplay (o : StartOutcome) (s : State) : State :=
  let unclean := !s.flc.clean && !(s.flc.usable == 0)
  let s := { s with glb := { s.glb with unclean := unclean } }
  let s := if unclean then
      { s with flc := { s.flc with life := { s.flc.life with unsafeShutdowns := s.flc.life.unsafeShutdowns + 1 } } } else s
  let s := if canTakeSeq s then s else newLimit s
  let s := pageDurable s.flc.groups.length s
  let s := s.flc.sanitizing.foldl (fun s x => resumeSanitize o.w x s) s
  toStage 8 (if s.flc.usable = 0 then firstFormat o s else settleReadOnly s)

/-- READY: HOLDUP of the settings goes to PWR_HOLDUP_CTL, READY_MS is recorded, and the journal's clean mark is spent
(log entry 107). -/
def becomeReady (s : State) : State :=
  let h := setting s.otp 3 2 2 0 (fun v => v == 0 || decide (20 ≤ v))
  { s with glb := { s.glb with readyMs := min (s.now / 1000) 0xFFFF, shutdown := false }
           pwr := { s.pwr with holdup := if h = 0 then s.pwr.holdup else h }
           flc := { s.flc with clean := false } }

/-- The phase under way ends. -/
def phaseEnds (o : StartOutcome) (s : State) : State :=
  match s.glb.stage with
  | 0 => toStage 1 s
  | 12 => toStage 1 s
  | 1 => endFuses o s
  | 2 => endScruple o s
  | 3 => endTraining o s
  | 4 => endImage o s
  | 5 => endConfig o s
  | 6 => endMap s
  | 7 => becomeReady (endReplay o s)
  | _ => s

/-- The array has been read: in BLANK and SCRAPPED start-up goes no further (log entry 137). -/
def fusesTaken (s : State) : Bool := s.sec.drbgReady || s.sec.entropyFail

/-- Can the phase under way end? While PWR_FAIL_N is asserted start-up does not pass STAGE 5 (R471), and replay programs
the flash. -/
def phaseCanEnd (s : State) : Bool :=
  match s.glb.stage with
  | 1 => !fusesTaken s
  | 5 => !s.pwr.pwrFail
  | 7 => programsRun s
  | n => decide (n < 8) || n == 12

/-- STARTUP_PHASE_END. -/
def execStartupPhaseEnd (o : StartOutcome) (s : State) : Out := act s (powered s && phaseCanEnd s) (phaseEnds o)

/-! ### The recovery image (R443) -/

/-- GLB_RECOV_STS.RESULT. -/
def recovResult (r : Nat) (s : State) : State := { s with glb := { s.glb with recovResult := r } }

/-- The image at GLB_RECOV_ADDR is checked, written as the running image, and runs (log entry 138). -/
def recover (hostError : Bool) (s : State) : State :=
  let len := s.glb.recovLen
  if s.glb.stage ≠ 9 then recovResult 2 s
  else if len < 4096 ∨ 16777216 < len then recovResult 5 s
  else if hostError then recovResult 4 s
  else
    let bytes := Cells.ofList (hostRead s 0 s.glb.recovAddr len)
    if (imageRefused s.otp bytes len).isSome then
      recovResult 3 { s with glb := { s.glb with fails := setBit s.glb.fails 5 true } }
    else
      let x := imageOf bytes len
      recovResult 1 (runImage 5 2 x { s with glb := { s.glb with stored := x } })

/-- GO: a write of GLB_RECOV_CTL with GO 1; `hostError` says that the image could not be read. -/
def execGo (fn : Fin 2) (hostError : Bool) (s : State) : Out := act s (bar0Answers s fn 0x3C) (recover hostError)

/-! ### Fuse programming (R155, R449 to R453) -/

/-- OTP_PROG_DATA: the next word; words beyond 12 are discarded. -/
def execOtpProgDataWrite (fn : Fin 2) (word : BitVec 32) (s : State) : Out :=
  act s (bar0Answers s fn 0x18008 && decide (s.otp.words.length < 12)) (fun s =>
    { s with otp := { s.otp with words := s.otp.words ++ [word.toNat] } })

/-- RESTART: the words received are discarded. -/
def execOtpRestart (fn : Fin 2) (s : State) : Out :=
  act s (bar0Answers s fn 0x1800C) (fun s => { s with otp := { s.otp with words := [] } })

/-- The number of data words of a target. -/
def targetWords (t : Nat) : Option Nat :=
  if t = 1 ∨ t = 0x0B then some 0 else if 2 ≤ t ∧ t ≤ 0x0A then some 12 else if t = 0x0C ∨ t = 0x20 then some 1
  else if 0x10 ≤ t ∧ t ≤ 0x13 then some 7 else none

/-- Is a target allowed in the present lifecycle state (Table 13.6)? (log entry 109) -/
def targetAllowed (s : State) (t : Nat) : Bool :=
  let lc := lifecycle s.otp
  if t = 1 then lc == 0
  else if 2 ≤ t ∧ t ≤ 9 then lc == 0 || lc == 1
  else if t = 0x0A then lc == 0 || lc == 1 || lc == 2
  else if t = 0x0B then !(lc == 7) && anchorWritten s.otp aFwRoot1
  else if t = 0x0C then true
  else if 0x10 ≤ t ∧ t ≤ 0x13 then !(lc == 7) && !(lc == 2 && s.sec.lock)
  else lc == 0 || lc == 1

/-- The lowest repair entry that is unused. -/
def nextRepair (o : Otp) : Option Nat := (List.range 64).find? (fun i => bits (repairEntry o i) 30 2 == 0)

/-- The lowest unused generation of a group above every used one. -/
def nextGeneration (o : Otp) (g : Nat) : Option Nat :=
  [0, 1, 2, 3].find? (fun n => (List.range 4).all (fun m => decide (m < n) || !genUsed o g m))

/-- Is the field written already, or the group frozen? -/
def targetWritten (o : Otp) (t : Nat) : Bool :=
  if t = 1 then !allZero (Cells.readN o.fuses 0 36)
  else if 2 ≤ t ∧ t ≤ 0x0A then !allZero (Cells.readN o.fuses (0x24 + 0x34 * (t - 2)) 52)
  else if 0x10 ≤ t ∧ t ≤ 0x13 then (nextGeneration o (t - 0x10)).isNone
  else if t = 0x20 then (nextRepair o).isNone
  else false

/-- The bytes of the words received. -/
def progBytes (o : Otp) : List Byte := o.words.flatMap (leBytes 4)

/-- Word 0 received. -/
def progWord (o : Otp) : Nat := o.words.headD 0

/-- Program bytes from an address on. `misses` are the bits, by address and bit, that did not take: fuse bits change only
from 0 to 1, and the verification finds a miss among those to set. -/
def program (addr : Nat) (bs : List Byte) (misses : List (Nat × Nat)) (s : State) : Bool × State :=
  let missed (a i : Nat) : Bool := misses.contains (a, i)
  let todo := (bs.zipIdx).flatMap (fun p => ((List.range 8).filter (fun i => p.1.getLsbD i)).map (fun i => (addr + p.2, i)))
  let done := todo.filter (fun x => !missed x.1 x.2)
  let o := done.foldl (fun o x => setFuse x.1 x.2 o) s.otp
  (todo.all (fun x => (Cells.read o.fuses x.1).getLsbD x.2), { s with otp := o })

/-- The lifecycle code that a transition may take the part to (Table 4.16). -/
def transitionAllowed (s : State) (goal : Nat) : Bool :=
  let o := s.otp
  let lc := lifecycle o
  if lc = 0 then goal == 1 && iseedWritten s
  else if lc = 1 then
    (goal == 2 && (anchorWritten o aFwRoot1 || anchorWritten o aFwRoot0) && anchorWritten o aContentRoot0
      && anchorWritten o aConsumerRoot0 && anchorWritten o aDeviceCa && anchorWritten o aDebugRoot) || goal == 7
  else if lc = 2 then goal == 3 && s.sec.rmaPermit
  else lc == 3 && goal == 7

/-- The pair of LIFECYCLE bits of a state: its low bit. -/
def pairOf (goal : Nat) : Nat := if goal = 1 then 0 else if goal = 2 then 2 else if goal = 3 then 4 else 6

/-- Every key slot is zeroised and the key ladder blocked until the next power-on reset (R155, R450) (log entry 42). -/
def zeroiseKeys (s : State) : State :=
  let s := zeroiseSlots s
  { s with sec := { s.sec with volKeys := [], ladderBlocked := true }, otp := { s.otp with porRequired := true } }

/-- A transition: the keys go, into SCRAPPED every bit of ISEED is set, and both bits of the pair are programmed. -/
def transition (goal : Nat) (misses : List (Nat × Nat)) (s : State) : Bool × State :=
  let s := zeroiseKeys s
  let r := if goal = 7 then program 0 (List.replicate 32 0xFF) misses s else (true, s)
  let p := program 0x208 (leBytes 1 (3 * 2 ^ pairOf goal)) misses r.2
  (r.1 && p.1, p.2)

/-- OTP_STS.RESULT. -/
def progResult (r : Nat) (s : State) : State := { s with otp := { s.otp with result := r } }

/-- The bytes that a request programs, and where. -/
def progPlan (s : State) (t : Nat) : Nat × List Byte :=
  let bs := progBytes s.otp
  if t = 1 then
    let seed := leBytes 32 (drbgBits s).toNat
    (0, seed ++ (sha seed).take 4)
  else if 2 ≤ t ∧ t ≤ 0x0A then (0x24 + 0x34 * (t - 2), bs ++ (sha bs).take 4)
  else if t = 0x0B then (0x209, [3])
  else if 0x10 ≤ t ∧ t ≤ 0x13 then
    (0x380 + 0x80 * (t - 0x10) + 0x20 * (nextGeneration s.otp (t - 0x10)).getD 0, bs ++ leBytes 4 (crc32c bs))
  else (0x280 + 4 * (nextRepair s.otp).getD 0, bs)

/-- Is the data bad: the wrong count of words, a repair entry of KIND 0? (log entry 109) -/
def progBad (o : Otp) (t : Nat) : Bool :=
  !(targetWords t == some o.words.length) || (t == 0x20 && bits (progWord o) 30 2 == 0)

/-- A request on the fuse array: its RESULT in the order of OTP_STS. A lifecycle request that Table 4.16 does not give is
refused and recorded (log entries 19, 109). -/
def otpGo (misses : List (Nat × Nat)) (s : State) : State :=
  let t := s.otp.sel
  if (targetWords t).isNone || !targetAllowed s t then progResult 2 s
  else if targetWritten s.otp t then progResult 3 s
  else if progBad s.otp t then progResult 4 s
  else if t = 0x0C then
    let goal := progWord s.otp % 256
    if !transitionAllowed s goal then progResult 2 (logHealth 0x000E 0xFF 0xFFFF 0 0 0 [] s)
    else
      let r := transition goal misses s
      progResult (if r.1 then 1 else 5) r.2
  else if t = 1 && !drbgServes s then progResult 6 s
  else
    let plan := progPlan s t
    let r := program plan.1 plan.2 misses (if t = 1 then drbgUsed s else s)
    progResult (if r.1 then 1 else 5) r.2

/-- GO: a write of OTP_PROG_CTL; `misses` are the bits that do not take. -/
def execOtpGo (fn : Fin 2) (misses : List (Nat × Nat)) (s : State) : Out := act s (bar0Answers s fn 0x1800C) (otpGo misses)

/-! ### The clean shutdown (R446, R447) -/

/-- Steps 3 and 4 of R447: write-back data is durable, every dirty map segment is written, the journal is marked clean. -/
def cleanStop (s : State) : State :=
  let s := pageDurable s.flc.groups.length s
  let s := s.flc.dirty.foldl (fun s seg => { s with flc := { s.flc with segSeq := Tbl.set s.flc.segSeq seg (s.flc.pageSeq - 1) } }) s
  let s := writeRepairs (writeLog { s with flc := { s.flc with dirty := [] } })
  { s with flc := { s.flc with clean := true } }

/-- SHUTDOWN: the write of GLB_CTL, or (`ends`) the end of the shutdown once every command has replied. -/
def execShutdown (fn : Fin 2) (ends : Bool) (s : State) : Out :=
  if ends then
    act s (ready s && s.glb.shutdown && s.tags.isEmpty && s.glb.resetTag.isNone && programsRun s)
      (fun s => toStage 11 (cleanStop s))
  else act s (bar0Answers s fn 0x8 && ready s) (fun s => { s with glb := { s.glb with shutdown := true } })

/-- RESUME: STAGE 11 goes back to READY. -/
def execResume (fn : Fin 2) (s : State) : Out :=
  act s (bar0Answers s fn 0x8 && s.glb.stage == 11) (fun s =>
    toStage 8 { s with glb := { s.glb with shutdown := false }, flc := { s.flc with clean := false } })

end Sys2Proof.Machine
end

