-- ==== Sys2Proof/Machine/Board.lean ====
section
/-! DEFINITION. The board pins: the SMBus target (R468), the test port (R470), and the GPIO pins in ACTIVITY mode (R471). -/

namespace Sys2Proof.Machine

/-! ### SMBus -/

/-- Does the target answer its address: from the end of STAGE 1 in every stage (R468)? (log entry 137) -/
def smbusAnswers (s : State) : Bool :=
  powered s && (decide (2 ≤ s.glb.stage ∧ s.glb.stage ≤ 11) || (s.glb.stage == 1 && fusesTaken s))

/-- The target's answer, or a NACK where it does not answer its address. -/
def smbusGives (bs : List Byte) (s : State) : State :=
  { s with hif := { s.hif with smbus := if smbusAnswers s then some bs else none } }

/-- The bits of STATUS (Table 14.6). -/
def statusByte (s : State) : Nat :=
  pack [(0, 1, b2n (s.glb.stage == 8)), (1, 1, b2n (degraded s)), (2, 1, b2n (thermAlert s)), (3, 1, b2n (faultN s)),
    (4, 1, b2n s.flc.readOnly), (5, 1, b2n (!(s.pwr.supply == .normal))), (6, 1, b2n (s.glb.stage == 9 || s.glb.stage == 10))]

/-- The temperatures of the valid on-die sensors, in 1/8 °C. -/
def dieTemps (s : State) : List Int :=
  (s.pwr.sensors.filter (fun p => decide (p.1 < 12) && !p.2.failed)).map (fun p => p.2.temp)

/-- TEMP_MAX: the hottest in whole °C, two's complement; 0x80 when none is valid. -/
def tempMax (s : State) : Nat :=
  match dieTemps s with
  | [] => 0x80
  | t :: ts => ((ts.foldl max t / 8) % 256).toNat

/-- Has start-up reached STAGE 8? -/
def pastStart (s : State) : Bool := s.glb.stage == 8 || s.glb.stage == 11

/-- STATUS: Read Byte 0x00. -/
def execStatus (s : State) : Out := .next (smbusGives (leBytes 1 (statusByte s)) s)

/-- TEMP_MAX: Read Byte 0x01. -/
def execTempMax (s : State) : Out := .next (smbusGives (leBytes 1 (tempMax s)) s)

/-- THERM_STATE: Read Byte 0x02. -/
def execThermState (s : State) : Out := .next (smbusGives (leBytes 1 (deviceThermal s % 8)) s)

/-- WEAR: Read Byte 0x03. -/
def execWear (s : State) : Out := .next (smbusGives (leBytes 1 (if pastStart s then min (wearPct s) 254 else 0xFF)) s)

/-- SPARE: Read Byte 0x04. -/
def execSpare (s : State) : Out := .next (smbusGives (leBytes 1 (if pastStart s then sparePct s else 0xFF)) s)

/-- ID: Block Read 0x10. -/
def execId (s : State) : Out :=
  .next (smbusGives (leBytes 4 (readGlb s 2 0) ++ leBytes 4 (readGlb s 2 0x14) ++ leBytes 16 (deviceId s)) s)

/-- TEMPS: Block Read 0x11. -/
def execTemps (s : State) : Out :=
  .next (smbusGives ((List.range 20).flatMap (fun n => leBytes 2 (temp16 (sensorOf s n).temp))) s)

/-- RAILS: Block Read 0x12. -/
def execRails (s : State) : Out :=
  .next (smbusGives ((List.range 8).flatMap (fun n => leBytes 2 (Tbl.getD s.pwr.rails n (0, 0)).2)) s)

/-- HEALTH: Block Read 0x13, bytes 0 to 107 of the health summary; zeros before STAGE 8. -/
def execHealth (s : State) : Out :=
  .next (smbusGives (if pastStart s then (healthSummary s).take 108 else List.replicate 108 0) s)

/-- The command codes of Table 14.6. -/
def smbusCodes : List Nat := [0x00, 0x01, 0x02, 0x03, 0x04, 0x10, 0x11, 0x12, 0x13]

/-- SMBUS_WRITE: a write transaction, or a command code outside Table 14.6, is NACKed at the command byte. -/
def execSmbusWrite (write : Bool) (code : BitVec 8) (s : State) : Out :=
  act s (write || !smbusCodes.contains code.toNat) (fun s => { s with hif := { s.hif with smbus := none } })

/-! ### The test port -/

/-- An instruction enters the register of the test port; the pins are driven from the boundary register, or float, or neither.
The port works in every stage, also after service has ended (log entries 115, 136). -/
def jtag (ir : Nat) (driven float : Bool) (s : State) : State :=
  if s.glb.held then s
  else { s with hif := { s.hif with jtagIr := ir, pinsDriven := driven, pinsFloat := float } }

/-- Service ends; only a power-on reset brings the device back (log entry 136). -/
def endService (s : State) : State := if s.glb.held then s else { s with glb := { s.glb with ended := true } }

/-- EXTEST: the boundary register drives the pins. -/
def execExtest (s : State) : Out := .next (endService (jtag 0x00 true false s))

/-- IDCODE reads 0x0094_05E7. -/
def execIdcode (s : State) : Out :=
  let s' := jtag 0x01 false false s
  .next (if s.glb.held then s' else { s' with hif := { s'.hif with jtagOut := 0x009405E7 } })

/-- SAMPLE/PRELOAD: the boundary register captures the levels `pins`, and the bits `shifted` are loaded for the next EXTEST
or CLAMP. -/
def execSamplePreload (pins shifted : List Byte) (s : State) : Out :=
  let s' := jtag 0x02 false false s
  .next (if s.glb.held then s' else { s' with hif := { s'.hif with boundary := pins, preload := shifted } })

/-- CLAMP: the outputs hold what was preloaded. -/
def execClamp (s : State) : Out := .next (endService (jtag 0x04 true false s))

/-- HIGHZ: the outputs float. -/
def execHighz (s : State) : Out := .next (endService (jtag 0x05 false true s))

/-- BYPASS selects the one-bit bypass register. -/
def execBypass (s : State) : Out := .next (jtag 0xFF false false s)

/-! ### GPIO -/

/-- Is some pin in ACTIVITY mode? -/
def activityPin (s : State) : Bool := (List.range 4).any (fun k => bits s.hif.gpioMode (2 * k) 2 == 2)

/-- Is a command in flight: started, and its reply not yet written (R471, R137)? -/
def anyInFlight (s : State) : Bool := s.tags.any (fun t => t.2.started)

/-- ACTIVITY_TOGGLE: 100 ms after the last toggle the wave toggles again, while a command is in flight; with none it is low
(log entry 135). -/
def execActivityToggle (s : State) : Out :=
  act s (powered s && activityPin s && decide (100000 + s.hif.activityAt ≤ s.now || !anyInFlight s)) (fun s =>
    if anyInFlight s then { s with hif := { s.hif with activity := !s.hif.activity, activityAt := s.now } }
    else { s with hif := { s.hif with activity := false } })

end Sys2Proof.Machine
end

