-- ==== Sys2Proof/Machine/Life.lean ====
section
/-! DEFINITION. The narrower resets: PERST_N, function-level reset, D3hot and DEVICE_RESET (R73, R74, R437 to R439, R462,
R495). -/

namespace Sys2Proof.Machine

/-! ### The end of resets (R73, R347, R362, R438) -/

/-- Does a command that resets or destroys instance `n` still wait for the commit of its own reply? -/
def resetCommand (s : State) (n : Nat) : Bool :=
  s.tags.any (fun p => p.2.work == .resetting && p.2.reply.status == stOk && field p.2.packet 36 1 == n
    && (pkOpcode p.2.packet == opInstanceReset || pkOpcode p.2.packet == opInstanceDestroy))

/-- Is the reset work of instance `n` done: every reply committed, and what write-back held durable? -/
def resetWorkDone (s : State) (n : Nat) : Bool := (busyOf s n).isEmpty && !heldData s

/-- Instances under a reset that no command of their own ends: a function-level reset, or one whose command is gone. -/
def settleInstances (s : State) : State :=
  (s.insts.map Prod.fst).foldl (fun s n =>
    match Tbl.get? s.insts n with
    | none => s
    | some i =>
      if resetWorkDone s n && !resetCommand s n && s.glb.resetTag.isNone then
        if i.st = .resetting then resetEnds n s else if i.st = .destroying then destroyEnds n s else s
      else s) s

/-- A port over a DEVICE_RESET: its link and its function are as they were, its counts at reset (Table 15.2). -/
def portOverReset (q : HPort) : HPort := { q with replays := 0, rxErrors := 0, failures := 0, recoveries := 0 }

/-- The restart of a DEVICE_RESET: as a power-on reset, but for what Tables 13.1 and 15.2 keep, and the generations of handles
(R501) (log entry 110). -/
def restartDevice (s : State) : State :=
  let t := powerReset (setBit s.glb.cause 5 true) false s.hif.straps s.hif.smba s
  { t with
    glb := { t.glb with stage := 12, seq := s.glb.seq, seqLimit := s.glb.seqLimit, seqJournaled := s.glb.seqJournaled }
    clk := { t.clk with rootActive := s.clk.rootActive, lock0 := s.clk.lock0, lock1 := s.clk.lock1 }
    hif := { t.hif with port0 := portOverReset s.hif.port0, port1 := portOverReset s.hif.port1 }
    otp := { t.otp with porRequired := s.otp.porRequired }
    sec := { t.sec with
      debugOpened := s.sec.debugOpened, scope := s.sec.scope, rmaPermit := s.sec.rmaPermit, challenge := s.sec.challenge
      licGens := s.sec.licGens, sealGens := s.sec.sealGens }
    dmz := { t.dmz with progGens := s.dmz.progGens }
    idx := { t.idx with tblGens := s.idx.tblGens, curGens := s.idx.curGens }
    flc := { t.flc with life := { t.flc.life with powerCycles := s.flc.life.powerCycles } } }

/-- A DEVICE_RESET goes on to its restart once no command is left: the clean stop, then the restart (log entry 110). -/
def settleDeviceReset (s : State) : State :=
  if s.glb.resetTag.isSome && s.tags.isEmpty then restartDevice (cleanStop s) else s

/-- DEVICE_RESET: every other command of every instance ends with ST_ABORTED_BY_RESET; its own reply, ST_OK, is the last. -/
def deviceReset (k : Nat) (s : State) : State :=
  let s := (s.insts.map Prod.fst).foldl (fun s n => resetInstance n .resetting s) s
  modTag k (fun t => { t with st := .done, reply := { status := stOk }, work := .resetting })
    { s with glb := { s.glb with resetTag := some k } }

/-- DEVICE_RESET. -/
def execDeviceReset (inst : Fin 64) (tag : Fin 256) (s : State) : Out :=
  workEnds opDeviceReset inst tag true s (fun _ k s => deviceReset k s)

/-! ### PERST_N (R74, R437, R438) -/

/-- The tags of instance `n` end without reply: their work stops, and their number goes to the health log (R74). -/
def endTags (n : Nat) (s : State) : State :=
  let ks := busyOf s n
  let s := ks.foldl (fun s p => if p.2.st = .done then s else dropWork p.1 p.2 s) s
  let s := cancelOwner n s
  let s := { s with tags := s.tags.filter (fun p => !(keyInst p.1 == n))
                    locks := s.locks.filter (fun l => !(keyInst l.tag == n))
                    sch := { s.sch with bindings := s.sch.bindings.filter (fun b => !(keyInst b.1 == n)) } }
  if ks.isEmpty then s else logHealth 0x000A n 0xFFFF n 0 ks.length [] s

/-- Objects of instance `n` that waited for its last user have none left. -/
def settleObjects (s : State) : State :=
  let s := (s.sec.licences.map Prod.fst).foldl (fun s x => settleLicence x s) s
  let s := (s.sec.seals.map Prod.fst).foldl (fun s x => settleSeal x s) s
  let s := (s.dmz.progs.map Prod.fst).foldl (fun s x => settleProgram x s) s
  settleTable s

/-- Instance 0, when its port is reset: its window registers and features are at reset (Table 13.1) (log entry 112). -/
def resetWindow0 (s : State) : State :=
  let s := modInst 0 (fun i => { i with
    st := .active, fenced := false, slots := [], feat := resetFeat, ring := { resetRing 9 with evtQ := i.ring.evtQ, served := i.ring.served } }) s
  settleObjects { s with mgr := { s.mgr with priv := true } }

/-- An instance of a port that is reset: its tags end; 1 to 63 become ABSENT (log entry 112). -/
def perstInstance (n : Nat) (s : State) : State :=
  let s := endTags n s
  if n = 0 then resetWindow0 s else eraseInst n (deleteTables n (freeObjects n s))

/-- The port itself: its link, configuration space and function (log entry 111). -/
def perstPort (p : Nat) (pin : Bool) (s : State) : State :=
  let s := modPort p (fun q => { resetHPort with perst := pin || q.perst, sris := q.sris, pm := 4 }) s
  if p = 0 then { s with hif := { s.hif with msixTable0 := [] } } else { s with hif := { s.hif with msixTable1 := [] } }

/-- PERST_N_ASSERT: PERST_N of a port (`pin`), or a Hot Reset or link disable. A DEVICE_RESET whose reply is lost with its
port still restarts the device (log entry 111). -/
def execPerstNAssert (port : Fin 2) (pin : Bool) (s : State) : Out :=
  act s (!(portLanes s port == 0)) (fun s =>
    let s := perstPort port pin s
    if !powered s then s
    else
      let s := { s with glb := { s.glb with cause := setBit s.glb.cause (6 + port.val) true } }
      let ns := (s.insts.filter (fun i => i.2.port == port.val)).map Prod.fst
      settleDeviceReset (settleInstances (ns.foldl (fun s n => perstInstance n s) s)))

/-- PERST_N_RELEASE: the link may train; with a `width` it has. -/
def execPerstNRelease (port : Fin 2) (width : Nat) (speed : Fin 6) (reversed : Bool) (polarity : Nat) (s : State) : Out :=
  act s ((portOf s port).perst && !(portLanes s port == 0)) (fun s =>
    let s := modPort port (fun q => { q with perst := false }) s
    if powered s && widthOk (portLanes s port) width && decide (1 ≤ speed.val ∧ speed.val ≤ maxSpeed s) then
      linkUpAs port width speed reversed polarity { s with pwr := { s.pwr with portsDown := setBit s.pwr.portsDown port false } }
    else s)

/-! ### Function-level reset (R73, R362, R438) -/

/-- Reset the instances that a port serves. Those under a reset already, and all during a DEVICE_RESET, are done when that is
done. -/
def flrInstances (p : Nat) (s : State) : State :=
  if s.glb.resetTag.isSome then s
  else ((s.insts.filter (fun i => i.2.port == p && !(i.2.st == .resetting || i.2.st == .destroying))).map Prod.fst).foldl
    (fun s n => resetInstance n .resetting s) s

/-- The function after its reset: in D0, as PCI Express requires (log entry 113). -/
def flrFunction (p : Nat) (s : State) : State := releaseMsix p (modPort p (fun q => { q with d3hot := false }) s)

/-- FUNCTION_LEVEL_RESET: the FLR bit of the function, or (`ends`) the end of the resets of its instances, once every reset
reply is committed (log entry 113). -/
def execFunctionLevelReset (port : Fin 2) (ends : Bool) (s : State) : Out :=
  if ends then act s (powered s) settleInstances
  else act s (powered s && fnReaches s port && decide (5 ≤ s.glb.stage)) (fun s =>
    let s := { s with glb := { s.glb with cause := setBit s.glb.cause (8 + port.val) true } }
    settleInstances (flrFunction port (flrInstances port s)))

/-! ### D3hot (R462) -/

/-- D3HOT_ENTRY: the function holds its requests and messages; the link goes to L1 (log entry 114). -/
def execD3HotEntry (port : Fin 2) (s : State) : Out :=
  act s (powered s && fnReaches s port && !(portOf s port).d3hot && decide (5 ≤ s.glb.stage)) (modPort port (fun q => { q with d3hot := true, pm := 1 }))

/-- D3HOT_EXIT: the function is in D0 again, and what was held goes on (log entry 114). -/
def execD3HotExit (port : Fin 2) (s : State) : Out :=
  act s (powered s && fnReaches s port && (portOf s port).d3hot) (fun s =>
    releaseMsix port (modPort port (fun q => { q with d3hot := false, pm := 0 }) s))

end Sys2Proof.Machine
end

