-- ==== Sys2Proof/Machine/Commit.lean ====
section
/-! DEFINITION. The commit of a reply, with what waits for it, and the writing of events (R51 to R53, R59, R71, R73, R76, R77). -/

namespace Sys2Proof.Machine

/-! ### What may be committed (R52, R71, R73, R362) -/

/-- The opcode and the target of the command of instance 0 whose reply reports a reset done: INSTANCE_RESET or
INSTANCE_DESTROY. -/
def reportsReset (t : Tag) : Bool :=
  t.work == .resetting && t.reply.status == stOk
    && (pkOpcode t.packet == opInstanceReset || pkOpcode t.packet == opInstanceDestroy)

/-- Is everything done that must come before the reply of `k`? The reply of an ABORT follows its target's; reset replies of
an instance go in ascending tag order; that of a reset command follows all of those; a DEVICE_RESET's own is the last
(log entry 120). -/
def commitOrdered (s : State) (k : Nat) (t : Tag) : Bool :=
  t.after.isNone && !abortComing s k
    && !(t.reply.status == stAbortedByReset
      && (busyOf s (keyInst k)).any (fun p => decide (p.1 < k) && p.2.reply.status == stAbortedByReset))
    && (!reportsReset t || resetWorkDone s (field t.packet 36 1))
    && (!(s.glb.resetTag == some k) || (s.tags.all (fun p => p.1 == k) && !heldData s && programsRun s))

/-- Can instance `n` write an entry now: its ring is enabled, a number is available, and host memory takes writes?
(log entry 125) -/
def canWriteEntry (s : State) (n : Nat) (i : Inst) : Bool := powered s && i.ring.enable && canTakeSeq s && mayWrite s n

/-- May the reply of `k` be committed? (log entry 125) -/
def canCommit (s : State) (k : Nat) (t : Tag) (i : Inst) : Bool :=
  t.st == .done && t.groups.isEmpty && !ringFull i.ring && canWriteEntry s (keyInst k) i && commitOrdered s k t

/-! ### What the commit does -/

/-- The tag is FREE; its binding goes; an ABORT of it may follow. -/
def freeTag (k : Nat) (s : State) : State :=
  { s with tags := Tbl.mapVals (Tbl.erase s.tags k) (fun _ u => if u.after = some k then { u with after := none } else u)
           sch := { s.sch with bindings := Tbl.erase s.sch.bindings k } }

/-- Take a number and write the reply into the ring. -/
def writeReply (k : Nat) (t : Tag) (s : State) : State :=
  let s := takeSeq s
  let q := s.glb.seq
  ringWrite (keyInst k) (fun r => replyBytes (keyTag k) t.reply.status (pkOpcode t.packet) (keyInst k) r.phase
    (replyFlags t.reply) q t.seq t.reply.r0 t.reply.r1) s

/-- An object is used by one command less (log entry 117). -/
def endUse (s : State) (u : Use) : State :=
  match u with
  | .licence x => settleLicence x s
  | .session x => settleSeal x s
  | .program x => settleProgram x s
  | .table _ => settleTable s
  | .context _ => s

/-- The respread that an INDEX_INSERT starts with its commit (R238). -/
def startRespread (t : Tag) (s : State) : State :=
  if pkOpcode t.packet = opIndexInsert ∧ t.cursor = 1 then
    let tb := pkHandle t.packet % 256
    { s with idx := { s.idx with tables := Tbl.modify s.idx.tables tb (fun x =>
        if x.gen = pkHandle t.packet / 256 ∧ x.hole ≠ 0 then { x with respread := true } else x) } }
  else s

/-- A note is over with the commit of its reply: the mailbox area thaws (R353). -/
def endNote (k : Nat) (t : Tag) (s : State) : State :=
  if pkOpcode t.packet = opMailboxNote then
    modInst (keyInst k) (fun i =>
      if i.mbox.noteTag = k then { i with mbox := { i.mbox with noteLen := 0, pend := false } } else i) s
  else s

/-- A new volume serves from the commit of its create's reply; a deleted one is gone (R299, R300). -/
def endVolume (t : Tag) (s : State) : State :=
  let v := pkVolume t.packet
  let done := t.reply.status == stOk || t.reply.applied
  if pkOpcode t.packet = opVolumeCreate ∧ done = true then modVol v (fun u => { u with serves := true }) s
  else if pkOpcode t.packet = opVolumeDelete ∧ done = true then
    settleReadOnly { s with flc := { s.flc with vols := s.flc.vols.filter (fun p => !(p.1 == v && p.2.deleted)) } }
  else s

/-- The instance that a reset command reset is in use again; one that was destroyed is ABSENT (R347, R362). -/
def endReset (t : Tag) (s : State) : State :=
  if reportsReset t then
    let m := field t.packet 36 1
    match Tbl.get? s.insts m with
    | some i => if i.st = .destroying then destroyEnds m s else if i.st = .resetting then resetEnds m s else s
    | none => s
  else s

/-- What waited for the reply of `k`. -/
def afterCommit (k : Nat) (t : Tag) (s : State) : State :=
  let s := commitCursors k (t.reply.status == stOk || t.reply.status == stOkMulti) s
  let s := endVolume t (endNote k t (startRespread t s))
  let s := t.uses.foldl endUse s
  settleDeviceReset (settleInstances (settleDrain (keyInst k) (endReset t s)))

/-- Commit the reply of `k`. -/
def commitReply (k : Nat) (t : Tag) (s : State) : State := afterCommit k t (freeTag k (writeReply k t s))

/-- REPLY_COMMIT. -/
def execReplyCommit (inst : Fin 64) (tag : Fin 256) (s : State) : Out :=
  let k := tagKey inst tag
  match Tbl.get? s.tags k, Tbl.get? s.insts inst with
  | some t, some i => act s (canCommit s k t i) (commitReply k t)
  | _, _ => .next s

/-! ### Events (R76, R77) -/

/-- Does an event fit: the free entries exceed the busy tags whose replies are not committed? -/
def eventFits (s : State) (n : Nat) (r : Ring) : Bool := decide ((busyOf s n).length < ringFree r)

/-- The event at the front goes to the ring; with room in the queue again, EV_EVENTS_LOST reports those discarded
(log entry 142). -/
def writeEvent (n : Nat) (e : Event) (s : State) : State :=
  let s := takeSeq s
  let q := s.glb.seq
  let r0 := e.r0 / 65536 * 65536 + e.code
  let s := ringWrite n (fun r => replyBytes 0xFFFF e.status 0 n r.phase 0 q 0 r0 e.r1) s
  modRing n (fun r =>
    let r := { r with evtQ := r.evtQ.tail }
    if r.evtLost = 0 then r
    else { r with evtQ := r.evtQ ++ [{ code := 0x0003, status := stOk, r0 := 0x0003 + 65536 * r.evtLost, r1 := 0 }], evtLost := 0 }) s

/-- EVENT_WRITE. -/
def execEventWrite (inst : Fin 64) (s : State) : Out :=
  match Tbl.get? s.insts inst with
  | none => .next s
  | some i =>
    match i.ring.evtQ with
    | [] => .next s
    | e :: _ => act s (canWriteEntry s inst i && eventFits s inst i.ring) (fun s => settleDrain inst (writeEvent inst e s))

end Sys2Proof.Machine
end

