-- ==== Sys2Proof/Machine/Damzu.lean ====
section
/-! DEFINITION. The 49 Damzu instructions, each on a worker that stands at its word (Table 6.6). -/

namespace Sys2Proof.Machine

/-- The gathered results of a command. -/
def gatherOf (s : State) (k : Nat) : Gather := Tbl.getD s.dmz.gathers k noGather

/-- The worker whose ended record comes next in the order of the command's records. -/
def nextEnded (s : State) (k : Nat) : Option (Nat × Worker) :=
  s.dmz.workers.find? (fun p => p.2.tag == k && p.2.st == .ended && p.2.recIndex == (gatherOf s k).recordsIn)

/-- Records that reached END add their staged output in ascending record order (R205). -/
def settleRecords (k : Nat) : Nat → State → State
  | 0, s => s
  | n + 1, s =>
    match nextEnded s k with
    | none => s
    | some (i, w) =>
      settleRecords k n { s with dmz := { s.dmz with
        workers := Tbl.set s.dmz.workers i { w with st := .applied }
        gathers := Tbl.set s.dmz.gathers k (applyRecord w (gatherOf s k)) } }

/-- A worker executes `word` when that is the word at its pc; an index search needs the unit enabled (IDX_CTL)
(log entry 2). -/
def damzu (worker : Nat) (word : Nat) (s : State) : Out :=
  match Tbl.get? s.dmz.workers worker with
  | none => .next s
  | some w =>
    match Tbl.get? s.dmz.progs w.prog with
    | none => .next s
    | some p =>
      act s (serving s && w.st == .running && codeWord p w.pc == word && (!(bits word 26 6 == 0x3C) || s.idx.enable))
        (fun s =>
          let v := issue s p word w
          let s := if v.searches = w.searches then s else countSearch s
          settleRecords w.tag 1024 { s with dmz := { s.dmz with workers := Tbl.set s.dmz.workers worker v } })

/-- ADD (Table 6.6). -/
def execAdd (worker : Nat) (d a b : Fin 16) (s : State) : Out := damzu worker (wordRR 0x01 d a b) s

/-- SUB (Table 6.6). -/
def execSub (worker : Nat) (d a b : Fin 16) (s : State) : Out := damzu worker (wordRR 0x02 d a b) s

/-- MUL (Table 6.6). -/
def execMul (worker : Nat) (d a b : Fin 16) (s : State) : Out := damzu worker (wordRR 0x03 d a b) s

/-- AND (Table 6.6). -/
def execAnd (worker : Nat) (d a b : Fin 16) (s : State) : Out := damzu worker (wordRR 0x04 d a b) s

/-- OR (Table 6.6). -/
def execOr (worker : Nat) (d a b : Fin 16) (s : State) : Out := damzu worker (wordRR 0x05 d a b) s

/-- XOR (Table 6.6). -/
def execXor (worker : Nat) (d a b : Fin 16) (s : State) : Out := damzu worker (wordRR 0x06 d a b) s

/-- SHL (Table 6.6). -/
def execShl (worker : Nat) (d a b : Fin 16) (s : State) : Out := damzu worker (wordRR 0x07 d a b) s

/-- SHR (Table 6.6). -/
def execShr (worker : Nat) (d a b : Fin 16) (s : State) : Out := damzu worker (wordRR 0x08 d a b) s

/-- SLTU (Table 6.6). -/
def execSltu (worker : Nat) (d a b : Fin 16) (s : State) : Out := damzu worker (wordRR 0x09 d a b) s

/-- SEQ (Table 6.6). -/
def execSeq (worker : Nat) (d a b : Fin 16) (s : State) : Out := damzu worker (wordRR 0x0A d a b) s

/-- CTZ (Table 6.6). -/
def execCtz (worker : Nat) (d a : Fin 16) (s : State) : Out := damzu worker (wordRR 0x0B d a 0) s

/-- POPC (Table 6.6). -/
def execPopc (worker : Nat) (d a : Fin 16) (s : State) : Out := damzu worker (wordRR 0x0C d a 0) s

/-- ADDI (Table 6.6). -/
def execAddi (worker : Nat) (d a : Fin 16) (imm : BitVec 18) (s : State) : Out := damzu worker (wordRI 0x10 d a imm.toNat) s

/-- ANDI (Table 6.6). -/
def execAndi (worker : Nat) (d a : Fin 16) (imm : BitVec 18) (s : State) : Out := damzu worker (wordRI 0x11 d a imm.toNat) s

/-- ORI (Table 6.6). -/
def execOri (worker : Nat) (d a : Fin 16) (imm : BitVec 18) (s : State) : Out := damzu worker (wordRI 0x12 d a imm.toNat) s

/-- SLTUI (Table 6.6). -/
def execSltui (worker : Nat) (d a : Fin 16) (imm : BitVec 18) (s : State) : Out := damzu worker (wordRI 0x15 d a imm.toNat) s

/-- SEQI (Table 6.6). -/
def execSeqi (worker : Nat) (d a : Fin 16) (imm : BitVec 18) (s : State) : Out := damzu worker (wordRI 0x16 d a imm.toNat) s

/-- SHLI (Table 6.6). -/
def execShli (worker : Nat) (d a : Fin 16) (imm : Fin 64) (s : State) : Out := damzu worker (wordRI 0x13 d a imm) s

/-- SHRI (Table 6.6). -/
def execShri (worker : Nat) (d a : Fin 16) (imm : Fin 64) (s : State) : Out := damzu worker (wordRI 0x14 d a imm) s

/-- MOVH (Table 6.6). -/
def execMovh (worker : Nat) (d : Fin 16) (imm : BitVec 18) (s : State) : Out := damzu worker (wordRI 0x17 d 0 imm.toNat) s

/-- BSWAP (Table 6.6). -/
def execBswap (worker : Nat) (d a : Fin 16) (n : Fin 4) (s : State) : Out := damzu worker (wordRI 0x18 d a n) s

/-- LDR (Table 6.6). -/
def execLdr (worker : Nat) (d a : Fin 16) (sz : Fin 4) (off : BitVec 16) (s : State) : Out := damzu worker (wordM 0x20 d a sz off.toNat) s

/-- LDK (Table 6.6). -/
def execLdk (worker : Nat) (d a : Fin 16) (sz : Fin 4) (off : BitVec 16) (s : State) : Out := damzu worker (wordM 0x21 d a sz off.toNat) s

/-- LDS (Table 6.6). -/
def execLds (worker : Nat) (d a : Fin 16) (sz : Fin 4) (off : BitVec 16) (s : State) : Out := damzu worker (wordM 0x22 d a sz off.toNat) s

/-- STS (Table 6.6). -/
def execSts (worker : Nat) (d a : Fin 16) (sz : Fin 4) (off : BitVec 16) (s : State) : Out := damzu worker (wordM 0x23 d a sz off.toNat) s

/-- VLDR (Table 6.6). -/
def execVldr (worker : Nat) (vd : Fin 4) (a : Fin 16) (off : BitVec 16) (s : State) : Out := damzu worker (wordVM 0x24 vd a off.toNat) s

/-- VLDK (Table 6.6). -/
def execVldk (worker : Nat) (vd : Fin 4) (a : Fin 16) (off : BitVec 16) (s : State) : Out := damzu worker (wordVM 0x25 vd a off.toNat) s

/-- VLDS (Table 6.6). -/
def execVlds (worker : Nat) (vd : Fin 4) (a : Fin 16) (off : BitVec 16) (s : State) : Out := damzu worker (wordVM 0x26 vd a off.toNat) s

/-- VSTS (Table 6.6). -/
def execVsts (worker : Nat) (vd : Fin 4) (a : Fin 16) (off : BitVec 16) (s : State) : Out := damzu worker (wordVM 0x27 vd a off.toNat) s

/-- VCMPEQ (Table 6.6). -/
def execVcmpeq (worker : Nat) (vd va vb : Fin 4) (s : State) : Out := damzu worker (wordVV 0x28 vd va vb) s

/-- VCMPGTU (Table 6.6). -/
def execVcmpgtu (worker : Nat) (vd va vb : Fin 4) (s : State) : Out := damzu worker (wordVV 0x29 vd va vb) s

/-- VAND (Table 6.6). -/
def execVand (worker : Nat) (vd va vb : Fin 4) (s : State) : Out := damzu worker (wordVV 0x2A vd va vb) s

/-- VOR (Table 6.6). -/
def execVor (worker : Nat) (vd va vb : Fin 4) (s : State) : Out := damzu worker (wordVV 0x2B vd va vb) s

/-- VXOR (Table 6.6). -/
def execVxor (worker : Nat) (vd va vb : Fin 4) (s : State) : Out := damzu worker (wordVV 0x2C vd va vb) s

/-- VSPLAT (Table 6.6). -/
def execVsplat (worker : Nat) (vd : Fin 4) (a : Fin 16) (s : State) : Out := damzu worker (wordVM 0x2D vd a 0) s

/-- VMASK (Table 6.6). -/
def execVmask (worker : Nat) (d : Fin 16) (va : Fin 4) (s : State) : Out := damzu worker (0x2E * 2 ^ 26 + 2 ^ 22 * d + 2 ^ 20 * va) s

/-- BEQ (Table 6.6). -/
def execBeq (worker : Nat) (a b : Fin 16) (off : BitVec 18) (s : State) : Out := damzu worker (wordBR 0x30 a b off.toNat) s

/-- BNE (Table 6.6). -/
def execBne (worker : Nat) (a b : Fin 16) (off : BitVec 18) (s : State) : Out := damzu worker (wordBR 0x31 a b off.toNat) s

/-- BLTU (Table 6.6). -/
def execBltu (worker : Nat) (a b : Fin 16) (off : BitVec 18) (s : State) : Out := damzu worker (wordBR 0x32 a b off.toNat) s

/-- BGEU (Table 6.6). -/
def execBgeu (worker : Nat) (a b : Fin 16) (off : BitVec 18) (s : State) : Out := damzu worker (wordBR 0x33 a b off.toNat) s

/-- LOOP (Table 6.6). -/
def execLoop (worker : Nat) (c : Fin 16) (body : Fin 1024) (mx : Fin 4096) (s : State) : Out := damzu worker (wordLP 0x34 c body mx) s

/-- LIDX (Table 6.6). -/
def execLidx (worker : Nat) (d : Fin 16) (level : Fin 4) (s : State) : Out := damzu worker (0x35 * 2 ^ 26 + 2 ^ 22 * d + 2 ^ 20 * level) s

/-- EMITR (Table 6.6). -/
def execEmitr (worker : Nat) (a b : Fin 16) (s : State) : Out := damzu worker (wordBR 0x38 a b 0) s

/-- EMITS (Table 6.6). -/
def execEmits (worker : Nat) (a b : Fin 16) (s : State) : Out := damzu worker (wordBR 0x39 a b 0) s

/-- EMITG (Table 6.6). -/
def execEmitg (worker : Nat) (a : Fin 16) (sz : Fin 4) (s : State) : Out := damzu worker (0x3A * 2 ^ 26 + 2 ^ 22 * a + 2 ^ 16 * sz) s

/-- CNT (Table 6.6). -/
def execCnt (worker : Nat) (a : Fin 16) (k : Fin 8) (s : State) : Out := damzu worker (0x3B * 2 ^ 26 + 2 ^ 22 * a + 2 ^ 19 * k) s

/-- IDXS (Table 6.6). -/
def execIdxs (worker : Nat) (d : Fin 16) (va slot : Fin 4) (s : State) : Out := damzu worker (0x3C * 2 ^ 26 + 2 ^ 22 * d + 2 ^ 20 * va + 2 ^ 18 * slot) s

/-- TRAP (Table 6.6). -/
def execTrap (worker : Nat) (code : BitVec 8) (s : State) : Out := damzu worker (0x3D * 2 ^ 26 + code.toNat) s

/-- END (Table 6.6). -/
def execEnd (worker : Nat) (s : State) : Out := damzu worker (0x3E * 2 ^ 26) s

end Sys2Proof.Machine
end

