-- ==== Sys2Proof/Machine/Index.lean ====
section
/-! DEFINITION. The index commands, the table requests, and what the unit does by itself (07). -/

namespace Sys2Proof.Machine

/-- KEY of an index command: bytes 36 to 51. -/
def pkKey (p : List Byte) : Nat := field p 36 16

/-- The work of an index command on table `HANDLE`; the unit must be enabled (IDX_CTL). A table in a bank that nothing
serves gives ST_INTERNAL (R410) (log entry 2). -/
def indexWork (op : Nat) (inst : Fin 64) (tag : Fin 256) (g : List Byte → Bool) (s : State)
    (f : Nat → ITable → List Byte → Nat → State → State) : Out :=
  let k := tagKey inst tag
  let ok := match Tbl.get? s.tags k with
    | some t => g t.packet
    | none => false
  workEnds op inst tag (s.idx.enable && ok) s (fun p k s =>
    let tb := pkHandle p % 256
    match Tbl.get? s.idx.tables tb with
    | none => badField k 20 s
    | some t => if tableLost s t then finishWith k stInternal 0 0 s else f tb t p k s)

/-- INDEX_SEARCH (R232, R233). -/
def searchDone (n : Nat) (err : Bool) (tb : Nat) (t : ITable) (p : List Byte) (k : Nat) (s : State) : State :=
  let s := countSearch s
  let ms := matchesOf s tb t (pkKey p)
  match firstMatch ms with
  | none => finishWith k stOk 0 0 s
  | some m =>
    let s := indexRepair err s
    if ms.length = 1 then
      let w := matchWords s m 1 0
      finishWith k stOk w.1 w.2 s
    else
      let (c, s) := takeCursor n tb (pkKey p) m k s
      let w := matchWords s m ms.length c
      finishWith k stOkMulti w.1 w.2 s

/-- INDEX_SEARCH; `err`: the check of the winning entry found an error (R246). -/
def execIndexSearch (inst : Fin 64) (tag : Fin 256) (err : Bool) (s : State) : Out :=
  indexWork opIndexSearch inst tag (fun _ => true) s (searchDone inst err)

/-- Note what a step leaves of its cursor, until the reply is committed. -/
def stepCursor (c : Nat) (k : Nat) (next : Option (Nat × Nat)) (s : State) : State :=
  { s with idx := { s.idx with cursors := Tbl.modify s.idx.cursors c (fun x => { x with stepTag := some k, next := next }) } }

/-- INDEX_STEP (R234). -/
def stepDone (n : Nat) (err : Bool) (tb : Nat) (t : ITable) (p : List Byte) (k : Nat) (s : State) : State :=
  let v := field p 36 2
  match cursorOf s n v with
  | none => badField k 36 s
  | some c =>
    if c.table ≠ tb then badField k 20 s
    else
      let s := countSearch s
      let later := (matchesOf s tb t c.key).filter (fun m => matchBefore (c.prio, c.index) m)
      match firstMatch later with
      | none => finishWith k stOk 0 0 (stepCursor (v % 4096) k none s)
      | some m =>
        let s := indexRepair err s
        if later.length = 1 then
          let w := matchWords s m 1 0
          finishWith k stOk w.1 w.2 (stepCursor (v % 4096) k none s)
        else
          let w := matchWords s m later.length v
          finishWith k stOkMulti w.1 w.2 (stepCursor (v % 4096) k (some m) s)

/-- Does the cursor that a packet names wait for the commit of an earlier step (R241)? -/
def stepPending (s : State) (p : List Byte) : Bool :=
  match Tbl.get? s.idx.cursors (field p 36 2 % 4096) with
  | some c => c.live && c.stepTag.isSome
  | none => false

/-- INDEX_STEP. -/
def execIndexStep (inst : Fin 64) (tag : Fin 256) (err : Bool) (s : State) : Out :=
  indexWork opIndexStep inst tag (fun p => !stepPending s p) s (stepDone inst err)

/-- Note on the tag that the insert moved entries: the respread starts with its commit (R238). -/
def noteMoved (k : Nat) (moved : Bool) (s : State) : State := modTag k (fun t => { t with cursor := b2n moved }) s

/-- INDEX_INSERT (R236). -/
def insertDone (tb : Nat) (t : ITable) (p : List Byte) (k : Nat) (s : State) : State :=
  let key := pkKey p
  let prio := field p 58 2
  let e : IEntry := { table := tb, key := key, tag := keyTag8 t key, prio := prio, data := field p 52 6 }
  if 2 ^ t.keyBits ≤ key then badField k 36 s
  else match sameEntry s tb key prio with
    | some (i, o) => finishWith k stOk i (tableFree s tb t) (putEntry i { o with data := e.data } s)
    | none =>
      match place tb t e s with
      | none => finishWith k stBadRange 0 0 s
      | some (i, moved, s) => finishWith k stOk i (tableFree s tb t) (noteMoved k moved s)

/-- INDEX_INSERT. -/
def execIndexInsert (inst : Fin 64) (tag : Fin 256) (s : State) : Out :=
  indexWork opIndexInsert inst tag (fun _ => true) s insertDone

/-- Delete the entries of a table that meet `f`; RESULT0 counts them (R239). -/
def deleteEntries (tb : Nat) (f : IEntry → Bool) (k : Nat) (s : State) : State :=
  let gone := (liveEntries s tb).countIf (fun _ e => f e)
  finishWith k stOk gone 0
    { s with idx := { s.idx with entries := s.idx.entries.filter (fun p => !(p.2.table == tb && f p.2)) } }

/-- INDEX_DELETE with MODE 0: the entry of that KEY and PRIORITY. -/
def execIndexDeleteEntry (inst : Fin 64) (tag : Fin 256) (s : State) : Out :=
  indexWork opIndexDelete inst tag (fun p => field p 54 1 == 0) s (fun tb _ p k s =>
    deleteEntries tb (fun e => e.key == pkKey p && e.prio == field p 52 2) k s)

/-- INDEX_DELETE with MODE 1: every entry of that KEY; PRIORITY must be 0. -/
def execIndexDeleteKey (inst : Fin 64) (tag : Fin 256) (s : State) : Out :=
  indexWork opIndexDelete inst tag (fun p => field p 54 1 == 1) s (fun tb _ p k s =>
    if field p 52 2 ≠ 0 then badField k 52 s else deleteEntries tb (fun e => e.key == pkKey p) k s)

/-- CURSOR_IDLE_EXPIRY: idle above CURSOR_MS, and no step under way (R235). -/
def execCursorIdleExpiry (cursor : Fin 4096) (s : State) : Out :=
  match Tbl.get? s.idx.cursors cursor with
  | none => .next s
  | some c =>
    act s (powered s && c.live && c.stepTag.isNone && decide (c.used + 1000 * s.idx.cursorMs < s.now)) (freeCursor cursor)

/-- RESPREAD_MOVE: one entry moves toward the layout; with every entry in its place the respread ends (R238). -/
def respreadStep (tb : Nat) (t : ITable) (s : State) : State :=
  let es := (liveEntries s tb).map Prod.fst
  let done (s : State) : State :=
    { s with idx := { s.idx with tables := Tbl.modify s.idx.tables tb (fun t => { t with respread := false }) } }
  let f := t.size - es.length
  if f = 0 ∨ t.hole = 0 then done s
  else match respreadMove t (spacing t es.length f) es.zipIdx with
    | none => done s
    | some (a, b) => moveEntry tb a b s

/-- RESPREAD_MOVE. -/
def execRespreadMove (table : Fin 256) (s : State) : Out :=
  match Tbl.get? s.idx.tables table with
  | none => .next s
  | some t => act s (powered s && s.idx.enable && t.respread) (respreadStep table t)

/-! ### Table requests (R245) -/

/-- A write to IDX_TBL_CMD that is not discarded: function `fn` reaches the block and BUSY is 0. -/
def tblCmd (fn : Nat) (s : State) (f : State → State) : Out :=
  act s (bar0Answers s fn 0xD024 && s.idx.req.isNone) f

/-- RESULT of IDX_TBL_STS. -/
def tblResult (r : Nat) (s : State) : State := { s with idx := { s.idx with result := r } }

/-- Create a table from IDX_TBL_CFG (log entries 19, 31). -/
def createTable (s : State) : State :=
  match cfgTable s.idx.cfg with
  | none => tblResult 2 s
  | some t =>
    match Tbl.lowestFree s.idx.tables 0 256 with
    | none => tblResult 5 s
    | some tb =>
      match lowestBase s.idx.tables t.size with
      | none => tblResult 3 s
      | some base =>
        let gen := match Tbl.get? s.idx.tblGens tb with
          | none => 1
          | some g => if (g + 1) % 2 ^ 24 = 0 then 1 else (g + 1) % 2 ^ 24
        { s with idx := { s.idx with tables := Tbl.set s.idx.tables tb { t with base := base, gen := gen }
                                     tblGens := Tbl.set s.idx.tblGens tb gen, result := 1
                                     handle := tb + gen * 256 } }

/-- IDX_TABLE_CREATE: OP 1. -/
def execIdxTableCreate (fn : Fin 2) (s : State) : Out := tblCmd fn s createTable

/-- A request that waits for the started commands that name the table. -/
def requestTable (op tb : Nat) (s : State) : State :=
  if !Tbl.has s.idx.tables tb then tblResult 4 s
  else settleTable { s with idx := { s.idx with req := some { op := op, table := tb } } }

/-- IDX_TABLE_DELETE: OP 2. -/
def execIdxTableDelete (fn : Fin 2) (table : Fin 256) (s : State) : Out := tblCmd fn s (requestTable 2 table)

/-- IDX_TABLE_EMPTY: OP 3. -/
def execIdxTableEmpty (fn : Fin 2) (table : Fin 256) (s : State) : Out := tblCmd fn s (requestTable 3 table)

/-! ### Integrity (R246, R247) -/

/-- IDX_SCRUB: a pass over the entries corrected or restored `found` of them. -/
def execIdxScrub (found : Nat) (s : State) : Out :=
  act s (powered s && s.idx.enable) (fun s =>
    { s with idx := { s.idx with corrected := satAdd s.idx.corrected found 0xFFFF } })

/-- INDEX_BANK_FAULT: a physical bank fails. The spare takes its place, loaded from the shadow, in `ns`; without one
standing the bank's indexes are lost to searches until POR (R410). -/
def execIndexBankFault (bank : Fin 17) (ns : Nat) (s : State) : Out :=
  act s (powered s && bit s.idx.bankOk bank) (fun s =>
    let stands := spareStands s.idx.bankOk 16 s.idx.replaces
    let logical := if bank.val = 16 then s.idx.replaces else bank.val
    let s := { s with idx := { s.idx with bankOk := setBit s.idx.bankOk bank false } }
    if bank.val < 16 ∧ stands = true then
      takeover 8 logical 16 ns
        { s with idx := { s.idx with replaces := bank, takeovers := satInc s.idx.takeovers 0xFF } }
    else settleFaults s)

end Sys2Proof.Machine
end

