-- ==== Sys2Proof/Machine/Registers.lean ====
section
/-! DEFINITION. REGISTER_WRITE, the debug access port and its rows (R454, R455, R470, R484 to R494). -/

namespace Sys2Proof.Machine

/-- `v` where `ok` holds, and otherwise what stood there: a value outside a field's range leaves the field (R488). -/
def legal (ok : Prop) [Decidable ok] (v old : Nat) : Nat := if ok then v else old

/-- Bits of `x` that `v` writes as 1 are cleared. -/
def clearBits (x v : Nat) : Nat := x - Nat.land x v

/-- The low or the high word of a 64-bit value is written. -/
def withLo (x v : Nat) : Nat := x / 2 ^ 32 * 2 ^ 32 + v
def withHi (x v : Nat) : Nat := x % 2 ^ 32 + 2 ^ 32 * v

/-! ### GLB, CLK, HIF -/

/-- GLB: the W1C of GLB_RESET_CAUSE, and the address and length of a recovery image (log entry 138). -/
def writeGlb (off v : Nat) (s : State) : State :=
  let g := s.glb
  if off = 0x0C then { s with glb := { g with cause := clearBits g.cause v } }
  else if off = 0x30 then { s with glb := { g with recovAddr := withLo g.recovAddr (v / 4096 * 4096) } }
  else if off = 0x34 then { s with glb := { g with recovAddr := withHi g.recovAddr v } }
  else if off = 0x38 then { s with glb := { g with recovLen := bits v 0 25 } }
  else s

/-- HIF: PAIRED in the dual x4 arrangement, the GPIO pins, and ALLOW, which POLICY may lock (Table 13.5). -/
def writeHif (off v : Nat) (s : State) : State :=
  if off = 0 then (if s.glb.arrangement = 1 then { s with hif := { s.hif with paired := bit v 0 } } else s)
  else if off = 0x40 then { s with hif := { s.hif with gpioOut := bits v 8 4, gpioMode := bits v 0 8 } }
  else if off = 0x104 then
    if bit (policyByte s.otp) 2 then countLocked s else { s with hif := { s.hif with wbAllow := bit v 0 } }
  else s

/-! ### MGR -/

/-- Three weights or caps, each checked by itself. -/
def writeThree (ok : Nat → Bool) (v : Nat) (t : Three) : Three :=
  { engine := legal (ok (bits v 0 10) = true) (bits v 0 10) t.engine
    codec := legal (ok (bits v 10 10) = true) (bits v 10 10) t.codec
    flash := legal (ok (bits v 20 10) = true) (bits v 20 10) t.flash }

/-- A register of the instance in MGR_INST_SEL. -/
def writeSelected (n off v : Nat) (i : Inst) : Inst :=
  if off = 0x20 then (if n = 0 then i else { i with rights := bits v 0 4 })
  else if off = 0x24 then { i with share := { i.share with nextWeight := writeThree (fun x => decide (1 ≤ x)) v i.share.nextWeight } }
  else if off = 0x28 then { i with share := { i.share with nextCap := writeThree (fun x => decide (x ≤ 1000)) v i.share.nextCap } }
  else i

/-- ACCESS of the volume in MGR_VOL_SEL (R349); discarded for one that does not exist. -/
def writeAccess (hi : Bool) (v : Nat) (s : State) : State :=
  let put (a : Nat) : Nat := if hi then withHi a v else withLo a v
  let n := s.mgr.volSel
  match vol? s n with
  | some u => if volServes s n u then modVol n (fun u => { u with access := put u.access }) s else s
  | none =>
    let as := Tbl.modify s.spn.aliases n (fun a => if a.bind && a.bound then { a with access := put a.access } else a)
    { s with spn := { s.spn with aliases := as } }

/-- MGR_LOG_BASE of log `k`, while the log is disabled (R366). -/
def writeLogBase (k : Nat) (hi : Bool) (v : Nat) (s : State) : State :=
  modLog k (fun l => if l.enable then l
    else { l with base := if hi then withHi l.base v else withLo l.base (v / 4096 * 4096) }) s

/-- MGR. -/
def writeMgr (off v : Nat) (s : State) : State :=
  let m := s.mgr
  if off = 0 then { s with mgr := { m with priv := bit v 0 } }
  else if off = 0x10 then { s with mgr := { m with instSel := bits v 0 6 } }
  else if off = 0x1C then writeInstCtl v s
  else if off = 0x20 ∨ off = 0x24 ∨ off = 0x28 then modInst m.instSel (writeSelected m.instSel off v) s
  else if off = 0x40 then { s with mgr := { m with volSel := bits v 0 8 } }
  else if off = 0x44 then writeAccess false v s
  else if off = 0x48 then writeAccess true v s
  else if off = 0x74 then { s with mgr := { m with ack := v } }
  else if 0x200 ≤ off ∧ off < 0x300 then { s with mgr := { m with out := Cells.writeN m.out (off - 0x200) (leBytes 4 v) } }
  else if off = 0x300 then { s with mgr := { m with migAddr := withLo m.migAddr (v / 256 * 256) } }
  else if off = 0x304 then { s with mgr := { m with migAddr := withHi m.migAddr v } }
  else if 0x400 ≤ off ∧ off < 0x480 then
    let k := (off - 0x400) / 32
    if off % 32 = 0 then writeLogCtl k v s
    else if off % 32 = 4 then writeLogBase k false v s
    else if off % 32 = 8 then writeLogBase k true v s
    else s
  else s

/-! ### SCH, BSH, SEC, IDX -/

/-- SCH. -/
def writeSch (off v : Nat) (s : State) : State :=
  let c := s.sch
  if off = 0 then
    let u := bits v 16 8
    let k := bits v 0 5
    { s with sch := { c with sliceUs := legal (5 ≤ u ∧ u ≤ 100) u c.sliceUs, ckptUs := legal (1 ≤ k ∧ k ≤ 16) k c.ckptUs } }
  else if off = 0x30 then { s with sch := { c with ctxSel := bits v 0 12 } }
  else if off = 0x100 then writeTraceCtl v s
  else if off = 0x104 then
    let o := bits v 16 7
    { s with sch := { c with traceOwner := legal (o ≤ 64 ∨ o = 0x7F) o c.traceOwner, traceKinds := bits v 1 15 } }
  else if off = 0x10C then { s with sch := { c with traceRidx := bits v 0 16 } }
  else s

/-- BSH. -/
def writeBsh (off v : Nat) (s : State) : State :=
  if off = 0 then { s with bsh := { s.bsh with enable := bit v 0, deflateEn := bit v 4, zstdEn := bit v 5 } } else s

/-- SEC_CTL: locked whole after the lifecycle lock (R165); POLICY may lock two fields of it. A write that covers a locked field
counts once (R489). -/
def writeSecCtl (v : Nat) (s : State) : State :=
  let p := policyByte s.otp
  if lifecycle s.otp = 2 ∧ s.sec.lock = true then countLocked s
  else
    let s := if bit p 0 || bit p 1 then countLocked s else s
    { s with sec := { s.sec with
      lock := bit v 0
      tenantAttest := if bit p 1 then s.sec.tenantAttest else bit v 1
      progSigReq := if bit p 0 then s.sec.progSigReq else bit v 2 } }

/-- IDX; IDX_TBL_CFG is checked only at a create request (R250). -/
def writeIdx (off v : Nat) (s : State) : State :=
  if off = 0 then
    let ms := bits v 8 8
    { s with idx := { s.idx with cursorMs := legal (1 ≤ ms) ms s.idx.cursorMs, enable := bit v 0 } }
  else if off = 0x20 then
    { s with idx := { s.idx with cfg := pack [(24, 7, bits v 24 7), (20, 3, bits v 20 3), (12, 5, bits v 12 5), (8, 2, bits v 8 2), (0, 6, bits v 0 6)] } }
  else if off = 0x30 then { s with idx := { s.idx with sel := bits v 0 8 } }
  else s

/-! ### CCH, MEM, FLC, DRC -/

/-- CCH. -/
def writeCch (off v : Nat) (s : State) : State :=
  if off = 0 then writeCchCtl v s
  else if off = 8 then writeWayPwr (bits v 0 16) s
  else if 0x10 ≤ off ∧ off < 0x20 then { s with cch := { s.cch with masks := s.cch.masks.set ((off - 0x10) / 4) (bits v 0 16) } }
  else s

/-- MEM. -/
def writeMem (off v : Nat) (s : State) : State :=
  let m := s.mem
  if off = 0 then
    let d := bits v 16 8
    let p := bits v 8 8
    { s with mem := { m with
      dramPeriod := legal (1 ≤ d ∧ d ≤ 240) d m.dramPeriod
      sramPeriod := legal (8 ≤ p) p m.sramPeriod
      dramScrubEn := bit v 1
      sramScrubEn := bit v 0 } }
  else if off = 0x18 then { s with mem := { m with remapSel := legal (bits v 0 11 ≤ 1663) (bits v 0 11) m.remapSel } }
  else if off = 0x30 then { s with mem := { m with injAddr := v } }
  else if off = 0x34 then writeInjCtl v s
  else s

/-- FLC of channel `n`: a 1 in RETRAIN asks for a retraining. -/
def writeFlc (n off v : Nat) (s : State) : State :=
  let put (f : Chan → Chan) : State :=
    let cs := Tbl.set s.flc.channels n (f (Tbl.getD s.flc.channels n resetChan))
    { s with flc := { s.flc with channels := cs } }
  if off = 0 then put (fun c => { c with patrolEn := bit v 0, retrain := c.retrain || bit v 1 })
  else if off = 0x30 then put (fun c => { c with dieSel := bits v 0 4 })
  else s

/-- DRC_CTL. -/
def writeDrc (off v : Nat) (s : State) : State :=
  if off = 0 then { s with drc := { s.drc with
    a := { s.drc.a with retrain := s.drc.a.retrain || bit v 0 }
    b := { s.drc.b with retrain := s.drc.b.retrain || bit v 1 } } }
  else s

/-! ### SPN, PWR, OTP, DBG -/

/-- SPN. -/
def writeSpn (off v : Nat) (s : State) : State :=
  let x := s.spn
  if off = 0 then
    let h := bits v 16 16
    let g := bits v 0 16
    { s with spn := { x with hopLimit := legal (1 ≤ h) h x.hopLimit, graceUs := legal (100 ≤ g) g x.graceUs } }
  else if off = 0x10 then
    let g := bits v 0 16
    { s with spn := { x with gapUs := legal (10 ≤ g ∧ g ≤ 10000) g x.gapUs } }
  else if off = 0x60 then { s with spn := { x with dfltPort := bits v 0 2, dfltAlt := bits v 4 2, dfltValid := bit v 31 } }
  else if 0x100 ≤ off ∧ off < 0x300 then
    let n := (off - 0x100) / 8
    if off % 8 = 0 then { s with spn := { x with ranges := Tbl.set x.ranges n (bits v 0 16, bits v 16 16) } }
    else { s with spn := { x with attrs := Tbl.set x.attrs n (bits v 0 2, bits v 4 2, bit v 31) } }
  else if off = 0x300 then { s with spn := { x with volSel := bits v 0 8 } }
  else if off = 0x308 then modVol x.volSel (fun u => { u with exported := bit v 0 }) s
  else s

/-- The four limits of a PWR_TLIM register, where the write is accepted. -/
def limitsFrom (v : Nat) : Option (List Nat) :=
  let l := [bits v 0 8, bits v 8 8, bits v 16 8, bits v 24 8]
  if bits v 0 8 < bits v 8 8 ∧ bits v 8 8 < bits v 16 8 ∧ bits v 16 8 < bits v 24 8 ∧ bits v 24 8 ≤ 120 then some l else none

/-- PWR_EXT_CFG_k: TYPE 3 is out of range; a sensor of TYPE 0 measures nothing and has no state. -/
def writeExtCfg (k v : Nat) (s : State) : State :=
  let c := Tbl.getD s.pwr.extCfg k (0, 0, 0)
  let t := legal (bits v 0 2 ≤ 2) (bits v 0 2) c.2.2
  let s := { s with pwr := { s.pwr with
    extCfg := Tbl.set s.pwr.extCfg k (bits v 16 16, bits v 4 10, t)
    sensors := if t = 0 then Tbl.erase s.pwr.sensors (12 + k) else s.pwr.sensors } }
  settleFaults (settleShed s)

/-- PWR. -/
def writePwr (off v : Nat) (s : State) : State :=
  let p := s.pwr
  if off = 4 then settleFaults { s with pwr := { p with faultSts := clearBits (faultSts s) v } }
  else if off = 8 then { s with pwr := { p with faultMask := bits v 0 6 } }
  else if off = 0x18 then
    let h := bits v 0 16
    settleWriteBack (holdupOk s) { s with pwr := { p with holdup := legal (h = 0 ∨ 20 ≤ h) h p.holdup } }
  else if off = 0x30 then
    match limitsFrom v with
    | some l => { s with pwr := { p with tlimDie := l } }
    | none => s
  else if 0x60 ≤ off ∧ off < 0x80 then writeExtCfg ((off - 0x60) / 4) v s
  else if 0x80 ≤ off ∧ off < 0xA0 then
    match limitsFrom v with
    | some l => { s with pwr := { p with tlimExt := Tbl.set p.tlimExt ((off - 0x80) / 4) l } }
    | none => s
  else s

/-- OTP_PROG_SEL and OTP_READ_ADDR. -/
def writeOtp (off v : Nat) (s : State) : State :=
  if off = 4 then { s with otp := { s.otp with sel := bits v 0 8 } }
  else if off = 0x18 then { s with otp := { s.otp with readAddr := bits v 2 9 * 4 } }
  else s

/-- DBG_ADDR, which is 4-byte aligned, and DBG_DATA; discarded while the port is closed. -/
def writeDbg (off v : Nat) (s : State) : State :=
  if !dbgOpen s then s
  else if off = 8 then { s with dbg := { s.dbg with addr := withLo s.dbg.addr (legal (v % 4 = 0) v (s.dbg.addr % 2 ^ 32)) } }
  else if off = 0xC then { s with dbg := { s.dbg with addr := withHi s.dbg.addr v } }
  else if off = 0x10 then { s with dbg := { s.dbg with data := v } }
  else s

/-! ### BAR0 and the windows -/

/-- A 4-byte write at an aligned offset of BAR0. A register whose write has a row of its own is written by that row; an offset
that names no register, or one that is read only, discards the write (R487) (log entry 133). -/
def writeReg (off v : Nat) (s : State) : State :=
  let b := blockOf off
  if b = 0 then writeGlb off v s
  else if b = 1 then (if off = 0x1000 then writeRootCtl v s else s)
  else if b = 2 then writeHif (off - 0x2000) v s
  else if b = 3 then writeMgr (off - 0x4000) v s
  else if b = 4 then writeSch (off - 0x8000) v s
  else if b = 5 then writeBsh (off - 0xA000) v s
  else if b = 6 then (if off = 0xC000 then writeSecCtl v s else s)
  else if b = 7 then writeIdx (off - 0xD000) v s
  else if b = 8 then writeCch (off - 0xE000) v s
  else if b = 9 then writeMem (off - 0xF000) v s
  else if b = 10 then writeFlc ((off - 0x10000) / 0x400) (off % 0x400) v s
  else if b = 11 then writeDrc (off - 0x14000) v s
  else if b = 12 then writeSpn (off - 0x16000) v s
  else if b = 13 then writePwr (off - 0x17000) v s
  else if b = 14 then writeOtp (off - 0x18000) v s
  else if b = 15 then writeDbg (off - 0x19000) v s
  else s

/-- The 4-byte writes that an access makes: an aligned access of 4 or 8 bytes, the lower address first; none for any other
size or alignment (R486) (log entry 132). -/
def wordsOf (off : Nat) (data : List Byte) : Option (List (Nat × Nat)) :=
  if data.length = 4 ∧ off % 4 = 0 then some [(off, leNat data)]
  else if data.length = 8 ∧ off % 8 = 0 then some [(off, leNat (data.take 4)), (off + 4, leNat (data.drop 4))]
  else none

/-- A write of BAR0 (log entry 132). -/
def writeBar0 (fn off : Nat) (data : List Byte) (s : State) : State :=
  match wordsOf off data with
  | some ws => ws.foldl (fun s w => if bar0Answers s fn w.1 then writeReg w.1 w.2 s else s) s
  | none => if bar0Answers s fn off then countMalformed s else s

/-- Bytes written to the task slots of an instance: those of a busy tag's slot are discarded (R41). -/
def writeSlots (n off : Nat) (data : List Byte) (s : State) : State :=
  (data.zipIdx).foldl (fun s b =>
    let a := off + b.2
    if Tbl.has s.tags (tagKey n (a / 64)) then s else modInst n (fun i => { i with slots := Cells.write i.slots a b.1 }) s) s

/-- Bytes written to the tenant-to-manager area: discarded while a note is under way (R353). -/
def writeMail (n off : Nat) (data : List Byte) (s : State) : State :=
  if noteBusy s n then s
  else modInst n (fun i => { i with mbox := { i.mbox with out := Cells.writeN i.mbox.out off (data.take (256 - off)) } }) s

/-- TW_IRQ_CTL; SL_IRQ has ENABLE alone. -/
def writeIrq (n v : Nat) (s : State) : State :=
  modInst n (fun i => { i with ring :=
    if i.slice then { i.ring with irqEnable := bit v 31 }
    else { i.ring with irqEnable := bit v 31, coalTime := bits v 16 12, coalCount := bits v 8 8 } }) s

/-- Do writes of a wrong size to the post register have their own row and count nowhere (R38, R373)? -/
def isPost (slice : Bool) (off len : Nat) : Bool :=
  if slice then decide (0x7FD ≤ off + len - 1 ∧ off < 0x804 ∧ 0x800 < off + len) else decide (off < 0x4008 ∧ 0x4000 < off + len)

/-- A write of the window of instance `n`, at an offset in the window. -/
def writeWindow (slice : Bool) (n off : Nat) (data : List Byte) (s : State) : State :=
  let mail := if slice then 0xC00 else 0x5000
  if off < (if slice then 0x800 else 0x4000) then
    writeSlots n off (data.take ((if slice then 0x800 else 0x4000) - off)) s
  else if mail ≤ off ∧ off < mail + 0x100 then writeMail n (off - mail) data s
  else if mail + 0x100 ≤ off ∧ off < mail + 0x200 then s
  else match wordsOf off data with
    | some ws => ws.foldl (fun s w => if w.1 = (if slice then 0x830 else 0x6000) then writeIrq n w.2 s else s) s
    | none => if isPost slice off data.length then s else countMalformed s

/-- A write of the MSI-X table of a function: aligned, of 4 or 8 bytes (log entry 147). -/
def writeMsix (fn off : Nat) (data : List Byte) (s : State) : State :=
  if (wordsOf off data).isNone then s
  else if fn = 0 then { s with hif := { s.hif with msixTable0 := Cells.writeN s.hif.msixTable0 off data } }
  else { s with hif := { s.hif with msixTable1 := Cells.writeN s.hif.msixTable1 off data } }

/-- REGISTER_WRITE: a write of `data` at offset `off` of BAR0, BAR2 (`bar` 1) or BAR4 (`bar` 2) of a function
(log entry 133). -/
def execRegisterWrite (fn : Fin 2) (bar : Fin 3) (off : Nat) (data : List Byte) (s : State) : Out :=
  if bar.val = 0 then .next (writeBar0 fn off data s)
  else if bar.val = 1 then
    match nativeAt s fn (off / 0x10000) with
    | some _ => .next (writeWindow false (off / 0x10000) (off % 0x10000) data s)
    | none => .next s
  else if off < 0x10000 then
    match sliceAt s fn (off / 0x1000) with
    | some (n, _) => .next (writeWindow true n (off % 0x1000) data s)
    | none => .next s
  else act s (windowsAnswer s fn && decide (off < 0x18000)) (writeMsix fn (off - 0x10000) data)

/-! ### The debug access port (R454, R455) -/

/-- Does the open scope reach a target of DBG_CTL: MEMORY for SRAM and DRAM, REGS for BAR0, TRACE for the trace ring? -/
def dbgReaches (s : State) (target : Nat) : Bool :=
  dbgOpen s && (if target < 3 then bit (dbgScope s) 1 else if target = 3 then bit (dbgScope s) 3
    else target == 4 && bit (dbgScope s) 4)

/-- Does the source reach the DBG block: a function through BAR0, or (2) the debug access port itself? -/
def dbgFrom (s : State) (src : Nat) : Bool := if src = 2 then powered s else bar0Answers s src 0x19004

/-- Byte address in the Firkin of the engine in [63:56]. -/
def dbgFirkin (a : Nat) : Nat × Nat := (a / 2 ^ 56 % 256, a % 2 ^ 56)

/-- A byte of DRAM by its logical address: from the write buffer where it waits there, and otherwise from the side that a
read turns to, as its decoder gives it. -/
def dramByte (s : State) (a : Nat) : Byte :=
  match s.cch.wbuf.find? (fun e => e.line == a / 128 && e.enables.contains (a % 128)) with
  | some e => Cells.read e.bytes (a % 128)
  | none => let (b, off, _) := dramPlace s a; (decoded s b off).getD (off % 64) 0

/-- The word of a target at DBG_ADDR (log entry 131). -/
def dbgWord (s : State) (src target a : Nat) : Nat :=
  if target = 0 then wordAt s.mem.hog a
  else if target = 1 then (let f := dbgFirkin a; if f.1 < 36 ∧ f.2 < 2 ^ 19 then wordAt s.mem.firkin (2 ^ 19 * f.1 + f.2) else 0)
  else if target = 2 then leNat ((List.range 4).map (fun i => dramByte s (a + i)))
  else if target = 3 then readReg s src a
  else field (bytesAt (Tbl.getD s.sch.trace (a / 16 % 65536) []) 0 16) (a % 16) 4

/-- The side effects of a register read (R490) (log entry 131). -/
def readEffect (src a : Nat) (s : State) : State :=
  if a = 0x811C then { s with sch := { s.sch with traceRidx := (s.sch.traceRidx + 1) % 65536 } }
  else if src = 2 then s
  else if a = 0x20 then modLatch src (fun l => { l with seqHi := bits s.glb.seq 32 16 }) s
  else if a = 0x28 then modLatch src (fun l => { l with timeHi := bits s.now 32 32 }) s
  else if a = 0x30 then modLatch src (fun l => { l with recovHi := bits s.glb.recovAddr 32 32 }) s
  else s

/-- DBG_READ: OP 1 of DBG_CTL reads the word at DBG_ADDR into DBG_DATA. -/
def execDbgRead (src : Fin 3) (target : Fin 8) (s : State) : Out :=
  act s (dbgFrom s src && dbgReaches s target) (fun s =>
    let a := s.dbg.addr
    let w := dbgWord s src target a
    let s := if target.val = 3 then readEffect src a (bumpFresh s) else s
    { s with dbg := { s.dbg with data := w } })

/-- The word of DBG_DATA goes to a target. Trace records are exported, not written (log entry 131). -/
def dbgStore (src target a v : Nat) (s : State) : State :=
  let bs := (leBytes 4 v).zipIdx
  if target = 0 then bs.foldl (fun s b => if a + b.2 < 2 ^ 25 then hogStore (a + b.2) b.1 s else s) s
  else if target = 1 then
    (let f := dbgFirkin a; if f.1 < 36 ∧ f.2 < 2 ^ 19 then bs.foldl (fun s b => firkinStore f.1 (f.2 + b.2) b.1 s) s else s)
  else if target = 2 then bs.foldl (fun s b => dramStore (a + b.2) b.1 s) s
  else if target = 3 then (if src = 2 ∨ bar0Answers s src a = true then writeReg a v s else s)
  else s

/-- DBG_WRITE: OP 2 of DBG_CTL writes DBG_DATA to the word at DBG_ADDR. -/
def execDbgWrite (src : Fin 3) (target : Fin 8) (s : State) : Out :=
  act s (dbgFrom s src && dbgReaches s target) (fun s => dbgStore src target s.dbg.addr s.dbg.data s)

/-- Which registers the debug access port reaches: the DBG block while it is open (R454), and the unlock registers, by which it
is opened, in every state but SCRAPPED (R470) (log entry 131). -/
def dapReaches (s : State) (off : Nat) : Bool :=
  let unlock := decide (0xC040 ≤ off ∧ off ≤ 0xC058)
  !(lifecycle s.otp == 7) && (unlock || (dbgOpen s && blockOf off == 15))

/-- DAP: JTAG reaches the debug access port. A write of DBG_CTL, SEC_UNLOCK_DATA or SEC_UNLOCK_CTL has a row of its own
(log entries 131, 136). -/
def execDap (write : Bool) (off : Nat) (value : BitVec 32) (s : State) : Out :=
  let s := { s with hif := { s.hif with jtagIr := 0x20 } }
  act s (powered s && decide (off % 4 = 0) && dapReaches s off) (fun s =>
    if write then (if blockOf off = 15 then writeDbg (off - 0x19000) value.toNat s else s)
    else { s with hif := { s.hif with jtagOut := readReg s 2 off } })

end Sys2Proof.Machine
end

