-- ==== Sys2Proof/Machine/Start.lean ====
section
/-! DEFINITION. The start of a queued command, the grant of its range lock, ABORT, and the safe point of a caught command
(R46, R49, R58 to R62, R69 to R72, R360). -/

namespace Sys2Proof.Machine

/-! ### Which queued command may start (R49, R60, R360, R414, R441) -/

/-- Commands in flight across the device: those that a command task has started (log entry 118). -/
def inFlight (s : State) : Nat := Tbl.countIf s.tags (fun _ t => t.started)

/-- Does an earlier command of its instance hold `t` back (R60)? With ORDERED, `t` waits for every earlier command to have
replied, and one aborted while QUEUED counts as having replied; and nothing passes an ORDERED command that has not started
(log entry 120). -/
def orderHolds (s : State) (n : Nat) (t : Tag) : Bool :=
  (busyOf s n).any (fun p =>
    let op := pkOpcode p.2.packet
    decide (p.2.order < t.order) &&
      ((pkOrdered t.packet && !(p.2.st == .done && !p.2.started && !(op == opAbort)))
        || (pkOrdered p.2.packet && p.2.st == .queued && !(op == opAbort))))

/-- Does another command hold an opcode of R49 back, or an FW_ACTIVATE an FW_STAGE posted after it (R414)? -/
def soleHolds (s : State) (t : Tag) : Bool :=
  let op := pkOpcode t.packet
  (soleOps.contains op && s.tags.any (fun p => p.2.started && soleOps.contains (pkOpcode p.2.packet)))
  || (op == opFwStage && s.tags.any (fun p => pkOpcode p.2.packet == opFwActivate && decide (p.2.order < t.order)))

/-- May the queued command `k` start as far as its own rules go? Before READY only the opcodes of R441 start
(log entry 119). -/
def mayStart (s : State) (k : Nat) (t : Tag) : Bool :=
  t.st == .queued && !(pkOpcode t.packet == opAbort) && (s.glb.stage == 8 || earlyOps.contains (pkOpcode t.packet))
    && !orderHolds s (keyInst k) t && !soleHolds s t && !abortComing s k

/-- Does the device start commands: it serves, no activation switch holds them (R75), no DEVICE_RESET is under way, and the
device is not CRITICAL (Table 12.7)? (log entry 119) -/
def startsCommands (s : State) : Bool :=
  serving s && !s.sch.hold && s.glb.resetTag.isNone && decide (deviceThermal s < 4) && decide (inFlight s < 8192)

/-- The instance that the round robin of R360 served last (log entry 118). -/
def lastStarted (s : State) : Nat × Nat :=
  s.insts.foldl (fun a p => if a.2 < p.2.ring.served then (p.1, p.2.ring.served) else a) (63, 0)

/-- The command that takes the last free command context (R360): of the instance with the greatest ENGINE credit, round robin
when none has credit left, and within it the first accepted (log entry 118). -/
def nextStart (s : State) : Option Nat :=
  let c := s.tags.filter (fun p => mayStart s p.1 p.2)
  let n := chosenOwner s (c.map (fun p => keyInst p.1)) (lastStarted s).1
  ((c.filter (fun p => keyInst p.1 == n)).foldl (fun a p =>
    match a with
    | some (q : Nat × Tag) => if p.2.order < q.2.order then some p else a
    | none => some p) none).map Prod.fst

/-- May command `k` start now? While contexts are plenty, every command that may start has one. -/
def startsNow (s : State) (k : Nat) (t : Tag) : Bool :=
  startsCommands s && mayStart s k t && (decide (inFlight s + 1 < 8192) || nextStart s == some k)

/-! ### The start (R46, R174, R297) -/

/-- A write to a volume of this device while it is READ_ONLY (R297). -/
def readOnlyWrong (s : State) (p : List Byte) : Bool :=
  s.flc.readOnly && exclusiveOps.contains (pkOpcode p) && (vol? s (pkVolume p)).isSome

/-- A command that has passed its checks: forwarded to the home of its volume, or asking for its range lock. -/
def beginWork (n k : Nat) (t : Tag) (s : State) : State :=
  match (if lockOps.contains (pkOpcode t.packet) then homeOf s (pkVolume t.packet) else none) with
  | some h => forward k n t.packet h.1 h.2 s
  | none => requestLock k (locksAtStart s k t) s

/-- A command task takes the command: it is bound (R174), and the checks run (log entry 116). -/
def startCommand (n k handle base : Nat) (i : Inst) (t : Tag) (s : State) : State :=
  let failed := failedCheck s n i t
  let uses := usesOf s n t.packet
  let s := modRing n (fun r => { r with served := (lastStarted s).2 + 1 })
    { s with sch := { s.sch with bindings := Tbl.set s.sch.bindings k { handle := handle, base := base } } }
  let s := modTag k (fun t => { t with started := true, st := .running, uses := uses }) s
  match failed with
  | some r => finish k r s
  | none => if readOnlyWrong s t.packet then finishWith k stReadOnly 0 0 s else beginWork n k t s

/-- COMMAND_START: the task of `handle` takes the command with flag base `base` (log entry 116). -/
def execCommandStart (inst : Fin 64) (tag : Fin 256) (handle : BitVec 20) (base : Fin 32) (s : State) : Out :=
  let k := tagKey inst tag
  match Tbl.get? s.tags k, Tbl.get? s.insts inst with
  | some t, some i => act s (startsNow s k t) (startCommand inst k handle.toNat base i t)
  | _, _ => .next s

/-- Does the lock owner `k` still wait to run: a RUNNING command, or a request served for another device? -/
def lockOwnerRuns (s : State) (k : Nat) : Bool := (Tbl.get? s.tags k).elim (decide (16384 ≤ k)) (fun t => t.st == .running)

/-- RANGE_LOCK_GRANT: no conflict remains, and an entry is free (R62). -/
def execRangeLockGrant (owner : Nat) (s : State) : Out :=
  act s (serving s && lockOwnerRuns s owner && lockGrantable s owner) (grantLock owner)

/-! ### ABORT (R69 to R72) -/

/-- The target of an ABORT is caught: it ends at once while QUEUED, its decided reply is replaced while DONE, and otherwise it
stops at its next safe point (log entry 122). -/
def catchTarget (j : Nat) (u : Tag) (s : State) : State :=
  let op := pkOpcode u.packet
  match u.st with
  | .queued => finish j (cutReply stAborted u) s
  | .running | .held =>
    let s := modTag j (fun u => { u with st := .stopping }) s
    if u.work = .forwarded then cancelXact j s else if u.work = .note then dropNote j s else s
  | .stopping => s
  | .done =>
    if u.reply.status = stAborted then s
    else
      let s := modTag j (fun u => { u with reply := caughtReply op u.reply }) s
      if (op == opCodec || op == opCodecResume) && u.started then putCtx (keyInst j) (pkContext u.packet) none s else s

/-- What an ABORT decides about the tag it names (R69, R70) (log entries 121, 124). -/
def examine (n k : Nat) (t : Tag) (s : State) : State :=
  let target := field t.packet 36 2
  let j := tagKey n target
  if j = k then badField k 36 s
  else match (if target < 256 then Tbl.get? s.tags j else none) with
    | none => finishWith k stTagIdle 0 0 s
    | some u =>
      let after (s : State) : State := modTag k (fun t => { t with after := some j }) s
      if u.seq ≠ field t.packet 40 4 then finishWith k stTagIdle 0 0 s
      else if unabortableOps.contains (pkOpcode u.packet) then finishWith k stNotPermitted u.seq 0 s
      else if u.st = .done ∧ u.reply.status = stAbortedByReset then after (finishWith k stAbortMissed u.seq 0 s)
      else after (finishWith k stAbortCaught u.seq 0 (catchTarget j u s))

/-- ABORT: examined at its acceptance, before anything else reaches its target. -/
def execAbort (inst : Fin 64) (tag : Fin 256) (s : State) : Out :=
  let k := tagKey inst tag
  match Tbl.get? s.tags k, Tbl.get? s.insts inst with
  | some t, some i =>
    act s (powered s && t.st == .queued && pkOpcode t.packet == opAbort) (fun s =>
      match failedCheck s inst i t with
      | some r => finish k r s
      | none => examine inst k t s)
  | _, _ => .next s

/-- A caught WRITE, TRIM or INSTALL_CHUNK stops with the first `units` atomic units of its range written (R64, R72). -/
def stopWrite (n units : Nat) (p : List Byte) (k : Nat) (s : State) : State :=
  let op := pkOpcode p
  if op = opWrite then writeDone n stAborted (writeOutcome s k (pkVolume p) (pkLba p) (pkLength p) stAborted units).2 p k s
  else if op = opTrim then trimDone n stAborted units p k s
  else installDone n stAborted units [] p k s

/-- Does the safe point of a caught command come with this row? A forwarded command ends with its RESP (R395), one whose groups
are not yet durable with them (log entry 123). -/
def stopsHere (t : Tag) : Bool := !(t.work == .forwarded) && !(t.work == .durable)

/-- A caught command reaches its safe point (log entry 123). -/
def stopCommand (n k units : Nat) (t : Tag) (s : State) : State :=
  if t.work = .mirror then finish k t.reply (freeWaits k s)
  else if t.work = .working ∧ prefixOps.contains (pkOpcode t.packet) = true ∧ lockHeld s k = true then stopWrite n units t.packet k s
  else finish k (cutReply stAborted t) (dropWork k t s)

/-- STOPPED: `units` are the atomic units that a write had committed (log entry 123). -/
def execStopped (inst : Fin 64) (tag : Fin 256) (units : Nat) (s : State) : Out :=
  let k := tagKey inst tag
  match Tbl.get? s.tags k with
  | some t => act s (powered s && t.st == .stopping && stopsHere t) (stopCommand inst k units t)
  | none => .next s

end Sys2Proof.Machine
end

