-- ==== Sys2Proof/Machine/Dispatch.lean ====
section
/-! DEFINITION. One arm for each command: a direct call of its meaning. -/

namespace Sys2Proof.Machine

/-- What a command does to everything but the queue. -/
def exec (i : Instr) (s : State) : Host.Outcome State Fault Refusal :=
  match i with
  | .twPost fn inst off size value => Sys2Proof.Machine.execTwPost fn inst off size value s
  | .slPost fn win off size value => Sys2Proof.Machine.execSlPost fn win off size value s
  | .twRingCfgWrite fn slice win value => Sys2Proof.Machine.execTwRingCfgWrite fn slice win value s
  | .twRingBaseWrite fn slice win hi value => Sys2Proof.Machine.execTwRingBaseWrite fn slice win hi value s
  | .twRingHeadWrite fn target n value => Sys2Proof.Machine.execTwRingHeadWrite fn target n value s
  | .twIrqStsClear fn inst => Sys2Proof.Machine.execTwIrqStsClear fn inst s
  | .coalTimeExpiry inst => Sys2Proof.Machine.execCoalTimeExpiry inst s
  | .twMboxDb fn slice win word => Sys2Proof.Machine.execTwMboxDb fn slice win word s
  | .registerWrite fn bar off data => Sys2Proof.Machine.execRegisterWrite fn bar off data s
  | .glbSeqLoRead fn => Sys2Proof.Machine.execGlbSeqLoRead fn s
  | .glbTimeLoRead fn => Sys2Proof.Machine.execGlbTimeLoRead fn s
  | .glbRecovAddrLoRead fn => Sys2Proof.Machine.execGlbRecovAddrLoRead fn s
  | .schTraceData3Read fn => Sys2Proof.Machine.execSchTraceData3Read fn s
  | .traceClear fn value => Sys2Proof.Machine.execTraceClear fn value s
  | .commandStart inst tag handle base => Sys2Proof.Machine.execCommandStart inst tag handle base s
  | .rangeLockGrant owner => Sys2Proof.Machine.execRangeLockGrant owner s
  | .replyCommit inst tag => Sys2Proof.Machine.execReplyCommit inst tag s
  | .eventWrite inst => Sys2Proof.Machine.execEventWrite inst s
  | .stopped inst tag units => Sys2Proof.Machine.execStopped inst tag units s
  | .read inst tag lost crcFail => Sys2Proof.Machine.execRead inst tag lost crcFail s
  | .write inst tag outcome units => Sys2Proof.Machine.execWrite inst tag outcome units s
  | .readAsset inst tag lost crcFail again => Sys2Proof.Machine.execReadAsset inst tag lost crcFail again s
  | .installChunk inst tag outcome units lost => Sys2Proof.Machine.execInstallChunk inst tag outcome units lost s
  | .flush inst tag => Sys2Proof.Machine.execFlush inst tag s
  | .trim inst tag fault units => Sys2Proof.Machine.execTrim inst tag fault units s
  | .verify inst tag lost crcFail => Sys2Proof.Machine.execVerify inst tag lost crcFail s
  | .scan inst tag lost crcFail again => Sys2Proof.Machine.execScan inst tag lost crcFail again s
  | .indexSearch inst tag err => Sys2Proof.Machine.execIndexSearch inst tag err s
  | .indexInsert inst tag => Sys2Proof.Machine.execIndexInsert inst tag s
  | .indexDeleteEntry inst tag => Sys2Proof.Machine.execIndexDeleteEntry inst tag s
  | .indexDeleteKey inst tag => Sys2Proof.Machine.execIndexDeleteKey inst tag s
  | .indexStep inst tag err => Sys2Proof.Machine.execIndexStep inst tag err s
  | .programLoad inst tag => Sys2Proof.Machine.execProgramLoad inst tag s
  | .programUnload inst tag => Sys2Proof.Machine.execProgramUnload inst tag s
  | .codecDecompress inst tag => Sys2Proof.Machine.execCodecDecompress inst tag s
  | .codecCompress inst tag => Sys2Proof.Machine.execCodecCompress inst tag s
  | .codecResume inst tag => Sys2Proof.Machine.execCodecResume inst tag s
  | .codecSave inst tag => Sys2Proof.Machine.execCodecSave inst tag s
  | .codecRestore inst tag => Sys2Proof.Machine.execCodecRestore inst tag s
  | .abort inst tag => Sys2Proof.Machine.execAbort inst tag s
  | .mailboxNote inst tag => Sys2Proof.Machine.execMailboxNote inst tag s
  | .licenseLoad inst tag => Sys2Proof.Machine.execLicenseLoad inst tag s
  | .revocationListLoad inst tag => Sys2Proof.Machine.execRevocationListLoad inst tag s
  | .licenseDrop inst tag => Sys2Proof.Machine.execLicenseDrop inst tag s
  | .sealOpen inst tag => Sys2Proof.Machine.execSealOpen inst tag s
  | .sealClose inst tag => Sys2Proof.Machine.execSealClose inst tag s
  | .attest inst tag => Sys2Proof.Machine.execAttest inst tag s
  | .logRead inst tag => Sys2Proof.Machine.execLogRead inst tag s
  | .featureSet inst tag => Sys2Proof.Machine.execFeatureSet inst tag s
  | .featureGet inst tag => Sys2Proof.Machine.execFeatureGet inst tag s
  | .fwStage inst tag => Sys2Proof.Machine.execFwStage inst tag s
  | .fwActivate inst tag accepts => Sys2Proof.Machine.execFwActivate inst tag accepts s
  | .activationSwitch => Sys2Proof.Machine.execActivationSwitch s
  | .activationSwitchEnd pause => Sys2Proof.Machine.execActivationSwitchEnd pause s
  | .instanceCreate inst tag => Sys2Proof.Machine.execInstanceCreate inst tag s
  | .instanceDestroy inst tag => Sys2Proof.Machine.execInstanceDestroy inst tag s
  | .instanceReset inst tag => Sys2Proof.Machine.execInstanceReset inst tag s
  | .volumeCreate inst tag => Sys2Proof.Machine.execVolumeCreate inst tag s
  | .volumeDelete inst tag => Sys2Proof.Machine.execVolumeDelete inst tag s
  | .spanJoin inst tag => Sys2Proof.Machine.execSpanJoin inst tag s
  | .spanLeave inst tag => Sys2Proof.Machine.execSpanLeave inst tag s
  | .spanMirrorSet inst tag => Sys2Proof.Machine.execSpanMirrorSet inst tag s
  | .sanitizeCryptographicErase inst tag w => Sys2Proof.Machine.execSanitizeCryptographicErase inst tag w s
  | .sanitizeBlockErase inst tag sbs w => Sys2Proof.Machine.execSanitizeBlockErase inst tag sbs w s
  | .sanitizeOverwrite inst tag sbs w => Sys2Proof.Machine.execSanitizeOverwrite inst tag sbs w s
  | .deviceReset inst tag => Sys2Proof.Machine.execDeviceReset inst tag s
  | .spanDeadline inst tag => Sys2Proof.Machine.execSpanDeadline inst tag s
  | .hostReadError inst tag what units => Sys2Proof.Machine.execHostReadError inst tag what units s
  | .stageUnitDone inst tag unit lane len outcome by_ ns => Sys2Proof.Machine.execStageUnitDone inst tag unit lane len outcome by_ ns s
  | .laneFault pool lane by_ ns => Sys2Proof.Machine.execLaneFault pool lane by_ ns s
  | .shaLaneFault lane by_ ns => Sys2Proof.Machine.execShaLaneFault lane by_ ns s
  | .pkEngineFault engine ns => Sys2Proof.Machine.execPkEngineFault engine ns s
  | .softDecoderFault decoder by_ ns => Sys2Proof.Machine.execSoftDecoderFault decoder by_ ns s
  | .post source handle inst tag flag => Sys2Proof.Machine.execPost source handle inst tag flag s
  | .eventQueueStall source handle inst tag flag cycles => Sys2Proof.Machine.execEventQueueStall source handle inst tag flag cycles s
  | .spawn ctx prio owner damzu program wait spawner => Sys2Proof.Machine.execSpawn ctx prio owner damzu program wait spawner s
  | .dispatch engine => Sys2Proof.Machine.execDispatch engine s
  | .preemption engine lines effects => Sys2Proof.Machine.execPreemption engine lines effects s
  | .sliceExpiry engine lines effects => Sys2Proof.Machine.execSliceExpiry engine lines effects s
  | .wait_ engine mask all lines effects => Sys2Proof.Machine.execWait engine mask all lines effects s
  | .yield engine lines effects => Sys2Proof.Machine.execYield engine lines effects s
  | .exit_ engine code lines effects => Sys2Proof.Machine.execExit engine code lines effects s
  | .cancel handle owner => Sys2Proof.Machine.execCancel handle owner s
  | .engineStopped engine => Sys2Proof.Machine.execEngineStopped engine s
  | .checkpointInterval engine lines effects => Sys2Proof.Machine.execCheckpointInterval engine lines effects s
  | .checkpointApplyDone engine => Sys2Proof.Machine.execCheckpointApplyDone engine s
  | .engineFault engine ns => Sys2Proof.Machine.execEngineFault engine ns s
  | .epoch uses => Sys2Proof.Machine.execEpoch uses s
  | .recordEntry worker inst tag n => Sys2Proof.Machine.execRecordEntry worker inst tag n s
  | .add worker d a b => Sys2Proof.Machine.execAdd worker d a b s
  | .sub worker d a b => Sys2Proof.Machine.execSub worker d a b s
  | .mul worker d a b => Sys2Proof.Machine.execMul worker d a b s
  | .and_ worker d a b => Sys2Proof.Machine.execAnd worker d a b s
  | .or_ worker d a b => Sys2Proof.Machine.execOr worker d a b s
  | .xor worker d a b => Sys2Proof.Machine.execXor worker d a b s
  | .shl worker d a b => Sys2Proof.Machine.execShl worker d a b s
  | .shr worker d a b => Sys2Proof.Machine.execShr worker d a b s
  | .sltu worker d a b => Sys2Proof.Machine.execSltu worker d a b s
  | .seq worker d a b => Sys2Proof.Machine.execSeq worker d a b s
  | .ctz worker d a => Sys2Proof.Machine.execCtz worker d a s
  | .popc worker d a => Sys2Proof.Machine.execPopc worker d a s
  | .addi worker d a imm => Sys2Proof.Machine.execAddi worker d a imm s
  | .andi worker d a imm => Sys2Proof.Machine.execAndi worker d a imm s
  | .ori worker d a imm => Sys2Proof.Machine.execOri worker d a imm s
  | .shli worker d a imm => Sys2Proof.Machine.execShli worker d a imm s
  | .shri worker d a imm => Sys2Proof.Machine.execShri worker d a imm s
  | .sltui worker d a imm => Sys2Proof.Machine.execSltui worker d a imm s
  | .seqi worker d a imm => Sys2Proof.Machine.execSeqi worker d a imm s
  | .movh worker d imm => Sys2Proof.Machine.execMovh worker d imm s
  | .bswap worker d a n => Sys2Proof.Machine.execBswap worker d a n s
  | .ldr worker d a sz off => Sys2Proof.Machine.execLdr worker d a sz off s
  | .ldk worker d a sz off => Sys2Proof.Machine.execLdk worker d a sz off s
  | .lds worker d a sz off => Sys2Proof.Machine.execLds worker d a sz off s
  | .sts worker d a sz off => Sys2Proof.Machine.execSts worker d a sz off s
  | .vldr worker vd a off => Sys2Proof.Machine.execVldr worker vd a off s
  | .vldk worker vd a off => Sys2Proof.Machine.execVldk worker vd a off s
  | .vlds worker vd a off => Sys2Proof.Machine.execVlds worker vd a off s
  | .vsts worker vd a off => Sys2Proof.Machine.execVsts worker vd a off s
  | .vcmpeq worker vd va vb => Sys2Proof.Machine.execVcmpeq worker vd va vb s
  | .vcmpgtu worker vd va vb => Sys2Proof.Machine.execVcmpgtu worker vd va vb s
  | .vand worker vd va vb => Sys2Proof.Machine.execVand worker vd va vb s
  | .vor worker vd va vb => Sys2Proof.Machine.execVor worker vd va vb s
  | .vxor worker vd va vb => Sys2Proof.Machine.execVxor worker vd va vb s
  | .vsplat worker vd a => Sys2Proof.Machine.execVsplat worker vd a s
  | .vmask worker d va => Sys2Proof.Machine.execVmask worker d va s
  | .beq worker a b off => Sys2Proof.Machine.execBeq worker a b off s
  | .bne worker a b off => Sys2Proof.Machine.execBne worker a b off s
  | .bltu worker a b off => Sys2Proof.Machine.execBltu worker a b off s
  | .bgeu worker a b off => Sys2Proof.Machine.execBgeu worker a b off s
  | .loop worker c body mx => Sys2Proof.Machine.execLoop worker c body mx s
  | .lidx worker d level => Sys2Proof.Machine.execLidx worker d level s
  | .emitr worker a b => Sys2Proof.Machine.execEmitr worker a b s
  | .emits worker a b => Sys2Proof.Machine.execEmits worker a b s
  | .emitg worker a sz => Sys2Proof.Machine.execEmitg worker a sz s
  | .cnt worker a k => Sys2Proof.Machine.execCnt worker a k s
  | .idxs worker d va slot => Sys2Proof.Machine.execIdxs worker d va slot s
  | .trap worker code => Sys2Proof.Machine.execTrap worker code s
  | .end_ worker => Sys2Proof.Machine.execEnd worker s
  | .cursorIdleExpiry cursor => Sys2Proof.Machine.execCursorIdleExpiry cursor s
  | .respreadMove table => Sys2Proof.Machine.execRespreadMove table s
  | .idxTableCreate fn => Sys2Proof.Machine.execIdxTableCreate fn s
  | .idxTableDelete fn table => Sys2Proof.Machine.execIdxTableDelete fn table s
  | .idxTableEmpty fn table => Sys2Proof.Machine.execIdxTableEmpty fn table s
  | .idxScrub found => Sys2Proof.Machine.execIdxScrub found s
  | .indexBankFault bank ns => Sys2Proof.Machine.execIndexBankFault bank ns s
  | .pageReadDone die block cws weak offset lost gc => Sys2Proof.Machine.execPageReadDone die block cws weak offset lost gc s
  | .programDone sb die block slc closes pass src wbFree denseFree => Sys2Proof.Machine.execProgramDone sb die block slc closes pass src wbFree denseFree s
  | .eraseDone sb die block pass wbFree denseFree => Sys2Proof.Machine.execEraseDone sb die block pass wbFree denseFree s
  | .journalPageDurable n => Sys2Proof.Machine.execJournalPageDurable n s
  | .gcSelect sb => Sys2Proof.Machine.execGcSelect sb s
  | .gcCopyVerified sb vol allot dst => Sys2Proof.Machine.execGcCopyVerified sb vol allot dst s
  | .gcEraseSource sb => Sys2Proof.Machine.execGcEraseSource sb s
  | .mapSegmentWrite seg => Sys2Proof.Machine.execMapSegmentWrite seg s
  | .patrolRead die block cws weak offset lost parity last => Sys2Proof.Machine.execPatrolRead die block cws weak offset lost parity last s
  | .refresh sb die block dst allots => Sys2Proof.Machine.execRefresh sb die block dst allots s
  | .wearLevelMove sb => Sys2Proof.Machine.execWearLevelMove sb s
  | .dieTimeout die ns => Sys2Proof.Machine.execDieTimeout die ns s
  | .rebuildDone die => Sys2Proof.Machine.execRebuildDone die s
  | .channelLost ch ns => Sys2Proof.Machine.execChannelLost ch ns s
  | .evacuate fn ch ends => Sys2Proof.Machine.execEvacuate fn ch ends s
  | .release fn ch => Sys2Proof.Machine.execRelease fn ch s
  | .inserted fn ch ends trained rate dies refused => Sys2Proof.Machine.execInserted fn ch ends trained rate dies refused s
  | .sramScrub target first len nature hard pass => Sys2Proof.Machine.execSramScrub target first len nature hard pass s
  | .dramScrub sideB first count nature pass => Sys2Proof.Machine.execDramScrub sideB first count nature pass s
  | .hogsheadBankReplace unit reason unreadable ns => Sys2Proof.Machine.execHogsheadBankReplace unit reason unreadable ns s
  | .firkinLineRemap engine line ns => Sys2Proof.Machine.execFirkinLineRemap engine line ns s
  | .dramSideFail sideB reason dropped ns => Sys2Proof.Machine.execDramSideFail sideB reason dropped ns s
  | .cacheFill reads line nature => Sys2Proof.Machine.execCacheFill reads line nature s
  | .prefetch cls line nature => Sys2Proof.Machine.execPrefetch cls line nature s
  | .writeBufferDrain nature => Sys2Proof.Machine.execWriteBufferDrain nature s
  | .cacheDisable fn value => Sys2Proof.Machine.execCacheDisable fn value s
  | .cacheEnable fn value => Sys2Proof.Machine.execCacheEnable fn value s
  | .cchWayPwrWrite fn value => Sys2Proof.Machine.execCchWayPwrWrite fn value s
  | .cacheWayFault way ns => Sys2Proof.Machine.execCacheWayFault way ns s
  | .memInjArm fn value => Sys2Proof.Machine.execMemInjArm fn value s
  | .drainSet fn value => Sys2Proof.Machine.execDrainSet fn value s
  | .drainCleared fn value => Sys2Proof.Machine.execDrainCleared fn value s
  | .mgrInstCtlPortWrite fn value => Sys2Proof.Machine.execMgrInstCtlPortWrite fn value s
  | .ack fn => Sys2Proof.Machine.execAck fn s
  | .send fn len => Sys2Proof.Machine.execSend fn len s
  | .exportInst fn hostError => Sys2Proof.Machine.execExport fn hostError s
  | .importInst fn hostError => Sys2Proof.Machine.execImport fn hostError s
  | .mgrLogCtlWrite fn k value => Sys2Proof.Machine.execMgrLogCtlWrite fn k value s
  | .pageLogEntry k => Sys2Proof.Machine.execPageLogEntry k s
  | .sync fn k => Sys2Proof.Machine.execSync fn k s
  | .logMarker k => Sys2Proof.Machine.execLogMarker k s
  | .flitReceived port bytes => Sys2Proof.Machine.execFlitReceived port bytes s
  | .nak port => Sys2Proof.Machine.execNak port s
  | .lanesTrained port => Sys2Proof.Machine.execLanesTrained port s
  | .trainingTimeout port => Sys2Proof.Machine.execTrainingTimeout port s
  | .hello port => Sys2Proof.Machine.execHello port s
  | .helloTimeout port => Sys2Proof.Machine.execHelloTimeout port s
  | .exletPortFail port ns => Sys2Proof.Machine.execExletPortFail port ns s
  | .portRetryTimer port => Sys2Proof.Machine.execPortRetryTimer port s
  | .announceTimer => Sys2Proof.Machine.execAnnounceTimer s
  | .announce port => Sys2Proof.Machine.execAnnounce port s
  | .membershipExpiry id => Sys2Proof.Machine.execMembershipExpiry id s
  | .req origin xid lost crcFail outcome units => Sys2Proof.Machine.execReq origin xid lost crcFail outcome units s
  | .pairSeqGapExpiry origin => Sys2Proof.Machine.execPairSeqGapExpiry origin s
  | .resp home xid crcFail again => Sys2Proof.Machine.execResp home xid crcFail again s
  | .cancelFlit origin xid => Sys2Proof.Machine.execCancelFlit origin xid s
  | .spanResendExpiry xid => Sys2Proof.Machine.execSpanResendExpiry xid s
  | .abortRespTimeout inst tag => Sys2Proof.Machine.execAbortRespTimeout inst tag s
  | .mirrorWrite origin xid => Sys2Proof.Machine.execMirrorWrite origin xid s
  | .mirrorAck copy xid => Sys2Proof.Machine.execMirrorAck copy xid s
  | .mirrorGraceExpiry copy xid => Sys2Proof.Machine.execMirrorGraceExpiry copy xid s
  | .resyncPassEnd v second => Sys2Proof.Machine.execResyncPassEnd v second s
  | .primarySuperseded origin xid => Sys2Proof.Machine.execPrimarySuperseded origin xid s
  | .probe origin xid => Sys2Proof.Machine.execProbe origin xid s
  | .probeResp home xid => Sys2Proof.Machine.execProbeResp home xid s
  | .bind fn homeVol homeId => Sys2Proof.Machine.execBind fn homeVol homeId s
  | .unbind fn homeVol homeId => Sys2Proof.Machine.execUnbind fn homeVol homeId s
  | .keyReq origin xid => Sys2Proof.Machine.execKeyReq origin xid s
  | .keyGrant anchorId xid => Sys2Proof.Machine.execKeyGrant anchorId xid s
  | .pairMiscompare pair pass ns => Sys2Proof.Machine.execPairMiscompare pair pass ns s
  | .refclkLoss ref ns => Sys2Proof.Machine.execRefclkLoss ref ns s
  | .pllRelock ref => Sys2Proof.Machine.execPllRelock ref s
  | .rootReqChange fn value => Sys2Proof.Machine.execRootReqChange fn value s
  | .hostPortFail port vectors ns => Sys2Proof.Machine.execHostPortFail port vectors ns s
  | .linkReturn port width speed reversed polarity => Sys2Proof.Machine.execLinkReturn port width speed reversed polarity s
  | .spareCheck failing => Sys2Proof.Machine.execSpareCheck failing s
  | .railBelowWarning rail mv => Sys2Proof.Machine.execRailBelowWarning rail mv s
  | .railsAboveWarning mvs => Sys2Proof.Machine.execRailsAboveWarning mvs s
  | .dwellEnd => Sys2Proof.Machine.execDwellEnd s
  | .dipLong => Sys2Proof.Machine.execDipLong s
  | .railOverVoltage rail mv us => Sys2Proof.Machine.execRailOverVoltage rail mv us s
  | .railBelowReset rail mv => Sys2Proof.Machine.execRailBelowReset rail mv s
  | .pwrFailAssert => Sys2Proof.Machine.execPwrFailAssert s
  | .flushDone => Sys2Proof.Machine.execFlushDone s
  | .pwrFailDeassert => Sys2Proof.Machine.execPwrFailDeassert s
  | .holdupRdyChange asserted => Sys2Proof.Machine.execHoldupRdyChange asserted s
  | .sensorSample sensor reading => Sys2Proof.Machine.execSensorSample sensor reading s
  | .thermalTrip sensor temp => Sys2Proof.Machine.execThermalTrip sensor temp s
  | .powerCapEstimate mw => Sys2Proof.Machine.execPowerCapEstimate mw s
  | .retrainStart iface trigger => Sys2Proof.Machine.execRetrainStart iface trigger s
  | .retrainDone iface pass dropped ns => Sys2Proof.Machine.execRetrainDone iface pass dropped ns s
  | .entropyHealthFail => Sys2Proof.Machine.execEntropyHealthFail s
  | .entropyRetest pass => Sys2Proof.Machine.execEntropyRetest pass s
  | .drbgReseed => Sys2Proof.Machine.execDrbgReseed s
  | .commit fn made => Sys2Proof.Machine.execCommit fn made s
  | .secUnlockDataWrite src word => Sys2Proof.Machine.execSecUnlockDataWrite src word s
  | .submit src => Sys2Proof.Machine.execSubmit src s
  | .restart src => Sys2Proof.Machine.execRestart src s
  | .otpProgDataWrite fn word => Sys2Proof.Machine.execOtpProgDataWrite fn word s
  | .otpGo fn misses => Sys2Proof.Machine.execOtpGo fn misses s
  | .otpRestart fn => Sys2Proof.Machine.execOtpRestart fn s
  | .go fn hostError => Sys2Proof.Machine.execGo fn hostError s
  | .shutdown fn ends => Sys2Proof.Machine.execShutdown fn ends s
  | .resume fn => Sys2Proof.Machine.execResume fn s
  | .dbgRead src target => Sys2Proof.Machine.execDbgRead src target s
  | .dbgWrite src target => Sys2Proof.Machine.execDbgWrite src target s
  | .powerOnReset straps smba ref0 ref1 off => Sys2Proof.Machine.execPowerOnReset straps smba ref0 ref1 off s
  | .startupPhaseEnd o => Sys2Proof.Machine.execStartupPhaseEnd o s
  | .perstNAssert port pin => Sys2Proof.Machine.execPerstNAssert port pin s
  | .perstNRelease port width speed reversed polarity => Sys2Proof.Machine.execPerstNRelease port width speed reversed polarity s
  | .functionLevelReset port ends => Sys2Proof.Machine.execFunctionLevelReset port ends s
  | .d3hotEntry port => Sys2Proof.Machine.execD3HotEntry port s
  | .d3hotExit port => Sys2Proof.Machine.execD3HotExit port s
  | .status => Sys2Proof.Machine.execStatus s
  | .tempMax => Sys2Proof.Machine.execTempMax s
  | .thermState => Sys2Proof.Machine.execThermState s
  | .wear => Sys2Proof.Machine.execWear s
  | .spare => Sys2Proof.Machine.execSpare s
  | .id => Sys2Proof.Machine.execId s
  | .temps => Sys2Proof.Machine.execTemps s
  | .rails => Sys2Proof.Machine.execRails s
  | .health => Sys2Proof.Machine.execHealth s
  | .smbusWrite write code => Sys2Proof.Machine.execSmbusWrite write code s
  | .extest => Sys2Proof.Machine.execExtest s
  | .idcode => Sys2Proof.Machine.execIdcode s
  | .samplePreload pins shifted => Sys2Proof.Machine.execSamplePreload pins shifted s
  | .clamp => Sys2Proof.Machine.execClamp s
  | .highz => Sys2Proof.Machine.execHighz s
  | .dap write off value => Sys2Proof.Machine.execDap write off value s
  | .bypass => Sys2Proof.Machine.execBypass s
  | .healthLogWrite => Sys2Proof.Machine.execHealthLogWrite s
  | .learnedRepairWrite => Sys2Proof.Machine.execLearnedRepairWrite s
  | .homeBudgetExpiry origin xid => Sys2Proof.Machine.execHomeBudgetExpiry origin xid s
  | .joinSettleExpiry => Sys2Proof.Machine.execJoinSettleExpiry s
  | .activityToggle => Sys2Proof.Machine.execActivityToggle s

end Sys2Proof.Machine
end

