-- ==== Sys2Proof/Safety.lean ====
section
/-! DEFINITION. The terms in which claims are stated: the parts of the state, what a command leaves unchanged, what it
completes with, and how a tag ends. -/

namespace Sys2Proof.Machine

/-- The parts of the state, one for each of its fields. -/
inductive Part where
  | glb | clk | hif | mgr | otp | dbg | pwr | bsh | sec | sch | dmz | idx | flc | mem | cch | drc | spn
  | tags | locks | insts | units | acceptCount | hostMem | now | fresh | pending
deriving DecidableEq, Repr

/-- What a part holds. -/
def Part.Val : Part → Type
  | .glb => Glb | .clk => Clk | .hif => Hif | .mgr => Mgr | .otp => Otp | .dbg => Dbg | .pwr => Pwr | .bsh => Bsh
  | .sec => Sec | .sch => Sch | .dmz => Dmz | .idx => Idx | .flc => Flc | .mem => Mem | .cch => Cch | .drc => Drc
  | .spn => Spn | .tags => Tbl Tag | .locks => List Lock | .insts => Tbl Inst | .units => Tbl UnitDesc
  | .acceptCount => Nat | .hostMem => Cells | .now => Nat | .fresh => Nat | .pending => List Instr

/-- The part of a state. -/
def State.get : (s : State) → (x : Part) → x.Val
  | s, .glb => s.glb | s, .clk => s.clk | s, .hif => s.hif | s, .mgr => s.mgr | s, .otp => s.otp | s, .dbg => s.dbg
  | s, .pwr => s.pwr | s, .bsh => s.bsh | s, .sec => s.sec | s, .sch => s.sch | s, .dmz => s.dmz | s, .idx => s.idx
  | s, .flc => s.flc | s, .mem => s.mem | s, .cch => s.cch | s, .drc => s.drc | s, .spn => s.spn | s, .tags => s.tags
  | s, .locks => s.locks | s, .insts => s.insts | s, .units => s.units | s, .acceptCount => s.acceptCount
  | s, .hostMem => s.hostMem | s, .now => s.now | s, .fresh => s.fresh | s, .pending => s.pending

/-- Between two states only these parts may differ: every other part is the same. -/
def OnlyIn (ps : List Part) (s t : State) : Prop := ∀ x : Part, x ∉ ps → t.get x = s.get x

/-- The command completes in `s`, with a next state that meets `P`. -/
def Completes (c : Instr) (s : State) (P : State → Prop) : Prop := ∃ t, exec c s = .next t ∧ P t

/-- The command leaves everything as it is: it cannot happen in `s` (log entry 2). -/
def Idles (c : Instr) (s : State) : Prop := exec c s = .next s

/-- The tag is DONE, with this status and these result words. -/
def Ended (t : State) (k status r0 r1 : Nat) : Prop :=
  ∃ g, Tbl.get? t.tags k = some g ∧ g.st = .done ∧ g.reply.status = status ∧ g.reply.r0 = r0 ∧ g.reply.r1 = r1

/-- Tag `k` is busy as `g` says, RUNNING opcode `op` with its work under way and no ABORT of it coming, and the device
serves (R441). -/
def Working (op : Nat) (s : State) (k : Nat) (g : Tag) : Prop :=
  Tbl.get? s.tags k = some g ∧ atWork s k op .working = true ∧ serving s = true

/-- Every tag but `k` is as it was. -/
def OtherTags (k : Nat) (s t : State) : Prop := ∀ j, j ≠ k → Tbl.get? t.tags j = Tbl.get? s.tags j

/-- The journal group of blocks `q` (first, count) of an atomic unit of a write to [lba, …) of volume `v` with bytes `bs`: one
entry for each allotment piece, with that piece's bytes. -/
def UnitOf (v lba : Nat) (bs : List Byte) (q : Nat × Nat) (j : Group) : Prop := j.held = false ∧
  List.Forall₂ (fun (a : Nat × Nat × Nat) (e : JEnt) => ∃ ent, e = .mapSet v a.1 a.2.1 a.2.2
    (Cells.ofList (((bs.drop (blockBytes * (q.1 - lba))).drop (blockBytes * (a.1 * 8 + a.2.1 - q.1))).take
      (blockBytes * a.2.2))) ent) (allotPieces q.1 q.2) j.entries

/-- The command completes; tag `k` ends with this status and these result words; only these parts may differ, and no other tag;
the next state meets `P`. -/
def Replies (c : Instr) (s : State) (k status r0 r1 : Nat) (ps : List Part) (P : State → Prop) : Prop :=
  Completes c s fun t => Ended t k status r0 r1 ∧ OtherTags k s t ∧ OnlyIn (.tags :: .locks :: .units :: ps) s t ∧ P t

/-- Tag `k` of an instance is at work on index table number `tb`, which is `x`; the index unit is enabled, and its banks serve. -/
def IndexWorking (op : Nat) (s : State) (k : Nat) (g : Tag) (tb : Nat) (x : ITable) : Prop :=
  Working op s k g ∧ s.idx.enable = true ∧ tb = pkHandle g.packet % 256 ∧ Tbl.get? s.idx.tables tb = some x ∧ tableLost s x = false

/-- What a codec job on stream `x` with the packet `p` of instance `n` leaves (R104, R114, R115): its status, the input it consumed
and its output in the result words, the output bytes in host memory, and its context EMPTY, OPEN or SUSPENDED. -/
def CodecJobEnds (n k : Nat) (x : Ctx) (ends : Bool) (p : List Byte) (s t : State) : Prop :=
  let r := Config.codecJob {
    mode := x.mode, format := x.format, ends := ends, ctx := carried x, dict := dictBytes s n x.dictCtx
    refs := refBytes s n x.refs, input := gather s n p 0 (pkLength p), room := field p 44 4 }
  let out := r.output.take (field p 44 4)
  let hold := pkHoldPartial p && !(pkContext p == 0)
  (r.kind = 0 → Ended t k stOk (pkLength p) out.length ∧
    (pkContext p ≠ 0 → ends = false → ∃ y, ctxOf t n (pkContext p) = some y ∧ y.st = .opened)) ∧
  (r.kind = 1 → hold = true → (∃ c, Ended t k stOkResumable c out.length) ∧
    ∃ y, ctxOf t n (pkContext p) = some y ∧ y.st = .suspended ∧ y.endSeen = ends) ∧
  (r.kind = 1 → hold = false → ∃ c, Ended t k stCodecLimit c out.length) ∧
  (2 ≤ r.kind → Ended t k (if r.kind = 2 then stCodecData else stCodecLimit) (min r.consumed (pkLength p)) out.length) ∧
  ((r.kind = 0 ∧ ends = true) ∨ (r.kind = 1 ∧ hold = false) ∨ 2 ≤ r.kind → ctxOf t n (pkContext p) = none) ∧
  (∀ j < out.length, Cells.read t.hostMem (hostKey (pasidOf s n) (field p 36 8 + j)) = out.getD j 0) ∧
  OtherTags k s t ∧ OnlyIn [.tags, .locks, .units, .bsh, .mgr, .hostMem, .fresh] s t

/-- Tag `k` of instance `n` is at work on a codec command, and no earlier command on its context is unreplied (R106). -/
def CodecWorking (op : Nat) (s : State) (n k : Nat) (g : Tag) : Prop :=
  Working op s k g ∧ ctxBusy s n (pkContext g.packet) g.order = false

/-- The formats, the lanes and the dictionary allow a job on stream `x`, and its unit has not failed. -/
def CodecReady (s : State) (n k : Nat) (x : Ctx) : Prop :=
  s.bsh.enable = true ∧ mayWrite s n = true ∧ unitStatus s k 0 = stOk ∧ formatDisabled s x.format = false ∧
    (dictBytes s n x.dictCtx).length ≤ 2097152

/-- Worker `i` is `w`, runs program `p` within its budget and stands at `word`; no ended record of its command waits to be counted. -/
def AtWord (s : State) (i word : Nat) (w : Worker) (p : Prog) : Prop :=
  Tbl.get? s.dmz.workers i = some w ∧ Tbl.get? s.dmz.progs w.prog = some p ∧ serving s = true ∧ w.st = .running ∧
    codeWord p w.pc = word ∧ w.count < w.budget ∧ nextEnded s w.tag = none

/-- The command makes worker `i` what `v` says, with one more instruction counted; nothing else changes. -/
def Makes (c : Instr) (s : State) (i : Nat) (w : Worker) (v : Worker → Worker) : Prop :=
  exec c s = .next { s with dmz := { s.dmz with workers := Tbl.set s.dmz.workers i (v { w with count := w.count + 1 }) } }

/-- The worker goes on to the next word with `x` in G[d] (R202, R208). -/
def Gives (d : Nat) (x : BitVec 64) (w : Worker) : Worker := flowNext w.pc (setG d x w)

/-- The worker goes on to the next word with `x` in V[d]. -/
def GivesV (d : Nat) (x : BitVec 256) (w : Worker) : Worker := flowNext w.pc (setV d x w)

/-- What a power-on reset leaves (R74, R437, Table 13.1): every register at reset with its cause noted, no tag, no lock, no instance but
instance 0; the fuses, host memory, the learned repairs and the durable contents of every volume as they were. -/
def PowerOnResetLeaves (cause : Nat) (held : Bool) (s t : State) : Prop :=
  t.glb.stage = 0 ∧ t.glb.cause = cause ∧ t.glb.held = held ∧ t.tags = [] ∧ t.locks = [] ∧ t.units = [] ∧ t.insts = [(0, resetInst0)] ∧
    t.now = 0 ∧ t.sch = resetSch ∧ t.dmz = resetDmz ∧ t.idx = resetIdx ∧ t.bsh = resetBsh ∧ t.cch = resetCch ∧ t.mgr = resetMgr ∧
    t.otp.fuses = s.otp.fuses ∧ t.hostMem = s.hostMem ∧ t.mem.learned = s.mem.learned ∧ t.flc.groups = [] ∧
    t.flc.life.powerCycles = s.flc.life.powerCycles + 1 ∧
    (∀ p ∈ t.flc.vols, ∃ u, (p.1, u) ∈ s.flc.vols ∧ p.2.data = u.durable ∧ p.2.map = u.mapDurable) ∧ t.pending = s.pending

end Sys2Proof.Machine
end

