-- ==== Sys2Proof/Certificates/Slice0/Obligations.lean ====
section
/-! DEFINITION. The statements for the provers: what each family of commands does, and what every step keeps. -/

open Sys2Proof Sys2Proof.Machine

/-! ### The host interface: posts, rings, interrupts, reads with a side effect -/

/-- An accepted post (R39): the slot's 64 bytes are copied into the intake, the tag becomes busy and QUEUED, the current
device event sequence value is its intake sequence. For a slice the reply echoes SUB_SEQ as written (R373). -/
def Obligations.PostIsAccepted : Prop :=
  -- TW_POST
  (∀ (s : State) (fn : Fin 2) (inst : Fin 64) (value : Nat) (i : Inst),
    nativeAt s fn inst = some i → acceptsPosts s i = true →
    Tbl.has s.tags (tagKey inst (bits value 0 8)) = false →
    exec (.twPost fn inst 0 8 value) s = .next { s with
      tags := Tbl.set s.tags (tagKey inst (bits value 0 8))
        { st := .queued, packet := Cells.readN i.slots (bits value 0 8 * 64) 64, seq := bits value 32 32, seq16 := 0
          intakeSeq := s.glb.seq, order := s.acceptCount, started := false, work := .working, groups := [], uses := []
          cursor := 0, after := none, reply := {} }
      acceptCount := s.acceptCount + 1
      insts := Tbl.modify s.insts inst (fun j => { j with ring := { j.ring with lastSeq := bits value 32 32 } }) }) ∧
  -- SL_POST
  (∀ (s : State) (fn : Fin 2) (win : Fin 16) (value n : Nat) (i : Inst),
    sliceAt s fn win = some (n, i) → acceptsPosts s i = true → Tbl.has s.tags (tagKey n (bits value 0 5)) = false →
    exec (.slPost fn win 0 4 value) s = .next { s with
      tags := Tbl.set s.tags (tagKey n (bits value 0 5))
        { st := .queued, packet := Cells.readN i.slots (bits value 0 5 * 64) 64
          seq := pkSubSeq (Cells.readN i.slots (bits value 0 5 * 64) 64), seq16 := bits value 16 16
          intakeSeq := s.glb.seq, order := s.acceptCount, started := false, work := .working, groups := [], uses := []
          cursor := 0, after := none, reply := {} }
      acceptCount := s.acceptCount + 1
      insts := Tbl.modify s.insts n (fun j => { j with ring := { j.ring with lastSeq := bits value 16 16 } }) })

/-- A refused post (R40): one that names a busy tag counts in REFUSED and raises EV_SLOT_BUSY, and the command that holds
the tag is unaffected; one that arrives while ENABLE is 0 counts in REFUSED and raises no event. A write of another size
or place raises EV_POST_MALFORMED (R38, R373) and changes nothing else. -/
def Obligations.PostIsRefused : Prop :=
  let busy (s : State) (n slot echo : Nat) : State := { s with
    insts := Tbl.modify s.insts n (fun j => { j with ring := { j.ring with
      refused := satInc j.ring.refused 0xFF
      evtQ := (if j.ring.evtQ.length < 32
        then j.ring.evtQ ++ [⟨0x0001, stSlotBusy, 0x0001 + 2 ^ 16 * slot, echo⟩] else j.ring.evtQ)
      evtLost := if j.ring.evtQ.length < 32 then j.ring.evtLost else satInc j.ring.evtLost 0xFF } }) }
  let off (s : State) (n : Nat) : State := { s with
    insts := Tbl.modify s.insts n (fun j => { j with ring := { j.ring with refused := satInc j.ring.refused 0xFF } }) }
  (∀ (s : State) (fn : Fin 2) (inst : Fin 64) (value : Nat) (i : Inst), nativeAt s fn inst = some i →
    (acceptsPosts s i = true → Tbl.has s.tags (tagKey inst (bits value 0 8)) = true →
      exec (.twPost fn inst 0 8 value) s = .next (busy s inst (bits value 0 8) (bits value 32 32))) ∧
    (i.ring.enable = false → exec (.twPost fn inst 0 8 value) s = .next (off s inst))) ∧
  (∀ (s : State) (fn : Fin 2) (win : Fin 16) (value n : Nat) (i : Inst), sliceAt s fn win = some (n, i) →
    (acceptsPosts s i = true → Tbl.has s.tags (tagKey n (bits value 0 5)) = true →
      exec (.slPost fn win 0 4 value) s = .next (busy s n (bits value 0 5) (bits value 16 16))) ∧
    (i.ring.enable = false → exec (.slPost fn win 0 4 value) s = .next (off s n))) ∧
  (∀ (s : State) (fn : Fin 2) (inst : Fin 64) (off : Fin 8) (size value : Nat) (i : Inst),
    nativeAt s fn inst = some i → ¬(off = 0 ∧ size = 8) →
    exec (.twPost fn inst off size value) s = .next { s with
      insts := Tbl.modify s.insts inst (queueEvent
        ⟨0x0002, stBadField, 0x0002 + 2 ^ 16 * (if 16 ≤ size then 0 else size), 0⟩) }) ∧
  (∀ (s : State) (fn : Fin 2) (win : Fin 16) (off : Fin 4) (size value n : Nat) (i : Inst),
    sliceAt s fn win = some (n, i) → ¬(off = 0 ∧ size = 4) →
    exec (.slPost fn win off size value) s = .next { s with
      insts := Tbl.modify s.insts n (queueEvent
        ⟨0x0002, stBadField, 0x0002 + 2 ^ 16 * (if 16 ≤ size then 0 else size), 0⟩) })

/-- The ring's registers (R42, R54): a write of TW_RING_CFG or SL_RING_CFG that R42 refuses leaves the register and sets CFG_REFUSED, or
counts in MALFORMED for a slice; any other takes ENABLE and SIZE_LOG2 and clears CFG_REFUSED, and one that sets ENABLE from 0 to 1
clears HEAD, TAIL, REFUSED and HEAD_REFUSED and sets PHASE; BASE is written only while ENABLE is 0. HEAD takes a value below the ring
size that hands back no entry not yet written; any other write leaves it and sets HEAD_REFUSED, or counts in MALFORMED for a slice
and for a page log. -/
def Obligations.RingRegistersFollowTheirRules : Prop :=
  (∀ (s : State) (fn : Fin 2) (slice : Bool) (win : Fin 64) (v : BitVec 32) (n : Nat) (i : Inst),
    windowAt s fn slice win = some (n, i) →
    let size := bits v.toNat 0 (if slice then 4 else 5)
    let refused : Prop := size < (if slice then 6 else 9) ∨ (if slice then 12 else 16) < size
      ∨ (i.ring.enable = true ∧ size ≠ i.ring.sizeLog2)
      ∨ (i.ring.enable = true ∧ v.getLsbD 31 = false ∧ (busyOf s n ≠ [] ∨ i.ring.evtQ ≠ []))
    (refused → exec (.twRingCfgWrite fn slice win v) s = .next (if slice
      then { s with hif := { s.hif with malformed := satInc s.hif.malformed 0xFF } }
      else { s with insts := Tbl.modify s.insts n (fun j => { j with ring := { j.ring with cfgRefused := true } }) })) ∧
    (¬refused → exec (.twRingCfgWrite fn slice win v) s = .next { s with
      insts := Tbl.modify s.insts n (fun j => { j with ring := bif v.getLsbD 31 && !j.ring.enable
        then { j.ring with enable := true, sizeLog2 := size, head := 0, tail := 0, refused := 0, cfgRefused := false
                           headRefused := false, phase := true }
        else { j.ring with enable := v.getLsbD 31, sizeLog2 := size, cfgRefused := false } }) })) ∧
  (∀ (s : State) (fn : Fin 2) (slice hi : Bool) (win : Fin 64) (v : BitVec 32) (n : Nat) (i : Inst),
    windowAt s fn slice win = some (n, i) → i.ring.enable = false →
    exec (.twRingBaseWrite fn slice win hi v) s = .next { s with
      insts := Tbl.modify s.insts n (fun j => { j with ring := { j.ring with
        cfgRefused := false
        base := if hi then j.ring.base % 2 ^ 32 + 2 ^ 32 * v.toNat
          else j.ring.base / 2 ^ 32 * 2 ^ 32 + v.toNat / 4096 * 4096 } }) }) ∧
  (∀ (s : State) (fn : Fin 2) (slice hi : Bool) (win : Fin 64) (v : BitVec 32) (n : Nat) (i : Inst),
    windowAt s fn slice win = some (n, i) → i.ring.enable = true →
    exec (.twRingBaseWrite fn slice win hi v) s = .next (if slice
      then { s with hif := { s.hif with malformed := satInc s.hif.malformed 0xFF } }
      else { s with insts := Tbl.modify s.insts n (fun j => { j with ring := { j.ring with cfgRefused := true } }) })) ∧
  (∀ (s : State) (fn : Fin 2) (win : Fin 64) (v : BitVec 32) (n : Nat) (i : Inst),
    windowAt s fn false win = some (n, i) →
    exec (.twRingHeadWrite fn 0 win v) s = .next { s with
      insts := Tbl.modify s.insts n (fun j => { j with ring :=
        let size := 2 ^ i.ring.sizeLog2
        let h := v.toNat % 2 ^ 16
        if h < size ∧ (h + size - i.ring.head % size) % size ≤ (i.ring.tail + size - i.ring.head % size) % size
        then { j.ring with head := h, headRefused := false } else { j.ring with headRefused := true } }) }) ∧
  (∀ (s : State) (fn : Fin 2) (win : Fin 64) (v : BitVec 32) (n : Nat) (i : Inst),
    windowAt s fn true win = some (n, i) →
    exec (.twRingHeadWrite fn 1 win v) s = .next (
      let size := 2 ^ i.ring.sizeLog2
      let h := v.toNat % 2 ^ 12
      if h < size ∧ (h + size - i.ring.head % size) % size ≤ (i.ring.tail + size - i.ring.head % size) % size
      then { s with insts := Tbl.modify s.insts n (fun j => { j with ring := { j.ring with head := h, headRefused := false } }) }
      else { s with hif := { s.hif with malformed := satInc s.hif.malformed 0xFF } })) ∧
  (∀ (s : State) (fn : Fin 2) (n : Fin 64) (v : BitVec 32),
    bar0Answers s fn 0x4400 = true →
    exec (.twRingHeadWrite fn 2 n v) s = .next (
      let l := Tbl.getD s.mgr.logs (n.val % 4) resetPLog
      let size := 2 ^ l.sizeLog2
      let h := v.toNat % 2 ^ 20
      if h < size ∧ (h + size - l.head % size) % size ≤ (l.tail + size - l.head % size) % size
      then { s with mgr := { s.mgr with logs := Tbl.set s.mgr.logs (n.val % 4) { l with head := h } } }
      else { s with hif := { s.hif with malformed := satInc s.hif.malformed 0xFF } }))

/-- Interrupts and the doorbell (R56, R354): clearing PENDING treats the counted entries as handled and signals nothing; when COAL_TIME µs
have passed since the first unsignalled entry the vector VECTOR_BASE of the instance is signalled and the count cleared. While a message
waits, the tenant's word takes it: DELIV is cleared, the word stands in MGR_MBOX_REPLY, and EV_MAILBOX of direction 2 is raised in
instance 0; while none waits nothing changes. -/
def Obligations.InterruptsAndTheDoorbell : Prop :=
  (∀ (s : State) (fn : Fin 2) (inst : Fin 64) (i : Inst), nativeAt s fn inst = some i →
    exec (.twIrqStsClear fn inst) s = .next { s with
      insts := Tbl.modify s.insts inst (fun j => { j with ring := { j.ring with
        unsignalled := 0, coalStart := 0, pending := false } }) }) ∧
  (∀ (s : State) (inst : Fin 64) (i : Inst), Tbl.get? s.insts inst = some i →
    powered s = true → portLive s i.port = true → i.slice = false → i.ring.irqEnable = true →
    0 < i.ring.unsignalled → i.ring.coalTime ≠ 0 → i.ring.coalStart + i.ring.coalTime ≤ s.now →
    exec (.coalTimeExpiry inst) s = .next { s with
      hif := { s.hif with msix := s.hif.msix ++ [(i.port, i.vecBase)] }
      insts := Tbl.modify s.insts inst (fun j => { j with ring := { j.ring with
        unsignalled := 0, coalStart := 0, pending := false } }) }) ∧
  (∀ (s : State) (fn : Fin 2) (slice : Bool) (win : Fin 64) (word : BitVec 32) (n : Nat) (i : Inst),
    windowAt s fn slice win = some (n, i) → i.mbox.deliv = false → Idles (.twMboxDb fn slice win word) s) ∧
  (∀ (s : State) (fn : Fin 2) (slice : Bool) (win : Fin 64) (word : BitVec 32) (n : Nat) (i i0 : Inst),
    windowAt s fn slice win = some (n, i) → Tbl.get? s.insts n = some i → i.mbox.deliv = true → n ≠ 0 →
    Tbl.get? s.insts 0 = some i0 → eventEnabled i0 0x0040 = true → i0.ring.evtQ.length < 32 →
    Completes (.twMboxDb fn slice win word) s fun t =>
      OnlyIn [.insts, .hif] s t ∧
      (∃ j, Tbl.get? t.insts n = some j ∧ j.mbox = { i.mbox with deliv := false, word := word.toNat } ∧
        j.ring = i.ring ∧ j.feat = i.feat ∧ j.share = i.share ∧ j.slots = i.slots) ∧
      (∃ j, Tbl.get? t.insts 0 = some j ∧ j.mbox = i0.mbox ∧ j.ring = { i0.ring with evtQ := i0.ring.evtQ ++
        [⟨0x0040, stOk, 2 ^ 16 * 2 + 2 ^ 24 * n + i.mbox.msgLen % 512 * 2 ^ 32, word.toNat⟩] }) ∧
      (∀ m, m ≠ n → m ≠ 0 → Tbl.get? t.insts m = Tbl.get? s.insts m))

/-- The reads with a side effect (R490, R455) and the trace ring: the low half is returned and the high half latched for the same
function, whose read of the _HI register returns what was latched; reading SCH_TRACE_DATA_3 gives bytes 12 to 15 of the record at RIDX
and moves RIDX on; a write of CLEAR sets INDEX, WRAPS and DROPPED to 0. -/
def Obligations.ReadsWithSideEffects : Prop :=
  (∀ (s : State), bar0Answers s 0 0x20 = true →
    exec (.glbSeqLoRead 0) s = .next { s with
      hif := { s.hif with readData := leBytes 4 s.glb.seq }
      glb := { s.glb with latch0 := { s.glb.latch0 with seqHi := bits s.glb.seq 32 16 } } }) ∧
  (∀ (s : State), bar0Answers s 1 0x20 = true →
    exec (.glbSeqLoRead 1) s = .next { s with
      hif := { s.hif with readData := leBytes 4 s.glb.seq }
      glb := { s.glb with latch1 := { s.glb.latch1 with seqHi := bits s.glb.seq 32 16 } } }) ∧
  (∀ (s : State), bar0Answers s 0 0x28 = true →
    exec (.glbTimeLoRead 0) s = .next { s with
      hif := { s.hif with readData := leBytes 4 s.now }
      glb := { s.glb with latch0 := { s.glb.latch0 with timeHi := bits s.now 32 32 } } }) ∧
  (∀ (s : State), bar0Answers s 1 0x28 = true →
    exec (.glbTimeLoRead 1) s = .next { s with
      hif := { s.hif with readData := leBytes 4 s.now }
      glb := { s.glb with latch1 := { s.glb.latch1 with timeHi := bits s.now 32 32 } } }) ∧
  (∀ (s : State), bar0Answers s 0 0x30 = true →
    exec (.glbRecovAddrLoRead 0) s = .next { s with
      hif := { s.hif with readData := leBytes 4 s.glb.recovAddr }
      glb := { s.glb with latch0 := { s.glb.latch0 with recovHi := bits s.glb.recovAddr 32 32 } } }) ∧
  (∀ (s : State), bar0Answers s 1 0x30 = true →
    exec (.glbRecovAddrLoRead 1) s = .next { s with
      hif := { s.hif with readData := leBytes 4 s.glb.recovAddr }
      glb := { s.glb with latch1 := { s.glb.latch1 with recovHi := bits s.glb.recovAddr 32 32 } } }) ∧
  (∀ (s : State), readReg s 0 0x24 = s.glb.latch0.seqHi ∧ readReg s 0 0x2C = s.glb.latch0.timeHi ∧ readReg s 0 0x34 = s.glb.latch0.recovHi ∧
    readReg s 1 0x24 = s.glb.latch1.seqHi ∧ readReg s 1 0x2C = s.glb.latch1.timeHi ∧ readReg s 1 0x34 = s.glb.latch1.recovHi) ∧
  (∀ (s : State) (fn : Fin 2), bar0Answers s fn 0x811C = true →
    exec (.schTraceData3Read fn) s = .next { s with
      hif := { s.hif with readData := bytesAt (traceAt s) 12 4 }
      sch := { s.sch with traceRidx := (s.sch.traceRidx + 1) % 65536 } }) ∧
  (∀ (s : State) (fn : Fin 2) (value : BitVec 32), bar0Answers s fn 0x8100 = true → value.getLsbD 3 = true →
    exec (.traceClear fn value) s = .next { s with sch := { s.sch with
      traceEnable := value.getLsbD 0, traceStop := value.getLsbD 1, traceFreeze := value.getLsbD 2
      traceIndex := 0, traceWraps := 0, traceDropped := 0 } })

/-! ### Commands, locks, replies and aborts -/

/-- COMMAND_START (R46, R58, R174): a command that may start is bound to the task's handle and flag base and becomes
RUNNING; the first check that fails decides its reply and ends it. -/
def Obligations.CommandStarts : Prop :=
  (∀ (s : State) (inst : Fin 64) (tag : Fin 256) (handle : BitVec 20) (base : Fin 32) (g : Tag) (i : Inst),
    Tbl.get? s.tags (tagKey inst tag) = some g → Tbl.get? s.insts inst = some i →
    startsNow s (tagKey inst tag) g = true → failedCheck s inst i g = none → readOnlyWrong s g.packet = false →
    (lockOps.contains (pkOpcode g.packet) = false ∨ homeOf s (pkVolume g.packet) = none) →
    Completes (.commandStart inst tag handle base) s fun t =>
      Tbl.get? t.tags (tagKey inst tag) = some { g with
        started := true, st := .running, uses := usesOf s inst g.packet } ∧
      OtherTags (tagKey inst tag) s t ∧
      t.sch = { s.sch with bindings := Tbl.set s.sch.bindings (tagKey inst tag) ⟨handle.toNat, base.val⟩ } ∧
      OnlyIn [.sch, .tags, .locks, .insts] s t) ∧
  (∀ (s : State) (inst : Fin 64) (tag : Fin 256) (handle : BitVec 20) (base : Fin 32) (g : Tag) (i : Inst) (r : Reply),
    Tbl.get? s.tags (tagKey inst tag) = some g → Tbl.get? s.insts inst = some i →
    startsNow s (tagKey inst tag) g = true → failedCheck s inst i g = some r →
    Completes (.commandStart inst tag handle base) s fun t =>
      Ended t (tagKey inst tag) r.status r.r0 r.r1 ∧ OtherTags (tagKey inst tag) s t ∧
      OnlyIn [.sch, .tags, .locks, .insts, .units] s t)

/-- RANGE_LOCK_GRANT (R62): once no conflict remains and entries are free, the owner's entries are held, and nothing else
changes. -/
def Obligations.RangeLockIsGranted : Prop :=
  ∀ (s : State) (owner : Nat), serving s = true → lockOwnerRuns s owner = true → lockGrantable s owner = true →
    exec (.rangeLockGrant owner) s = .next { s with
      locks := s.locks.map (fun l => if l.tag = owner then { l with held := true } else l) }

/-- REPLY_COMMIT and EVENT_WRITE (R51 to R53, R77): the 32 bytes go to the entry at TAIL under the instance's PASID, with
the next device event sequence number, and no other byte of host memory changes; the committed command's tag is FREE; the
event at the front leaves the queue, and an event goes only while the free entries exceed the busy tags. -/
def Obligations.RepliesAndEventsReachTheRing : Prop :=
  (∀ (s : State) (inst : Fin 64) (tag : Fin 256) (g : Tag) (i : Inst),
    Tbl.get? s.tags (tagKey inst tag) = some g → Tbl.get? s.insts inst = some i →
    canCommit s (tagKey inst tag) g i = true → s.glb.resetTag = none →
    Completes (.replyCommit inst tag) s fun t =>
      Tbl.get? t.tags (tagKey inst tag) = none ∧
      (let entry := replyBytes tag g.reply.status (pkOpcode g.packet) inst i.ring.phase (replyFlags g.reply)
          ((s.glb.seq + 1) % 2 ^ 48) g.seq g.reply.r0 g.reply.r1
       let at_ (j : Nat) := hostKey i.pasid (i.ring.base + i.ring.tail * 32 + j)
       (∀ j < 32, Cells.read t.hostMem (at_ j) = entry.getD j 0) ∧
       (∀ a, (∀ j < 32, a ≠ at_ j) → Cells.read t.hostMem a = Cells.read s.hostMem a))) ∧
  (∀ (s : State) (inst : Fin 64) (i : Inst) (e : Event) (es : List Event),
    Tbl.get? s.insts inst = some i → i.ring.evtQ = e :: es → canWriteEntry s inst i = true →
    (busyOf s inst).length < ringFree i.ring →
    Completes (.eventWrite inst) s fun t =>
      (let entry := replyBytes 0xFFFF e.status 0 inst i.ring.phase 0 ((s.glb.seq + 1) % 2 ^ 48) 0
          (e.r0 / 65536 * 65536 + e.code) e.r1
       let at_ (j : Nat) := hostKey i.pasid (i.ring.base + i.ring.tail * 32 + j)
       (∀ j < 32, Cells.read t.hostMem (at_ j) = entry.getD j 0) ∧
       (∀ a, (∀ j < 32, a ≠ at_ j) → Cells.read t.hostMem a = Cells.read s.hostMem a)) ∧
      (∃ j, Tbl.get? t.insts inst = some j ∧ j.ring.tail = (i.ring.tail + 1) % 2 ^ i.ring.sizeLog2 ∧
        j.ring.evtQ = es ++ (if i.ring.evtLost = 0 then [] else [⟨0x0003, stOk, 0x0003 + 65536 * i.ring.evtLost, 0⟩])) ∧
      t.glb.seq = (s.glb.seq + 1) % 2 ^ 48 ∧ OnlyIn [.glb, .hif, .mgr, .flc, .insts, .hostMem] s t)

/-- ABORT and STOPPED (R69 to R72): an ABORT that names its own tag gets ST_BAD_FIELD, one that names no busy tag or
another submission ST_TAG_IDLE; a QUEUED target is caught at once and ends with ST_ABORTED, and the ABORT's reply follows
it; a RUNNING target stops at its next safe point, where it ends with ST_ABORTED. -/
def Obligations.AbortsCatchTheirTarget : Prop :=
  (∀ (s : State) (inst : Fin 64) (tag : Fin 256) (g : Tag) (i : Inst),
    Tbl.get? s.tags (tagKey inst tag) = some g → Tbl.get? s.insts inst = some i → powered s = true →
    g.st = .queued → pkOpcode g.packet = opAbort → failedCheck s inst i g = none → field g.packet 36 2 < 256 →
    field g.packet 36 2 ≠ tag → Tbl.get? s.tags (tagKey inst (field g.packet 36 2)) = none →
    Completes (.abort inst tag) s fun t =>
      Ended t (tagKey inst tag) stTagIdle 0 0 ∧ OtherTags (tagKey inst tag) s t ∧ OnlyIn [.tags, .locks, .units] s t) ∧
  (∀ (s : State) (inst : Fin 64) (tag : Fin 256) (g u : Tag) (i : Inst),
    Tbl.get? s.tags (tagKey inst tag) = some g → Tbl.get? s.insts inst = some i → powered s = true →
    g.st = .queued → pkOpcode g.packet = opAbort → failedCheck s inst i g = none → field g.packet 36 2 < 256 →
    field g.packet 36 2 ≠ tag → Tbl.get? s.tags (tagKey inst (field g.packet 36 2)) = some u →
    u.seq = field g.packet 40 4 → unabortableOps.contains (pkOpcode u.packet) = false → u.st = .queued → u.work = .working →
    Completes (.abort inst tag) s fun t =>
      Ended t (tagKey inst tag) stAbortCaught u.seq 0 ∧
      (∃ c, Tbl.get? t.tags (tagKey inst tag) = some c ∧ c.after = some (tagKey inst (field g.packet 36 2))) ∧
      Ended t (tagKey inst (field g.packet 36 2)) stAborted 0 0 ∧
      (∀ j, j ≠ tagKey inst tag → j ≠ tagKey inst (field g.packet 36 2) → Tbl.get? t.tags j = Tbl.get? s.tags j) ∧
      OnlyIn [.tags, .locks, .units] s t) ∧
  (∀ (s : State) (inst : Fin 64) (tag : Fin 256) (g u : Tag) (i : Inst),
    Tbl.get? s.tags (tagKey inst tag) = some g → Tbl.get? s.insts inst = some i → powered s = true →
    g.st = .queued → pkOpcode g.packet = opAbort → failedCheck s inst i g = none → field g.packet 36 2 < 256 →
    field g.packet 36 2 ≠ tag → Tbl.get? s.tags (tagKey inst (field g.packet 36 2)) = some u →
    u.seq = field g.packet 40 4 → unabortableOps.contains (pkOpcode u.packet) = false → u.st = .running → u.work = .working →
    Completes (.abort inst tag) s fun t =>
      Ended t (tagKey inst tag) stAbortCaught u.seq 0 ∧
      Tbl.get? t.tags (tagKey inst (field g.packet 36 2)) = some { u with st := .stopping } ∧
      OnlyIn [.tags, .locks, .units] s t) ∧
  (∀ (s : State) (inst : Fin 64) (tag : Fin 256) (units : Nat) (g : Tag),
    Tbl.get? s.tags (tagKey inst tag) = some g → powered s = true → g.st = .stopping → g.work = .working →
    prefixOps.contains (pkOpcode g.packet) = false →
    Completes (.stopped inst tag units) s fun t =>
      Ended t (tagKey inst tag) stAborted 0 0 ∧ OtherTags (tagKey inst tag) s t ∧
      OnlyIn [.tags, .locks, .units, .dmz, .spn, .bsh] s t)

/-! ### Reads and writes of volumes -/

/-- READ and VERIFY (R276, R500): every block that can be read is delivered, in the order of the buffer, and counted in
HOST_READ; with no failing block the reply is ST_OK with LENGTH, otherwise the status of the first failing block, that block
and how many failed; VERIFY delivers nothing and gives the blocks that could be read and the first failing block. -/
def Obligations.ReadDelivers : Prop :=
  (∀ (s : State) (inst : Fin 64) (tag : Fin 256) (lost crcFail : List Nat) (g : Tag) (u : Vol),
    Working opRead s (tagKey inst tag) g → lockHeld s (tagKey inst tag) = true → mayWrite s inst = true →
    (s.bsh.enable = true ∨ rangePacked s (pkVolume g.packet) (pkLba g.packet) (pkLength g.packet) = false) →
    vol? s (pkVolume g.packet) = some u →
    (let bad := failingBlocks u (pkLba g.packet) (pkLength g.packet)
        (lostIn s (tagKey inst tag) (pkVolume g.packet) (pkLba g.packet) (pkLength g.packet) lost)
        (crcFail ++ unitBlocks s (tagKey inst tag) (pkLba g.packet) (pkLength g.packet) stInternal)
     Completes (.read inst tag lost crcFail) s fun t =>
      (bad = [] → Ended t (tagKey inst tag) stOk (pkLength g.packet) 0 ∧
        t.hostMem = (deliver inst g.packet 0 (blocksOf u (pkLba g.packet) (pkLength g.packet)) s).hostMem) ∧
      (∀ b bs, bad = b :: bs → Ended t (tagKey inst tag) b.2 b.1 bad.length) ∧
      t.flc = { s.flc with life := { s.flc.life with hostRead := s.flc.life.hostRead + (pkLength g.packet - bad.length) } } ∧
      OtherTags (tagKey inst tag) s t ∧ OnlyIn [.tags, .locks, .units, .flc, .mgr, .hostMem, .fresh] s t)) ∧
  (∀ (s : State) (inst : Fin 64) (tag : Fin 256) (lost crcFail : List Nat) (g : Tag) (u : Vol),
    Working opVerify s (tagKey inst tag) g → lockHeld s (tagKey inst tag) = true →
    (s.bsh.enable = true ∨ rangePacked s (pkVolume g.packet) (pkLba g.packet) (pkLength g.packet) = false) →
    vol? s (pkVolume g.packet) = some u →
    (let bad := failingBlocks u (pkLba g.packet) (pkLength g.packet)
        (lostIn s (tagKey inst tag) (pkVolume g.packet) (pkLba g.packet) (pkLength g.packet) lost)
        (crcFail ++ unitBlocks s (tagKey inst tag) (pkLba g.packet) (pkLength g.packet) stInternal)
     Completes (.verify inst tag lost crcFail) s fun t =>
      (bad = [] → Ended t (tagKey inst tag) stOk (pkLength g.packet) 0xFFFFFFFFFFFFFFFF) ∧
      (∀ b bs, bad = b :: bs → Ended t (tagKey inst tag) b.2 (pkLength g.packet - bad.length) b.1) ∧
      t.flc = { s.flc with life := { s.flc.life with hostRead := s.flc.life.hostRead + (pkLength g.packet - bad.length) } } ∧
      OtherTags (tagKey inst tag) s t ∧ OnlyIn [.tags, .locks, .units, .flc] s t)) ∧
  -- a plain buffer takes the bytes from BUFFER on, and no other byte of host memory changes
  (∀ (s : State) (n : Nat) (p bs : List Byte), pkSgl p = false → bs.length ≤ pkBufLen p →
    (∀ j < bs.length, Cells.read (deliver n p 0 bs s).hostMem (hostKey (pasidOf s n) (pkBuffer p + j)) = bs.getD j 0) ∧
    (∀ a, (∀ j < bs.length, a ≠ hostKey (pasidOf s n) (pkBuffer p + j)) →
      Cells.read (deliver n p 0 bs s).hostMem a = Cells.read s.hostMem a))

/-- WRITE without write-back (R64, R65): one journal group for each atomic unit, with the bytes fetched from the buffer for
its allotments, goes behind the journal; the reply is decided and waits until they are durable; reads see the old data until
then. A write that ends early has committed a prefix of whole units. -/
def Obligations.WriteWaitsForItsGroups : Prop :=
  ∀ (s : State) (inst : Fin 64) (tag : Fin 256) (outcome : Fin 3) (units : Nat) (g : Tag) (u : Vol),
    Working opWrite s (tagKey inst tag) g → lockHeld s (tagKey inst tag) = true →
    (s.bsh.enable = true ∨ writeCompresses s g.packet = false) → vol? s (pkVolume g.packet) = some u →
    unitBlocks s (tagKey inst tag) (pkLba g.packet) (pkLength g.packet) stInternal = [] →
    keyLost s (pkVolume g.packet) = false → u.mirror = none → mayHold s inst g.packet u = false →
    (let lba := pkLba g.packet
     let done := if outcome.val = 0 then pkLength g.packet else prefixBlocks lba (pkLength g.packet) units
     let bs := gather s inst g.packet 0 (blockBytes * done)
     0 < done →
     Completes (.write inst tag outcome units) s fun t =>
      ∃ (gs : List Group) (stored : Nat), t.flc.groups = s.flc.groups ++ gs ∧
        List.Forall₂ (UnitOf (pkVolume g.packet) lba bs) (unitPieces lba done) gs ∧
        Tbl.get? t.tags (tagKey inst tag) = some { g with work := .durable, groups := gs.map (fun j => j.id), reply := {
          status := writeStatus outcome, r0 := done, r1 := stored, partialEffect := decide (done < pkLength g.packet) } } ∧
        t.flc.vols = s.flc.vols ∧ t.flc.life = { s.flc.life with hostWritten := s.flc.life.hostWritten + done } ∧
        OtherTags (tagKey inst tag) s t ∧ OnlyIn [.tags, .flc, .bsh, .fresh] s t)

/-- TRIM and FLUSH (R66, R301), and a write under write-back (R65, R67): a TRIM's reply waits for its groups, with LENGTH in
RESULT0; a held write replies at once with the blocks written; a FLUSH ends with ST_OK once every earlier write has replied and nothing is
held. -/
def Obligations.HeldWritesReplyAtOnce : Prop :=
  (∀ (s : State) (inst : Fin 64) (tag : Fin 256) (units : Nat) (g : Tag) (u : Vol),
    Working opWrite s (tagKey inst tag) g → lockHeld s (tagKey inst tag) = true →
    (s.bsh.enable = true ∨ writeCompresses s g.packet = false) → vol? s (pkVolume g.packet) = some u →
    unitBlocks s (tagKey inst tag) (pkLba g.packet) (pkLength g.packet) stInternal = [] →
    keyLost s (pkVolume g.packet) = false → mayHold s inst g.packet u = true →
    Completes (.write inst tag 0 units) s fun t =>
      (∃ stored, Ended t (tagKey inst tag) stOk (pkLength g.packet) stored) ∧
      (∃ m d, vol? t (pkVolume g.packet) = some { u with map := m, data := d } ∧
        ∀ x, Cells.read d x = if 4096 * pkLba g.packet ≤ x ∧ x < 4096 * pkLba g.packet + 4096 * pkLength g.packet
          then (gather s inst g.packet 0 (4096 * pkLength g.packet)).getD (x - 4096 * pkLba g.packet) 0
          else Cells.read u.data x) ∧
      t.flc.heldBytes = s.flc.heldBytes + blockBytes * pkLength g.packet ∧
      OtherTags (tagKey inst tag) s t ∧ OnlyIn [.tags, .locks, .units, .flc, .bsh, .fresh] s t) ∧
  (∀ (s : State) (inst : Fin 64) (tag : Fin 256) (units : Nat) (g : Tag) (u : Vol),
    Working opTrim s (tagKey inst tag) g → lockHeld s (tagKey inst tag) = true → vol? s (pkVolume g.packet) = some u →
    u.mirror = none → mayHold s inst g.packet u = false → 0 < pkLength g.packet →
    Completes (.trim inst tag false units) s fun t =>
      (∃ ids : List Nat, ids ≠ [] ∧ Tbl.get? t.tags (tagKey inst tag) = some { g with work := .durable, groups := ids
                                                                                      reply := { status := stOk, r0 := pkLength g.packet } }) ∧
      t.flc.vols = s.flc.vols ∧ OtherTags (tagKey inst tag) s t ∧ OnlyIn [.tags, .flc, .bsh, .fresh] s t) ∧
  (∀ (s : State) (inst : Fin 64) (tag : Fin 256) (g : Tag),
    Working opFlush s (tagKey inst tag) g → earlierWrite s inst g.order = false → heldData s = false →
    Completes (.flush inst tag) s fun t =>
      Ended t (tagKey inst tag) stOk 0 0 ∧ OtherTags (tagKey inst tag) s t ∧ OnlyIn [.tags, .locks, .units] s t)

/-! ### Register writes and the debug port -/

/-- REGISTER_WRITE (R486 to R489): an aligned write of 4 bytes at an offset whose block answers sets the fields of the register:
a value outside a field's range leaves that field, a field of the W1C kind clears where 1 is written, a locked register counts
LOCKED; a write of 8 bytes acts as two of 4, the lower address first; any other size or alignment counts MALFORMED; a block
that does not answer takes nothing. -/
def Obligations.RegisterWritesSetFields : Prop :=
  ∀ (s : State) (fn : Fin 2) (data : List Byte), data.length = 4 →
    (bar0Answers s fn 0x0C = true → exec (.registerWrite fn 0 0x0C data) s = .next { s with
      glb := { s.glb with cause := s.glb.cause - Nat.land s.glb.cause (leNat data) } }) ∧
    (bar0Answers s fn 0x8000 = true → exec (.registerWrite fn 0 0x8000 data) s = .next { s with sch := { s.sch with
      sliceUs := if 5 ≤ bits (leNat data) 16 8 ∧ bits (leNat data) 16 8 ≤ 100 then bits (leNat data) 16 8 else s.sch.sliceUs
      ckptUs := if 1 ≤ bits (leNat data) 0 5 ∧ bits (leNat data) 0 5 ≤ 16 then bits (leNat data) 0 5 else s.sch.ckptUs } }) ∧
    (bar0Answers s fn 0xC000 = true → lifecycle s.otp = 2 → s.sec.lock = true →
      exec (.registerWrite fn 0 0xC000 data) s = .next { s with hif := { s.hif with locked := satInc s.hif.locked 0xFF } }) ∧
    (bar0Answers s fn 0x16000 = true → exec (.registerWrite fn 0 0x16000 data) s = .next { s with spn := { s.spn with
      hopLimit := if 1 ≤ bits (leNat data) 16 16 then bits (leNat data) 16 16 else s.spn.hopLimit
      graceUs := if 100 ≤ bits (leNat data) 0 16 then bits (leNat data) 0 16 else s.spn.graceUs } }) ∧
    (bar0Answers s fn 0x18004 = true → exec (.registerWrite fn 0 0x18004 data) s = .next { s with
      otp := { s.otp with sel := bits (leNat data) 0 8 } }) ∧
    (∀ off, off % 4 = 0 → bar0Answers s fn off = false → exec (.registerWrite fn 0 off data) s = .next s) ∧
    (∀ off, off % 4 ≠ 0 → bar0Answers s fn off = true →
      exec (.registerWrite fn 0 off data) s = .next { s with hif := { s.hif with malformed := satInc s.hif.malformed 0xFF } }) ∧
    (∀ (off : Nat) (more : List Byte) (t : State), off % 8 = 0 → more.length = 4 → exec (.registerWrite fn 0 off data) s = .next t →
      exec (.registerWrite fn 0 off (data ++ more)) s = exec (.registerWrite fn 0 (off + 4) more) t) ∧
    (∀ (inst slot at_ : Nat) (i : Inst), inst < 64 → slot < 256 → at_ < 16 → nativeAt s fn inst = some i →
      Tbl.has s.tags (tagKey inst slot) = true →
      exec (.registerWrite fn 1 (0x10000 * inst + 64 * slot + 4 * at_) data) s = .next s) ∧
    (∀ (inst slot at_ : Nat) (i : Inst), inst < 64 → slot < 256 → at_ < 16 → nativeAt s fn inst = some i →
      Tbl.has s.tags (tagKey inst slot) = false →
      exec (.registerWrite fn 1 (0x10000 * inst + 64 * slot + 4 * at_) data) s = .next { s with
        insts := Tbl.modify s.insts inst (fun j => { j with slots := Cells.writeN j.slots (64 * slot + 4 * at_) data }) })

/-- The debug access port (R454, R455, R470): DBG_READ puts the word of the target at DBG_ADDR into DBG_DATA and DBG_WRITE stores
DBG_DATA there, within the scopes that are open; outside them neither has an effect. Over JTAG the port reads the registers
it reaches and writes those of the DBG block. -/
def Obligations.DebugPortReadsAndWrites : Prop :=
  (∀ (s : State) (src : Fin 3) (target : Fin 8), dbgFrom s src = true → dbgReaches s target = true → target ≠ 3 →
    exec (.dbgRead src target) s = .next { s with dbg := { s.dbg with data := dbgWord s src target s.dbg.addr } }) ∧
  (∀ (s : State) (src : Fin 3), dbgFrom s src = true → dbgReaches s 3 = true →
    Completes (.dbgRead src 3) s fun t => t.dbg = { s.dbg with data := readReg s src s.dbg.addr } ∧
      OnlyIn [.dbg, .sch, .glb, .fresh] s t) ∧
  (∀ (s : State) (src : Fin 3) (target : Fin 8), dbgReaches s target = false →
    Idles (.dbgRead src target) s ∧ Idles (.dbgWrite src target) s) ∧
  (∀ (s : State) (src : Fin 3), dbgFrom s src = true → dbgReaches s 0 = true → s.dbg.addr + 4 ≤ 2 ^ 25 →
    inTwin s.mem s.dbg.addr = false → inTwin s.mem (s.dbg.addr + 1) = false → inTwin s.mem (s.dbg.addr + 2) = false →
    inTwin s.mem (s.dbg.addr + 3) = false →
    Completes (.dbgWrite src 0) s fun t =>
      t.mem.hog = Cells.writeN s.mem.hog s.dbg.addr (leBytes 4 s.dbg.data) ∧ OnlyIn [.mem] s t) ∧
  (∀ (s : State) (off : Nat) (value : BitVec 32), powered s = true → off % 4 = 0 → dapReaches s off = true →
    exec (.dap false off value) s = .next { s with hif := { s.hif with
      jtagIr := 0x20, jtagOut := readReg { s with hif := { s.hif with jtagIr := 0x20 } } 2 off } }) ∧
  (∀ (s : State) (value : BitVec 32), powered s = true → dapReaches s 0x19010 = true →
    exec (.dap true 0x19010 value) s = .next { s with
      hif := { s.hif with jtagIr := 0x20 }
      dbg := { s.dbg with data := value.toNat } })

/-! ### Programs, scans and assets -/

/-- PROGRAM_LOAD and PROGRAM_UNLOAD (R197 to R199): a container that fails its header check gives ST_PROGRAM_FAULT; one that must
be signed and is not gives ST_AUTH_FAIL and is counted; one that passes takes the lowest free slot, with the next generation,
and the reply gives the handle; a program without users is unloaded at once, and one with users refuses new ones until the last
has replied. -/
def Obligations.ProgramsLoadAndUnload : Prop :=
  (∀ (s : State) (inst : Fin 64) (tag : Fin 256) (g : Tag), Working opProgramLoad s (tagKey inst tag) g → pkServes s = true →
    (let c := gather s inst g.packet 0 (min (pkBufLen g.packet) 131400)
     (∀ r o, verifyHeader c (pkBufLen g.packet) = some (r, o) → Completes (.programLoad inst tag) s fun t =>
        Ended t (tagKey inst tag) stProgramFault r o ∧ OtherTags (tagKey inst tag) s t ∧ OnlyIn [.tags, .locks, .units] s t) ∧
     (verifyHeader c (pkBufLen g.packet) = none → (bit (field g.packet 36 4) 0 || progSigReq s) = true → bit (field c 6 2) 0 = false →
        Completes (.programLoad inst tag) s fun t => Ended t (tagKey inst tag) stAuthFail 0 0 ∧
          t.sec = { s.sec with authFail := satInc s.sec.authFail 0xFFFF } ∧ OtherTags (tagKey inst tag) s t ∧
          OnlyIn [.tags, .locks, .units, .sec] s t) ∧
     (∀ slot, verifyHeader c (pkBufLen g.packet) = none → (bit (field g.packet 36 4) 0 || progSigReq s) = false →
        bit (field c 6 2) 0 = false → verifyCode s inst c = none → Tbl.lowestFree s.dmz.progs 0 256 = some slot →
        Tbl.countIf s.dmz.progs (fun _ x => x.inst == inst) < 16 →
        (let gen := nextGen s.dmz.progGens slot (2 ^ 24)
         Completes (.programLoad inst tag) s fun t =>
          Ended t (tagKey inst tag) stOk (slot + gen * 256) 0 ∧
          t.dmz = { s.dmz with
            progs := Tbl.set s.dmz.progs slot {
              st := .loaded, inst := inst, gen := gen, code := bytesAt c 128 (field c 8 4)
              const := bytesAt c (128 + field c 8 4) (field c 12 4), scratchLen := field c 16 4, defBudget := field c 20 4
              defFraming := field c 24 1, defFrameArg := field c 26 2
              tables := (List.range (field c 25 1)).map (fun i => field c (32 + 4 * i) 4)
              hash := BitVec.ofNat 384 (field c 64 48), unloadTag := none }
            progGens := Tbl.set s.dmz.progGens slot gen } ∧
          OtherTags (tagKey inst tag) s t ∧ OnlyIn [.tags, .locks, .units, .dmz] s t)))) ∧
  (∀ (s : State) (inst : Fin 64) (tag : Fin 256) (g : Tag), Working opProgramUnload s (tagKey inst tag) g →
    inUse s (.program (pkHandle g.packet % 256)) = false →
    Completes (.programUnload inst tag) s fun t => Ended t (tagKey inst tag) stOk 0 0 ∧
      t.dmz = { s.dmz with progs := Tbl.erase s.dmz.progs (pkHandle g.packet % 256) } ∧
      OtherTags (tagKey inst tag) s t ∧ OnlyIn [.tags, .locks, .units, .dmz] s t) ∧
  (∀ (s : State) (inst : Fin 64) (tag : Fin 256) (g : Tag), Working opProgramUnload s (tagKey inst tag) g →
    inUse s (.program (pkHandle g.packet % 256)) = true →
    Completes (.programUnload inst tag) s fun t => Tbl.get? t.tags (tagKey inst tag) = some { g with work := .lastUser } ∧
      t.dmz = { s.dmz with progs := Tbl.modify s.dmz.progs (pkHandle g.packet % 256) (fun x =>
        { x with st := .unloading, unloadTag := some (tagKey inst tag) }) } ∧
      OtherTags (tagKey inst tag) s t ∧ OnlyIn [.tags, .dmz] s t)

/-- SCAN and the entry of a record (R202, R203, R214 to R220): a scan of plain blocks runs the program over the blocks up to the first
that cannot be read, delivers the emitted bytes and the trailer, and gives their length and the record counts, or the trap code and
where it stopped; a worker that enters a record starts with the record's length, number and offset in G1 to G3. -/
def Obligations.ScanRunsTheRecords : Prop :=
  (∀ (s : State) (inst : Fin 64) (tag : Fin 256) (lost crcFail again : List Nat) (g : Tag) (x : Prog) (bs : List Byte) (st : Nat),
    Working opScan s (tagKey inst tag) g → lockHeld s (tagKey inst tag) = true → mayWrite s inst = true →
    scanUnitsRun s (pkHandle g.packet) = true → progAt s (pkHandle g.packet) = some x → firstWrong (scanFields g.packet) = none →
    field g.packet 48 4 = 0 → pkSeal g.packet = false → 128 ≤ pkBufLen g.packet →
    plainInput (fun i => if unitStatus s (tagKey inst tag) ((pkLba g.packet + i) / 8 - pkLba g.packet / 8) ≠ stOk
        then (unitStatus s (tagKey inst tag) ((pkLba g.packet + i) / 8 - pkLba g.packet / 8), [])
        else volumeReader s g.packet lost crcFail i) 0 (pkLength g.packet) = (bs, st) →
    (let c := scanSet s inst (tagKey inst tag) g.packet x
     let i : ScanIn := { bytes := bs, total := pkLength g.packet * 4096, status := st }
     let r := runScan (countHostRead (bs.length / 4096) s) c i
     Completes (.scan inst tag lost crcFail again) s fun t =>
      Ended t (tagKey inst tag) (scanStatus i r.how) (scanWords r (r.gather.stream ++ trailer r).length).1
        (scanWords r (r.gather.stream ++ trailer r).length).2 ∧
      t.hostMem = (deliver inst g.packet 0 (r.gather.stream ++ trailer r) s).hostMem ∧
      t.flc.life.hostRead = s.flc.life.hostRead + bs.length / 4096 ∧
      t.idx = { s.idx with searches := s.idx.searches + r.searches } ∧ OtherTags (tagKey inst tag) s t ∧
      OnlyIn [.tags, .locks, .units, .flc, .idx, .dmz, .hostMem, .mgr, .bsh, .sec, .fresh] s t)) ∧
  (∀ (s : State) (worker : Nat) (inst : Fin 64) (tag : Fin 256) (n start len : Nat) (g : Tag) (c : ScanSet) (i : ScanIn),
    Tbl.get? s.tags (tagKey inst tag) = some g → g.st = .running → g.work = .working → serving s = true →
    lockHeld s (tagKey inst tag) = true → abortComing s (tagKey inst tag) = false → recordInput s inst (tagKey inst tag) g.packet = some (c, i) →
    recordAt c.framing c.arg i n 0 = some (start, len) → workerFree s worker (tagKey inst tag) n = true →
    Completes (.recordEntry worker inst tag n) s fun t =>
      (∃ w, Tbl.get? t.dmz.workers worker = some w ∧ w.tag = tagKey inst tag ∧ w.st = .running ∧ w.pc = 0 ∧ w.count = 0 ∧
        w.budget = c.budget ∧ w.record = bytesAt i.bytes start len ∧ w.loops = [] ∧ w.emitted = [] ∧
        w.v = [0, 0, 0, 0] ∧ w.g = [0, BitVec.ofNat 64 w.record.length, BitVec.ofNat 64 n, BitVec.ofNat 64 start, 0, 0, 0, 0, 0, 0, 0,
          0, 0, 0, 0, 0]) ∧
      (∀ j, j ≠ worker → Tbl.get? t.dmz.workers j = Tbl.get? s.dmz.workers j) ∧ OnlyIn [.dmz] s t)

/-- READ_ASSET and INSTALL_CHUNK (R84, R86 to R93): the first check that fails gives the reply; otherwise the chunks of the range
are delivered one after another up to the first that fails, sealed where a session is named, and the reply gives the bytes
delivered and the session's counter; an installed record goes to the blocks of its chunk, and the reply waits for its groups. -/
def Obligations.AssetsAreReadAndInstalled : Prop :=
  (∀ (s : State) (inst : Fin 64) (tag : Fin 256) (lost crcFail again : List Nat) (g : Tag) (st r0 : Nat),
    Working opReadAsset s (tagKey inst tag) g → lockHeld s (tagKey inst tag) = true → mayWrite s inst = true →
    s.bsh.enable = true → field g.packet 48 4 = 0 →
    packageChecks s (volumeReader s g.packet lost []) inst (tagKey inst tag) (pkHandle g.packet % 256) (field g.packet 36 4)
      (field g.packet 40 4) (field g.packet 40 4) false g.packet
      (fun h => decide (assetLen s inst g.packet (field g.packet 36 4) (field g.packet 40 4) h ≤ pkBufLen g.packet)) = .error (st, r0) →
    Completes (.readAsset inst tag lost crcFail again) s fun t =>
      Ended t (tagKey inst tag) st r0 0 ∧ t.hostMem = s.hostMem ∧ OtherTags (tagKey inst tag) s t ∧
      OnlyIn [.tags, .locks, .units, .sec] s t) ∧
  (∀ (s : State) (inst : Fin 64) (tag : Fin 256) (lost crcFail again : List Nat) (g : Tag) (o : Opened) (sess : Option (Nat × Seal)),
    Working opReadAsset s (tagKey inst tag) g → lockHeld s (tagKey inst tag) = true → mayWrite s inst = true →
    s.bsh.enable = true → field g.packet 48 4 = 0 →
    packageChecks s (volumeReader s g.packet lost []) inst (tagKey inst tag) (pkHandle g.packet % 256) (field g.packet 36 4)
      (field g.packet 40 4) (field g.packet 40 4) false g.packet
      (fun h => decide (assetLen s inst g.packet (field g.packet 36 4) (field g.packet 40 4) h ≤ pkBufLen g.packet)) = .ok (o, sess) →
    (let slot := pkHandle g.packet % 256
     let r := assetLoop (chunkAt (keepPackage (pkVolume g.packet) (pkLba g.packet) slot o.header o.directory o.dict s) (tagKey inst tag)
        (volumeReader s g.packet lost []) slot o crcFail) (fun _ => false) (field g.packet 36 4) 0 (field g.packet 40 4)
     let out := (match sess with | some (_, x) => sealUnits x 0 r.units | none => r.units).flatten
     r.status = stOk →
     Completes (.readAsset inst tag lost crcFail again) s fun t =>
      Ended t (tagKey inst tag) stOk out.length ((sess.map (fun x => x.2.counter)).getD 0) ∧
      t.hostMem = (deliver inst g.packet 0 out s).hostMem ∧ OtherTags (tagKey inst tag) s t)) ∧
  (∀ (s : State) (inst : Fin 64) (tag : Fin 256) (outcome : Fin 3) (units : Nat) (lost : List Nat) (g : Tag) (u : Vol) (st r0 : Nat),
    Working opInstallChunk s (tagKey inst tag) g → s.locks.any (fun l => l.tag == tagKey inst tag) = false →
    vol? s (pkVolume g.packet) = some u →
    installChecks s (volumeReader s g.packet lost []) g.packet (gather s inst g.packet 0 (pkLength g.packet)) u.capacity = .error (st, r0) →
    Completes (.installChunk inst tag outcome units lost) s fun t =>
      Ended t (tagKey inst tag) st r0 0 ∧ OtherTags (tagKey inst tag) s t ∧ OnlyIn [.tags, .locks, .units, .sec] s t) ∧
  (∀ (s : State) (inst : Fin 64) (tag : Fin 256) (units : Nat) (lost : List Nat) (g : Tag) (u : Vol) (off count : Nat) (o : Opened),
    Working opInstallChunk s (tagKey inst tag) g → lockHeld s (tagKey inst tag) = true → vol? s (pkVolume g.packet) = some u →
    installChecks s (volumeReader s g.packet lost []) g.packet (gather s inst g.packet 0 (pkLength g.packet)) u.capacity = .ok (off, count, o) →
    u.mirror = none → mayHold s inst g.packet u = false → 0 < count →
    Completes (.installChunk inst tag 0 units lost) s fun t =>
      ∃ gs : List Group, t.flc.groups = s.flc.groups ++ gs ∧
        List.Forall₂ (UnitOf (pkVolume g.packet) (pkLba g.packet + off)
          (bytesAt (gather s inst g.packet 0 (pkLength g.packet)) 0 (4096 * count))) (unitPieces (pkLba g.packet + off) count) gs ∧
        Tbl.get? t.tags (tagKey inst tag) = some { g with work := .durable, groups := gs.map (fun j => j.id), reply := {
          status := stOk, r0 := min (pkLength g.packet) (4096 * count) } } ∧
        t.flc.vols = s.flc.vols ∧ OtherTags (tagKey inst tag) s t ∧ OnlyIn [.tags, .flc, .bsh, .fresh] s t)

/-! ### The index unit -/

/-- INDEX_SEARCH (R229 to R233): no match gives ST_OK with zeros; one gives its DATA, PRIORITY and index with a count of 1 and no
cursor; several give ST_OK_MULTI, the first in the order of PRIORITY and index, their count, and a cursor at that match,
which is not live before the reply is committed. -/
def Obligations.IndexSearchFindsTheFirstMatch : Prop :=
  (∀ (s : State) (inst : Fin 64) (tag : Fin 256) (err : Bool) (g : Tag) (tb : Nat) (x : ITable),
    IndexWorking opIndexSearch s (tagKey inst tag) g tb x → matchesOf s tb x (pkKey g.packet) = [] →
    Replies (.indexSearch inst tag err) s (tagKey inst tag) stOk 0 0 [.idx] fun t =>
      t.idx = { s.idx with searches := s.idx.searches + 1 }) ∧
  (∀ (s : State) (inst : Fin 64) (tag : Fin 256) (g : Tag) (tb : Nat) (x : ITable) (prio i : Nat),
    IndexWorking opIndexSearch s (tagKey inst tag) g tb x → matchesOf s tb x (pkKey g.packet) = [(prio, i)] →
    Replies (.indexSearch inst tag false) s (tagKey inst tag) stOk (entryData s i + 2 ^ 48 * prio) (i + 2 ^ 31 + 1 * 2 ^ 32 + 2 ^ 48 * 0)
      [.idx] fun t => t.idx = { s.idx with searches := s.idx.searches + 1 }) ∧
  (∀ (s : State) (inst : Fin 64) (tag : Fin 256) (g : Tag) (tb : Nat) (x : ITable) (m : Nat × Nat),
    IndexWorking opIndexSearch s (tagKey inst tag) g tb x → 1 < (matchesOf s tb x (pkKey g.packet)).length →
    firstMatch (matchesOf s tb x (pkKey g.packet)) = some m →
    ∃ c gen, Replies (.indexSearch inst tag false) s (tagKey inst tag) stOkMulti (entryData s m.2 + 2 ^ 48 * m.1)
      (m.2 + 2 ^ 31 + min (matchesOf s tb x (pkKey g.packet)).length 0xFFFF * 2 ^ 32 + 2 ^ 48 * (c + 4096 * gen)) [.idx] fun t =>
        t.idx.entries = s.idx.entries ∧ t.idx.tables = s.idx.tables ∧
        Tbl.get? t.idx.cursors c = some {
          gen := gen, live := false, table := tb, key := pkKey g.packet, inst := inst, prio := m.1, index := m.2, used := s.now
          stepTag := some (tagKey inst tag), next := none }) ∧
  -- the order of R230
  (∀ (ms : List (Nat × Nat)) (m : Nat × Nat), firstMatch ms = some m →
    m ∈ ms ∧ ∀ b ∈ ms, m.1 < b.1 ∨ (m.1 = b.1 ∧ m.2 ≤ b.2))

/-- INDEX_STEP, INDEX_INSERT and INDEX_DELETE (R234, R236, R239): a step goes to the first match after the cursor's position, and its
cursor moves there or is freed with the reply; an insert of the same KEY and PRIORITY only replaces DATA, another takes a place or gives
ST_BAD_RANGE; a delete takes the entries of that KEY, of one PRIORITY or of all, and counts them. -/
def Obligations.IndexStepsInsertsDeletes : Prop :=
  (∀ (s : State) (inst : Fin 64) (tag : Fin 256) (g : Tag) (tb : Nat) (x : ITable) (c : Cursor),
    IndexWorking opIndexStep s (tagKey inst tag) g tb x → stepPending s g.packet = false →
    cursorOf s inst (field g.packet 36 2) = some c → c.table = tb →
    (let later := (matchesOf s tb x c.key).filter (fun m => matchBefore (c.prio, c.index) m)
     let moved (next : Option (Nat × Nat)) : Idx := { s.idx with
      searches := s.idx.searches + 1
      cursors := Tbl.modify s.idx.cursors (field g.packet 36 2 % 4096) (fun y => { y with stepTag := some (tagKey inst tag), next := next }) }
     (later = [] → Replies (.indexStep inst tag false) s (tagKey inst tag) stOk 0 0 [.idx] fun t => t.idx = moved none) ∧
     (∀ m, later = [m] → Replies (.indexStep inst tag false) s (tagKey inst tag) stOk (entryData s m.2 + 2 ^ 48 * m.1)
        (m.2 + 2 ^ 31 + 1 * 2 ^ 32 + 2 ^ 48 * 0) [.idx] fun t => t.idx = moved none) ∧
     (∀ m, 1 < later.length → firstMatch later = some m → Replies (.indexStep inst tag false) s (tagKey inst tag) stOkMulti
        (entryData s m.2 + 2 ^ 48 * m.1) (m.2 + 2 ^ 31 + min later.length 0xFFFF * 2 ^ 32 + 2 ^ 48 * field g.packet 36 2) [.idx]
        fun t => t.idx = moved (some m)))) ∧
  (∀ (s : State) (inst : Fin 64) (tag : Fin 256) (g : Tag) (tb : Nat) (x : ITable), IndexWorking opIndexInsert s (tagKey inst tag) g tb x →
    pkKey g.packet < 2 ^ x.keyBits →
    (let e : IEntry := { table := tb, key := pkKey g.packet, tag := keyTag8 x (pkKey g.packet), prio := field g.packet 58 2
                         data := field g.packet 52 6 }
     (∀ i o, sameEntry s tb (pkKey g.packet) (field g.packet 58 2) = some (i, o) →
        Replies (.indexInsert inst tag) s (tagKey inst tag) stOk i (tableFree s tb x) [.idx] fun t =>
          t.idx = { s.idx with entries := Tbl.set s.idx.entries i { o with data := field g.packet 52 6 } }) ∧
     (∀ i moved u, sameEntry s tb (pkKey g.packet) (field g.packet 58 2) = none → place tb x e s = some (i, moved, u) →
        Replies (.indexInsert inst tag) s (tagKey inst tag) stOk i (tableFree u tb x) [.idx] fun t =>
          t.idx = u.idx ∧ Tbl.get? t.idx.entries i = some e) ∧
     (sameEntry s tb (pkKey g.packet) (field g.packet 58 2) = none → place tb x e s = none →
        Replies (.indexInsert inst tag) s (tagKey inst tag) stBadRange 0 0 [] fun _ => True))) ∧
  (∀ (s : State) (inst : Fin 64) (tag : Fin 256) (g : Tag) (tb : Nat) (x : ITable), IndexWorking opIndexDelete s (tagKey inst tag) g tb x →
    (let one (e : IEntry) : Bool := e.key == pkKey g.packet && e.prio == field g.packet 52 2
     let all_ (e : IEntry) : Bool := e.key == pkKey g.packet
     (field g.packet 54 1 = 0 → Replies (.indexDeleteEntry inst tag) s (tagKey inst tag) stOk
        (Tbl.countIf (s.idx.entries.filter (fun p => p.2.table == tb)) (fun _ e => one e)) 0 [.idx] fun t =>
          t.idx = { s.idx with entries := s.idx.entries.filter (fun p => !(p.2.table == tb && one p.2)) }) ∧
     (field g.packet 54 1 = 1 → field g.packet 52 2 = 0 → Replies (.indexDeleteKey inst tag) s (tagKey inst tag) stOk
        (Tbl.countIf (s.idx.entries.filter (fun p => p.2.table == tb)) (fun _ e => all_ e)) 0 [.idx] fun t =>
          t.idx = { s.idx with entries := s.idx.entries.filter (fun p => !(p.2.table == tb && all_ p.2)) }) ∧
     (field g.packet 54 1 = 1 → field g.packet 52 2 ≠ 0 →
        Replies (.indexDeleteKey inst tag) s (tagKey inst tag) stBadField 52 0 [] fun _ => True)))

/-- Tables, cursors and the unit's own work (R235, R238, R245 to R247, R410): a create takes the lowest table number and the lowest
run of free indexes; a delete or empty waits for the started commands that use the table; an idle cursor is freed; a respread moves
one entry at a time and then ends; a bank that fails is replaced by the spare while it stands. -/
def Obligations.IndexTablesAndIntegrity : Prop :=
  (∀ (s : State) (fn : Fin 2) (x : ITable) (tb base : Nat), bar0Answers s fn 0xD024 = true → s.idx.req = none →
    cfgTable s.idx.cfg = some x → Tbl.lowestFree s.idx.tables 0 256 = some tb → lowestBase s.idx.tables x.size = some base →
    ∃ gen, exec (.idxTableCreate fn) s = .next { s with idx := { s.idx with
      tables := Tbl.set s.idx.tables tb { x with base := base, gen := gen }, tblGens := Tbl.set s.idx.tblGens tb gen
      result := 1, handle := tb + gen * 256 } }) ∧
  (∀ (s : State) (fn : Fin 2) (tb : Fin 256), bar0Answers s fn 0xD024 = true → s.idx.req = none →
    Tbl.has s.idx.tables tb = true → tableInUse s tb = false →
    exec (.idxTableDelete fn tb) s = .next { s with idx := { s.idx with
      result := 1, tables := Tbl.erase (Tbl.modify s.idx.tables tb (fun t => { t with respread := false })) tb
      entries := s.idx.entries.filter (fun p => !(p.2.table == tb)), cursors := s.idx.cursors.filter (fun p => !(p.2.table == tb)) } } ∧
    exec (.idxTableEmpty fn tb) s = .next { s with idx := { s.idx with
      result := 1, tables := Tbl.modify s.idx.tables tb (fun t => { t with respread := false })
      entries := s.idx.entries.filter (fun p => !(p.2.table == tb)), cursors := s.idx.cursors.filter (fun p => !(p.2.table == tb)) } }) ∧
  (∀ (s : State) (fn : Fin 2) (tb : Fin 256), bar0Answers s fn 0xD024 = true → s.idx.req = none →
    Tbl.has s.idx.tables tb = true → tableInUse s tb = true →
    exec (.idxTableDelete fn tb) s = .next { s with idx := { s.idx with req := some { op := 2, table := tb } } } ∧
    exec (.idxTableEmpty fn tb) s = .next { s with idx := { s.idx with req := some { op := 3, table := tb } } }) ∧
  (∀ (s : State) (n : Fin 4096) (c : Cursor), Tbl.get? s.idx.cursors n = some c → powered s = true → c.live = true →
    c.stepTag = none → c.used + 1000 * s.idx.cursorMs < s.now →
    exec (.cursorIdleExpiry n) s = .next { s with idx := { s.idx with cursors := Tbl.erase s.idx.cursors n } }) ∧
  (∀ (s : State) (tb : Fin 256) (x : ITable), Tbl.get? s.idx.tables tb = some x → powered s = true → s.idx.enable = true →
    x.respread = true →
    (let es := (liveEntries s tb).map Prod.fst
     (x.size - es.length = 0 ∨ x.hole = 0 ∨ respreadMove x (spacing x es.length (x.size - es.length)) es.zipIdx = none →
       exec (.respreadMove tb) s = .next { s with idx := { s.idx with tables := Tbl.modify s.idx.tables tb (fun t => { t with respread := false }) } }) ∧
     (∀ a b e, x.size - es.length ≠ 0 → x.hole ≠ 0 → respreadMove x (spacing x es.length (x.size - es.length)) es.zipIdx = some (a, b) →
       Tbl.get? s.idx.entries a = some e →
       exec (.respreadMove tb) s = .next { s with idx := { s.idx with
         entries := Tbl.set (Tbl.erase s.idx.entries a) b e, cursors := Tbl.mapVals s.idx.cursors (fun _ c => moveCursor tb a b c) } }))) ∧
  (∀ (s : State) (found : Nat), powered s = true → s.idx.enable = true →
    exec (.idxScrub found) s = .next { s with idx := { s.idx with corrected := min (s.idx.corrected + found) 0xFFFF } }) ∧
  (∀ (s : State) (bank : Fin 17) (ns : Nat), powered s = true → bit s.idx.bankOk bank = true → bank.val < 16 →
    bit s.idx.bankOk 16 = true → s.idx.replaces = 0xFF →
    Completes (.indexBankFault bank ns) s fun t =>
      t.idx = { s.idx with
        bankOk := setBit s.idx.bankOk bank false, replaces := bank, takeovers := satInc s.idx.takeovers 0xFF } ∧
      OnlyIn [.idx, .glb, .pwr, .flc, .insts] s t)

/-! ### The codec, stages and lanes -/

/-- CODEC and CODEC_RESUME (R104, R107, R114 to R116): the first wrong field gives ST_BAD_FIELD with its offset; a job on a new stream, on
the open stream of its context, or on a suspended one, ends as its input and room say; a compression job without a context gives
ST_INCOMPRESSIBLE, with nothing delivered, when its output does not shrink enough. -/
def Obligations.CodecJobsEnd : Prop :=
  (∀ (s : State) (inst : Fin 64) (tag : Fin 256) (g : Tag) (o : Nat), CodecWorking opCodec s inst (tagKey inst tag) g →
    s.bsh.enable = true → mayWrite s inst = true → firstWrong (codecFields s inst g.packet) = some o →
    (field g.packet 48 1 = 0 → Replies (.codecDecompress inst tag) s (tagKey inst tag) stBadField o 0 [] fun _ => True) ∧
    (field g.packet 48 1 = 1 → Replies (.codecCompress inst tag) s (tagKey inst tag) stBadField o 0 [] fun _ => True)) ∧
  (∀ (s : State) (inst : Fin 64) (tag : Fin 256) (g : Tag), CodecWorking opCodec s inst (tagKey inst tag) g →
    firstWrong (codecFields s inst g.packet) = none → bit (field g.packet 50 1) 0 = false →
    (let x := newStream (field g.packet 48 1) (field g.packet 49 1) (pkHandle g.packet)
     CodecReady s inst (tagKey inst tag) x →
     (field g.packet 48 1 = 0 → Completes (.codecDecompress inst tag) s
        (CodecJobEnds inst (tagKey inst tag) x (bit (field g.packet 50 1) 1) g.packet s)) ∧
     (field g.packet 48 1 = 1 → pkContext g.packet ≠ 0 → Completes (.codecCompress inst tag) s
        (CodecJobEnds inst (tagKey inst tag) x (bit (field g.packet 50 1) 1) g.packet s)))) ∧
  (∀ (s : State) (inst : Fin 64) (tag : Fin 256) (g : Tag), CodecWorking opCodec s inst (tagKey inst tag) g →
    firstWrong (codecFields s inst g.packet) = none → bit (field g.packet 50 1) 0 = false →
    field g.packet 48 1 = 1 → pkContext g.packet = 0 →
    (let x := newStream 1 (field g.packet 49 1) (pkHandle g.packet)
     let r := Config.codecJob {
       mode := 1, format := x.format, ends := bit (field g.packet 50 1) 1, ctx := carried x, dict := dictBytes s inst x.dictCtx, refs := []
       input := gather s inst g.packet 0 (pkLength g.packet), room := 2 ^ 40 }
     let len := pkLength g.packet
     let bound := if marginOf s inst = 0 then len - 1 else len - len * marginOf s inst / 16
     CodecReady s inst (tagKey inst tag) x →
     Completes (.codecCompress inst tag) s fun t =>
       (r.kind < 2 → shrunk r.output.length len (marginOf s inst) = true → r.output.length ≤ field g.packet 44 4 →
         Ended t (tagKey inst tag) stOk len r.output.length) ∧
       (r.kind < 2 → shrunk r.output.length len (marginOf s inst) = false →
         Ended t (tagKey inst tag) (if bound ≤ field g.packet 44 4 then stIncompressible else stCodecLimit) len 0) ∧
       OtherTags (tagKey inst tag) s t ∧ OnlyIn [.tags, .locks, .units, .bsh, .mgr, .hostMem, .fresh] s t)) ∧
  (∀ (s : State) (inst : Fin 64) (tag : Fin 256) (g : Tag) (x : Ctx), CodecWorking opCodecResume s inst (tagKey inst tag) g →
    ctxOf s inst (pkContext g.packet) = some x → x.st = .suspended → CodecReady s inst (tagKey inst tag) x →
    Completes (.codecResume inst tag) s (CodecJobEnds inst (tagKey inst tag) x x.endSeen g.packet s)) ∧
  (∀ (s : State) (inst : Fin 64) (tag : Fin 256) (g : Tag), CodecWorking opCodecResume s inst (tagKey inst tag) g →
    s.bsh.enable = true → mayWrite s inst = true →
    ctxOf s inst (pkContext g.packet) = none → Replies (.codecResume inst tag) s (tagKey inst tag) stBadField 52 0 [] fun _ => True)

/-- CODEC_SAVE and CODEC_RESTORE (R111, R112): a save delivers the context's image and gives its length; a restore makes the context
that the image describes, or ends with ST_CODEC_DATA and the offset of the first wrong field; a context number that may
not be used gives ST_BAD_FIELD. -/
def Obligations.CodecContextsSaveAndRestore : Prop :=
  (∀ (s : State) (inst : Fin 64) (tag : Fin 256) (g : Tag) (x : Ctx), CodecWorking opCodecSave s inst (tagKey inst tag) g →
    mayWrite s inst = true → ctxOf s inst (pkContext g.packet) = some x →
    Replies (.codecSave inst tag) s (tagKey inst tag) stOk (ctxImage x).length 0 [.mgr, .hostMem] fun t =>
      t.hostMem = (deliver inst g.packet 0 (ctxImage x) s).hostMem) ∧
  (∀ (s : State) (inst : Fin 64) (tag : Fin 256) (g : Tag), CodecWorking opCodecRestore s inst (tagKey inst tag) g →
    pkContext g.packet ≠ 0 → pkContext g.packet ≤ contextCount s inst → dictInUse s inst (pkContext g.packet) = false →
    (let b := gather s inst g.packet 0 (min (pkBufLen g.packet) 69632)
     (∀ o, firstWrong (imageFields s inst (pkBufLen g.packet) b) = some o →
        Replies (.codecRestore inst tag) s (tagKey inst tag) stCodecData o 0 [.bsh] fun t =>
          ctxOf t inst (pkContext g.packet) = none ∧ t.bsh.dataErr = satInc s.bsh.dataErr 0xFFFF) ∧
     (firstWrong (imageFields s inst (pkBufLen g.packet) b) = none → (imageCtx b).st ≠ .dictionary →
        Replies (.codecRestore inst tag) s (tagKey inst tag) stOk (4096 + (imageCtx b).history.length) 0 [.bsh] fun t =>
          ctxOf t inst (pkContext g.packet) = some (imageCtx b)))) ∧
  (∀ (s : State) (inst : Fin 64) (tag : Fin 256) (g : Tag), CodecWorking opCodecRestore s inst (tagKey inst tag) g →
    pkContext g.packet = 0 ∨ contextCount s inst < pkContext g.packet ∨ dictInUse s inst (pkContext g.packet) = true →
    Replies (.codecRestore inst tag) s (tagKey inst tag) stBadField 52 0 [] fun _ => True)

/-- Stages and lanes (R14 to R16, R21, R88, R96, R160, R407): a stage that finishes a good unit passes it to its next stage; the first
CRC-32C mismatch starts the unit again from its first stage and takes the lane that wrote the data out of service, the second ends it with
ST_INTERNAL; the first failing tag has the chunk read again, the second ends it with ST_AUTH_FAIL; another failure ends the unit with its
status. A lane, engine or decoder that fails leaves service, and a spare that takes over replaces it. -/
def Obligations.StagesAndLanes : Prop :=
  (∀ (s : State) (inst : Fin 64) (tag : Fin 256) (i lane len outcome by_ ns : Nat) (g : Tag) (u : UnitDesc),
    Tbl.get? s.tags (tagKey inst tag) = some g → g.st = .running → g.work = .working → serving s = true →
    stageOps.contains (pkOpcode g.packet) = true → hasUnit g.packet i = true →
    (Tbl.get? s.units (unitKey (tagKey inst tag) i)).getD (newUnit s inst g i) = u → u.status = stOk → u.next ≠ 0xFF →
    outcomeOk s g.packet u outcome lane by_ = true →
    Completes (.stageUnitDone inst tag i lane len outcome by_ ns) s fun t =>
      (∃ v, Tbl.get? t.units (unitKey (tagKey inst tag) i) = some v ∧
        (outcome = 0 → (u.next ≠ sDma ∨ u.isProtected = false) → v.status = stOk ∧ v.inLen = u.outLen ∧ v.inBuf = u.outBuf ∧ v.outLen = len ∧
          v.next = nextStage (stageOrder (pkOpcode g.packet)) u.stages u.next) ∧
        (outcome = 0 → u.next = sDma → u.isProtected = true → v = { u with status := stInternal }) ∧
        (outcome = 1 → u.retry = 0 → v = { u with retry := 1, next := firstStage (stageOrder (pkOpcode g.packet)) u.stages }) ∧
        (outcome = 1 → u.retry ≠ 0 → v = { u with status := stInternal }) ∧
        (outcome = 2 → u.reread = false → v = { u with reread := true, next := firstStage (stageOrder (pkOpcode g.packet)) u.stages }) ∧
        (outcome = 2 → u.reread = true → v = { u with status := stAuthFail }) ∧
        (2 < outcome → v = { u with status := outcome })) ∧
      (outcome = 1 → producingPool g.packet u.stages = some 0 → t.bsh.dOk = setBit s.bsh.dOk lane false) ∧
      (outcome = 1 → producingPool g.packet u.stages = some 1 → t.bsh.cOk = setBit s.bsh.cOk lane false) ∧
      (outcome = 1 → producingPool g.packet u.stages = some 2 → t.sec.aesOk = setBit s.sec.aesOk lane false) ∧
      (∀ j, j ≠ unitKey (tagKey inst tag) i → Tbl.get? t.units j = Tbl.get? s.units j) ∧
      OnlyIn [.units, .glb, .pwr, .flc, .insts, .bsh, .sec, .fresh] s t) ∧
  (∀ (s : State) (lane by_ ns : Nat), powered s = true →
    (laneFaultOk s 0 lane by_ = true → Completes (.laneFault 0 lane by_ ns) s fun t =>
      t.bsh = { s.bsh with
        dOk := setBit s.bsh.dOk lane false, dReplaced := if by_ = 8 ∧ s.bsh.dReplaced = 0xFF then lane else s.bsh.dReplaced } ∧
      OnlyIn [.bsh, .glb, .pwr, .flc, .insts] s t) ∧
    (laneFaultOk s 1 lane by_ = true → Completes (.laneFault 1 lane by_ ns) s fun t =>
      t.bsh = { s.bsh with
        cOk := setBit s.bsh.cOk lane false, cReplaced := if by_ = 4 ∧ s.bsh.cReplaced = 0xFF then lane else s.bsh.cReplaced } ∧
      OnlyIn [.bsh, .glb, .pwr, .flc, .insts] s t) ∧
    (laneFaultOk s 2 lane by_ = true → Completes (.laneFault 2 lane by_ ns) s fun t =>
      t.sec = { s.sec with
        aesOk := setBit s.sec.aesOk lane false
        a10Replaces := if by_ = 10 ∧ s.sec.a10Replaces = 0xFF then lane else s.sec.a10Replaces
        a11Replaces := if by_ = 11 ∧ s.sec.a11Replaces = 0xFF then lane else s.sec.a11Replaces } ∧
      OnlyIn [.sec, .glb, .pwr, .flc, .insts] s t)) ∧
  (∀ (s : State) (lane : Fin 4) (by_ ns : Nat), powered s = true → unitOk s.sec.shaOk lane = true →
    rerunOk s.sec.shaOk 4 lane by_ [] = true → Completes (.shaLaneFault lane by_ ns) s fun t =>
      t.sec = { s.sec with shaOk := setBit s.sec.shaOk lane false } ∧ OnlyIn [.sec, .glb, .pwr, .flc, .insts] s t) ∧
  (∀ (s : State) (ns : Nat), powered s = true → unitOk s.sec.pkOk 0 = true → unitOk s.sec.pkOk 1 = true →
    Completes (.pkEngineFault 0 ns) s fun t =>
      t.sec = { s.sec with pkOk := setBit s.sec.pkOk 0 false, pk1Replaces := 0 } ∧ OnlyIn [.sec, .glb, .pwr, .flc, .insts] s t) ∧
  (∀ (s : State) (d : Fin 5) (by_ ns : Nat), powered s = true → unitOk s.flc.softOk d = true →
    rerunOk s.flc.softOk 5 d by_ (standing s.flc.softOk d [(4, s.flc.softReplaces)]) = true →
    Completes (.softDecoderFault d by_ ns) s fun t =>
      t.flc.softOk = setBit s.flc.softOk d false ∧
      t.flc.softReplaces = (if by_ = 4 ∧ s.flc.softReplaces = 0xFF then d.val else s.flc.softReplaces) ∧
      OnlyIn [.glb, .pwr, .flc, .insts] s t)

/-! ### Instances, mailboxes and migration -/

/-- INSTANCE_CREATE, INSTANCE_RESET, INSTANCE_DESTROY and MGR_INST_CTL (R345 to R347, R352, R362, R365): the first check that fails
gives the reply; a new instance is ACTIVE with its PASID and vectors and with nothing of an earlier one; a reset or destroy fences the
instance, ends each of its busy tags with ST_ABORTED_BY_RESET and takes its licences, and the reply counts the tags; a write of
MGR_INST_CTL with DRAIN makes an ACTIVE instance drain, one without it ACTIVE again, and PORT changes only while no tag is busy. -/
def Obligations.InstancesComeAndGo : Prop :=
  (∀ (s : State) (inst : Fin 64) (tag : Fin 256) (g : Tag) (r : Reply), Working opInstanceCreate s (tagKey inst tag) g →
    instanceRefused s g.packet = some r →
    Replies (.instanceCreate inst tag) s (tagKey inst tag) r.status r.r0 r.r1 [] fun _ => True) ∧
  (∀ (s : State) (inst : Fin 64) (tag : Fin 256) (g : Tag), Working opInstanceCreate s (tagKey inst tag) g →
    instanceRefused s g.packet = none →
    Replies (.instanceCreate inst tag) s (tagKey inst tag) stOk (field g.packet 36 1) 0 [.insts] fun t =>
      (∃ i, Tbl.get? t.insts (field g.packet 36 1) = some i ∧ i.st = .active ∧ i.pasid = field g.packet 40 4 ∧
        i.slice = (field g.packet 37 1 == 1) ∧ i.vecBase = field g.packet 44 2 ∧ i.vecCount = field g.packet 46 2 ∧ i.slots = [] ∧
        i.ring.enable = false ∧ i.drain = false ∧ i.fenced = false ∧ i.feat = resetFeat) ∧
      (∀ m, m ≠ field g.packet 36 1 → Tbl.get? t.insts m = Tbl.get? s.insts m)) ∧
  (∀ (s : State) (inst : Fin 64) (tag : Fin 256) (g : Tag) (i : Inst), keyInst (tagKey inst tag) ≠ field g.packet 36 1 →
    Tbl.get? s.insts (field g.packet 36 1) = some i →
    (let after (t : State) (st : InstSt) : Prop :=
      (∀ p ∈ busyOf s (field g.packet 36 1), ∃ y, Tbl.get? t.tags p.1 = some y ∧ y.st = .done ∧ y.reply.status = stAbortedByReset) ∧
      (∃ j, Tbl.get? t.insts (field g.packet 36 1) = some j ∧ j.fenced = true ∧ j.st = st ∧ j.pasid = i.pasid ∧
        j.mbox.pend = false ∧ j.mbox.deliv = false) ∧
      OnlyIn [.bsh, .sec, .sch, .dmz, .idx, .spn, .tags, .locks, .insts, .units, .fresh] s t
     (Working opInstanceReset s (tagKey inst tag) g → Completes (.instanceReset inst tag) s fun t =>
        Ended t (tagKey inst tag) stOk (busyOf s (field g.packet 36 1)).length 0 ∧ after t .resetting) ∧
     (Working opInstanceDestroy s (tagKey inst tag) g → Completes (.instanceDestroy inst tag) s fun t =>
        Ended t (tagKey inst tag) stOk 0 0 ∧ after t .destroying))) ∧
  (∀ (s : State) (fn : Fin 2) (v : BitVec 32) (i : Inst), bar0Answers s fn 0x401C = true → Tbl.get? s.insts s.mgr.instSel = some i →
    (let port := if s.glb.arrangement = 1 ∧ busyOf s s.mgr.instSel = [] then bits v.toNat 8 1 else i.port
     (v.getLsbD 0 = true → i.drain = false → s.mgr.instSel ≠ 0 → i.st = .active → busyOf s s.mgr.instSel ≠ [] →
        exec (.drainSet fn v) s = .next { s with insts := Tbl.modify s.insts s.mgr.instSel (fun j =>
          { j with port := if s.glb.arrangement = 1 ∧ busyOf s s.mgr.instSel = [] then bits v.toNat 8 1 else j.port
                   drain := true, st := if j.st = .active then .draining else j.st }) }) ∧
     (v.getLsbD 0 = false → i.drain = true → s.mgr.instSel ≠ 0 → (i.st = .draining ∨ i.st = .drained) →
        Completes (.drainCleared fn v) s fun t => OnlyIn [.insts] s t ∧
          Tbl.get? t.insts s.mgr.instSel = some { i with port := port, drain := false, st := .active }) ∧
     (v.getLsbD 0 = i.drain → i.st = .active → i.drain = false →
        Completes (.mgrInstCtlPortWrite fn v) s fun t => OnlyIn [.insts] s t ∧
          Tbl.get? t.insts s.mgr.instSel = some { i with port := port })))

/-- Mailboxes, migration and page logs (R353 to R356, R366 to R371): a note freezes its area and tells the manager; the manager's ACK
completes it with the word; a message goes into the tenant's area; an export writes the image of a DRAINED instance, an import takes one
whose fields are legal; an enabled log lists each page owed once and its marker after them, and a full log holds the writes. -/
def Obligations.MailboxesMigrationAndLogs : Prop :=
  (∀ (s : State) (inst : Fin 64) (tag : Fin 256) (g : Tag) (i : Inst), Working opMailboxNote s (tagKey inst tag) g → noteBusy s inst = false →
    Tbl.get? s.insts inst = some i → inst ≠ 0 →
    Completes (.mailboxNote inst tag) s fun t =>
      Tbl.get? t.tags (tagKey inst tag) = some { g with work := .note } ∧ OtherTags (tagKey inst tag) s t ∧
      (∃ j, Tbl.get? t.insts inst = some j ∧ j.mbox = { i.mbox with pend := true, noteTag := tagKey inst tag, noteLen := field g.packet 36 4 }) ∧
      OnlyIn [.tags, .insts, .hif] s t) ∧
  (∀ (s : State) (fn : Fin 2) (i : Inst) (g : Tag), Tbl.get? s.insts s.mgr.instSel = some i → bar0Answers s fn 0x4070 = true →
    i.mbox.pend = true → Tbl.get? s.tags i.mbox.noteTag = some g → atWork s i.mbox.noteTag opMailboxNote .note = true →
    Completes (.ack fn) s fun t =>
      Ended t i.mbox.noteTag stOk s.mgr.ack 0 ∧ OtherTags i.mbox.noteTag s t ∧
      Tbl.get? t.insts s.mgr.instSel = some { i with mbox := { i.mbox with pend := false } } ∧
      OnlyIn [.tags, .locks, .units, .insts] s t) ∧
  (∀ (s : State) (fn : Fin 2) (len : Fin 512) (i : Inst), Tbl.get? s.insts s.mgr.instSel = some i → bar0Answers s fn 0x4070 = true →
    i.mbox.deliv = false → i.st = .active → 1 ≤ len.val → len.val ≤ 256 →
    Completes (.send fn len) s fun t =>
      (∃ j, Tbl.get? t.insts s.mgr.instSel = some j ∧ j.mbox = { i.mbox with
        inn := Cells.writeN i.mbox.inn 0 (Cells.readN s.mgr.out 0 len), deliv := true, msgLen := len }) ∧ OnlyIn [.insts, .hif] s t) ∧
  (∀ (s : State) (fn : Fin 2) (i : Inst), bar0Answers s fn 0x4308 = true → Tbl.get? s.insts s.mgr.instSel = some i →
    (i.st ≠ .drained → ∀ e, exec (.exportInst fn e) s = .next { s with mgr := { s.mgr with migResult := 2 } }) ∧
    (i.st = .drained → exec (.exportInst fn true) s = .next { s with mgr := { s.mgr with migResult := 4 } }) ∧
    (i.st = .drained → Completes (.exportInst fn false) s fun t =>
      t.hostMem = (hostStore (pasidOf s 0) s.mgr.migAddr (instImage i) s).hostMem ∧ t.mgr.migResult = 1 ∧ OnlyIn [.mgr, .hostMem] s t) ∧
    (i.st = .active → i.ring.enable = false → busyOf s s.mgr.instSel = [] →
      (let b := hostRead s 0 s.mgr.migAddr 256
       (imageLegal i b = false → exec (.importInst fn false) s = .next { s with mgr := { s.mgr with migResult := 3 } }) ∧
       (imageLegal i b = true → exec (.importInst fn false) s = .next { s with
          mgr := { s.mgr with migResult := 1 }
          insts := Tbl.modify s.insts s.mgr.instSel (importImage s b) })))) ∧
  (∀ (s : State) (fn : Fin 2) (k : Fin 4) (v : BitVec 32), bar0Answers s fn 0x4400 = true →
    (let l := Tbl.getD s.mgr.logs k resetPLog
     (l.enable = true → v.getLsbD 31 = true → exec (.mgrLogCtlWrite fn k v) s = .next { s with mgr := { s.mgr with logs := Tbl.set s.mgr.logs k l } }) ∧
     (l.enable = false → v.getLsbD 31 = true → bits v.toNat 16 6 ≠ 0 → 9 ≤ bits v.toNat 0 5 → bits v.toNat 0 5 ≤ 20 →
        s.mgr.logs.any (fun p => !(p.1 == k.val) && p.2.enable && p.2.inst == bits v.toNat 16 6) = false →
        exec (.mgrLogCtlWrite fn k v) s = .next { s with mgr := { s.mgr with logs := Tbl.set s.mgr.logs k { l with
          inst := bits v.toNat 16 6, sizeLog2 := bits v.toNat 0 5, enable := true, head := 0, tail := 0, marker := 0, phase := true
          remembered := [], owed := [], syncs := [], stalled := false } } }))) ∧
  (∀ (s : State) (k : Fin 4) (i0 : Inst) (pg : Nat) (rest : List Nat), Tbl.get? s.insts 0 = some i0 → portLive s i0.port = true → powered s = true →
    (let l := Tbl.getD s.mgr.logs k resetPLog
     l.enable = true → l.owed = pg :: rest → l.syncs.head? ≠ some 0 →
     (logFull l = false → Completes (.pageLogEntry k) s fun t =>
        t.hostMem = (hostStore (pasidOf s 0) (l.base + 8 * l.tail) (leBytes 8 (4096 * pg + b2n l.phase)) s).hostMem ∧
        (∃ m, Tbl.get? t.mgr.logs k = some m ∧ m.tail = (l.tail + 1) % 2 ^ l.sizeLog2) ∧ OnlyIn [.mgr, .hostMem] s t) ∧
     (logFull l = true → l.stalled = false → exec (.pageLogEntry k) s = .next (modLog k (fun l => { l with stalled := true, stalls := satInc l.stalls 0xFFFF }) s)))) ∧
  (∀ (s : State) (fn : Fin 2) (k : Fin 4), bar0Answers s fn 0x4414 = true →
    (let l := Tbl.getD s.mgr.logs k resetPLog
     l.enable = true → exec (.sync fn k) s = .next (modLog k (fun l => { l with syncs := l.syncs ++ [l.owed.length] }) s))) ∧
  (∀ (s : State) (k : Fin 4) (i0 : Inst), Tbl.get? s.insts 0 = some i0 → portLive s i0.port = true → powered s = true →
    (let l := Tbl.getD s.mgr.logs k resetPLog
     l.enable = true → l.syncs.head? = some 0 → logFull l = false → Completes (.logMarker k) s fun t =>
        t.hostMem = (hostStore (pasidOf s 0) (l.base + 8 * l.tail) (leBytes 8 (4096 * (l.marker + 1) + 2 + b2n l.phase)) s).hostMem ∧
        (∃ m, Tbl.get? t.mgr.logs k = some m ∧ m.marker = l.marker + 1 ∧ m.remembered = [] ∧ m.syncs = l.syncs.drop 1) ∧
        OnlyIn [.mgr, .hostMem] s t))

/-! ### Logs, features and firmware -/

/-- LOG_READ, FEATURE_SET, FEATURE_GET and the writes of the health log and of the learned repairs (R305, R306, R322, Table 2.8):
a read delivers what fits from OFFSET on; a legal, allowed value replaces the old one, which RESULT0 gives, and no other feature changes;
a get gives the value and its default; pending entries go behind the written ones, of which the newest 65,536 stay. -/
def Obligations.LogsAndFeatures : Prop :=
  (∀ (s : State) (inst : Fin 64) (tag : Fin 256) (g : Tag), Working opLogRead s (tagKey inst tag) g → mayWrite s inst = true →
    (let id := field g.packet 36 2
     let l := logBytes s inst id
     let out := (l.1.drop (field g.packet 40 8)).take (pkBufLen g.packet)
     ((id = 0 ∨ 6 < id) → Replies (.logRead inst tag) s (tagKey inst tag) stBadField 36 0 [] fun _ => True) ∧
     (1 ≤ id → id ≤ 6 → inst ≠ 0 → id ≠ 1 → id ≠ 3 →
        Replies (.logRead inst tag) s (tagKey inst tag) stNotPermitted 0 0 [] fun _ => True) ∧
     (1 ≤ id → id ≤ 6 → (inst = 0 ∨ id = 1 ∨ id = 3) →
        Completes (.logRead inst tag) s fun t => (∃ n, Ended t (tagKey inst tag) stOk out.length n) ∧
          t.hostMem = (deliver inst g.packet 0 out s).hostMem ∧ OtherTags (tagKey inst tag) s t ∧
          OnlyIn [.tags, .locks, .units, .mgr, .hostMem] s t))) ∧
  (∀ (s : State) (inst : Fin 64) (tag : Fin 256) (g : Tag) (i : Inst), Working opFeatureSet s (tagKey inst tag) g →
    Tbl.get? s.insts inst = some i → featureValueLegal (field g.packet 36 2) (field g.packet 40 8) = true →
    (let id := field g.packet 36 2
     let v := field g.packet 40 8
     (featureAllowed s inst id v = true → Replies (.featureSet inst tag) s (tagKey inst tag) stOk (featureValue s i id) 0 [.insts, .bsh] fun t =>
        (∃ j, Tbl.get? t.insts inst = some j ∧ j.ring = i.ring ∧ j.st = i.st ∧ featureValue t j id = v ∧
          (∀ x ∈ [0x01, 0x02, 0x03, 0x10, 0x11, 0x12, 0x20, 0x30, 0x31], x ≠ id → featureValue t j x = featureValue s i x)) ∧
        (∀ m, m ≠ inst.val → Tbl.get? t.insts m = Tbl.get? s.insts m)) ∧
     (featureAllowed s inst id v = false → Replies (.featureSet inst tag) s (tagKey inst tag) stNotPermitted 0 0 [] fun _ => True))) ∧
  (∀ (s : State) (inst : Fin 64) (tag : Fin 256) (g : Tag) (i : Inst), Working opFeatureGet s (tagKey inst tag) g →
    Tbl.get? s.insts inst = some i →
    (field g.packet 36 2 ≠ 0x12 → Replies (.featureGet inst tag) s (tagKey inst tag) stOk (featureValue s i (field g.packet 36 2))
      (featureDefault s (field g.packet 36 2)) [] fun _ => True) ∧
    (field g.packet 36 2 = 0x12 → Completes (.featureGet inst tag) s fun t =>
      (∃ d, Ended t (tagKey inst tag) stOk (b2n s.bsh.deflateEn + 2 * b2n s.bsh.zstdEn) d) ∧ OnlyIn [.tags, .locks, .units, .fresh] s t)) ∧
  (∀ s : State, programsRun s = true →
    (s.flc.logPending ≠ [] → exec .healthLogWrite s = .next { s with flc := { s.flc with
        logPending := []
        log := (s.flc.log ++ s.flc.logPending).drop ((s.flc.log ++ s.flc.logPending).length - 65536) } }) ∧
    (s.mem.repairs ≠ [] → exec .learnedRepairWrite s = .next { s with mem := { s.mem with
        learned := s.mem.learned ++ s.mem.repairs, repairs := [] } }))

/-- FW_STAGE, FW_ACTIVATE and the switch (R150, R151, R414 to R418, R75, R185): a piece at its place joins those held and the last puts
the image to the checks; an activation of a good staged image prepares the switch; the switch sets HOLD and holds the other RUNNING tags;
its end runs the new image, stages the old one, clears HOLD and answers with the version and the pause. -/
def Obligations.FirmwareIsStagedAndActivated : Prop :=
  (∀ (s : State) (inst : Fin 64) (tag : Fin 256) (g : Tag), Working opFwStage s (tagKey inst tag) g → programsRun s = true →
    (let off := field g.packet 36 4
     let n := pkBufLen g.packet
     let pieces := Cells.writeN (if off = 0 then [] else s.glb.pieces) off (gather s inst g.packet 0 (min n 1048576))
     (off ≠ 0 → off ≠ s.glb.stagedBytes → Replies (.fwStage inst tag) s (tagKey inst tag) stBadField 36 0 [] fun _ => True) ∧
     ((off = 0 ∨ off = s.glb.stagedBytes) → 4 ≤ n → n ≤ 1048576 → n % 4 = 0 → off + n ≤ 16777216 → field g.packet 40 1 = 0 →
        Replies (.fwStage inst tag) s (tagKey inst tag) stOk (off + n) 0 [.glb] fun t =>
          t.glb.pieces = pieces ∧ t.glb.stagedBytes = off + n ∧ (off ≠ 0 → t.glb.staged = s.glb.staged) ∧ (off = 0 → t.glb.staged = none)) ∧
     ((off = 0 ∨ off = s.glb.stagedBytes) → 4 ≤ n → n ≤ 1048576 → n % 4 = 0 → off + n ≤ 16777216 → field g.packet 40 1 = 1 →
        leNat (Cells.readN pieces 8 4) = off + n → Completes (.fwStage inst tag) s fun t =>
          (imageRefused s.otp pieces (off + n) = none → Ended t (tagKey inst tag) stOk (off + n) 0 ∧
            t.glb.staged = some (imageOf pieces (off + n)) ∧ t.glb.running = s.glb.running) ∧
          (∀ st, imageRefused s.otp pieces (off + n) = some st → Ended t (tagKey inst tag) st 0 0 ∧ t.glb.staged = none ∧
            t.glb.stagedBytes = 0 ∧ t.glb.running = s.glb.running) ∧
          OnlyIn [.glb, .sec, .tags, .locks, .units] s t))) ∧
  (∀ (s : State) (inst : Fin 64) (tag : Fin 256) (accepts : Bool) (g : Tag), Working opFwActivate s (tagKey inst tag) g →
    (s.glb.staged = none → Replies (.fwActivate inst tag accepts) s (tagKey inst tag) stNotPermitted 0 0 [] fun _ => True) ∧
    (∀ x, s.glb.staged = some x → accepts = true → Completes (.fwActivate inst tag accepts) s fun t =>
      (imageRefused s.otp x.bytes x.len = none → t = modTag (tagKey inst tag) (fun t => { t with work := .switching }) s) ∧
      (∀ st, imageRefused s.otp x.bytes x.len = some st → Ended t (tagKey inst tag) st 0 0))) ∧
  (∀ (s : State) (k : Nat), switchTag s = some k → serving s = true → s.sch.hold = false → Completes .activationSwitch s fun t =>
    t.sch.hold = true ∧ (∀ j y, j ≠ k → Tbl.get? s.tags j = some y → y.st = .running → Tbl.get? t.tags j = some { y with st := .held }) ∧
    Tbl.get? t.tags k = Tbl.get? s.tags k ∧ OnlyIn [.sch, .tags, .fresh] s t) ∧
  (∀ (s : State) (k pause : Nat) (x : Image) (g : Tag), switchTag s = some k → Tbl.get? s.tags k = some g → g.st = .running → s.glb.staged = some x →
    powered s = true → s.sch.hold = true → enginesIdle s = true → Completes (.activationSwitchEnd pause) s fun t =>
      Ended t k stOk x.fwVersion pause ∧ t.glb.running = x ∧ t.glb.staged = some s.glb.running ∧ t.sch.hold = false ∧
      (∀ j y, j ≠ k → Tbl.get? s.tags j = some y → y.st = .held → Tbl.get? t.tags j = some { y with st := .running }) ∧
      OnlyIn [.glb, .sch, .flc, .tags, .locks, .insts, .units, .fresh] s t)

/-! ### Volumes -/

/-- VOLUME_CREATE, VOLUME_DELETE and SANITIZE (R129, R299, R300, R302, R303): the first check that fails gives the reply; a created volume
is empty, keyed and serves nothing yet; a deleted one has no key and nothing mapped; a sanitize journals its start, unmaps its volumes
(METHOD 0 with a new key), erases the superblocks named (METHOD 1 and 2) and journals its end; replies wait for the journal; no other
volume changes. -/
def Obligations.VolumesComeGoAndAreSanitized : Prop :=
  (∀ (s : State) (inst : Fin 64) (tag : Fin 256) (g : Tag), Working opVolumeCreate s (tagKey inst tag) g → earlierCreate s g.order = false →
    (∀ r, createRefused s g.packet = some r → Replies (.volumeCreate inst tag) s (tagKey inst tag) r.status r.r0 r.r1 [] fun _ => True) ∧
    (createRefused s g.packet = none → Completes (.volumeCreate inst tag) s fun t =>
      Tbl.get? t.tags (tagKey inst tag) = some { g with
        work := .durable, reply := { status := stOk, r0 := field g.packet 40 8 }, groups := [s.flc.nextGroup] } ∧
      t.flc.groups = s.flc.groups ++ [{ id := s.flc.nextGroup, held := false, entries := [.volume (pkVolume g.packet) true] }] ∧
      (∃ u, vol? t (pkVolume g.packet) = some u ∧ u.capacity = field g.packet 40 8 ∧ u.compress = bit (field g.packet 36 1) 0 ∧
        u.access = field g.packet 48 8 ∧ u.serves = false ∧ u.keyGood = true ∧ u.map = [] ∧ u.data = []) ∧
      (∀ m, m ≠ pkVolume g.packet → vol? t m = vol? s m) ∧ OtherTags (tagKey inst tag) s t ∧ OnlyIn [.sec, .flc, .tags, .fresh] s t)) ∧
  (∀ (s : State) (inst : Fin 64) (tag : Fin 256) (g : Tag) (u : Vol), Working opVolumeDelete s (tagKey inst tag) g →
    volumeBusy s (tagKey inst tag) (pkVolume g.packet) = false → vol? s (pkVolume g.packet) = some u →
    Completes (.volumeDelete inst tag) s fun t =>
      Tbl.get? t.tags (tagKey inst tag) = some { g with work := .durable, reply := {}, groups := [s.flc.nextGroup] } ∧
      vol? t (pkVolume g.packet) = some { u with
        serves := false, deleted := true, key := 0, keyGood := false, data := [], durable := [], map := [], mapDurable := [] } ∧
      Tbl.get? t.sec.volKeys (pkVolume g.packet) = none ∧ (∀ p ∈ t.bsh.packages, p.vol ≠ pkVolume g.packet) ∧
      (∀ m, m ≠ pkVolume g.packet → vol? t m = vol? s m) ∧ OtherTags (tagKey inst tag) s t ∧ OnlyIn [.bsh, .sec, .flc, .tags] s t) ∧
  (∀ (s : State) (inst : Fin 64) (tag : Fin 256) (sbs : List Nat) (w : Nat) (g : Tag) (c : Instr) (m : Nat),
    Working opSanitize s (tagKey inst tag) g →
    (c = .sanitizeCryptographicErase inst tag w ∧ m = 0 ∧ sbs = [] ∨ c = .sanitizeBlockErase inst tag sbs w ∧ m = 1 ∨
      c = .sanitizeOverwrite inst tag sbs w ∧ m = 2) →
    sanitReady s (tagKey inst tag) m sbs w = true →
    (let v := pkVolume g.packet
     let x? := s.flc.sanitizing.find? (fun x => x.vol == v)
     (x? = none → (m = 0 → drbgServes s = true) → Completes c s fun t =>
        Tbl.get? t.tags (tagKey inst tag) = some { g with groups := [s.flc.nextGroup] } ∧
        t.flc.groups = s.flc.groups ++ [{ id := s.flc.nextGroup, held := false, entries := [.sanitize v true] }] ∧
        t.flc.vols = s.flc.vols ∧ OnlyIn [.flc, .tags] s t) ∧
     (∀ x, x? = some x → x.unmapped = false → Completes c s fun t =>
        (∀ n ∈ sanitVols s v, ∀ u, vol? s n = some u → ∃ y, vol? t n = some y ∧ y.capacity = u.capacity ∧ y.map = [] ∧ y.data = [] ∧
          y.serves = u.serves ∧ (m ≠ 0 → y.key = u.key ∧ y.keyGood = u.keyGood)) ∧
        (∀ n, n ∉ sanitVols s v → vol? t n = vol? s n) ∧ t.tags = s.tags ∧ OnlyIn [.bsh, .sec, .flc, .fresh] s t) ∧
     (∀ x, x? = some x → x.unmapped = true → Completes c s fun t =>
        (∃ y, Tbl.get? t.tags (tagKey inst tag) = some y ∧ y.work = .durable ∧ y.groups ≠ [] ∧ y.reply.status = stOk ∧
          y.reply.r0 = (sanitVols s v).foldl (fun a n => a + (vol? s n).elim 0 (fun u => u.capacity)) 0) ∧
        (x.method ≠ 0 → ∀ n ∈ sbs, Tbl.get? t.flc.superblocks n = none) ∧ t.flc.vols = s.flc.vols ∧
        OtherTags (tagKey inst tag) s t ∧ OnlyIn [.flc, .tags, .insts] s t)))

/-! ### Licences, seals, attestation and entropy -/

/-- LICENSE_LOAD (licence or revocation list), LICENSE_DROP, SEAL_OPEN and SEAL_CLOSE (R133, R137 to R140, R143 to R145, R148): the first
check that fails gives the reply, and a refused licence counts; a licence fills the lowest free slot and its handle is the reply; a newer
list replaces the one in force and revokes what it covers; a session takes the lowest free number; an object with users goes when the last
of them has replied. -/
def Obligations.LicencesAndSealSessions : Prop :=
  (∀ (s : State) (inst : Fin 64) (tag : Fin 256) (g : Tag), Working opLicenseLoad s (tagKey inst tag) g → pkServes s = true →
    (let k := tagKey inst tag
     let l := bytesAt (inputOf s inst g.packet 400) 0 400
     let rest := [Part.sec, .spn, .tags, .locks, .units]
     loadMagic s inst g.packet ≠ revocationMagic →
     (pkBufLen g.packet ≠ 400 → Replies (.licenseLoad inst tag) s k stBadField 32 0 [.sec] fun t =>
        t.sec = { s.sec with licenceRefused := satInc s.sec.licenceRefused 0xFF }) ∧
     (pkBufLen g.packet = 400 → licenceFormat l = false → Replies (.licenseLoad inst tag) s k stBadField 24 0 [.sec] fun _ => True) ∧
     (pkBufLen g.packet = 400 → licenceFormat l = true → contentAllowed s = false →
        Replies (.licenseLoad inst tag) s k stNotPermitted 0 0 [.sec] fun _ => True) ∧
     (pkBufLen g.packet = 400 → licenceFormat l = true → contentAllowed s = true → Completes (.licenseLoad inst tag) s fun t => OnlyIn rest s t ∧
        OtherTags k s t ∧ (∀ st, licenceSigner s l = some st → Ended t k st 0 0 ∧ t.sec.licences = s.sec.licences) ∧
        (licenceSigner s l = none → field l 32 16 = deviceId s →
          (∀ key slot, unwrapTitle s l (bytesAt l 48 97) (bytesAt l 152 32) (bytesAt l 184 16) = some key →
            liveLicence s inst (field l 8 8) = none → Tbl.lowestFree s.sec.licences 0 256 = some slot →
            Ended t k stOk (slot + nextGen s.sec.licGens slot (2 ^ 24) * 256) (field l 16 8) ∧
            ∃ x, Tbl.get? t.sec.licences slot = some x ∧ x.st = .loaded ∧ x.inst = inst ∧ x.licenceId = field l 8 8 ∧ x.key = key) ∧
          (unwrapTitle s l (bytesAt l 48 97) (bytesAt l 152 32) (bytesAt l 184 16) = none → Ended t k stAuthFail 0 0)) ∧
        (licenceSigner s l = none → field l 32 16 ≠ deviceId s →
          (memberOf s (field l 32 16) = none → Ended t k stSpanUnreachable 0 0) ∧
          (∀ a, memberOf s (field l 32 16) = some a → Tbl.get? t.tags k = some { g with work := .keyGrant }))))) ∧
  (∀ (s : State) (inst : Fin 64) (tag : Fin 256) (g : Tag), Working opLicenseLoad s (tagKey inst tag) g → pkServes s = true →
    loadMagic s inst g.packet = revocationMagic →
    (let k := tagKey inst tag
     let l := inputOf s inst g.packet (224 + 16 * 4096)
     let count := field l 16 4
     (pkBufLen g.packet ≠ 224 + 16 * count → Replies (.revocationListLoad inst tag) s k stBadField 32 0 [.sec] fun _ => True) ∧
     (pkBufLen g.packet = 224 + 16 * count → revocationFormat l count = true → s.sec.revSequence < field l 8 8 →
        Completes (.revocationListLoad inst tag) s fun t => OnlyIn [.bsh, .sec, .tags, .locks, .units] s t ∧
          (let good := (anchorMatches s.otp aContentRoot0 (bytesAt l 24 97) || anchorMatches s.otp aContentRoot1 (bytesAt l 24 97)) &&
            Config.ecdsaOk (bytesAt l 24 97) (bytesAt l 0 (128 + 16 * count)) (bytesAt l (128 + 16 * count) 96)
           (good = false → Ended t k stAuthFail 0 0 ∧ t.sec.revEntries = s.sec.revEntries) ∧
           (good = true → Ended t k stOk 0 (field l 8 8) ∧ t.sec.revSequence = field l 8 8 ∧
            t.sec.revEntries = (List.range count).map (revEntry l) ∧
            ∀ slot x, Tbl.get? s.sec.licences slot = some x → x.st = .loaded → isRevoked t x.licenceId x.titleId x.keyGen = true →
              Tbl.get? t.sec.licences slot = some { x with st := .revoked }))))) ∧
  (∀ (s : State) (inst : Fin 64) (tag : Fin 256) (g : Tag), Working opLicenseDrop s (tagKey inst tag) g →
    (let k := tagKey inst tag
     let slot := pkHandle g.packet % 256
     (inUse s (.licence slot) = false → Replies (.licenseDrop inst tag) s k stOk 0 0 [.sec, .bsh] fun t =>
        t.sec = { s.sec with licences := Tbl.erase s.sec.licences slot } ∧ (∀ p ∈ t.bsh.packages, p.licence ≠ slot)) ∧
     (inUse s (.licence slot) = true → exec (.licenseDrop inst tag) s = .next (modTag k (fun t => { t with work := .lastUser }) { s with
        sec := { s.sec with licences := Tbl.modify s.sec.licences slot (fun l => { l with st := .dropping, dropTag := some k }) } })))) ∧
  (∀ (s : State) (inst : Fin 64) (tag : Fin 256) (g : Tag) (no : Nat), Working opSealOpen s (tagKey inst tag) g → pkServes s = true →
    mayWrite s inst = true →
    (let k := tagKey inst tag
     let b := bytesAt (inputOf s inst g.packet 432) 0 432
     (pkBufLen g.packet ≠ 432 → Replies (.sealOpen inst tag) s k stBadField 32 0 [] fun _ => True) ∧
     (pkBufLen g.packet = 432 → 584 ≤ field g.packet 44 4 → sealFormat b = true → contentAllowed s = true →
        Tbl.countIf s.sec.seals (fun _ x => x.inst == inst.val) < 64 → Tbl.lowestFree s.sec.seals 1 1023 = some no → drbgServes s = true →
        Completes (.sealOpen inst tag) s fun t => OnlyIn [.mgr, .sec, .tags, .locks, .units, .hostMem, .fresh] s t ∧
          (sealRootOk s b = false → Ended t k stAuthFail 0 0 ∧ t.sec.seals = s.sec.seals) ∧
          (sealRootOk s b = true → Ended t k stOk (no + 1024 * nextGen s.sec.sealGens no (2 ^ 22)) 584 ∧
            ∃ x, Tbl.get? t.sec.seals no = some x ∧ x.st = .opened ∧ x.inst = inst ∧ x.counter = 0)))) ∧
  (∀ (s : State) (inst : Fin 64) (tag : Fin 256) (g : Tag) (x : Seal), Working opSealClose s (tagKey inst tag) g →
    Tbl.get? s.sec.seals (pkHandle g.packet % 1024) = some x →
    (let k := tagKey inst tag
     let no := pkHandle g.packet % 1024
     (inUse s (.session no) = false → Replies (.sealClose inst tag) s k stOk x.counter 0 [.sec] fun t =>
        t.sec = { s.sec with seals := Tbl.erase s.sec.seals no }) ∧
     (inUse s (.session no) = true → exec (.sealClose inst tag) s = .next (modTag k (fun t => { t with work := .lastUser }) { s with
        sec := { s.sec with seals := Tbl.modify s.sec.seals no (fun x => { x with st := .closing, closeTag := some k }) } }))))

/-- ATTEST, the anti-rollback commit, debug unlock, the entropy source and the DRBG (R152, R153, R157 to R159): a report that fits goes to the
buffer; a commit sets ARB bits that took, up to the running SVN, and says whether all did; the unlock words gather, a token is judged at
SUBMIT and draws a new challenge, an accepted LEVEL 1 token zeroises the keys first; an entropy failure stops the DRBG until a repeat passes. -/
def Obligations.AttestationUnlockAndEntropy : Prop :=
  (∀ (s : State) (inst : Fin 64) (tag : Fin 256) (g : Tag), Working opAttest s (tagKey inst tag) g → pkServes s = true → mayWrite s inst = true →
    (let k := tagKey inst tag
     let sel := field g.packet 52 4
     let r := report s inst sel (bytesAt g.packet 36 16)
     (inst ≠ 0 → tenantAttest s = false → Replies (.attest inst tag) s k stNotPermitted 0 0 [] fun _ => True) ∧
     ((inst = 0 ∨ tenantAttest s = true) → 64 ≤ sel → Replies (.attest inst tag) s k stBadField 52 0 [] fun _ => True) ∧
     ((inst = 0 ∨ tenantAttest s = true) → sel < 64 → (inst ≠ 0 → bit sel 3 = false ∧ bit sel 5 = false) → Completes (.attest inst tag) s fun t =>
        (pkBufLen g.packet < r.length → Ended t k stBadField 32 0) ∧
        (r.length ≤ pkBufLen g.packet → Ended t k stOk r.length 0 ∧ t.hostMem = (deliver inst g.packet 0 r s).hostMem) ∧
        OtherTags k s t ∧ OnlyIn [.mgr, .tags, .locks, .units, .hostMem] s t))) ∧
  (∀ (s : State) (fn : Fin 2) (made : List Nat), bar0Answers s fn 0xC00C = true → s.sec.commitBusy = false →
    arbValue s.otp < s.glb.running.svn → Completes (.commit fn made) s fun t =>
      (∀ a, Cells.read s.otp.fuses a &&& Cells.read t.otp.fuses a = Cells.read s.otp.fuses a) ∧
      (∀ a, ¬ (0x1F8 ≤ a ∧ a < 0x208) → Cells.read t.otp.fuses a = Cells.read s.otp.fuses a) ∧
      (∀ i < 128, arbBit t.otp i = true → arbBit s.otp i = true ∨ i ∈ made) ∧
      t.sec.commitBusy = false ∧ OnlyIn [.otp, .sec] s t) ∧
  (∀ (s : State) (src : Fin 3) (word : BitVec 32), unlockAnswers s src 0xC050 = true → s.sec.unlockWords.length < 108 →
    exec (.secUnlockDataWrite src word) s = .next { s with sec := { s.sec with unlockWords := s.sec.unlockWords ++ [word.toNat] } }) ∧
  (∀ (s : State) (src : Fin 3), unlockAnswers s src 0xC054 = true →
    exec (.restart src) s = .next { s with sec := { s.sec with unlockWords := [] } } ∧
    (pkServes s = true → Completes (.submit src) s fun t =>
      (let tok := s.sec.unlockWords.flatMap (leBytes 4)
       t.sec.unlockResult = tokenResult s tok ∧ t.sec.generates = s.sec.generates + 1 ∧ OnlyIn [.bsh, .sec, .fresh] s t ∧
       (tokenResult s tok ≠ 1 → t.sec.unlockRefused = satInc s.sec.unlockRefused 0xFF ∧ t.sec.debugOpened = s.sec.debugOpened ∧
          t.sec.rmaPermit = s.sec.rmaPermit) ∧
       (tokenResult s tok = 1 → field tok 6 1 = 1 → t.sec.debugOpened = true ∧ t.sec.scope = field tok 40 4 ∧ t.sec.licences = [] ∧
          t.sec.seals = [] ∧ t.sec.volKeys = [] ∧ t.sec.ladderBlocked = true) ∧
       (tokenResult s tok = 1 → field tok 6 1 ≠ 1 → t.sec.rmaPermit = true ∧ t.sec.debugOpened = s.sec.debugOpened)))) ∧
  (∀ s : State, powered s = true →
    (s.sec.entropyFail = false → Completes .entropyHealthFail s fun t => t.sec.entropyFail = true ∧ t.sec.drbgReady = false ∧
      t.sec.healthFails = satInc s.sec.healthFails 0xFF ∧ t.sec.retestAt = 1000000 + s.now ∧ OnlyIn [.glb, .sec, .flc] s t) ∧
    (s.sec.entropyFail = true → s.sec.retests < 2 → s.sec.retestAt ≤ s.now →
      exec (.entropyRetest true) s = .next { s with sec := { s.sec with
        entropyFail := false, retests := s.sec.retests + 1, drbgReady := true
        reseeds := satInc s.sec.reseeds 0xFFFF, generates := 0 } } ∧
      Completes (.entropyRetest false) s fun t => t.sec.entropyFail = true ∧ t.sec.drbgReady = false ∧ t.sec.retests = s.sec.retests + 1 ∧
        OnlyIn [.glb, .sec, .flc] s t) ∧
    (drbgServes s = true → 65536 ≤ s.sec.generates → exec .drbgReseed s = .next { s with sec := { s.sec with
        drbgReady := true, reseeds := satInc s.sec.reseeds 0xFFFF, generates := 0 } }))

/-! ### Exlet links and membership -/

/-- The Exlet links (R379 to R382, R502): 256 bytes with a bad CRC or another LSEQ than the expected one are discarded, and the first after a
good flit draws a NAK; a flit with the expected LSEQ moves the port on; a NAK sends the retry buffer again; training leads to HELLO and, with
another Span ID at the far end, to ACTIVE; a timeout or a failure takes the port DOWN, and 100 ms later it trains again. -/
def Obligations.ExletPortsTrainAndRecover : Prop :=
  (∀ (s : State) (port : Fin 3) (bytes : List Byte) (q : EPort), powered s = true → Tbl.get? s.spn.ports port = some q →
    (q.st = .hello ∨ q.st = .active) →
    (flitOf bytes = none → Completes (.flitReceived port bytes) s fun t => OnlyIn [.spn] s t ∧
      Tbl.get? t.spn.ports port = some { q with crcErr := satInc q.crcErr 0xFFFF, nakSent := true } ∧
      (q.nakSent = true → t.spn.wire = s.spn.wire) ∧ (q.nakSent = false → ∃ b, t.spn.wire = s.spn.wire ++ [(port.val, b)])) ∧
    (∀ f, flitOf bytes = some f → sequenced f.type = true → f.lseq ≠ q.rxSeq → Completes (.flitReceived port bytes) s fun t =>
      OnlyIn [.spn] s t ∧ Tbl.get? t.spn.ports port = some { q with nakSent := true } ∧ t.spn.inbox = s.spn.inbox) ∧
    (∀ f, flitOf bytes = some f → sequenced f.type = true → f.lseq = q.rxSeq → Completes (.flitReceived port bytes) s fun t =>
      OnlyIn [.spn] s t ∧ (eport t port).rxSeq = (q.rxSeq + 1) % 4096 ∧ (eport t port).rxValid = true ∧ (eport t port).nakSent = false)) ∧
  (∀ (s : State) (port : Fin 3) (q : EPort), powered s = true → Tbl.get? s.spn.ports port = some q → (arrived s port tNak).isSome = true →
    q.retry ≠ [] → Completes (.nak port) s fun t => OnlyIn [.spn] s t ∧
      Tbl.get? t.spn.ports port = some { q with resends := satInc q.resends 0xFFFF } ∧
      ∃ fs, t.spn.wire = s.spn.wire ++ fs ∧ fs.length = q.retry.length ∧ ∀ x ∈ fs, x.1 = port.val) ∧
  (∀ (s : State) (port : Fin 3) (q : EPort), powered s = true → Tbl.get? s.spn.ports port = some q →
    (q.st = .training → Completes (.lanesTrained port) s fun t => OnlyIn [.spn, .insts] s t ∧ (eport t port).st = .hello ∧
      (eport t port).since = s.now ∧ (eport t port).rxSeq = 0 ∧ (eport t port).rxValid = false ∧
      ∃ f, (eport t port).retry = [f] ∧ f.type = tHello ∧ f.lseq = 0) ∧
    (q.st = .training → 50000 + q.since ≤ s.now → Completes (.trainingTimeout port) s fun t => OnlyIn [.spn, .insts] s t ∧
      (eport t port).st = .down ∧ (eport t port).since = s.now ∧ (eport t port).downs = satInc q.downs 0xFFFF) ∧
    (q.st = .hello → 1000 + q.since ≤ s.now → Completes (.helloTimeout port) s fun t => OnlyIn [.spn, .insts] s t ∧
      (eport t port).st = .down ∧ (eport t port).since = s.now ∧ (eport t port).downs = satInc q.downs 0xFFFF) ∧
    (q.st = .active → ∀ ns, Completes (.exletPortFail port ns) s fun t => OnlyIn [.glb, .pwr, .flc, .spn, .insts] s t ∧
      (eport t port).st = .down ∧ (eport t port).downs = satInc q.downs 0xFFFF) ∧
    ((q.st = .down ∨ q.st = .conflict) → 100000 + q.since ≤ s.now → Completes (.portRetryTimer port) s fun t => OnlyIn [.spn, .insts] s t ∧
      (eport t port).st = .training ∧ (eport t port).since = s.now) ∧
    (∀ f, q.st = .hello → arrived s port tHello = some f →
      (field f.payload 0 2 ≠ s.spn.spanId → Completes (.hello port) s fun t => OnlyIn [.spn, .insts] s t ∧ (eport t port).st = .active ∧
        (eport t port).neighbour = field f.payload 0 2 ∧ (eport t port).nbPort = field f.payload 2 1 % 4) ∧
      (field f.payload 0 2 = s.spn.spanId → s.spn.joining = none → Completes (.hello port) s fun t =>
        OnlyIn [.glb, .flc, .spn, .insts, .fresh] s t ∧ (eport t port).st = .conflict)))

/-- Membership (R384, R397): a joined device announces itself every 100 ms; an ANNOUNCE newer than the last one of its origin is recorded, or
removes the origin that leaves; any other is discarded; a device not heard of for 350 ms goes, and its copies leave their sets. -/
def Obligations.MembershipFollowsAnnouncements : Prop :=
  (∀ s : State, powered s = true → s.spn.spanId ≠ 0 → 100000 + s.spn.announcedAt ≤ s.now → Completes .announceTimer s fun t =>
    t.spn.announcedAt = s.now ∧ t.spn.members = s.spn.members ∧ OnlyIn [.spn] s t) ∧
  (∀ (s : State) (port : Fin 3) (f : Flit), powered s = true → arrived s port tAnnounce = some f → s.spn.joining = none →
    (f.origin ≠ s.spn.spanId → announceNewer s f = true → f.leaving = false → Completes (.announce port) s fun t =>
      Tbl.get? t.spn.members (field f.payload 0 2) = some {
        deviceId := field f.payload 4 16, group := field f.payload 20 4
        portStates := field f.payload 24 3, originSeq := f.originSeq, since := s.now } ∧
      (∀ m, m ≠ field f.payload 0 2 → Tbl.get? t.spn.members m = Tbl.get? s.spn.members m) ∧ OnlyIn [.flc, .spn] s t) ∧
    (f.origin ≠ s.spn.spanId → announceNewer s f = true → f.leaving = true → Completes (.announce port) s fun t =>
      Tbl.get? t.spn.members f.origin = none ∧ OnlyIn [.flc, .spn, .tags, .insts] s t) ∧
    ((f.origin = s.spn.spanId ∨ announceNewer s f = false) → exec (.announce port) s = .next (takeArrived port tAnnounce s))) ∧
  (∀ (s : State) (id : Fin 65536) (m : Member), powered s = true → Tbl.get? s.spn.members id = some m → 350000 + m.since ≤ s.now →
    Completes (.membershipExpiry id) s fun t => Tbl.get? t.spn.members id = none ∧
      (∀ n, n ≠ id.val → Tbl.get? t.spn.members n = Tbl.get? s.spn.members n) ∧ OnlyIn [.flc, .spn, .tags, .insts] s t)

/-! ### Forwarded commands -/

/-- The home of forwarded commands (R386, R390 to R395): a request whole and in its PAIR_SEQ turn is admitted with its lock, or refused with the
status of the first check that fails; the RESP of one that reads is decided by its failing blocks and kept; a missing number is skipped when
its gap expires; a CANCEL or the end of the budget ends a request before its work or replaces the status of a decided one. -/
def Obligations.TheHomeServesRequests : Prop :=
  (∀ (s : State) (origin xid : Nat) (lost crcFail : List Nat) (outcome : Fin 3) (units : Nat) (ps : List (List Byte)) (f : Flit),
    serving s = true → messageOf s tReq origin xid = some (ps, f) → f.resent = false → s.spn.leaving = none →
    field (ps.headD []) 64 4 = Tbl.getD s.spn.pairRx origin 0 →
    (let p := bytesAt (ps.headD []) 0 64
     let key := servedKey origin xid
     Completes (.req origin xid lost crcFail outcome units) s fun t => OnlyIn [.spn, .locks, .acceptCount] s t ∧
      t.acceptCount = s.acceptCount + 1 ∧ Tbl.get? t.spn.pairRx origin = some ((field (ps.headD []) 64 4 + 1) % 2 ^ 32) ∧
      (∀ st, homeRefuses s origin p = some st → Tbl.get? t.spn.served key = none ∧
        t.spn.kept.getLast? = some (key, respPayload { status := st })) ∧
      (homeRefuses s origin p = none → (∃ v, Tbl.get? t.spn.served key = some v ∧ v.request = ps.headD [] ∧ v.reply = none ∧ v.mirror = false) ∧
        ∃ l ∈ t.locks, l.tag = servedTag key ∧ l.vol = pkVolume p ∧ l.excl = exclusiveOps.contains (pkOpcode p)))) ∧
  (∀ (s : State) (origin xid : Nat) (lost crcFail : List Nat) (outcome : Fin 3) (units : Nat) (v : Served) (u : Vol),
    serving s = true → messageOf s tReq origin xid = none → Tbl.get? s.spn.served (servedKey origin xid) = some v → v.mirror = false →
    v.reply = none → lockHeld s (servedTag (servedKey origin xid)) = true → vol? s (pkVolume (bytesAt v.request 0 64)) = some u →
    keyLost s (pkVolume (bytesAt v.request 0 64)) = false →
    (let p := bytesAt v.request 0 64
     let bad := failingBlocks u (pkLba p) (pkLength p) lost crcFail
     (pkOpcode p = opVerify → Completes (.req origin xid lost crcFail outcome units) s fun t =>
        Tbl.get? t.spn.served (servedKey origin xid) = none ∧ OnlyIn [.spn, .locks, .flc] s t ∧
        (bad = [] → t.spn.kept.getLast? = some (servedKey origin xid,
          respPayload { status := stOk, r0 := pkLength p, r1 := 0xFFFFFFFFFFFFFFFF })) ∧
        (∀ b bs, bad = b :: bs → t.spn.kept.getLast? = some (servedKey origin xid,
          respPayload { status := b.2, r0 := pkLength p - bad.length, r1 := b.1 }))) ∧
     (pkOpcode p = opRead → Completes (.req origin xid lost crcFail outcome units) s fun t =>
        Tbl.get? t.spn.served (servedKey origin xid) = none ∧ OnlyIn [.spn, .locks, .flc, .fresh] s t ∧
        (bad = [] → t.spn.kept.getLast? = some (servedKey origin xid, respPayload { status := stOk, r0 := pkLength p })) ∧
        (∀ b bs, bad = b :: bs → t.spn.kept.getLast? = some (servedKey origin xid,
          respPayload { status := b.2, r0 := b.1, r1 := bad.length }))))) ∧
  (∀ (s : State) (origin : Fin 65536) (since : Nat), powered s = true → Tbl.get? s.spn.gapWait origin = some since →
    since + s.spn.gapUs ≤ s.now → Completes (.pairSeqGapExpiry origin) s fun t => OnlyIn [.spn] s t ∧
      Tbl.get? t.spn.gapWait origin = none ∧
      (let e := Tbl.getD s.spn.pairRx origin 0
       let ahead (q : Nat) := (2 ^ 32 + q - e) % 2 ^ 32
       ((∀ q ∈ waitingSeqs s origin, 2 ^ 31 ≤ ahead q) → t.spn.pairRx = s.spn.pairRx) ∧
       (∀ q ∈ waitingSeqs s origin, ahead q < 2 ^ 31 → (∀ r ∈ waitingSeqs s origin, ahead r < 2 ^ 31 → ahead q ≤ ahead r) →
          Tbl.get? t.spn.pairRx origin = some ((e + ahead q) % 2 ^ 32)))) ∧
  (∀ (s : State) (origin xid : Nat) (v : Served), powered s = true → Tbl.get? s.spn.served (servedKey origin xid) = some v → v.mirror = false →
    (let ends (st : Nat) (t : State) : Prop := OnlyIn [.spn, .locks] s t ∧
      (v.reply = none → Tbl.get? t.spn.served (servedKey origin xid) = none ∧ t.spn.kept.getLast? = some (servedKey origin xid,
        respPayload { status := st, partialEffect := exclusiveOps.contains (pkOpcode (bytesAt v.request 0 64)) })) ∧
      (∀ r, v.reply = some r → Tbl.get? t.spn.served (servedKey origin xid) = some { v with reply := some { r with status := st } })
     ((messageOf s tCancel origin xid).isSome = true → messageOf s tReq origin xid = none →
        Completes (.cancelFlit origin xid) s (ends stAborted)) ∧
     (v.deadline ≠ 0 → v.deadline ≤ s.now → Completes (.homeBudgetExpiry origin xid) s (ends stAbortedByTimeout))))

/-- The origin of forwarded commands and the group licences (R135, R390 to R392, R395, R401): a RESP ends its command with the home's status and
result words; silence with a port state change sends the request once more; the deadline or the end of an abort's wait ends the command
without a RESP; the anchor answers a key request, and its grant ends the LICENSE_LOAD. -/
def Obligations.TheOriginEndsForwardedCommands : Prop :=
  (∀ (s : State) (home xid : Nat) (crcFail again : List Nat) (ps : List (List Byte)) (f : Flit) (x : Xact) (g : Tag),
    serving s = true → messageOf s tResp home xid = some (ps, f) → messageOf s tData home xid = none →
    Tbl.get? s.spn.xacts (xid % 2 ^ 32) = some x → x.home = home → Tbl.get? s.tags x.tag = some g → g.work = .forwarded → g.st = .running →
    mayWrite s (keyInst x.tag) = true → abortComing s x.tag = false → pkOpcode g.packet ∈ [opWrite, opTrim, opVerify] →
    pkOpcode (bytesAt x.first 0 64) = pkOpcode g.packet → Completes (.resp home xid crcFail again) s fun t =>
      (let r := respReply g.packet ps.flatten
       Ended t x.tag r.status r.r0 r.r1 ∧ Tbl.get? t.spn.xacts (xid % 2 ^ 32) = none ∧ OtherTags x.tag s t ∧
       OnlyIn [.spn, .tags, .locks, .units] s t)) ∧
  (∀ (s : State) (home xid : Nat) (crcFail again : List Nat) (ps : List (List Byte)) (f : Flit), powered s = true →
    messageOf s tResp home xid = some (ps, f) → Tbl.get? s.spn.xacts (xid % 2 ^ 32) = none →
    exec (.resp home xid crcFail again) s = .next (takeMessage tData home xid (takeMessage tResp home xid s))) ∧
  (∀ (s : State) (xid : Nat) (x : Xact) (g : Tag), powered s = true → Tbl.get? s.spn.xacts xid = some x → Tbl.get? s.tags x.tag = some g →
    g.work = .forwarded → g.st = .running → x.portChange = true → x.resent = false → x.cancelAt = none →
    max x.sentAt x.lastRx + resendUs s x.tag ≤ s.now → Completes (.spanResendExpiry xid) s fun t => OnlyIn [.spn] s t ∧
      Tbl.get? t.spn.xacts xid = some { x with resent := true } ∧ t.spn.reqResent = satInc s.spn.reqResent 0xFFFF) ∧
  (∀ (s : State) (inst : Fin 64) (tag : Fin 256) (g : Tag) (y : Nat) (x : Xact), Tbl.get? s.tags (tagKey inst tag) = some g →
    xactOf s (tagKey inst tag) = some (y, x) →
    (serving s = true → g.st = .running → abortComing s (tagKey inst tag) = false → g.work = .forwarded → 1000 + x.deadline ≤ s.now →
      Completes (.spanDeadline inst tag) s fun t => Ended t (tagKey inst tag) stAbortedByTimeout 0 0 ∧ xactOf t (tagKey inst tag) = none ∧
        t.spn.timeouts = satInc s.spn.timeouts 0xFFFF ∧ OnlyIn [.spn, .tags, .locks, .units] s t) ∧
    (serving s = true → g.st = .running → abortComing s (tagKey inst tag) = false → g.work = .keyGrant → x.deadline ≤ s.now →
      Completes (.spanDeadline inst tag) s fun t => Ended t (tagKey inst tag) stAbortedByTimeout 0 0 ∧ xactOf t (tagKey inst tag) = none ∧
        t.sec.licences = s.sec.licences ∧ OnlyIn [.sec, .spn, .tags, .locks, .units] s t) ∧
    (∀ c, powered s = true → g.st = .stopping → g.work = .forwarded → x.cancelAt = some c → 1000 + c ≤ s.now →
      Completes (.abortRespTimeout inst tag) s fun t => Ended t (tagKey inst tag) stAborted 0 0 ∧ xactOf t (tagKey inst tag) = none ∧
        OnlyIn [.spn, .tags, .locks, .units] s t)) ∧
  (∀ (s : State) (origin xid : Nat) (ps : List (List Byte)) (f : Flit), serving s = true → pkServes s = true →
    messageOf s tKeyReq origin xid = some (ps, f) → Completes (.keyReq origin xid) s fun t => OnlyIn [.sec, .spn, .fresh] s t ∧
      (let l := bytesAt ps.flatten 0 400
       let cert := bytesAt ps.flatten 400 288
       ∀ st, (licenceSigner s l <|> certRefused s cert (field l 28 4)) = some st →
        t = sendMessage tKeyGrant origin xid noBudget false (grantPayload st [] []) [] (takeMessage tKeyReq origin xid s))) ∧
  (∀ (s : State) (anchorId xid : Nat) (ps : List (List Byte)) (f : Flit) (x : Xact) (g : Tag), serving s = true → pkServes s = true →
    messageOf s tKeyGrant anchorId xid = some (ps, f) → Tbl.get? s.spn.xacts (xid % 2 ^ 32) = some x → x.home = anchorId →
    Tbl.get? s.tags x.tag = some g → atWork s x.tag opLicenseLoad .keyGrant = true → Completes (.keyGrant anchorId xid) s fun t =>
      (let l := (x.first ++ x.rest).take 400
       let b := ps.flatten
       OnlyIn [.sec, .spn, .tags, .locks, .units] s t ∧ OtherTags x.tag s t ∧ Tbl.get? t.spn.xacts (xid % 2 ^ 32) = none ∧
       (field b 0 1 ≠ stOk → Ended t x.tag (field b 0 1) 0 0 ∧ t.sec.licences = s.sec.licences) ∧
       (field b 0 1 = stOk → ∀ key slot, unwrapTitle s l (bytesAt b 1 97) (bytesAt b 98 32) (bytesAt b 130 16) = some key →
          liveLicence s (keyInst x.tag) (field l 8 8) = none → Tbl.lowestFree s.sec.licences 0 256 = some slot →
          Ended t x.tag stOk (slot + nextGen s.sec.licGens slot (2 ^ 24) * 256) (field l 16 8) ∧
          ∃ y, Tbl.get? t.sec.licences slot = some y ∧ y.st = .loaded ∧ y.inst = keyInst x.tag ∧ y.key = key)))

/-! ### Spans, aliases and mirrors -/

/-- Joining, leaving, aliases and probes (R385, R386, R389): a join takes the Span ID and group and trains the ports named, and replies with the
devices found once they have settled; a leave waits for the transactions, then clears the span and drops the group licences; a binding probes
its home, and the answer binds the alias or is kept as its error; an unbound alias is out of use at once. -/
def Obligations.SpansAreJoinedLeftAndBound : Prop :=
  (∀ (s : State) (inst : Fin 64) (tag : Fin 256) (g : Tag), Working opSpanJoin s (tagKey inst tag) g →
    (let p := g.packet
     ((spanForbidden s = true ∨ s.spn.spanId ≠ 0) → Replies (.spanJoin inst tag) s (tagKey inst tag) stNotPermitted 0 0 [] fun _ => True) ∧
     (spanForbidden s = false → s.spn.spanId = 0 → field p 36 2 = 0 →
        Replies (.spanJoin inst tag) s (tagKey inst tag) stBadField 36 0 [] fun _ => True) ∧
     (spanForbidden s = false → s.spn.spanId = 0 → field p 36 2 ≠ 0 → (field p 38 1 = 0 ∨ 7 < field p 38 1) →
        Replies (.spanJoin inst tag) s (tagKey inst tag) stBadField 38 0 [] fun _ => True) ∧
     (spanForbidden s = false → s.spn.spanId = 0 → field p 36 2 ≠ 0 → 1 ≤ field p 38 1 → field p 38 1 ≤ 7 →
        Completes (.spanJoin inst tag) s fun t => Tbl.get? t.tags (tagKey inst tag) = some { g with work := .joining } ∧
          t.spn.spanId = field p 36 2 ∧ t.spn.group = field p 40 4 ∧ t.spn.joining = some (tagKey inst tag) ∧ t.spn.joinedAt = s.now ∧
          (∀ q < 3, bit (field p 38 1) q = true → (Tbl.get? s.spn.ports q).isSome → (eport t q).st = .training) ∧
          OtherTags (tagKey inst tag) s t ∧ OnlyIn [.spn, .tags, .insts] s t))) ∧
  (∀ (s : State) (k : Nat) (g : Tag), powered s = true → s.spn.joining = some k → joinSettled s = true → Tbl.get? s.tags k = some g →
    atWork s k opSpanJoin .joining = true → Completes .joinSettleExpiry s fun t => Ended t k stOk s.spn.members.length 0 ∧
      t.spn.joined = true ∧ t.spn.joining = none ∧ t.spn.members = s.spn.members ∧ OtherTags k s t ∧ OnlyIn [.spn, .tags, .locks, .units] s t) ∧
  (∀ (s : State) (inst : Fin 64) (tag : Fin 256) (g : Tag), Working opSpanLeave s (tagKey inst tag) g →
    (s.spn.leaving ≠ some (tagKey inst tag) → (s.spn.joined = false ∨ spanRoles s = true) →
      Replies (.spanLeave inst tag) s (tagKey inst tag) stNotPermitted 0 0 [] fun _ => True) ∧
    (s.spn.leaving ≠ some (tagKey inst tag) → s.spn.joined = true → spanRoles s = false →
      exec (.spanLeave inst tag) s = .next { s with spn := { s.spn with leaving := some (tagKey inst tag) } }) ∧
    (s.spn.leaving = some (tagKey inst tag) → s.spn.xacts = [] → s.spn.served = [] → Completes (.spanLeave inst tag) s fun t =>
      Ended t (tagKey inst tag) stOk 0 0 ∧ t.spn.spanId = 0 ∧ t.spn.group = 0 ∧ t.spn.joined = false ∧ t.spn.members = [] ∧
      (∀ p < 3, (Tbl.get? s.spn.ports p).isSome → (eport t p).st = .disabled) ∧
      OnlyIn [.bsh, .sec, .spn, .tags, .locks, .insts, .units] s t)) ∧
  (∀ (s : State) (fn : Fin 2) (homeVol : Fin 256) (homeId : Fin 65536), bar0Answers s fn 0x16304 = true → vol? s s.spn.volSel = none →
    Completes (.bind fn homeVol homeId) s (fun t => OnlyIn [.spn] s t ∧ t.spn.nextXid = (s.spn.nextXid + 1) % 2 ^ 32 ∧
      ∃ a, Tbl.get? t.spn.aliases s.spn.volSel = some a ∧ a.bind = true ∧ a.bound = false ∧ a.homeVol = homeVol ∧ a.homeId = homeId ∧
        a.probeErr = 0 ∧ a.probeXid = s.spn.nextXid) ∧
    Completes (.unbind fn homeVol homeId) s (fun t => OnlyIn [.spn, .bsh] s t ∧ (∀ p ∈ t.bsh.packages, p.vol ≠ s.spn.volSel) ∧
      ∃ a, Tbl.get? t.spn.aliases s.spn.volSel = some a ∧ a.bind = false ∧ a.bound = false)) ∧
  (∀ (s : State) (origin xid : Nat) (ps : List (List Byte)) (f : Flit), serving s = true → messageOf s tProbe origin xid = some (ps, f) →
    (let v := field ps.flatten 0 1
     (∀ u, vol? s v = some u → volServes s v u = true → u.exported = true → sameGroup s origin = true →
        exec (.probe origin xid) s = .next (sendMessage tProbeResp origin xid noBudget false
          (leBytes 1 stOk ++ leBytes 1 (b2n u.compress) ++ leBytes 2 0 ++ leBytes 8 u.capacity) [] (takeMessage tProbe origin xid s))) ∧
     ((vol? s v = none ∨ sameGroup s origin = false) → exec (.probe origin xid) s = .next (sendMessage tProbeResp origin xid noBudget false
          (leBytes 1 stNotPermitted ++ leBytes 3 0 ++ leBytes 8 0) [] (takeMessage tProbe origin xid s))))) ∧
  (∀ (s : State) (home xid : Nat) (ps : List (List Byte)) (f : Flit), powered s = true → messageOf s tProbeResp home xid = some (ps, f) →
    Completes (.probeResp home xid) s fun t => OnlyIn [.spn] s t ∧ ∀ v a, Tbl.get? s.spn.aliases v = some a →
      Tbl.get? t.spn.aliases v = some (
        if a.bind = true ∧ a.bound = false ∧ a.probeXid = xid % 2 ^ 32 then
          (if field ps.flatten 0 1 = stOk then
            { a with bound := true, probeErr := 0, capacity := field ps.flatten 4 8, compress := bit (field ps.flatten 1 1) 0 }
           else { a with probeErr := field ps.flatten 0 1 % 128 })
        else a))

/-- Mirrored volumes (R396 to R400; the messages about roles are the model's, log entry 25): the first check that fails gives the reply, a set
without new copies is journaled at once, new copies are asked first; a copy applies the primary's writes and roles in order and answers when
durable; an acknowledgement or a copy's leaving frees the waiting write; a resync pass ends IN_SET; another primary's write ends the role. -/
def Obligations.MirrorsFollowTheirSets : Prop :=
  (∀ (s : State) (inst : Fin 64) (tag : Fin 256) (g : Tag), Working opSpanMirrorSet s (tagKey inst tag) g →
    (∀ r, mirrorRefused s g.packet = .error r →
      Replies (.spanMirrorSet inst tag) s (tagKey inst tag) r.status r.r0 r.r1 [] fun _ => True) ∧
    (∀ u old, mirrorRefused s g.packet = .ok (u, old) → g.reply.status = stOk →
      (let fresh := (copyIds g.packet).filter (fun c => (copyState u c).isNone && !(old == some c))
       Completes (.spanMirrorSet inst tag) s fun t => OtherTags (tagKey inst tag) s t ∧ OnlyIn [.flc, .spn, .tags, .locks, .units] s t ∧
        (fresh = [] → (∃ y, Tbl.get? t.tags (tagKey inst tag) = some y ∧ y.work = .durable ∧ y.groups = [s.flc.nextGroup] ∧ y.reply = {}) ∧
          (vol? t (pkVolume g.packet)).map (fun u => u.mirror) = some (newMirror u old g.packet) ∧
          t.flc.groups = s.flc.groups ++ [{ id := s.flc.nextGroup, held := false, entries := [.mirror (pkVolume g.packet)] }]) ∧
        (fresh ≠ [] → (∃ y, Tbl.get? t.tags (tagKey inst tag) = some y ∧ y.work = .mirror) ∧ t.flc = s.flc ∧
          t.spn.mwaits.length = s.spn.mwaits.length + fresh.length)))) ∧
  (∀ (s : State) (origin xid : Nat) (ps : List (List Byte)) (f : Flit), serving s = true →
    messageOf s tMirrorWrite origin xid = some (ps, f) →
    (let p := bytesAt (ps.headD []) 0 64
     let q := field (ps.headD []) 64 4
     let key := servedKey origin xid
     (holdsPrimary s (pkVolume (ps.headD [])) = false → Tbl.getD s.spn.mirrorRx origin q = q → Completes (.mirrorWrite origin xid) s fun t =>
        Tbl.get? t.spn.mirrorRx origin = some ((q + 1) % 2 ^ 32) ∧ OnlyIn [.bsh, .flc, .spn, .locks, .fresh] s t ∧
        (∀ u, pkOpcode p ≠ opSpanMirrorSet → vol? s (pkVolume p) = some u → copiesFrom u origin = true → keyLost s (pkVolume p) = false →
          0 < pkLength p → ∃ y, Tbl.get? t.spn.served key = some y ∧ y.mirror = true ∧ y.reply = some { status := stOk } ∧ y.groups ≠ []) ∧
        (∀ st m u, pkOpcode p = opSpanMirrorSet → takeCtl s origin p = (st, some m) → vol? s (pkVolume p) = some u →
          vol? t (pkVolume p) = some { u with mirror := m } ∧
          ∃ y, Tbl.get? t.spn.served key = some y ∧ y.reply = some { status := st } ∧ y.groups = [s.flc.nextGroup])) ∧
     (∀ u, vol? s (pkVolume (ps.headD [])) = some u → holdsPrimary s (pkVolume (ps.headD [])) = true →
        Completes (.primarySuperseded origin xid) s fun t => OnlyIn [.flc, .spn, .insts] s t ∧
          vol? t (pkVolume (ps.headD [])) = some { u with mirror := u.mirror.map (fun m => { m with
            primary := false, primaryId := origin, st1 := .resync, st2 := .out, sent1 := false, sent2 := false }) } ∧
          (∀ w ∈ t.spn.mwaits, w.vol ≠ pkVolume (ps.headD []))))) ∧
  (∀ (s : State) (copy xid : Nat) (ps : List (List Byte)) (f : Flit) (w : MWait) (g : Tag), powered s = true →
    messageOf s tMirrorAck copy xid = some (ps, f) → s.spn.mwaits = [w] → w.xid = xid % 2 ^ 32 → w.waiting = [copy] →
    Tbl.get? s.tags w.tag = some g → pkOpcode g.packet ≠ opSpanMirrorSet → g.st = .running → g.work = .mirror → g.groups = [] →
    (field ps.flatten 0 1 = stOk → Completes (.mirrorAck copy xid) s fun t => Ended t w.tag g.reply.status g.reply.r0 g.reply.r1 ∧
      t.spn.mwaits = [] ∧ OtherTags w.tag s t ∧ OnlyIn [.spn, .tags, .locks, .units] s t) ∧
    (field ps.flatten 0 1 ≠ stOk → exec (.mirrorAck copy xid) s = .next (takeMessage tMirrorAck copy xid s))) ∧
  (∀ (s : State) (copy xid : Nat) (w : MWait) (u : Vol) (m : Mirror), powered s = true →
    s.spn.mwaits.find? (fun w => w.xid == xid && w.waiting.contains copy) = some w → w.sentAt + s.spn.graceUs ≤ s.now →
    vol? s w.vol = some u → u.mirror = some m → (liveCopies u).contains copy = true → Completes (.mirrorGraceExpiry copy xid) s fun t =>
      (∃ y, (vol? t w.vol).bind (fun u => u.mirror) = some y ∧ (m.id1 = copy → y.st1 = .out) ∧ (m.id2 = copy → y.st2 = .out) ∧
        (m.id1 ≠ copy → y.st1 = m.st1) ∧ (m.id2 ≠ copy → y.st2 = m.st2)) ∧
      (∀ x ∈ t.spn.mwaits, ¬ (x.vol = w.vol ∧ copy ∈ x.waiting)) ∧ OnlyIn [.flc, .spn, .tags, .insts] s t) ∧
  (∀ (s : State) (v : Nat) (second : Bool) (u : Vol) (m : Mirror), powered s = true → vol? s v = some u → u.mirror = some m →
    m.primary = true → (if second then 3 else 2) ≤ m.copies → (if second then m.st2 else m.st1) = .resync →
    ((if second then m.sent2 else m.sent1) = false → s.locks = [] → Completes (.resyncPassEnd v second) s fun t =>
      vol? t v = some { u with mirror := some (if second then { m with sent2 := true } else { m with sent1 := true }) } ∧
      OnlyIn [.flc, .spn] s t) ∧
    ((if second then m.sent2 else m.sent1) = true →
      (∀ w ∈ s.spn.mwaits, ¬ (w.vol = v ∧ (if second then m.id2 else m.id1) ∈ w.waiting)) →
      Completes (.resyncPassEnd v second) s fun t =>
        vol? t v = some { u with
          mirror := some (if second then { m with st2 := .inSet, sent2 := false } else { m with st1 := .inSet, sent1 := false }) } ∧
        t.flc.groups.getLast? = some { id := s.flc.nextGroup, held := false, entries := [.mirror v] } ∧
        OnlyIn [.flc, .spn, .insts] s t))

/-! ### Tasks, runs and epochs -/

/-- Posts, spawns, dispatches, applied checkpoints and cancels (R171 to R185): a post sets its flag in the context that its handle or its
command's binding names and readies a waiting task whose wait it satisfies, or counts as an orphan; a spawned task waits or is READY; the
selected task runs on a free engine; a committed half is released in order; a cancelled context is FREE, at once or when its engine stops. -/
def Obligations.TasksArePostedDispatchedCancelled : Prop :=
  (∀ (s : State) (c : Instr) (source : Fin 38) (handle : BitVec 20) (inst : Option (Fin 64)) (tag : Fin 256) (flag : Fin 32) (cycles : Fin 11)
    (h k : Nat), powered s = true →
    (c = .post source handle inst tag flag ∨ c = .eventQueueStall source handle inst tag flag cycles ∧ 1 ≤ cycles.val) →
    (inst = none ∧ h = handle.toNat ∧ k = flag ∨
      ∃ n b, inst = some n ∧ flag.val < 8 ∧ Tbl.get? s.sch.bindings (tagKey n tag) = some b ∧ h = b.handle ∧ k = b.base + flag) →
    (∀ x y, ctxOfHandle s h = some x → Tbl.get? s.sch.tasks x = some y →
      (let p := y.pending ||| BitVec.ofNat 32 (2 ^ k)
       Completes c s fun t => OnlyIn [.sch, .fresh] s t ∧ t.sch.orphans = s.sch.orphans ∧
        (∀ j, j ≠ x → Tbl.get? t.sch.tasks j = Tbl.get? s.sch.tasks j) ∧
        Tbl.get? t.sch.tasks x = some (if y.st = .waiting ∧ waitMet p y.waitMask y.waitAll = true then
          { y with
            pending := p &&& ~~~y.waitMask, delivered := y.delivered ||| (p &&& y.waitMask), st := .ready, engine := noEngine
            readyOrder := s.sch.readyCounter }
          else { y with pending := p }))) ∧
    (ctxOfHandle s h = none → Completes c s fun t => OnlyIn [.sch, .fresh] s t ∧ t.sch.tasks = s.sch.tasks ∧
      t.sch.orphans = satInc s.sch.orphans 0xFFFFFFFF)) ∧
  (∀ (s : State) (ctx : Fin 4096) (prio : Fin 8) (owner : Fin 65) (damzu : Bool) (program : Nat) (wait : Option (BitVec 32 × Bool))
    (spawner : BitVec 20), powered s = true → Tbl.has s.sch.tasks ctx = false →
    Completes (.spawn ctx prio owner damzu program wait spawner) s fun t => OnlyIn [.sch, .fresh] s t ∧
      ∃ y, Tbl.get? t.sch.tasks ctx = some y ∧ y.prio = prio ∧ y.owner = owner ∧ y.pending = 0 ∧
        (wait = none → y.st = .ready) ∧ (∀ m a, wait = some (m, a) → y.st = .waiting ∧ y.waitMask = m ∧ y.waitAll = a)) ∧
  (∀ (s : State) (engine : Fin 36) (x : Engine) (c : Nat) (y : Task), powered s = true → s.sch.hold = false →
    Tbl.get? s.sch.engines engine = some x → engineFree x = true → selected s = some (c, y) → Tbl.get? s.sch.tasks c = some y →
    (x.window = y.program ∨ ∀ p ∈ s.sch.engines, engineFree p.2 = true → p.2.window ≠ y.program) →
    Completes (.dispatch engine) s fun t => OnlyIn [.sch, .fresh] s t ∧
      Tbl.get? t.sch.tasks c = some { y with
        st := .running, engine := engine, since := s.now, ckptAt := s.now, frameDelivered := y.delivered } ∧
      Tbl.get? t.sch.engines engine = some { x with
        ctx := some c, window := if y.damzu then y.program else 0, order := s.sch.dispatchCounter }) ∧
  (∀ (s : State) (engine : Fin 36) (x : Engine) (l : LogHalf), powered s = true → Tbl.get? s.sch.engines engine = some x →
    x.applying = some l → exec (.checkpointApplyDone engine) s = .next (l.effects.foldl releaseEffect { s with
      sch := { s.sch with engines := Tbl.modify s.sch.engines engine (fun x => { x with applying := none }) } })) ∧
  (∀ (s : State) (handle : BitVec 20) (c : Nat) (y : Task), powered s = true → ctxOfHandle s handle.toNat = some c →
    Tbl.get? s.sch.tasks c = some y → Completes (.cancel handle none) s fun t => OnlyIn [.sch, .fresh] s t ∧
      ((y.st = .running ∨ y.st = .stopping) → Tbl.get? t.sch.tasks c = some { y with st := .stopping }) ∧
      (y.st ≠ .running → y.st ≠ .stopping → Tbl.get? t.sch.tasks c = none ∧ ctxGen t c = (ctxGen s c + 1) % 256)) ∧
  (∀ (s : State) (handle : BitVec 20) (o : Fin 65), powered s = true → Tbl.sorted s.sch.tasks = true → Completes (.cancel handle (some o)) s fun t =>
    OnlyIn [.sch, .fresh] s t ∧ (∀ c y, Tbl.get? t.sch.tasks c = some y → y.owner = o → y.st = .stopping) ∧
    (∀ c y, Tbl.get? s.sch.tasks c = some y → y.owner ≠ o → Tbl.get? t.sch.tasks c = some y)) ∧
  (∀ (s : State) (engine : Fin 36) (x : Engine) (c : Nat) (y : Task), powered s = true → Tbl.get? s.sch.engines engine = some x →
    x.ctx = some c → Tbl.get? s.sch.tasks c = some y → y.st = .stopping → Completes (.engineStopped engine) s fun t =>
      OnlyIn [.sch] s t ∧ Tbl.get? t.sch.engines engine = some { x with ctx := none } ∧ Tbl.get? t.sch.tasks c = none ∧
      ctxGen t c = (ctxGen s c + 1) % 256)

/-- The ends of a run, the takeover of an engine, and the epoch (R178, R184 to R188, R321, R357 to R361): a checkpoint charges the run time,
discards DELIVERED and leaves its half to be applied; then the task runs on, is HELD, READY, WAITING or freed as the command says; an engine
over its spare lines is retired after that; a failed engine is gated, applies its half and leaves its task to a spare; each epoch the shares
start again. -/
def Obligations.RunsAndEpochsEnd : Prop :=
  (∀ (s : State) (engine : Fin 36) (lines : Nat) (es : List (Fin 5 × Nat × Nat)) (c : Nat) (y : Task),
    ckptOf s engine lines es = some (c, y) →
    (let z : Task := { y with delivered := 0, frameDelivered := 0, ckptAt := s.now }
     let ready : Task := { z with st := .ready, engine := noEngine, readyOrder := s.sch.readyCounter }
     -- `u` is the state after the checkpoint: context `c` is `r`, the engine keeps it or not, its half waits
     let saved (r : Option Task) (keeps : Bool) (u : State) : Prop := OnlyIn [.sch, .insts, .mem, .fresh] s u ∧
       Tbl.get? u.sch.tasks c = r ∧ (∃ x, Tbl.get? u.sch.engines engine = some x ∧ x.ctx = (if keeps then some c else none) ∧
         x.applying = some { ctx := c, lines := lines, effects := es.filterMap effectOf }) ∧
       (∀ i, Tbl.get? s.insts y.owner = some i → y.owner ≠ 64 → ∃ j, Tbl.get? u.insts y.owner = some j ∧
         j.share.used.engine = i.share.used.engine + 1000 * (s.now - y.ckptAt))
     let ends (r : Option Task) (keeps : Bool) (t : State) : Prop := ∃ u, t = retireDue engine u ∧ saved r keeps u
     (s.sch.hold = false → Completes (.checkpointInterval engine lines es) s (ends (some z) true)) ∧
     (s.sch.hold = true → Completes (.checkpointInterval engine lines es) s (ends (some { z with st := .held, engine := noEngine }) false)) ∧
     Completes (.yield engine lines es) s (ends (some ready) false) ∧
     (y.since + s.sch.sliceUs ≤ s.now → (readyTasks s).any (fun p => p.2.prio == y.prio) = true →
        Completes (.sliceExpiry engine lines es) s (ends (some ready) false)) ∧
     (∀ prio, victim s = some (engine.val, prio) → s.sch.hold = false → s.sch.engines.any (fun p => engineFree p.2) = false →
        (readyTasks s).any (fun p => decide (prio < p.2.prio)) = true →
        Completes (.preemption engine lines es) s (ends (some ready) false)) ∧
     (∀ mask all, waitMet y.pending mask all = true → Completes (.wait_ engine mask all lines es) s fun t => OnlyIn [.sch, .fresh] s t ∧
        Tbl.get? t.sch.tasks c = some { y with
          waitMask := mask, waitAll := all, delivered := y.delivered ||| (y.pending &&& mask), pending := y.pending &&& ~~~mask }) ∧
     (∀ mask all, waitMet y.pending mask all = false → Completes (.wait_ engine mask all lines es) s
        (ends (some { z with waitMask := mask, waitAll := all, st := .waiting, engine := noEngine }) false)) ∧
     (∀ code, Completes (.exit_ engine code lines es) s (ends none false)))) ∧
  (∀ (u : State) (e : Nat), (∀ r ∈ u.mem.retiring, r.1 ≠ e) → retireDue e u = u) ∧
  (∀ (s : State) (engine : Fin 36) (ns : Nat) (x : Engine), powered s = true → Tbl.get? s.sch.engines engine = some x → x.role = .inService →
    engineSpare s ≠ some engine.val → Completes (.engineFault engine ns) s fun t =>
      (∃ y, Tbl.get? t.sch.engines engine = some y ∧ y.role = .failed ∧ y.ctx = none ∧ y.applying = none) ∧
      bit t.clk.gate engine = true ∧ bit t.clk.stopped engine = true ∧ t.sch.takeovers = satInc s.sch.takeovers 0xFFFF ∧
      (∀ sp, engineSpare s = some sp → Tbl.get? t.sch.replaces (sp - 32) = some engine.val ∧
        ∀ z, Tbl.get? s.sch.engines sp = some z → ∃ w, Tbl.get? t.sch.engines sp = some w ∧ w.role = .inService)) ∧
  (∀ (s : State) (engine : Fin 36) (ns : Nat) (x : Engine), powered s = true → Tbl.get? s.sch.engines engine = some x → x.role = .spare →
    Completes (.engineFault engine ns) s fun t => Tbl.get? t.sch.engines engine = some { x with role := .failed }) ∧
  (∀ (s : State) (uses : List (Fin 64 × Fin 1001 × Fin 1001)), powered s = true → (s.sch.epoch + 1) * 100 ≤ s.now →
    Completes (.epoch uses) s fun t => OnlyIn [.sch, .insts, .fresh] s t ∧ t.sch.epoch = s.sch.epoch + 1 ∧
      t.sch.devCredit = (engineCapacity * s.sch.devWeight / max (weightSum s Three.engine) 1 : Nat) ∧
      ∀ n i, Tbl.get? s.insts n = some i → ∃ j, Tbl.get? t.insts n = some j ∧ j.ring = i.ring ∧ j.share.used = { engine := 0, codec := 0, flash := 0 } ∧
        j.share.weight = i.share.nextWeight ∧ j.share.cap = i.share.nextCap ∧
        j.share.credit.headD 0 = (engineCapacity * i.share.nextWeight.engine / max (weightSum s Three.engine) 1 : Nat))

/-! ### Damzu -/

/-- The arithmetic of Damzu (R202, R207, R208, Tables 6.5 and 6.6): a worker at such a word, within its budget, gets the result in G[D] (G0 stays
zero) and goes on to the next word; immediates of ADDI, SLTUI and SEQI are sign-extended, those of ANDI and ORI are not; shift counts are taken
modulo 64; MOVH sets the 16 bits that K names. -/
def Obligations.DamzuArithmetic : Prop :=
  ∀ (s : State) (i : Nat) (w : Worker) (p : Prog),
  (∀ d a b : Fin 16,
    (AtWord s i (wordRR 0x01 d a b) w p → Makes (.add i d a b) s i w (Gives d (getG w a + getG w b))) ∧
    (AtWord s i (wordRR 0x02 d a b) w p → Makes (.sub i d a b) s i w (Gives d (getG w a - getG w b))) ∧
    (AtWord s i (wordRR 0x03 d a b) w p → Makes (.mul i d a b) s i w (Gives d (getG w a * getG w b))) ∧
    (AtWord s i (wordRR 0x04 d a b) w p → Makes (.and_ i d a b) s i w (Gives d (getG w a &&& getG w b))) ∧
    (AtWord s i (wordRR 0x05 d a b) w p → Makes (.or_ i d a b) s i w (Gives d (getG w a ||| getG w b))) ∧
    (AtWord s i (wordRR 0x06 d a b) w p → Makes (.xor i d a b) s i w (Gives d (getG w a ^^^ getG w b))) ∧
    (AtWord s i (wordRR 0x07 d a b) w p → Makes (.shl i d a b) s i w (Gives d (getG w a <<< ((getG w b).toNat % 64)))) ∧
    (AtWord s i (wordRR 0x08 d a b) w p → Makes (.shr i d a b) s i w (Gives d (getG w a >>> ((getG w b).toNat % 64)))) ∧
    (AtWord s i (wordRR 0x09 d a b) w p → Makes (.sltu i d a b) s i w (Gives d (if getG w a < getG w b then 1 else 0))) ∧
    (AtWord s i (wordRR 0x0A d a b) w p → Makes (.seq i d a b) s i w (Gives d (if getG w a = getG w b then 1 else 0)))) ∧
  (∀ d a : Fin 16,
    (AtWord s i (wordRR 0x0B d a 0) w p → Makes (.ctz i d a) s i w (Gives d (BitVec.ofNat 64 (trailingZeros 64 (getG w a).toNat)))) ∧
    (AtWord s i (wordRR 0x0C d a 0) w p → Makes (.popc i d a) s i w (Gives d (BitVec.ofNat 64 (popCount 64 (getG w a).toNat)))) ∧
    (∀ n : Fin 4, AtWord s i (wordRI 0x18 d a n) w p →
      Makes (.bswap i d a n) s i w (Gives d (ofBytes 64 (leBytes (2 ^ n.val) (getG w a).toNat).reverse))) ∧
    (∀ n : Fin 64, AtWord s i (wordRI 0x13 d a n) w p → Makes (.shli i d a n) s i w (Gives d (getG w a <<< n.val))) ∧
    (∀ n : Fin 64, AtWord s i (wordRI 0x14 d a n) w p → Makes (.shri i d a n) s i w (Gives d (getG w a >>> n.val)))) ∧
  (∀ (d a : Fin 16) (imm : BitVec 18),
    (AtWord s i (wordRI 0x10 d a imm.toNat) w p → Makes (.addi i d a imm) s i w (Gives d (getG w a + imm.signExtend 64))) ∧
    (AtWord s i (wordRI 0x11 d a imm.toNat) w p → Makes (.andi i d a imm) s i w (Gives d (getG w a &&& imm.setWidth 64))) ∧
    (AtWord s i (wordRI 0x12 d a imm.toNat) w p → Makes (.ori i d a imm) s i w (Gives d (getG w a ||| imm.setWidth 64))) ∧
    (AtWord s i (wordRI 0x15 d a imm.toNat) w p →
      Makes (.sltui i d a imm) s i w (Gives d (if getG w a < imm.signExtend 64 then 1 else 0))) ∧
    (AtWord s i (wordRI 0x16 d a imm.toNat) w p →
      Makes (.seqi i d a imm) s i w (Gives d (if getG w a = imm.signExtend 64 then 1 else 0))) ∧
    (AtWord s i (wordRI 0x17 d 0 imm.toNat) w p → Makes (.movh i d imm) s i w (Gives d (ofBytes 64
      (overlay (leBytes 8 (getG w d).toNat) (2 * bits imm.toNat 16 2) (leBytes 2 imm.toNat))))))

/-- The loads, stores and vectors of Damzu (R202, R203, R210, R212, Table 6.6): a record load reads zeros beyond the record; constant and scratch
offsets wrap within their windows, and one that the width does not divide traps 1; a store changes those bytes of scratch; vectors work byte by
byte, VSPLAT copies a byte, VMASK gathers bit 7 of each. -/
def Obligations.DamzuMemoryAndVectors : Prop :=
  ∀ (s : State) (i : Nat) (w : Worker) (p : Prog),
  (∀ (a : Fin 16) (off : BitVec 16),
    (let addr := (getG w a + off.signExtend 64).toNat
     let k := if p.const.length = 0 then 0 else addr % p.const.length
     let c := if p.scratchLen = 0 then 0 else addr % p.scratchLen
     (∀ (d : Fin 16) (sz : Fin 4),
       (AtWord s i (wordM 0x20 d a sz off.toNat) w p →
         Makes (.ldr i d a sz off) s i w (Gives d (ofBytes 64 (bytesAt w.record addr (2 ^ sz.val))))) ∧
       (AtWord s i (wordM 0x21 d a sz off.toNat) w p → Makes (.ldk i d a sz off) s i w
         (if k % 2 ^ sz.val = 0 then Gives d (ofBytes 64 (bytesAt p.const k (2 ^ sz.val))) else trap 1)) ∧
       (AtWord s i (wordM 0x22 d a sz off.toNat) w p → Makes (.lds i d a sz off) s i w
         (if c % 2 ^ sz.val = 0 then Gives d (ofBytes 64 (Cells.readN w.scratch c (2 ^ sz.val))) else trap 1)) ∧
       (AtWord s i (wordM 0x23 d a sz off.toNat) w p → Makes (.sts i d a sz off) s i w
         (if c % 2 ^ sz.val = 0 then fun w => flowNext w.pc { w with
            scratch := Cells.writeN w.scratch c (leBytes (2 ^ sz.val) (getG w d).toNat) } else trap 1))) ∧
     (∀ vd : Fin 4,
       (AtWord s i (wordVM 0x24 vd a off.toNat) w p →
         Makes (.vldr i vd a off) s i w (GivesV vd (ofBytes 256 (bytesAt w.record addr 32)))) ∧
       (AtWord s i (wordVM 0x25 vd a off.toNat) w p → Makes (.vldk i vd a off) s i w
         (if k % 32 = 0 then GivesV vd (ofBytes 256 (bytesAt p.const k 32)) else trap 1)) ∧
       (AtWord s i (wordVM 0x26 vd a off.toNat) w p → Makes (.vlds i vd a off) s i w
         (if c % 32 = 0 then GivesV vd (ofBytes 256 (Cells.readN w.scratch c 32)) else trap 1)) ∧
       (AtWord s i (wordVM 0x27 vd a off.toNat) w p → Makes (.vsts i vd a off) s i w
         (if c % 32 = 0 then fun w => flowNext w.pc { w with
            scratch := Cells.writeN w.scratch c (leBytes 32 (getV w vd).toNat) } else trap 1))))) ∧
  (∀ vd va vb : Fin 4,
    (AtWord s i (wordVV 0x28 vd va vb) w p →
      Makes (.vcmpeq i vd va vb) s i w (GivesV vd (vzip (fun a b => if a = b then 0xFF else 0) (getV w va) (getV w vb)))) ∧
    (AtWord s i (wordVV 0x29 vd va vb) w p →
      Makes (.vcmpgtu i vd va vb) s i w (GivesV vd (vzip (fun a b => if b < a then 0xFF else 0) (getV w va) (getV w vb)))) ∧
    (AtWord s i (wordVV 0x2A vd va vb) w p → Makes (.vand i vd va vb) s i w (GivesV vd (getV w va &&& getV w vb))) ∧
    (AtWord s i (wordVV 0x2B vd va vb) w p → Makes (.vor i vd va vb) s i w (GivesV vd (getV w va ||| getV w vb))) ∧
    (AtWord s i (wordVV 0x2C vd va vb) w p → Makes (.vxor i vd va vb) s i w (GivesV vd (getV w va ^^^ getV w vb)))) ∧
  (∀ (vd : Fin 4) (a : Fin 16), AtWord s i (wordVM 0x2D vd a 0) w p →
    Makes (.vsplat i vd a) s i w (GivesV vd (ofBytes 256 (List.replicate 32 ((getG w a).setWidth 8))))) ∧
  (∀ (d : Fin 16) (va : Fin 4), AtWord s i (0x2E * 2 ^ 26 + 2 ^ 22 * d + 2 ^ 20 * va) w p →
    Makes (.vmask i d va) s i w (Gives d (maskOf (getV w va))))

/-- The control flow and output of Damzu (R204, R205, R208 to R213, Table 6.6): a taken branch goes OFF words ahead and leaves the loops that do not
hold its target; LOOP runs its body min(G[C], MAX) times; LIDX reads a loop's index; emitted bytes are staged up to 65,536; CNT stages an addition,
IDXS the first match of a bound table; TRAP ends the record with its code, END with its output counted; a word beyond the budget traps 8. -/
def Obligations.DamzuControlAndOutput : Prop :=
  ∀ (s : State) (i : Nat) (w : Worker) (p : Prog),
  (∀ (a b : Fin 16) (off : BitVec 18),
    (let go (taken : Bool) (w : Worker) : Worker := if taken then flowTaken (w.pc + 4 * off.toNat) w else flowNext w.pc w
     (AtWord s i (wordBR 0x30 a b off.toNat) w p → Makes (.beq i a b off) s i w (go (decide (getG w a = getG w b)))) ∧
     (AtWord s i (wordBR 0x31 a b off.toNat) w p → Makes (.bne i a b off) s i w (go (decide (getG w a ≠ getG w b)))) ∧
     (AtWord s i (wordBR 0x32 a b off.toNat) w p → Makes (.bltu i a b off) s i w (go (decide (getG w a < getG w b)))) ∧
     (AtWord s i (wordBR 0x33 a b off.toNat) w p → Makes (.bgeu i a b off) s i w (go (decide (getG w b ≤ getG w a)))))) ∧
  (∀ (c : Fin 16) (body : Fin 1024) (mx : Fin 4096), AtWord s i (wordLP 0x34 c body mx) w p →
    (min (getG w c).toNat mx = 0 → Makes (.loop i c body mx) s i w (fun w => flowNext (w.pc + 4 * body) w)) ∧
    (min (getG w c).toNat mx ≠ 0 → w.loops = [] → Makes (.loop i c body mx) s i w (fun w => { w with
      pc := w.pc + 4, loops := [{ first := w.pc + 4, last := w.pc + 4 * body, n := min (getG w c).toNat mx, iter := 0 }] }))) ∧
  (∀ (d : Fin 16) (level : Fin 4), AtWord s i (0x35 * 2 ^ 26 + 2 ^ 22 * d + 2 ^ 20 * level) w p →
    Makes (.lidx i d level) s i w (Gives d (BitVec.ofNat 64 ((w.loops.map (fun e => e.iter)).getD level 0)))) ∧
  (∀ a b : Fin 16,
    (let off := (getG w a).toNat
     let n := (getG w b).toNat
     let c := if p.scratchLen = 0 then 0 else off % p.scratchLen
     (AtWord s i (wordBR 0x38 a b 0) w p → Makes (.emitr i a b) s i w (if 65536 < w.emitted.length + n then trap 3
       else fun w => flowNext w.pc { w with emitted := w.emitted ++ bytesAt w.record off n })) ∧
     (AtWord s i (wordBR 0x39 a b 0) w p → Makes (.emits i a b) s i w (if p.scratchLen < c + n then trap 2
       else if 65536 < w.emitted.length + n then trap 3
       else fun w => flowNext w.pc { w with emitted := w.emitted ++ Cells.readN w.scratch c n })))) ∧
  (∀ (a : Fin 16) (sz : Fin 4), AtWord s i (0x3A * 2 ^ 26 + 2 ^ 22 * a + 2 ^ 16 * sz) w p →
    Makes (.emitg i a sz) s i w (if 65536 < w.emitted.length + 2 ^ sz.val then trap 3
      else fun w => flowNext w.pc { w with emitted := w.emitted ++ leBytes (2 ^ sz.val) (getG w a).toNat })) ∧
  (∀ (a : Fin 16) (k : Fin 8), AtWord s i (0x3B * 2 ^ 26 + 2 ^ 22 * a + 2 ^ 19 * k) w p →
    Makes (.cnt i a k) s i w (fun w => flowNext w.pc { w with adds := w.adds ++ [(k.val, (getG w a).toNat)] })) ∧
  (∀ (d : Fin 16) (va slot : Fin 4), AtWord s i (0x3C * 2 ^ 26 + 2 ^ 22 * d + 2 ^ 20 * va + 2 ^ 18 * slot) w p → s.idx.enable = true →
    (slotTable s p slot = none → Makes (.idxs i d va slot) s i w (trap 4)) ∧
    (∀ tb x, slotTable s p slot = some (tb, x) → Completes (.idxs i d va slot) s fun t =>
      Tbl.get? t.dmz.workers i = some (Gives d (idxsValue s tb x ((getV w va).toNat % 2 ^ 128)) { w with
        count := w.count + 1, searches := w.searches + 1 }) ∧ OnlyIn [.dmz, .idx] s t)) ∧
  (∀ code : BitVec 8, AtWord s i (0x3D * 2 ^ 26 + code.toNat) w p → Makes (.trap i code) s i w (trap code.toNat)) ∧
  (AtWord s i (0x3E * 2 ^ 26) w p → w.recIndex = (gatherOf s w.tag).recordsIn →
    (∀ q ∈ s.dmz.workers, q.2.tag = w.tag → q.2.st = .ended → q.2.recIndex ≠ w.recIndex + 1) → Completes (.end_ i) s fun t =>
    OnlyIn [.dmz] s t ∧ (∃ v, Tbl.get? t.dmz.workers i = some v ∧ v.st = .applied) ∧
    Tbl.get? t.dmz.gathers w.tag = some { counters := addCounters (gatherOf s w.tag).counters w.adds
                                          recordsIn := (gatherOf s w.tag).recordsIn + 1
                                          recordsOut := (gatherOf s w.tag).recordsOut + b2n (!w.emitted.isEmpty)
                                          stream := (gatherOf s w.tag).stream ++ w.emitted }) ∧
  -- without a loop the next word is 4 bytes on; at the end of a body its loop begins again or ends
  (∀ v : Worker, (v.loops = [] → flowNext v.pc v = { v with pc := v.pc + 4 }) ∧
    (∀ e es, v.loops = e :: es → v.pc = e.last → e.iter + 1 < e.n →
      flowNext v.pc v = { v with pc := e.first, loops := { e with iter := e.iter + 1 } :: es })) ∧
  -- a word beyond the budget is not executed
  (Tbl.get? s.dmz.workers i = some w → Tbl.get? s.dmz.progs w.prog = some p → serving s = true → w.st = .running → w.budget ≤ w.count →
    nextEnded s w.tag = none → ∀ d a b : Fin 16, codeWord p w.pc = wordRR 0x01 d a b → exec (.add i d a b) s = .next { s with
      dmz := { s.dmz with workers := Tbl.set s.dmz.workers i (trap 8 w) } })

/-! ### The flash -/

/-- PAGE_READ_DONE, PATROL_READ, PROGRAM_DONE, ERASE_DONE, JOURNAL_PAGE_DURABLE and MAP_SEGMENT_WRITE (R268, R271 to R275, R282 to R286,
R290, R291, R294, R295): a page read counts each code word by the step that decoded it, marks the block for refresh, retires it after a
rebuild and poisons what is lost; a program takes the block into its superblock, a failed one retires it; an erase adds its wear and frees
the block; a durable journal page takes its groups off, numbers the next page; a segment written is no longer dirty. -/
def Obligations.PagesAreReadProgrammedErased : Prop :=
  (∀ (s : State) (die block offset : Nat) (cws : List (Fin 7)) (weak : Bool) (lost : List (Nat × Nat)) (d : Die) (c : Chan),
    powered s = true → Tbl.get? s.flc.dies die = some d → Tbl.get? s.flc.channels (die / 16) = some c → 1 ≤ cws.length → cws.length ≤ 4 →
    let n := atSteps (cws.map (fun x => x.val))
    let counted (t : State) : Prop :=
      (∃ y, Tbl.get? t.flc.channels (die / 16) = some y ∧ y.decodes = c.decodes + n 0 5 ∧ y.retryCnt = satAdd c.retryCnt (n 2 2) 0xFFFF ∧
        y.softCnt = satAdd c.softCnt (n 3 4) 0xFFFF ∧ y.rebuilt = satAdd c.rebuilt (n 5 5) 0xFFFF ∧
        y.lost = satAdd c.lost (n 6 6) 0xFFFF) ∧
      (∃ y, Tbl.get? t.flc.dies die = some y ∧ y.timeouts = 0 ∧ Tbl.get? y.reads block = some (Tbl.getD d.reads block 0 + 1) ∧
        y.offset = if n 0 4 = 0 then d.offset else offset) ∧
      (n 2 5 ≠ 0 ∨ weak = true → (die, block) ∈ t.flc.toRefresh) ∧
      (n 5 5 ≠ 0 → ∃ r ∈ t.flc.retiredList, r.1 = die ∧ r.2.1 = block)
    Completes (.pageReadDone die block cws weak offset lost none) s (fun t => counted t ∧ OnlyIn [.glb, .pwr, .flc, .insts] s t ∧
      (n 5 6 = 0 → t.flc.vols = s.flc.vols ∧ OnlyIn [.flc] s t)) ∧
    (patrolRuns s (die / 16) = true → Completes (.patrolRead die block cws weak offset lost false true) s fun t =>
      counted t ∧ t.flc.life.patrolAt = s.now ∧ OnlyIn [.glb, .pwr, .flc, .insts] s t)) ∧
  (∀ (s : State) (sb die block : Nat) (slc closes : Bool) (src : Option Nat) (wb dense : Fin 101) (x : Superblock),
    powered s = true → dieServes s die = true → chanWrites s (die / 16) = true → Tbl.get? s.flc.superblocks sb = some x →
    x.st = .opened → x.slc = slc →
    Completes (.programDone sb die block slc closes true src wb dense) s (fun t =>
      (∃ y, Tbl.get? t.flc.superblocks sb = some y ∧ (die, block) ∈ y.blocks ∧ y.refs = x.refs ∧
        y.st = if closes then .closed else .opened) ∧
      t.flc.life.mediaWritten = s.flc.life.mediaWritten + 1 ∧ t.flc.wbFreePct = wb ∧ t.flc.denseFreePct = dense ∧
      t.flc.denseDirect = (decide (wb.val < 10) || s.flc.denseDirect && decide (wb.val ≤ 20)) ∧
      t.flc.gcRaised = (decide (wb.val < 25 ∨ dense.val < 1) || s.flc.gcRaised && decide (wb.val ≤ 40 ∨ dense.val ≤ 2)) ∧
      OnlyIn [.flc] s t) ∧
    Completes (.programDone sb die block slc closes false src wb dense) s (fun t =>
      (∃ r ∈ t.flc.retiredList, r.1 = die ∧ r.2.1 = block) ∧ t.flc.life.programFails = s.flc.life.programFails + 1 ∧
      t.flc.life.mediaWritten = s.flc.life.mediaWritten ∧ OnlyIn [.glb, .pwr, .flc, .insts] s t)) ∧
  (∀ (s : State) (sb die block : Nat) (wb dense : Fin 101) (x : Superblock) (d : Die),
    powered s = true → chanWrites s (die / 16) = true → Tbl.get? s.flc.superblocks sb = some x → Tbl.get? s.flc.dies die = some d →
    x.st = .erasing → (die, block) ∈ x.toErase →
    Completes (.eraseDone sb die block true wb dense) s (fun t =>
      (∃ y, Tbl.get? t.flc.dies die = some y ∧ y.freeBlocks = d.freeBlocks + 1 ∧ Tbl.get? y.reads block = none ∧
        Tbl.get? y.wear block = some (Tbl.getD d.wear block 0 + eraseCost d.cls x.slc)) ∧
      ((∀ p ∈ x.toErase, p = (die, block)) → Tbl.get? t.flc.superblocks sb = none) ∧ OnlyIn [.flc, .insts] s t) ∧
    Completes (.eraseDone sb die block false wb dense) s (fun t =>
      (∃ r ∈ t.flc.retiredList, r.1 = die ∧ r.2.1 = block) ∧ t.flc.life.eraseFails = s.flc.life.eraseFails + 1 ∧
      OnlyIn [.glb, .pwr, .flc, .insts] s t)) ∧
  (∀ (s : State) (n : Nat), programsRun s = true → 1 ≤ n → n ≤ s.flc.groups.length →
    (s.flc.groups.take n).foldl (fun a g => a + g.entries.length) 0 ≤ 511 →
    Completes (.journalPageDurable n) s fun t => t.flc.pageSeq = s.flc.pageSeq + 1 ∧ OnlyIn [.glb, .flc, .spn, .tags, .locks, .units] s t) ∧
  (∀ (s : State) (seg : Nat), programsRun s = true → seg ∈ s.flc.dirty → Completes (.mapSegmentWrite seg) s fun t =>
    t = { s with flc := { s.flc with dirty := t.flc.dirty, segSeq := Tbl.set s.flc.segSeq seg (s.flc.pageSeq - 1) } } ∧
    ∀ x, x ∈ t.flc.dirty ↔ x ∈ s.flc.dirty ∧ x ≠ seg)
/-- GC_SELECT, GC_COPY_VERIFIED, GC_ERASE_SOURCE, WEAR_LEVEL_MOVE and REFRESH (R277 to R280, R290, R294): a source is taken, each copy
that verified goes to the journal as a MAP_MOVE that names source and target, and the source is erased when nothing names it, no move of
it waits and no read pins it. -/
def Obligations.CollectionCopiesBeforeItErases : Prop :=
  (∀ (s : State) (sb : Nat) (x : Superblock), Tbl.get? s.flc.superblocks sb = some x →
    (gcRuns s x.slc = true → selectable s x = true → exec (.gcSelect sb) s = .next
      (modSb sb (fun b => { b with st := .copying }) s)) ∧
    (gcRuns s false = true → x.st = .closed → (wearSpread s).2.2 * 20 < ((wearSpread s).1 - (wearSpread s).2.1) * 10 →
      (∀ p ∈ s.flc.superblocks, p.2.st = .closed → x.written ≤ p.2.written) →
      exec (.wearLevelMove sb) s = .next (modSb sb (fun b => { b with st := .copying }) s)) ∧
    (programsRun s = true → x.st = .copying → x.refs = [] → movesWait s sb = false → pinned s x = false →
      exec (.gcEraseSource sb) s = .next (modSb sb (fun b => { b with st := .erasing, toErase := b.blocks }) s)) ∧
    (x.refs ≠ [] ∨ movesWait s sb = true ∨ pinned s x = true → Idles (.gcEraseSource sb) s)) ∧
  (∀ (s : State) (sb dst vol allot : Nat) (x y : Superblock) (u : Vol) (e : MapEnt), powered s = true →
    Tbl.get? s.flc.superblocks sb = some x → Tbl.get? s.flc.superblocks dst = some y → sb ≠ dst → y.st = .opened → y.slc = false →
    vol? s vol = some u → Tbl.get? u.map allot = some e → (vol, allot) ∈ x.refs →
    (x.st = .verifying → Completes (.gcCopyVerified sb vol allot dst) s fun t =>
      (∃ z, Tbl.get? t.flc.superblocks sb = some z ∧ z.st = .journaling ∧ z.refs = x.refs) ∧
      (∃ e', t.flc.groups = s.flc.groups ++ [{ id := s.flc.nextGroup, held := false, entries := [.mapMove vol allot e e' sb dst] }] ∧
        e'.poison = e.poison ∧ e'.packed = e.packed ∧ e'.len = e.len) ∧
      t.flc.vols = s.flc.vols ∧ OnlyIn [.flc, .fresh] s t) ∧
    (∀ die block, (die, block) ∈ x.blocks → refreshDue s die block = true → Completes (.refresh sb die block dst [(vol, allot)]) s fun t =>
      (∃ e', t.flc.groups = s.flc.groups ++ [{ id := s.flc.nextGroup, held := false, entries := [.mapMove vol allot e e' sb dst] }] ∧
        e'.poison = e.poison ∧ e'.packed = e.packed ∧ e'.len = e.len) ∧
      (die, block) ∉ t.flc.toRefresh ∧ (∀ d, Tbl.get? t.flc.dies die = some d → Tbl.get? d.reads block = none) ∧
      t.flc.superblocks = s.flc.superblocks ∧ t.flc.vols = s.flc.vols ∧ OnlyIn [.flc, .fresh] s t))
/-- DIE_TIMEOUT, REBUILD_DONE, CHANNEL_LOST, EVACUATE, RELEASE and INSERTED (R296, R298, R407, Tables 8.19 and 8.20): the third timeout in
a row retires a die; a lost channel is FAILED and warned of; an evacuation begins on a channel in service and is refused where its data
would not fit, ends on an empty channel; only an evacuated channel is released, only a released one takes a new carrier. -/
def Obligations.DiesChannelsAndCarriers : Prop :=
  (∀ (s : State) (die ns : Nat) (d : Die), powered s = true → dieServes s die = true → Tbl.get? s.flc.dies die = some d →
    Completes (.dieTimeout die ns) s fun t => (∃ y, Tbl.get? t.flc.dies die = some y ∧ y.timeouts = d.timeouts + 1 ∧
      (3 ≤ y.timeouts ↔ y.retired = true)) ∧ OnlyIn [.glb, .pwr, .flc, .insts] s t) ∧
  (∀ (s : State) (die : Nat) (d : Die), powered s = true → Tbl.get? s.flc.dies die = some d → d.rebuilding = true → onDie s die = 0 →
    exec (.rebuildDone die) s = .next (healthWarning 5 die d.relocated
      { s with flc := { s.flc with dies := Tbl.modify s.flc.dies die (fun d => { d with rebuilding := false }) } })) ∧
  (∀ (s : State) (ch : Fin 16) (ns : Nat) (c : Chan), powered s = true → Tbl.get? s.flc.channels ch = some c →
    c.st ∈ [.inService, .shed, .evacuating, .training] → Completes (.channelLost ch ns) s fun t =>
      (∃ y, Tbl.get? t.flc.channels ch = some y ∧ y.st = .failed) ∧ bit t.pwr.faultSts 5 = true ∧
      OnlyIn [.glb, .pwr, .flc, .insts] s t) ∧
  (∀ (s : State) (fn : Fin 2) (ch : Fin 16) (c : Chan), Tbl.get? s.flc.channels ch = some c →
    let ends (result : Nat) (x : Chan) : Chan := { x with
      svcOp := 0, result := result, progress := if result = 1 then 100 else x.progress }
    let said (op result : Nat) (f : Chan → Chan) : State := logHealth 0x0011 0xFF 0xFFFF ch 0 0 [BitVec.ofNat 8 op, BitVec.ofNat 8 result]
      (modChan ch (ends result) (modChan ch f s))
    (bar0Answers s fn (0x10024 + 0x400 * ch.val) = true → c.svcOp = 0 →
      (c.st = .inService → evacuationRefused s ch = false → exec (.evacuate fn ch false) s = .next
        (modChan ch (fun x => { x with st := .evacuating, svcOp := 1, progress := 0, result := 0 }) s)) ∧
      (c.st = .inService → evacuationRefused s ch = true → exec (.evacuate fn ch false) s = .next (said 1 2 id)) ∧
      (c.st ≠ .inService → exec (.evacuate fn ch false) s = .next (said 1 3 id)) ∧
      (c.st = .evacuated → exec (.release fn ch) s = .next (said 2 1 (fun x => { x with st := .released }))) ∧
      (c.st ≠ .evacuated → exec (.release fn ch) s = .next (said 2 3 id)) ∧
      (∀ trained rate dies refused,
        (c.st = .released → exec (.inserted fn ch false trained rate dies refused) s = .next
          (modChan ch (fun x => { x with st := .training, svcOp := 3, progress := 0, result := 0 }) s)) ∧
        (c.st ≠ .released → exec (.inserted fn ch false trained rate dies refused) s = .next (said 3 3 id)))) ∧
    (powered s = true → c.svcOp = 1 → channelEmpty s ch = true → c.st = .evacuating → Completes (.evacuate fn ch true) s fun t =>
      (∃ y, Tbl.get? t.flc.channels ch = some y ∧ y.st = .evacuated ∧ y.svcOp = 0 ∧ y.result = 1 ∧ y.progress = 100) ∧
      OnlyIn [.glb, .flc, .insts] s t) ∧
    (powered s = true → c.svcOp = 3 → ∀ trained dies, ∀ refused : List (Fin 16), ∀ rate ≤ 3200,
      Completes (.inserted fn ch true trained rate dies refused) s fun t =>
        (∃ y, Tbl.get? t.flc.channels ch = some y ∧ y.svcOp = 0 ∧
          y.result = (if trained then if refused = [] then 1 else 4 else 6) ∧
          y.st = (if trained = true ∧ dies ≠ [] then .inService else .released) ∧ (trained = true ∧ dies ≠ [] → y.rate = rate)) ∧
        OnlyIn [.glb, .flc, .insts, .fresh] s t))

/-! ### Memories and the cache -/

/-- The check codes of R310 to R312: a flip at a data position changes that bit of the data read; one flipped position is corrected to the
byte or granule as it was stored; two never decode; the inverted checks c1 to c512 read as POISON; and the example of R312. -/
def Obligations.CodesCorrectOneAndDetectTwo : Prop :=
  (∀ b : Byte, ∀ p ≤ 12, verdict 12 [p] = .corrected ∧ dataCorrected [b] [p] = [b] ∧
    ∀ i, dataBitAt p = some i → i < 8 ∧ dataRead [b] [p] = [b ^^^ BitVec.ofNat 8 (2 ^ i)]) ∧
  (∀ bs : List Byte, ∀ p ≤ 522, verdict 522 [p] = .corrected ∧ dataCorrected bs [p] = bs) ∧
  (∀ p ≤ 12, ∀ q ≤ 12, p ≠ q → verdict 12 [p, q] = .uncorrectable) ∧
  (∀ p ≤ 522, ∀ q ≤ 522, p ≠ q → verdict 522 [p, q] = if p ^^^ q = 0x3FF then .poison else .uncorrectable) ∧
  verdict 522 poisonPattern = .poison ∧ (∀ bs : List Byte, dataRead bs poisonPattern = bs) ∧
  dataRead [0xA5] [6] = [0xA1] ∧ verdict 12 [3, 6] = .uncorrectable ∧ syndrome [3, 6] = 5
/-- SRAM_SCRUB, DRAM_SCRUB, HOGSHEAD_BANK_REPLACE, FIRKIN_LINE_REMAP, DRAM_SIDE_FAIL and MEM_INJ_ARM (R317, R319 to R324, R328, R341): a
scrubber corrects and counts a correctable error, counts an uncorrectable one, rewrites a mirrored granule from the other side and marks
any other with the poison pattern; a failing bank gives way to a spare, a failing line to a spare line; a failed side is out. -/
def Obligations.MemoriesAreScrubbedAndRepaired : Prop :=
  (∀ (s : State) (target : Fin 4) (first len : Nat) (nature : List (Nat × List Nat)) (hard : List Nat) (pass : Bool),
    powered s = true → flushing s = false → s.mem.sramScrubEn = true →
    Completes (.sramScrub target first len nature hard pass) s (fun t =>
      (pass = true → t.mem.sramPassAt = s.now) ∧ OnlyIn [.mem, .sch] s t) ∧
    (∀ a ps, s.mem.hogErr.filter (fun p => decide (first ≤ p.1 ∧ p.1 < first + len)) = [(a, ps)] → s.mem.injArm = false →
      (verdict 12 ps = .corrected → Completes (.sramScrub 0 first len [] [] pass) s fun t => Tbl.get? t.mem.hogErr a = none ∧
        t.mem.corrected = satInc s.mem.corrected 0xFFFF ∧ Cells.read t.mem.hog a = correctedByte (Cells.read s.mem.hog a) ps ∧
        ∀ x, x ≠ a → Cells.read t.mem.hog x = Cells.read s.mem.hog x) ∧
      (verdict 12 ps = .uncorrectable → twinOf s.mem a = none → Completes (.sramScrub 0 first len [] [] pass) s fun t =>
        t.mem.uncorrectable = satInc s.mem.uncorrectable 0xFFFF ∧ t.mem.lastAddr = a % 2 ^ 32 ∧ t.mem.lastKind = 2 ∧
        t.mem.hog = s.mem.hog))) ∧
  (∀ (s : State) (b : Bool) (first count : Nat) (nature : List (Nat × List Nat)) (pass : Bool),
    powered s = true → flushing s = false → s.mem.dramScrubEn = true → sideServes s b = true →
    Completes (.dramScrub b first count nature pass) s (fun t =>
      (pass = true → t.mem.dramPassAt = s.now) ∧ OnlyIn [.mem, .drc] s t) ∧
    (∀ g ps, (sideOf s b).errs.filter (fun p => decide (first ≤ p.1 ∧ p.1 < first + count)) = [(g, ps)] → s.mem.injArm = false →
      (verdict 522 ps = .corrected → Completes (.dramScrub b first count [] pass) s fun t =>
        Tbl.get? (sideOf t b).errs g = none ∧ (sideOf t b).corrected = satInc (sideOf s b).corrected 0xFFFF ∧
        sideData t b (64 * g) = dataCorrected (sideData s b (64 * g)) ps) ∧
      (verdict 522 ps = .uncorrectable → 2 ^ 20 * s.drc.mirrorMib ≤ 64 * g → Completes (.dramScrub b first count [] pass) s fun t =>
        Tbl.get? (sideOf t b).errs g = some poisonPattern ∧ (sideOf t b).poisonWritten = satInc (sideOf s b).poisonWritten 0xFF ∧
        (sideOf t b).uncorrectable = satInc (sideOf s b).uncorrectable 0xFF) ∧
      (verdict 522 ps = .uncorrectable → 64 * g < 2 ^ 20 * s.drc.mirrorMib → sideServes s (!b) = true →
        Tbl.get? (sideOf s (!b)).errs g = none → Completes (.dramScrub b first count [] pass) s fun t =>
        Tbl.get? (sideOf t b).errs g = none ∧ sideData t b (64 * g) = sideData s (!b) (64 * g) ∧
        t.drc.mirrorRepairs = satInc s.drc.mirrorRepairs 0xFFFF))) ∧
  (∀ (s : State) (unit : Fin 34) (reason : Fin 4) (unreadable : List (Fin 4096)) (ns b sp : Nat), powered s = true →
    (List.range 32).find? (fun b => servingBank s.mem b == unit.val) = some b → bankSpare s = some sp → sp ≠ unit.val →
    unitOk s.mem.bankOk unit = true → bankDue s unit reason = true →
    Completes (.hogsheadBankReplace unit reason unreadable ns) s fun t => servingBank t.mem b = sp ∧ bit t.mem.bankOk unit = false ∧
      (∀ r ∈ t.mem.remaps, r.2.unit ≠ unit.val) ∧
      t.mem.repairs = s.mem.repairs ++ [{ kind := 2, unit := unit, address := sp, seq := s.glb.seq }] ∧
      OnlyIn [.glb, .pwr, .flc, .mem, .insts] s t) ∧
  (∀ (s : State) (e : Fin 36) (line : Fin 8192) (ns : Nat) (x : Engine), powered s = true → Tbl.get? s.sch.engines e = some x →
    (x.role = .inService ∨ x.role = .spare) → lineRemapped s.mem e line = false → (∀ r ∈ s.mem.retiring, r.1 ≠ e.val) →
    (∀ k, firkinLines s.mem e < 32 → Tbl.lowestFree s.mem.firkinRemaps (32 * e) 32 = some k →
      exec (.firkinLineRemap e line ns) s = .next { s with mem := { s.mem with
        firkinRemaps := Tbl.set s.mem.firkinRemaps k { unit := e, line := line, factory := false }
        repairs := s.mem.repairs ++ [{ kind := 3, unit := e, address := line, seq := s.glb.seq }] } }) ∧
    (32 ≤ firkinLines s.mem e → x.role = .inService → x.ctx ≠ none → exec (.firkinLineRemap e line ns) s = .next
      { s with mem := { s.mem with retiring := s.mem.retiring ++ [(e.val, ns)] } }) ∧
    (32 ≤ firkinLines s.mem e → x.role = .spare → Completes (.firkinLineRemap e line ns) s fun t =>
      (∃ y, Tbl.get? t.sch.engines e = some y ∧ y.role = .failed) ∧ OnlyIn [.pwr, .sch] s t)) ∧
  (∀ (s : State) (b : Bool) (reason : Fin 3) (dropped : List (Nat × Nat)) (ns : Nat), powered s = true →
    ((sideOf s b).st = .inService ∨ (sideOf s b).st = .shed ∨ (sideOf s b).st = .training) → sideDue s b reason = true →
    Completes (.dramSideFail b reason dropped ns) s fun t => (sideOf t b).st = .failed ∧ sideOf t (!b) = sideOf s (!b) ∧
      (∀ p, p ∈ t.bsh.packages ↔ p ∈ s.bsh.packages ∧ (p.vol, p.lba) ∉ dropped) ∧
      OnlyIn [.glb, .pwr, .bsh, .flc, .drc, .insts] s t) ∧
  (∀ (s : State) (fn : Fin 2) (v : BitVec 32), bar0Answers s fn 0xF034 = true → bit v.toNat 31 = true →
    Completes (.memInjArm fn v) s fun t => t.mem.injArm = true ∧
      (bits v.toNat 28 3 ≤ 5 → t.mem.injTarget = bits v.toNat 28 3) ∧ (bits v.toNat 26 2 ≤ 2 → t.mem.injMode = bits v.toNat 26 2) ∧
      (bits v.toNat 20 6 < 36 → t.mem.injEngine = bits v.toNat 20 6) ∧
      (bits v.toNat 0 10 ≤ 12 → t.mem.injA = bits v.toNat 0 10) ∧ (bits v.toNat 10 10 ≤ 12 → t.mem.injB = bits v.toNat 10 10) ∧
      t.mem.hog = s.mem.hog ∧ t.mem.hogErr = s.mem.hogErr ∧ OnlyIn [.mem] s t)
/-- CACHE_FILL, PREFETCH, WRITE_BUFFER_DRAIN, CACHE_DISABLE, CACHE_ENABLE, CCH_WAY_PWR_WRITE and CACHE_WAY_FAULT (R329, R332, R333, R336,
R337, R407): a fill that reads well stands in its way; a prefetched stream's lines are in the cache; a whole line drained lies in DRAM;
disabling empties the cache once the write buffer is empty; a way powered down holds no line and its clock is gated. -/
def Obligations.CacheFillsDrainsAndGates : Prop :=
  (∀ (s : State) (line w : Nat), powered s = true → s.cch.fills.find? (fun f => f.1 == line) = some (line, some w) →
    (∀ e ∈ s.cch.wbuf, e.line ≠ line) → dramHeld s (line * 128) = false → s.mem.injArm = false →
    Completes (.cacheFill [] line []) s fun t => (∀ f ∈ t.cch.fills, f.1 ≠ line) ∧
      ((dramReadLine line s).1 = true → Tbl.get? t.cch.lines (line % 4096 * 16 + w) = some { line := line }) ∧
      ((dramReadLine line s).1 = false → t.cch.lines = s.cch.lines) ∧ OnlyIn [.mem, .cch, .drc] s t) ∧
  (∀ (s : State) (cls : Fin 4) (line : Nat), powered s = true → s.cch.enable = true → s.cch.enabled = true →
    s.cch.prefetchEn = true → (∃ x ∈ s.cch.streams, x.cls = cls.val ∧ x.line = line ∧ x.due = true) →
    Completes (.prefetch cls line []) s fun t => (∀ x ∈ t.cch.streams, x.cls = cls.val → x.line = line → x.due = false) ∧
      (s.drc.a.st = .inService → s.drc.b.st = .inService → s.drc.a.errs = [] → s.drc.b.errs = [] →
        s.cch.side.length + s.cch.pfDepth ≤ 64 → ∀ i < s.cch.pfDepth, cached t.cch (line + 1 + i) = true) ∧
      OnlyIn [.mem, .cch, .drc] s t) ∧
  (∀ (s : State) (e : WEntry) (es : List WEntry), powered s = true → s.cch.wbuf = e :: es → dramHeld s (e.line * 128) = false →
    Completes (.writeBufferDrain []) s fun t => t.cch.wbuf = es ∧ OnlyIn [.clk, .mem, .cch, .drc] s t ∧
      (e.enables = List.range 128 → 2 ^ 20 * s.drc.mirrorMib ≤ e.line * 128 → s.mem.injArm = false →
        ∀ b off, dramPlace s (e.line * 128) = (b, off, false) → sideServes s b = true →
        ∀ i < 128, Cells.read (sideOf t b).cells (off + i) = Cells.read e.bytes i)) ∧
  (∀ (s : State) (fn : Fin 2) (v : BitVec 32), bar0Answers s fn 0xE000 = true →
    (bit v.toNat 0 = false → Completes (.cacheDisable fn v) s fun t => t.cch.enable = false ∧ t.cch.prefetchEn = bit v.toNat 1 ∧
      (s.cch.enabled = true → s.cch.wbuf = [] → t.cch.enabled = false ∧ t.cch.lines = [] ∧ t.cch.victims = [] ∧ t.cch.side = []) ∧
      (s.cch.wbuf ≠ [] → t.cch.enabled = s.cch.enabled ∧ t.cch.lines = s.cch.lines) ∧ t.cch.wbuf = s.cch.wbuf ∧
      OnlyIn [.clk, .cch] s t) ∧
    (bit v.toNat 0 = true → Completes (.cacheEnable fn v) s fun t => t.cch.prefetchEn = bit v.toNat 1 ∧
      (s.cch.enable = true ∨ s.cch.enabled = false → t.cch.enable = true ∧ t.cch.lines = s.cch.lines) ∧
      (1 ≤ bits v.toNat 4 3 → bits v.toNat 4 3 ≤ 4 → t.cch.pfDepth = bits v.toNat 4 3) ∧ OnlyIn [.clk, .cch] s t)) ∧
  (∀ (s : State) (fn : Fin 2) (v : BitVec 32), bar0Answers s fn 0xE008 = true → Completes (.cchWayPwrWrite fn v) s fun t =>
    (∀ w < 16, bit t.cch.wayPwr w = bit v.toNat w) ∧
    (∀ w < 16, bit v.toNat w = true → bit s.cch.wayPwr w = false → ∀ n, Tbl.get? t.cch.lines (n * 16 + w) = none) ∧
    (s.cch.wbuf = [] → ∀ w < 16, bit v.toNat w = true → bit t.cch.waySts w = true) ∧ OnlyIn [.clk, .cch] s t) ∧
  (∀ (s : State) (way : Fin 16) (ns : Nat), powered s = true → bit s.cch.wayPwr way = false →
    8 ≤ (s.cch.parityTimes.filter (fun p => p.1 == way.val && decide (s.now ≤ 1000 + p.2))).length →
    Completes (.cacheWayFault way ns) s fun t => (∀ w < 16, bit t.cch.wayPwr w = (bit s.cch.wayPwr w || decide (w = way.val))) ∧
      (∀ n, Tbl.get? t.cch.lines (n * 16 + way.val) = none) ∧ OnlyIn [.glb, .clk, .pwr, .flc, .cch, .insts] s t)

/-! ### Failed reads, pairs, clocks, ports and spares -/

/-- HOST_READ_ERROR (R499): the read is counted; before any effect the command ends with ST_BAD_FIELD and RESULT0 24; a codec job ends with
ST_BAD_FIELD and the offset of what it read, its context EMPTY; a write of which nothing was read in full stores nothing. -/
def Obligations.FailedHostReadsEndTheirCommands : Prop :=
  ∀ (s : State) (inst : Fin 64) (tag : Fin 256) (op : Nat) (g : Tag), Working op s (tagKey inst tag) g →
    let counted (t : State) : Prop := t.hif.hostErrors = satInc s.hif.hostErrors 0xFFFF
    (∀ units, op ∈ [opProgramLoad, opLicenseLoad, opSealOpen, opFwStage] →
      Replies (.hostReadError inst tag 0 units) s (tagKey inst tag) stBadField 24 0 [.hif] counted) ∧
    (∀ units, op ∉ [opCodec, opCodecResume, opCodecRestore] → pkSgl g.packet = true →
      Replies (.hostReadError inst tag 3 units) s (tagKey inst tag) stBadField 24 0 [.hif] counted) ∧
    (∀ what : Fin 4, ∀ units, what ≠ 3 → op ∈ [opCodec, opCodecResume] → mayWrite s inst = true →
      Replies (.hostReadError inst tag what units) s (tagKey inst tag) stBadField (if what = 1 then 20 else if what = 2 then 36 else 24) 0
        [.hif, .mgr, .bsh, .hostMem, .fresh] fun t => counted t ∧ ctxOf t inst (pkContext g.packet) = none) ∧
    (∀ what : Fin 4, ∀ units, what ≤ 1 → op = opCodecRestore →
      Replies (.hostReadError inst tag what units) s (tagKey inst tag) stBadField 24 0
        [.hif, .bsh] fun t => counted t ∧ ctxOf t inst (pkContext g.packet) = none) ∧
    (op = opWrite → lockHeld s (tagKey inst tag) = true → Completes (.hostReadError inst tag 0 0) s fun t => counted t ∧
      t.flc.groups = s.flc.groups ∧ t.flc.vols = s.flc.vols)
/-- PAIR_MISCOMPARE, REFCLK_LOSS, PLL_RELOCK, ROOT_REQ_CHANGE, HOST_PORT_FAIL, LINK_RETURN and SPARE_CHECK (R31, R408, R410 to R413): a
pair runs single, or the part takes a power-on reset; a lost root reference is switched when the standby PLL is locked and AUTO_SWITCH is
set, and otherwise resets the part; a failed port's instances move to the other when it covers; a failing spare is out. -/
def Obligations.PairsClocksPortsAndSpares : Prop :=
  (∀ (s : State) (pair : Fin 22) (ns : Nat), powered s = true →
    (bit s.pwr.pairsSingle pair = false → Completes (.pairMiscompare pair true ns) s fun t =>
      t.pwr.pairsSingle = setBit s.pwr.pairsSingle pair true ∧ OnlyIn [.glb, .pwr, .flc, .insts] s t) ∧
    (∀ pass, pass = false ∨ bit s.pwr.pairsSingle pair = true →
      Completes (.pairMiscompare pair pass ns) s (PowerOnResetLeaves 16 false s))) ∧
  (∀ (s : State) (ref : Fin 2) (ns : Nat), powered s = true → (if ref = 0 then s.clk.refOk0 else s.clk.refOk1) = true →
    let lost (t : State) : Prop := (if ref = 0 then t.clk.refOk0 else t.clk.refOk1) = false ∧
      (if ref = 0 then t.clk.lock0 else t.clk.lock1) = false
    (ref.val = b2n s.clk.rootActive → s.clk.autoSwitch = true → standbyLocked s = true → Completes (.refclkLoss ref ns) s fun t =>
      lost t ∧ t.clk.rootActive = (!s.clk.rootActive) ∧ t.clk.switchCount = satInc s.clk.switchCount 0xFFFF ∧
      OnlyIn [.glb, .clk, .pwr, .flc, .insts] s t) ∧
    (ref.val = b2n s.clk.rootActive → s.clk.autoSwitch = false ∨ standbyLocked s = false → Completes (.refclkLoss ref ns) s
      (PowerOnResetLeaves 8 (!(if ref = 0 then s.clk.refOk1 else s.clk.refOk0)) s)) ∧
    (ref.val ≠ b2n s.clk.rootActive → Completes (.refclkLoss ref ns) s fun t =>
      lost t ∧ t.clk.rootActive = s.clk.rootActive ∧ OnlyIn [.clk, .pwr] s t)) ∧
  (∀ (s : State) (ref : Fin 2), powered s = true → 2 ≤ s.glb.stage → s.clk.stbyEn = true →
    (if ref = 0 then s.clk.lock0 else s.clk.lock1) = false → (if ref = 0 then s.clk.lostAt0 else s.clk.lostAt1) + 100000 ≤ s.now →
    Completes (.pllRelock ref) s fun t => (if ref = 0 then t.clk.lock0 else t.clk.lock1) = true ∧
      (if ref = 0 then t.clk.refOk0 else t.clk.refOk1) = true ∧
      (s.clk.rootPending = false → t.clk.rootActive = s.clk.rootActive) ∧ OnlyIn [.glb, .clk, .flc] s t) ∧
  (∀ (s : State) (fn : Fin 2) (v : BitVec 32), bar0Answers s fn 0x1000 = true → bit v.toNat 0 ≠ s.clk.rootReq →
    Completes (.rootReqChange fn v) s fun t => t.clk.rootReq = bit v.toNat 0 ∧ t.clk.autoSwitch = bit v.toNat 1 ∧
      t.clk.stbyEn = bit v.toNat 2 ∧ OnlyIn [.glb, .clk, .pwr, .flc] s t ∧
      (bit v.toNat 2 = true → bit v.toNat 0 ≠ s.clk.rootActive → pllLocked s (if s.clk.rootActive then 0 else 1) = true →
        t.clk.rootActive = bit v.toNat 0 ∧ t.clk.switchCount = satInc s.clk.switchCount 0xFFFF)) ∧
  (∀ (s : State) (p : Fin 2) (vectors : List Nat) (ns : Nat), powered s = true → (portOf s p).linkUp = true →
    (portCovered s p = true → Completes (.hostPortFail p vectors ns) s fun t => (portOf t p).linkUp = false ∧
      (portOf t p).failures = satInc (portOf s p).failures 0xFFFF ∧
      (∀ n i, Tbl.get? s.insts n = some i → ∃ j, Tbl.get? t.insts n = some j ∧ j.port = (if i.port = p.val then 1 - p.val else i.port) ∧
        j.ring.evtQ.length ≥ i.ring.evtQ.length ∧ j.st = i.st) ∧ t.tags = s.tags ∧ OnlyIn [.glb, .hif, .pwr, .flc, .insts] s t) ∧
    (portCovered s p = false → Completes (.hostPortFail p vectors ns) s fun t => (portOf t p).linkUp = false ∧
      bit t.pwr.portsDown p = true ∧ bit t.pwr.faultSts 4 = true ∧ (portOf t p).heldMsix = vectors ++ (portOf s p).heldMsix ∧
      t.insts = s.insts ∧ OnlyIn [.hif, .pwr] s t)) ∧
  (∀ (s : State) (p : Fin 2) (width : Nat) (speed : Fin 6) (rev : Bool) (pol : Nat), powered s = true → (portOf s p).linkUp = false →
    (portOf s p).perst = false → widthOk (portLanes s p) width = true → 1 ≤ speed.val → speed.val ≤ maxSpeed s →
    Completes (.linkReturn p width speed rev pol) s fun t => (portOf t p).linkUp = true ∧ (portOf t p).width = width ∧
      (portOf t p).speed = speed ∧ bit t.pwr.portsDown p = false ∧
      ((portOf s p).d3hot = false → (portOf t p).heldMsix = [] ∧
        t.hif.msix = s.hif.msix ++ (portOf s p).heldMsix.map (fun v => (p.val, v))) ∧ OnlyIn [.hif, .pwr] s t) ∧
  (∀ (s : State) (failing : List (Fin 8 × Nat)), powered s = true → 5 ≤ s.glb.stage → s.pwr.spareCheckAt + 10000000 ≤ s.now →
    Completes (.spareCheck failing) s fun t => t.pwr.spareCheckAt = s.now ∧
      (∀ n e, (0, n) ∈ failing → Tbl.get? s.sch.engines n = some e → e.role = .spare →
        ∃ y, Tbl.get? t.sch.engines n = some y ∧ y.role = .failed) ∧
      (failing = [] → OnlyIn [.pwr] s t) ∧ OnlyIn [.pwr, .bsh, .sec, .sch, .idx, .flc, .mem] s t)

/-! ### Supply -/

/-- The supply rows (R419, R420, R422, R423, R437, Tables 12.4 to 12.6, 12.9): a rail below warning begins a dip and drops hold-up; the
dwell ends it and reports it; a long dip and an over-voltage are reported; a rail below reset resets the part, held; PWR_FAIL_N begins the
flush, which leaves everything held durable and the DRAM in self-refresh; the deassertion resumes without a reset. -/
def Obligations.SupplyDipsFlushesAndResumes : Prop :=
  (∀ (s : State) (r : Fin 8) (mv : Nat), powered s = true → mv < warnMv r → resetMv r ≤ mv → Completes (.railBelowWarning r mv) s fun t =>
    bit t.pwr.below r = true ∧ (∃ m, Tbl.get? t.pwr.rails r = some (m, mv) ∧ m ≤ mv) ∧
    (s.pwr.supply = .normal → t.pwr.supply = .warning ∧ t.pwr.dips = satInc s.pwr.dips 0xFFFF ∧ t.pwr.dipRail = r ∧
      t.pwr.dipStart = s.now ∧ holdupOk t = false ∧
      (holdupOk s = true → ∀ n i, Tbl.get? t.insts n = some i → i.feat.writeBack = false)) ∧
    (s.pwr.supply = .recovering → t.pwr.supply = .warning ∧ t.pwr.dips = s.pwr.dips) ∧ OnlyIn [.pwr, .insts] s t) ∧
  (∀ (s : State) (mvs : List Nat), powered s = true → mvs.length = 8 → (∀ r < 8, warnMv r + hystMv r ≤ mvs.getD r 0) → s.pwr.below ≠ 0 →
    Completes (.railsAboveWarning mvs) s fun t => t.pwr.below = 0 ∧ t.pwr.dwellAt = s.now ∧
      t.pwr.supply = (if s.pwr.supply = .warning then .recovering else s.pwr.supply) ∧ OnlyIn [.pwr] s t) ∧
  (∀ (s : State), powered s = true → s.pwr.supply = .recovering → s.pwr.dwellAt + 100 ≤ s.now → Completes .dwellEnd s fun t =>
    t.pwr.supply = .normal ∧ t.pwr.dipLong = false ∧ t.pwr.dipLast = (s.pwr.dwellAt - s.pwr.dipStart) % 2 ^ 32 ∧
    OnlyIn [.glb, .pwr, .flc, .insts] s t) ∧
  (∀ (s : State), powered s = true → (s.pwr.supply = .warning ∨ s.pwr.supply = .recovering) → s.pwr.dipLong = false →
    s.pwr.dipStart + 1000000 ≤ s.now → Completes .dipLong s fun t => t.pwr.dipLong = true ∧ bit t.pwr.faultSts 1 = true ∧
      t.insts = Tbl.modify s.insts 0 (queueEvent { code := 0x0021, status := stOk, r1 := s.now - s.pwr.dipStart
                                                   r0 := 0x0021 + 2 ^ 16 * s.pwr.dipRail + 2 ^ 24 + s.pwr.dipMv % 2 ^ 16 * 2 ^ 32 }) ∧
      OnlyIn [.pwr, .insts] s t) ∧
  (∀ (s : State) (r : Fin 8) (mv us : Nat), powered s = true → overMv r < mv → 1 ≤ us → Completes (.railOverVoltage r mv us) s fun t =>
    (∃ m, Tbl.get? t.pwr.rails r = some (m, mv)) ∧ t.pwr.supply = s.pwr.supply ∧
    t.insts = Tbl.modify s.insts 0 (queueEvent { code := 0x0021, status := stOk, r1 := us
                                                 r0 := 0x0021 + 2 ^ 16 * r.val + 2 ^ 24 * 2 + mv % 2 ^ 16 * 2 ^ 32 }) ∧
    OnlyIn [.glb, .pwr, .flc, .insts] s t) ∧
  (∀ (s : State) (r : Fin 8) (mv : Nat), mv < resetMv r → Completes (.railBelowReset r mv) s (PowerOnResetLeaves 2 true s)) ∧
  (∀ (s : State), s.pwr.pwrFail = false → Completes .pwrFailAssert s fun t => t.pwr.pwrFail = true ∧ OnlyIn [.clk, .pwr, .insts] s t ∧
    (powered s = true → 5 ≤ s.glb.stage → s.pwr.supply = .normal ∨ s.pwr.supply = .warning ∨ s.pwr.supply = .recovering →
      t.pwr.supply = .flush ∧ t.pwr.flushAt = s.now ∧ serving t = false ∧ ∀ d ∈ gatedEngines s, bit t.clk.stopped d = true)) ∧
  (∀ (s : State), powered s = true → s.pwr.supply = .flush → Completes .flushDone s fun t =>
    (s.pwr.deassertWaits = false → t.pwr.supply = .flushed ∧ t.drc.a.st ≠ .inService ∧ t.drc.b.st ≠ .inService) ∧
    t.pwr.flushDone = true ∧ t.pwr.flushUs = min (s.now - s.pwr.flushAt) 0xFFFFFF ∧
    t.mem.repairs = [] ∧ t.mem.learned = s.mem.learned ++ s.mem.repairs ∧
    OnlyIn [.glb, .clk, .pwr, .flc, .mem, .drc, .spn, .tags, .locks, .units] s t) ∧
  (∀ (s : State), s.pwr.pwrFail = true → Completes .pwrFailDeassert s fun t => t.pwr.pwrFail = false ∧
    (s.pwr.supply = .flush → t.pwr.supply = .flush ∧ t.pwr.deassertWaits = true) ∧
    (s.pwr.supply = .flushed → railsGood s = true → t.pwr.supply = .normal ∧
      (s.drc.a.st = .selfRefresh → s.drc.a.retraining = none → t.drc.a.st = .inService) ∧
      ∀ d ∈ gatedEngines s, bit t.clk.stopped d = false) ∧
    t.tags = s.tags ∧ t.flc = s.flc ∧ OnlyIn [.clk, .pwr, .drc] s t) ∧
  (∀ (s : State) (on : Bool), Completes (.holdupRdyChange on) s fun t => t.pwr.holdupRdy = on ∧
    (holdupOk s = true → on = false → ∀ n i, Tbl.get? t.insts n = some i → i.feat.writeBack = false) ∧ OnlyIn [.pwr, .insts] s t)

/-! ### Temperature and power -/

/-- SENSOR_SAMPLE, THERMAL_TRIP, POWER_CAP_ESTIMATE, RETRAIN_START and RETRAIN_DONE (R424 to R432): eight samples in a row change a
sensor's state and report it; 125 °C resets the part, held until it is cool; the cap slows the device while the estimate is above it; an
interface is shed where the redundancy allows and returns, its missed writes replayed, or is lost when its retraining fails. -/
def Obligations.TemperaturePowerCapAndRetraining : Prop :=
  (∀ (s : State) (n : Fin 20) (x : Sensor) (t0 : Int), powered s = true → sensorEnabled s n = true → Tbl.get? s.pwr.sensors n = some x →
    x.failed = false → (n.val < 12 → deviates s n t0 = false ∧ t0 < 1000) → (12 ≤ n.val → -320 ≤ t0 ∧ t0 ≤ 1200) →
    let k := stateAfter (countSample (limitsOf s n) t0 x)
    Completes (.sensorSample n (some t0)) s fun t =>
      (∃ y, Tbl.get? t.pwr.sensors n = some y ∧ y.temp = t0 ∧ y.state = k ∧ y.failed = false ∧ y.bad = 0) ∧
      (∀ m, m ≠ n.val → Tbl.get? t.pwr.sensors m = Tbl.get? s.pwr.sensors m) ∧
      (k = x.state → t.insts = s.insts ∧ t.glb = s.glb) ∧
      (k ≠ x.state → t.insts = Tbl.modify s.insts 0 (queueEvent {
          code := 0x0020, status := stOk, r1 := sensorMask s n
          r0 := 0x0020 + 2 ^ 16 * n.val + 2 ^ 24 * k + 2 ^ 28 * x.state + temp16 t0 * 2 ^ 32 })) ∧
      OnlyIn [.glb, .pwr, .flc, .insts, .fresh] s t) ∧
  (∀ (s : State) (n : Fin 12) (temp : Int), powered s = true → 1000 ≤ temp → (sensorOf s n).failed = false →
    Completes (.thermalTrip n temp) s (PowerOnResetLeaves 4 true s)) ∧
  (∀ (s : State) (mw : Nat), powered s = true → 5 ≤ s.glb.stage → s.pwr.capAt + 100 ≤ s.now → Completes (.powerCapEstimate mw) s fun t =>
    let cap := (Tbl.get? s.insts 0).elim 19 (fun i => i.feat.powerCap)
    (mw ≤ 1000 * cap → t.pwr.capActive = false ∧ t.pwr.capLevel = 0) ∧
    (1000 * cap < mw → t.pwr.capActive = true ∧ t.pwr.capLevel = if s.pwr.capLevel = 0 then 2 else 3) ∧
    t.pwr.capAt = s.now ∧ OnlyIn [.pwr] s t) ∧
  (∀ (s : State) (c : Fin 18) (x : Chan) (trig : Fin 3), c.val < 16 → Tbl.get? s.flc.channels c = some x → powered s = true →
    5 ≤ s.glb.stage → flushing s = false → x.st = .inService → (∀ p ∈ s.flc.channels, p.2.retraining = none) →
    heldOff s x.lastRetrain = false → triggered s trig (c / 2) x.trainTemp x.retrain = true →
    Completes (.retrainStart c trig) s fun t => (∃ y, Tbl.get? t.flc.channels c = some y ∧ y.retraining = some (s.now, trig.val) ∧
      y.lastRetrain = s.now ∧ y.st = if channelCovered s c then .shed else .training) ∧ OnlyIn [.flc] s t) ∧
  (∀ (s : State) (c : Fin 18) (x : Chan) (r : Nat × Nat) (dropped : List (Nat × Nat)) (ns : Nat), c.val < 16 →
    Tbl.get? s.flc.channels c = some x → x.retraining = some r → powered s = true →
    Completes (.retrainDone c true dropped ns) s (fun t => (∃ y, Tbl.get? t.flc.channels c = some y ∧ y.retraining = none ∧
      y.retrain = false ∧ y.trainCount = satInc x.trainCount 0xFF ∧ (channelThermal s c ≠ 4 → y.st = .inService)) ∧
      t.pwr.retrainFlash = satInc s.pwr.retrainFlash 0xFFFF ∧ OnlyIn [.glb, .pwr, .flc] s t) ∧
    Completes (.retrainDone c false dropped ns) s (fun t => (∃ y, Tbl.get? t.flc.channels c = some y ∧ y.st = .failed ∧
      y.retraining = none) ∧ OnlyIn [.glb, .pwr, .flc, .insts] s t)) ∧
  (∀ (s : State) (b : Bool) (trig : Fin 3), powered s = true → 5 ≤ s.glb.stage → flushing s = false → (sideOf s b).st = .inService →
    (sideOf s b).retraining = none → heldOff s (sideOf s b).lastRetrain = false →
    triggered s trig (8 + b2n b) (sideOf s b).trainTemp (sideOf s b).retrain = true →
    Completes (.retrainStart (if b then 17 else 16) trig) s fun t => (sideOf t b).retraining = some (s.now, trig.val) ∧
      (sideOf t b).st = (if sideServes s (!b) then .shed else .training) ∧ sideOf t (!b) = sideOf s (!b) ∧ OnlyIn [.drc] s t) ∧
  (∀ (s : State) (b : Bool) (r : Nat × Nat) (dropped : List (Nat × Nat)) (ns : Nat), (sideOf s b).retraining = some r → powered s = true →
    Completes (.retrainDone (if b then 17 else 16) true dropped ns) s (fun t => (sideOf t b).st = .inService ∧
      (sideOf t b).retraining = none ∧ (sideOf t b).logged = [] ∧
      (sideOf t b).cells = (sideOf s b).logged.foldl (fun m w => Cells.write m w.1 w.2) (sideOf s b).cells ∧
      sideOf t (!b) = sideOf s (!b) ∧ t.pwr.retrainDram = satInc s.pwr.retrainDram 0xFFFF ∧ OnlyIn [.glb, .pwr, .flc, .drc] s t) ∧
    Completes (.retrainDone (if b then 17 else 16) false dropped ns) s (fun t => (sideOf t b).st = .failed ∧
      (∀ p, p ∈ t.bsh.packages ↔ p ∈ s.bsh.packages ∧ (p.vol, p.lba) ∉ dropped) ∧
      OnlyIn [.glb, .pwr, .bsh, .flc, .drc, .insts] s t))

/-! ### Start-up, fuses, recovery and shutdown -/

/-- POWER_ON_RESET and STARTUP_PHASE_END (R437, R439 to R446, R463, Table 13.2): the reset leaves what Table 13.1 keeps and samples the
straps and references; the phases go 0 to 8 in order; two failed reads, a pool without a unit, too few dies or no DRAM end in FAILED; the
first image that passes R150 runs, and without one the part is in RECOVERY; PWR_FAIL_N holds start-up at STAGE 5. -/
def Obligations.StartupRunsItsPhases : Prop :=
  (∀ (s : State) (straps : Fin 16) (smba : Fin 4) (r0 r1 : Bool),
    Completes (.powerOnReset straps smba r0 r1 true) s (fun t => PowerOnResetLeaves 1 (!(r0 || r1)) s t ∧ t.clk.refOk0 = r0 ∧
      t.clk.refOk1 = r1 ∧ t.clk.rootActive = (!r0 && r1) ∧ t.hif.straps = straps ∧ t.glb.arrangement = min (bits straps 0 2) 2 ∧
      t.glb.seq = (seqMod + s.glb.seqLimit - 1) % seqMod ∧ t.glb.stored = s.glb.stored ∧ t.glb.staged = s.glb.staged) ∧
    (s.glb.held = false → Idles (.powerOnReset straps smba r0 r1 false) s) ∧
    (s.glb.held = true → (bit s.glb.cause 2 = true → coolAgain s = true) → Completes (.powerOnReset straps smba r0 r1 false) s fun t =>
      t.glb.held = (!(r0 || r1)) ∧ t.glb.cause = s.glb.cause ∧ t.now = 0 ∧ OnlyIn [.glb, .clk, .hif, .now] s t)) ∧
  (∀ (s : State) (o : StartOutcome), powered s = true →
    (s.glb.stage = 0 ∨ s.glb.stage = 12 → exec (.startupPhaseEnd o) s = .next { s with glb := { s.glb with stage := 1 } }) ∧
    (s.glb.stage = 1 → fusesTaken s = false → o.fusesAgree = false →
      exec (.startupPhaseEnd o) s = .next { s with glb := { s.glb with stage := 10 } }) ∧
    (s.glb.stage = 1 → fusesTaken s = false → o.fusesAgree = true → Completes (.startupPhaseEnd o) s fun t =>
      t.glb.stage = (if lifecycle s.otp = 0 ∨ lifecycle s.otp = 7 then 1 else 2) ∧ t.otp.won = winners s.otp ∧
      t.otp.ladderLc = lifecycle s.otp ∧ t.otp.fuses = s.otp.fuses ∧ t.clk.lock0 = s.clk.refOk0 ∧ t.clk.lock1 = s.clk.refOk1) ∧
    (s.glb.stage = 2 → scrupleFatal o = true → exec (.startupPhaseEnd o) s = .next { s with glb := { s.glb with stage := 10 } }) ∧
    (s.glb.stage = 2 → scrupleFatal o = false → Completes (.startupPhaseEnd o) s fun t => t.glb.stage = 3 ∧
      t.mem.remapFailed = o.remapFails ∧ ∀ k < 36, ∃ e, Tbl.get? t.sch.engines k = some e ∧
        (e.role = .failed ↔ (0, k) ∈ o.failed) ∧ (k < 32 → (0, k) ∉ o.failed → e.role = .inService)) ∧
    (s.glb.stage = 3 → Completes (.startupPhaseEnd o) s fun t => t.flc.vols = s.flc.vols ∧ t.drc.rate = o.dramRate ∧
      t.glb.stage = if (diesServing t).length < 8 ∨ (sideServes t false || sideServes t true) = false then 10 else 4) ∧
    (s.glb.stage = 4 → Completes (.startupPhaseEnd o) s fun t =>
      (t.glb.stage = 9 ∨ t.glb.stage = 5 ∧ imageRefused s.otp t.glb.running.bytes t.glb.running.len = none) ∧
      (imageRefused s.otp s.glb.stored.bytes s.glb.stored.len = none → o.rootCopy.val ∉ o.unreadable →
        setting s.otp 0 0 1 0 (fun v => decide (v ≤ 2)) ≠ 2 →
        t.glb.stage = 5 ∧ t.glb.candidate = o.rootCopy ∧ t.glb.running = s.glb.stored ∧ t.glb.bootSrc = 0 ∧ t.glb.fails = 0) ∧
      OnlyIn [.glb] s t) ∧
    (s.glb.stage = 5 → s.pwr.pwrFail = true → Idles (.startupPhaseEnd o) s) ∧
    (s.glb.stage = 5 → s.pwr.pwrFail = false → Completes (.startupPhaseEnd o) s fun t => t.glb.stage = 6 ∧ t.mem.twinBase = o.twinBase ∧
      t.cch.enabled = s.cch.enable ∧ t.flc = s.flc ∧ t.tags = s.tags ∧ OnlyIn [.glb, .clk, .pwr, .mem, .cch, .drc] s t) ∧
    (s.glb.stage = 6 → Completes (.startupPhaseEnd o) s fun t => t.glb.stage = 7 ∧ t.flc.clean = s.flc.clean ∧ t.tags = s.tags) ∧
    (s.glb.stage = 7 → programsRun s = true → Completes (.startupPhaseEnd o) s fun t => t.glb.stage = 8 ∧ t.flc.clean = false ∧
      t.glb.unclean = (!s.flc.clean && decide (s.flc.usable ≠ 0)) ∧ t.glb.readyMs = min (s.now / 1000) 0xFFFF))
/-- GO, OTP_PROG_DATA_WRITE, OTP_RESTART, OTP_GO, SHUTDOWN and RESUME (R155, R443, R446, R447, R449 to R453): an image from the host runs
only in RECOVERY and when it passes R150; an anchor is programmed once with its check, a lifecycle transition zeroises the keys and leads
to the state asked for; a shutdown ends with the journal clean in STAGE 11, and RESUME leads back to READY. -/
def Obligations.FusesRecoveryAndShutdown : Prop :=
  (∀ (s : State) (fn : Fin 2), bar0Answers s fn 0x3C = true →
    let len := s.glb.recovLen
    let bytes := Cells.ofList (hostRead s 0 s.glb.recovAddr len)
    let said (r : Nat) : State := { s with glb := { s.glb with recovResult := r } }
    (s.glb.stage ≠ 9 → ∀ e, exec (.go fn e) s = .next (said 2)) ∧
    (s.glb.stage = 9 → (len < 4096 ∨ 16777216 < len) → ∀ e, exec (.go fn e) s = .next (said 5)) ∧
    (s.glb.stage = 9 → 4096 ≤ len → len ≤ 16777216 → exec (.go fn true) s = .next (said 4)) ∧
    (s.glb.stage = 9 → 4096 ≤ len → len ≤ 16777216 → imageRefused s.otp bytes len ≠ none → Completes (.go fn false) s fun t =>
      t.glb.recovResult = 3 ∧ t.glb.stage = 9 ∧ t.glb.running = s.glb.running ∧ OnlyIn [.glb] s t) ∧
    (s.glb.stage = 9 → 4096 ≤ len → len ≤ 16777216 → imageRefused s.otp bytes len = none → Completes (.go fn false) s fun t =>
      t.glb.recovResult = 1 ∧ t.glb.stage = 5 ∧ t.glb.running = imageOf bytes len ∧ t.glb.stored = imageOf bytes len ∧
      t.glb.candidate = 5 ∧ t.glb.bootSrc = 2 ∧ OnlyIn [.glb] s t)) ∧
  (∀ (s : State) (fn : Fin 2) (w : BitVec 32), bar0Answers s fn 0x18008 = true →
    (s.otp.words.length < 12 → exec (.otpProgDataWrite fn w) s = .next { s with otp := { s.otp with words := s.otp.words ++ [w.toNat] } }) ∧
    (12 ≤ s.otp.words.length → Idles (.otpProgDataWrite fn w) s)) ∧
  (∀ (s : State) (fn : Fin 2), bar0Answers s fn 0x1800C = true →
    exec (.otpRestart fn) s = .next { s with otp := { s.otp with words := [] } } ∧
    (let said (r : Nat) : State := { s with otp := { s.otp with result := r } }
     let n := s.otp.sel
     (∀ m, targetWords n = none ∨ targetAllowed s n = false → exec (.otpGo fn m) s = .next (said 2)) ∧
     (∀ m, targetWords n ≠ none → targetAllowed s n = true → targetWritten s.otp n = true → exec (.otpGo fn m) s = .next (said 3)) ∧
     (∀ m, targetAllowed s n = true → targetWritten s.otp n = false → targetWords n ≠ none → progBad s.otp n = true →
       exec (.otpGo fn m) s = .next (said 4)) ∧
     (2 ≤ n → n ≤ 0x0A → targetAllowed s n = true → targetWritten s.otp n = false → s.otp.words.length = 12 →
       Completes (.otpGo fn []) s fun t => t.otp.result = 1 ∧ OnlyIn [.otp] s t ∧
         Cells.readN t.otp.fuses (0x24 + 0x34 * (n - 2)) 52 = progBytes s.otp ++ (sha (progBytes s.otp)).take 4 ∧
         ∀ a, a < 0x24 + 0x34 * (n - 2) ∨ 0x24 + 0x34 * (n - 2) + 52 ≤ a → Cells.read t.otp.fuses a = Cells.read s.otp.fuses a) ∧
     (∀ goal, n = 0x0C → s.otp.words = [goal] → goal < 256 → transitionAllowed s goal = true → Completes (.otpGo fn []) s fun t =>
       t.otp.result = 1 ∧ lifecycle t.otp = goal ∧ t.sec.volKeys = [] ∧ t.sec.ladderBlocked = true ∧ t.otp.porRequired = true) ∧
     (∀ goal m, n = 0x0C → s.otp.words = [goal] → goal < 256 → transitionAllowed s goal = false → Completes (.otpGo fn m) s fun t =>
       t.otp = { s.otp with result := 2 } ∧ OnlyIn [.glb, .otp, .flc] s t))) ∧
  (∀ (s : State) (fn : Fin 2), powered s = true → s.glb.stage = 8 →
    (bar0Answers s fn 0x8 = true → exec (.shutdown fn false) s = .next { s with glb := { s.glb with shutdown := true } }) ∧
    (s.glb.shutdown = true → s.tags = [] → s.glb.resetTag = none → programsRun s = true → Completes (.shutdown fn true) s fun t =>
      t.glb.stage = 11 ∧ t.flc.clean = true ∧ t.flc.dirty = [] ∧ t.flc.logPending = [] ∧ t.mem.repairs = [] ∧
      OnlyIn [.glb, .flc, .mem, .spn, .tags, .locks, .units] s t) ∧
    (s.glb.shutdown = true → s.tags ≠ [] → Idles (.shutdown fn true) s)) ∧
  (∀ (s : State) (fn : Fin 2), bar0Answers s fn 0x8 = true → s.glb.stage = 11 → exec (.resume fn) s = .next { s with
    glb := { s.glb with stage := 8, shutdown := false }
    flc := { s.flc with clean := false } })

/-! ### Resets -/

/-- DEVICE_RESET, PERST_N_ASSERT, PERST_N_RELEASE, FUNCTION_LEVEL_RESET, D3HOT_ENTRY and D3HOT_EXIT (R73, R74, R437, R438, R462): a
DEVICE_RESET ends every other command with ST_ABORTED_BY_RESET and itself with ST_OK; a PERST_N ends the tags of its port's instances
without reply and makes instances 1 to 63 of it ABSENT; a function-level reset ends its port's commands with ST_ABORTED_BY_RESET; D3hot
holds the function's messages until its return to D0. -/
def Obligations.ResetsOfPortsAndTheDevice : Prop :=
  (∀ (s : State) (inst : Fin 64) (tag : Fin 256) (g : Tag), Working opDeviceReset s (tagKey inst tag) g →
    Completes (.deviceReset inst tag) s fun t => Ended t (tagKey inst tag) stOk 0 0 ∧ t.glb.resetTag = some (tagKey inst tag) ∧
      (∀ n i, Tbl.get? s.insts n = some i → ∀ p ∈ busyOf s n, p.1 ≠ tagKey inst tag →
        ∃ y, Tbl.get? t.tags p.1 = some y ∧ y.st = .done ∧ y.reply.status = stAbortedByReset) ∧
      OnlyIn [.glb, .bsh, .sec, .sch, .dmz, .idx, .spn, .tags, .locks, .insts, .units, .fresh] s t) ∧
  (∀ (s : State) (p : Fin 2) (pin : Bool), portLanes s p ≠ 0 →
    Completes (.perstNAssert p pin) s fun t => (portOf t p).linkUp = false ∧ t.otp.fuses = s.otp.fuses ∧ t.hostMem = s.hostMem ∧
      (powered s = true → s.glb.resetTag = none → (∀ q ∈ s.insts, q.2.st ≠ .resetting ∧ q.2.st ≠ .destroying) →
        Tbl.sorted s.insts = true →
        (portOf t p).perst = (pin || (portOf s p).perst) ∧
        (∀ n i, Tbl.get? s.insts n = some i → i.port = p.val →
          (n ≠ 0 → Tbl.get? t.insts n = none) ∧ ∀ k, keyInst k = n → Tbl.get? t.tags k = none) ∧
        (∀ n i, Tbl.get? s.insts n = some i → i.port ≠ p.val → ∃ j, Tbl.get? t.insts n = some j ∧ j.st = i.st ∧ j.pasid = i.pasid))) ∧
  (∀ (s : State) (p : Fin 2) (width : Nat) (speed : Fin 6) (rev : Bool) (pol : Nat), portLanes s p ≠ 0 → (portOf s p).perst = true →
    Completes (.perstNRelease p width speed rev pol) s fun t => (portOf t p).perst = false ∧
      (width = 0 → (portOf t p).linkUp = (portOf s p).linkUp) ∧
      (powered s = true → widthOk (portLanes s p) width = true → 1 ≤ speed.val → speed.val ≤ maxSpeed s →
        (portOf t p).linkUp = true ∧ (portOf t p).width = width ∧ (portOf t p).speed = speed) ∧ OnlyIn [.hif, .pwr] s t) ∧
  (∀ (s : State) (p : Fin 2), powered s = true →
    (fnReaches s p = true → 5 ≤ s.glb.stage → s.glb.resetTag = none → Completes (.functionLevelReset p false) s fun t =>
      bit t.glb.cause (8 + p.val) = true ∧ (portOf t p).d3hot = false ∧
      (∀ n i, Tbl.get? s.insts n = some i → i.port = p.val → i.st ≠ .resetting → i.st ≠ .destroying → ∀ q ∈ busyOf s n,
        ∃ y, Tbl.get? t.tags q.1 = some y ∧ y.st = .done ∧ y.reply.status = stAbortedByReset)) ∧
    Completes (.functionLevelReset p true) s (fun t => ∀ n i, Tbl.get? s.insts n = some i → i.st = .resetting → i.drain = false →
      resetWorkDone s n = true → resetCommand s n = false → s.glb.resetTag = none →
      ∃ j, Tbl.get? t.insts n = some j ∧ j.fenced = false ∧ j.st = .active)) ∧
  (∀ (s : State) (p : Fin 2), powered s = true → fnReaches s p = true →
    (5 ≤ s.glb.stage → (portOf s p).d3hot = false → exec (.d3hotEntry p) s = .next (modPort p (fun q => { q with d3hot := true, pm := 1 }) s) ∧
      portLive (modPort p (fun q => { q with d3hot := true, pm := 1 }) s) p = false) ∧
    ((portOf s p).d3hot = true → Completes (.d3hotExit p) s fun t => (portOf t p).d3hot = false ∧ (portOf t p).pm = 0 ∧
      (portOf t p).heldMsix = [] ∧ t.hif.msix = s.hif.msix ++ (portOf s p).heldMsix.map (fun v => (p.val, v)) ∧ OnlyIn [.hif] s t))

/-! ### Board pins -/

/-- The board pins (R468, R470, R471, Tables 14.6 and 14.11): the SMBus target answers each command code of Table 14.6, and NACKs a write
or another code; the test port's instructions drive, hold or float the pins, EXTEST, CLAMP and HIGHZ end service; the ACTIVITY wave toggles
each 100 ms while a command is in flight. -/
def Obligations.SmbusTestPortAndActivity : Prop :=
  (∀ (s : State) (c : Instr) (bs : List Byte),
    (c = .status ∧ bs = leBytes 1 (statusByte s) ∨ c = .tempMax ∧ bs = leBytes 1 (tempMax s) ∨
      c = .thermState ∧ bs = leBytes 1 (deviceThermal s % 8) ∨
      c = .wear ∧ bs = leBytes 1 (if s.glb.stage = 8 ∨ s.glb.stage = 11 then min (wearPct s) 254 else 0xFF) ∨
      c = .spare ∧ bs = leBytes 1 (if s.glb.stage = 8 ∨ s.glb.stage = 11 then sparePct s else 0xFF) ∨
      c = .id ∧ bs = leBytes 4 0x0940A000 ++ leBytes 4 (s.glb.running.fwVersion % 2 ^ 32) ++ leBytes 16 (deviceId s) ∨
      c = .temps ∧ bs = (List.range 20).flatMap (fun n => leBytes 2 (temp16 (sensorOf s n).temp)) ∨
      c = .rails ∧ bs = (List.range 8).flatMap (fun n => leBytes 2 (Tbl.getD s.pwr.rails n (0, 0)).2) ∨
      c = .health ∧ bs = (if s.glb.stage = 8 ∨ s.glb.stage = 11 then (healthSummary s).take 108 else List.replicate 108 0)) →
    exec c s = .next { s with hif := { s.hif with smbus := if smbusAnswers s then some bs else none } }) ∧
  (∀ s : State, bit (statusByte s) 0 = decide (s.glb.stage = 8) ∧ bit (statusByte s) 1 = degraded s ∧ bit (statusByte s) 2 = thermAlert s ∧
    bit (statusByte s) 3 = faultN s ∧ bit (statusByte s) 4 = s.flc.readOnly ∧ bit (statusByte s) 5 = decide (s.pwr.supply ≠ .normal) ∧
    bit (statusByte s) 6 = decide (s.glb.stage = 9 ∨ s.glb.stage = 10) ∧ statusByte s < 128) ∧
  (∀ (s : State) (w : Bool) (code : BitVec 8),
    (w = true ∨ code.toNat ∉ [0x00, 0x01, 0x02, 0x03, 0x04, 0x10, 0x11, 0x12, 0x13] →
      exec (.smbusWrite w code) s = .next { s with hif := { s.hif with smbus := none } }) ∧
    (w = false → code.toNat ∈ [0x00, 0x01, 0x02, 0x03, 0x04, 0x10, 0x11, 0x12, 0x13] → Idles (.smbusWrite w code) s)) ∧
  (∀ s : State, s.glb.held = false →
    let at_ (ir : Nat) (drive float : Bool) : Hif := { s.hif with jtagIr := ir, pinsDriven := drive, pinsFloat := float }
    let out : Glb := { s.glb with ended := true }
    exec .extest s = .next { s with hif := at_ 0x00 true false, glb := out } ∧
    exec .clamp s = .next { s with hif := at_ 0x04 true false, glb := out } ∧
    exec .highz s = .next { s with hif := at_ 0x05 false true, glb := out } ∧
    exec .bypass s = .next { s with hif := at_ 0xFF false false } ∧
    exec .idcode s = .next { s with hif := { at_ 0x01 false false with jtagOut := 0x009405E7 } } ∧
    ∀ pins shifted, exec (.samplePreload pins shifted) s = .next { s with
      hif := { at_ 0x02 false false with boundary := pins, preload := shifted } }) ∧
  (∀ s : State, powered s = true → activityPin s = true →
    (anyInFlight s = true → s.hif.activityAt + 100000 ≤ s.now → exec .activityToggle s = .next { s with
      hif := { s.hif with activity := !s.hif.activity, activityAt := s.now } }) ∧
    (anyInFlight s = true → s.now < s.hif.activityAt + 100000 → Idles .activityToggle s) ∧
    (anyInFlight s = false → exec .activityToggle s = .next { s with hif := { s.hif with activity := false } }))

/-! ### The machine as a whole -/

/-- A step runs the command at the front of the queue with the queue's rest; on an empty queue one microsecond passes (the model's
choice, log entry 1). -/
def Obligations.StepRunsTheFrontCommand : Prop :=
  (∀ (s : State) (c : Instr) (cs : List Instr), s.pending = c :: cs → step s = exec c { s with pending := cs }) ∧
  ∀ s : State, s.pending = [] → step s = .next { s with now := s.now + 1 }

/-- After reset every register of BAR0 reads its reset value (Tables 15.4 and 15.6 to 15.10; GLB_RESET_CAUSE the cause POWER_ON, Table 15.2;
GLB_SEQ_LO is the counter of R27 and stands apart); instance 0 is ACTIVE with its window at the reset values and every other is ABSENT
(R343, R439, Tables 15.11, 15.12); the Exlet ports are DISABLED (R439); no tag is busy, no command waits. -/
def Obligations.ResetIsAsTheSpecSays : Prop :=
  (∀ r ∈ ([(0x0000, 0x0940A000), (0x000C, 1), (0x0010, 0xFF00), (0x1000, 6), (0x4000, 1), (0x4004, 1), (0x4014, 0x88000000), (0x4018, 0x00200000),
      (0x4020, 0xF), (0x4024, 0x04010040), (0x4400, 9), (0x4420, 9), (0x4440, 9), (0x4460, 9), (0x8000, 0x00140010), (0x8010, 0xFFFFFFFF),
      (0x8100, 1), (0x8104, 0x007FFFFE), (0xA000, 0x31), (0xA008, 0xFFFF), (0xC000, 2), (0xC008, 0xFF00), (0xC018, 0x00FFFFFF),
      (0xD000, 0x6401), (0xD008, 0xFF), (0xE000, 0x23), (0xF000, 0x003C4003), (0xF00C, 0xFFFF), (0x16000, 0x010003E8), (0x16010, 0xC8),
      (0x16060, 0x33), (0x17008, 0x3F), (0x17010, 0xFF), (0x17030, 0x6E68645F)] : List (Nat × Nat)),
    ∀ fn < 2, readReg State.reset fn r.1 = r.2) ∧
  (∀ r ∈ ([(0xE010, 4, 4, 0xFFFF), (0x10000, 0x400, 16, 1), (0x16104, 8, 64, 0x33), (0x17080, 4, 8, 0x55504B46)] : List (Nat × Nat × Nat × Nat)),
    ∀ k < r.2.2.1, readReg State.reset 0 (r.1 + r.2.1 * k) = r.2.2.2) ∧
  (∀ r ∈ ([(0x4, 2), (0x14, 2), (0x24, 8), (0x1004, 1), (0x1040, 7), (0x1060, 7), (0x2000, 1), (0x2010, 3), (0x2020, 3), (0x2040, 2), (0x2100, 2),
      (0x2200, 145), (0x4010, 1), (0x401C, 1), (0x4028, 2), (0x4040, 3), (0x4060, 8), (0x4100, 132), (0x4404, 6), (0x4424, 6), (0x4444, 6),
      (0x4464, 6), (0x8004, 3), (0x8014, 4), (0x8030, 40), (0x8108, 7), (0xA004, 1), (0xA010, 9), (0xA040, 5), (0xA060, 3), (0xC004, 1),
      (0xC00C, 3), (0xC01C, 3), (0xC040, 7), (0xD004, 1), (0xD00C, 4), (0xD020, 8), (0xE004, 3), (0xE020, 5), (0xF004, 2), (0xF010, 10),
      (0x14000, 10), (0x16004, 3), (0x16020, 12), (0x16300, 5), (0x16320, 3), (0x17000, 2), (0x17014, 5), (0x17040, 16), (0x170A0, 20),
      (0x18000, 8), (0x19000, 5)] : List (Nat × Nat)),
    ∀ k < r.2, readReg State.reset 0 (r.1 + 4 * k) = 0) ∧
  (∀ n < 16, (∀ k < 10, readReg State.reset 0 (0x10004 + 0x400 * n + 4 * k) = 0) ∧ ∀ k < 4, readReg State.reset 0 (0x10030 + 0x400 * n + 4 * k) = 0) ∧
  (∀ n < 64, readReg State.reset 0 (0x16100 + 8 * n) = 0) ∧
  (∃ i, State.reset.insts = [(0, i)] ∧ i.st = .active ∧ i.slice = false ∧ i.rights = 0xF ∧ i.port = 0 ∧ i.pasid = 0 ∧ i.vecBase = 0 ∧ i.vecCount = 32 ∧
    ∀ off ∈ [0x4008, 0x4100, 0x4104, 0x4108, 0x410C, 0x4110, 0x4114, 0x6000, 0x6004, 0x6014],
      readWindow State.reset 0 off i = if off = 0x4108 then 9 else if off = 0x4114 then 1 else 0) ∧
  State.reset.spn.ports.map (fun p => (p.1, p.2.st)) = [(0, .disabled), (1, .disabled), (2, .disabled)] ∧
  State.reset.tags = [] ∧ State.reset.locks = [] ∧ State.reset.units = [] ∧ State.reset.now = 0 ∧ State.reset.pending = [] ∧
  Cells.wf State.reset.hostMem = true ∧ Cells.wf State.reset.otp.fuses = true

/-- Every command answers a next state, in every state, and leaves the queue of waiting commands as it is; so every step has a next
state. -/
def Obligations.EveryCommandAnswers : Prop :=
  (∀ (c : Instr) (s : State), ∃ t, exec c s = .next t ∧ t.pending = s.pending) ∧ ∀ s : State, ∃ t, step s = .next t

/-- Fuse bits change only from 0 to 1 (R448): whatever command runs, in whatever state, no bit of the array that is 1 becomes 0. -/
def Obligations.FuseBitsAreNeverCleared : Prop :=
  ∀ s t : State, step s = .next t → ∀ (a i : Nat), (Cells.read s.otp.fuses a).getLsbD i = true → (Cells.read t.otp.fuses a).getLsbD i = true

/-- Host memory and the fuse array keep their canonical form at every step: addresses strictly rising, and no entry that reads as an
unlisted address does. -/
def Obligations.MemoriesStayCanonical : Prop :=
  ∀ s t : State, step s = .next t →
    (Cells.wf s.hostMem = true → Cells.wf t.hostMem = true) ∧ (Cells.wf s.otp.fuses = true → Cells.wf t.otp.fuses = true)
end

