-- ==== Sys2Proof/Laws/State.lean ====
section
/-! SUPPORT. What each update of the state leaves as it is, field by field; folds, conditionals, frames. -/

namespace Sys2Proof.Machine

/-! ### Folds and conditionals -/

@[simp] theorem State.get_foldl {α : Type} (l : List α) (g : State → α → State) (s : State) (x : Part)
    (h : ∀ a y, (g a y).get x = a.get x) : (l.foldl g s).get x = s.get x := by
  induction l generalizing s with
  | nil => rfl
  | cons y ys ih => simp [ih, h]

@[simp] theorem State.get_ite (c : Prop) [Decidable c] (a b : State) (x : Part) :
    (if c then a else b).get x = if c then a.get x else b.get x := by split <;> rfl

/-! ### Frames -/

theorem OnlyIn.refl (ps : List Part) (s : State) : OnlyIn ps s s := fun _ _ => rfl

theorem OnlyIn.trans (ps : List Part) (s t u : State) (h : OnlyIn ps s t) (h' : OnlyIn ps t u) : OnlyIn ps s u :=
  fun x hx => (h' x hx).trans (h x hx)

theorem OnlyIn.mono (ps qs : List Part) (s t : State) (h : OnlyIn ps s t) (hs : ∀ x ∈ ps, x ∈ qs) : OnlyIn qs s t :=
  fun x hx => h x (fun hp => hx (hs x hp))

/-! ### A record update leaves every other part -/

@[simp] theorem State.get_with_bsh (s : State) (v0 : Bsh) (x : Part) (h0 : x ≠ .bsh) :
    State.get { s with bsh := v0 } x = s.get x := by cases x <;> first | rfl | contradiction
@[simp] theorem State.get_with_cch (s : State) (v0 : Cch) (x : Part) (h0 : x ≠ .cch) :
    State.get { s with cch := v0 } x = s.get x := by cases x <;> first | rfl | contradiction
@[simp] theorem State.get_with_clk (s : State) (v0 : Clk) (x : Part) (h0 : x ≠ .clk) :
    State.get { s with clk := v0 } x = s.get x := by cases x <;> first | rfl | contradiction
@[simp] theorem State.get_with_dbg (s : State) (v0 : Dbg) (x : Part) (h0 : x ≠ .dbg) :
    State.get { s with dbg := v0 } x = s.get x := by cases x <;> first | rfl | contradiction
@[simp] theorem State.get_with_dmz (s : State) (v0 : Dmz) (x : Part) (h0 : x ≠ .dmz) :
    State.get { s with dmz := v0 } x = s.get x := by cases x <;> first | rfl | contradiction
@[simp] theorem State.get_with_drc (s : State) (v0 : Drc) (x : Part) (h0 : x ≠ .drc) :
    State.get { s with drc := v0 } x = s.get x := by cases x <;> first | rfl | contradiction
@[simp] theorem State.get_with_flc (s : State) (v0 : Flc) (x : Part) (h0 : x ≠ .flc) :
    State.get { s with flc := v0 } x = s.get x := by cases x <;> first | rfl | contradiction
@[simp] theorem State.get_with_fresh (s : State) (v0 : Nat) (x : Part) (h0 : x ≠ .fresh) :
    State.get { s with fresh := v0 } x = s.get x := by cases x <;> first | rfl | contradiction
@[simp] theorem State.get_with_glb (s : State) (v0 : Glb) (x : Part) (h0 : x ≠ .glb) :
    State.get { s with glb := v0 } x = s.get x := by cases x <;> first | rfl | contradiction
@[simp] theorem State.get_with_hif (s : State) (v0 : Hif) (x : Part) (h0 : x ≠ .hif) :
    State.get { s with hif := v0 } x = s.get x := by cases x <;> first | rfl | contradiction
@[simp] theorem State.get_with_hostMem (s : State) (v0 : Cells) (x : Part) (h0 : x ≠ .hostMem) :
    State.get { s with hostMem := v0 } x = s.get x := by cases x <;> first | rfl | contradiction
@[simp] theorem State.get_with_idx (s : State) (v0 : Idx) (x : Part) (h0 : x ≠ .idx) :
    State.get { s with idx := v0 } x = s.get x := by cases x <;> first | rfl | contradiction
@[simp] theorem State.get_with_insts (s : State) (v0 : Tbl Inst) (x : Part) (h0 : x ≠ .insts) :
    State.get { s with insts := v0 } x = s.get x := by cases x <;> first | rfl | contradiction
@[simp] theorem State.get_with_locks (s : State) (v0 : List Lock) (x : Part) (h0 : x ≠ .locks) :
    State.get { s with locks := v0 } x = s.get x := by cases x <;> first | rfl | contradiction
@[simp] theorem State.get_with_mem (s : State) (v0 : Mem) (x : Part) (h0 : x ≠ .mem) :
    State.get { s with mem := v0 } x = s.get x := by cases x <;> first | rfl | contradiction
@[simp] theorem State.get_with_mgr (s : State) (v0 : Mgr) (x : Part) (h0 : x ≠ .mgr) :
    State.get { s with mgr := v0 } x = s.get x := by cases x <;> first | rfl | contradiction
@[simp] theorem State.get_with_now (s : State) (v0 : Nat) (x : Part) (h0 : x ≠ .now) :
    State.get { s with now := v0 } x = s.get x := by cases x <;> first | rfl | contradiction
@[simp] theorem State.get_with_otp (s : State) (v0 : Otp) (x : Part) (h0 : x ≠ .otp) :
    State.get { s with otp := v0 } x = s.get x := by cases x <;> first | rfl | contradiction
@[simp] theorem State.get_with_pending (s : State) (v0 : List Instr) (x : Part) (h0 : x ≠ .pending) :
    State.get { s with pending := v0 } x = s.get x := by cases x <;> first | rfl | contradiction
@[simp] theorem State.get_with_pwr (s : State) (v0 : Pwr) (x : Part) (h0 : x ≠ .pwr) :
    State.get { s with pwr := v0 } x = s.get x := by cases x <;> first | rfl | contradiction
@[simp] theorem State.get_with_sch (s : State) (v0 : Sch) (x : Part) (h0 : x ≠ .sch) :
    State.get { s with sch := v0 } x = s.get x := by cases x <;> first | rfl | contradiction
@[simp] theorem State.get_with_sec (s : State) (v0 : Sec) (x : Part) (h0 : x ≠ .sec) :
    State.get { s with sec := v0 } x = s.get x := by cases x <;> first | rfl | contradiction
@[simp] theorem State.get_with_spn (s : State) (v0 : Spn) (x : Part) (h0 : x ≠ .spn) :
    State.get { s with spn := v0 } x = s.get x := by cases x <;> first | rfl | contradiction
@[simp] theorem State.get_with_tags (s : State) (v0 : Tbl Tag) (x : Part) (h0 : x ≠ .tags) :
    State.get { s with tags := v0 } x = s.get x := by cases x <;> first | rfl | contradiction
@[simp] theorem State.get_with_units (s : State) (v0 : Tbl UnitDesc) (x : Part) (h0 : x ≠ .units) :
    State.get { s with units := v0 } x = s.get x := by cases x <;> first | rfl | contradiction
@[simp] theorem State.get_with_bsh_sec (s : State) (v0 : Bsh) (v1 : Sec) (x : Part) (h0 : x ≠ .bsh) (h1 : x ≠ .sec) :
    State.get { s with bsh := v0, sec := v1 } x = s.get x := by cases x <;> first | rfl | contradiction
@[simp] theorem State.get_with_clk_cch (s : State) (v0 : Clk) (v1 : Cch) (x : Part) (h0 : x ≠ .clk) (h1 : x ≠ .cch) :
    State.get { s with clk := v0, cch := v1 } x = s.get x := by cases x <;> first | rfl | contradiction
@[simp] theorem State.get_with_clk_otp (s : State) (v0 : Clk) (v1 : Otp) (x : Part) (h0 : x ≠ .clk) (h1 : x ≠ .otp) :
    State.get { s with clk := v0, otp := v1 } x = s.get x := by cases x <;> first | rfl | contradiction
@[simp] theorem State.get_with_clk_sch (s : State) (v0 : Clk) (v1 : Sch) (x : Part) (h0 : x ≠ .clk) (h1 : x ≠ .sch) :
    State.get { s with clk := v0, sch := v1 } x = s.get x := by cases x <;> first | rfl | contradiction
@[simp] theorem State.get_with_flc_drc (s : State) (v0 : Flc) (v1 : Drc) (x : Part) (h0 : x ≠ .flc) (h1 : x ≠ .drc) :
    State.get { s with flc := v0, drc := v1 } x = s.get x := by cases x <;> first | rfl | contradiction
@[simp] theorem State.get_with_flc_spn (s : State) (v0 : Flc) (v1 : Spn) (x : Part) (h0 : x ≠ .flc) (h1 : x ≠ .spn) :
    State.get { s with flc := v0, spn := v1 } x = s.get x := by cases x <;> first | rfl | contradiction
@[simp] theorem State.get_with_glb_flc (s : State) (v0 : Glb) (v1 : Flc) (x : Part) (h0 : x ≠ .glb) (h1 : x ≠ .flc) :
    State.get { s with glb := v0, flc := v1 } x = s.get x := by cases x <;> first | rfl | contradiction
@[simp] theorem State.get_with_hif_sch (s : State) (v0 : Hif) (v1 : Sch) (x : Part) (h0 : x ≠ .hif) (h1 : x ≠ .sch) :
    State.get { s with hif := v0, sch := v1 } x = s.get x := by cases x <;> first | rfl | contradiction
@[simp] theorem State.get_with_mem_cch (s : State) (v0 : Mem) (v1 : Cch) (x : Part) (h0 : x ≠ .mem) (h1 : x ≠ .cch) :
    State.get { s with mem := v0, cch := v1 } x = s.get x := by cases x <;> first | rfl | contradiction
@[simp] theorem State.get_with_otp_sec (s : State) (v0 : Otp) (v1 : Sec) (x : Part) (h0 : x ≠ .otp) (h1 : x ≠ .sec) :
    State.get { s with otp := v0, sec := v1 } x = s.get x := by cases x <;> first | rfl | contradiction
@[simp] theorem State.get_with_pwr_drc (s : State) (v0 : Pwr) (v1 : Drc) (x : Part) (h0 : x ≠ .pwr) (h1 : x ≠ .drc) :
    State.get { s with pwr := v0, drc := v1 } x = s.get x := by cases x <;> first | rfl | contradiction
@[simp] theorem State.get_with_sch_insts (s : State) (v0 : Sch) (v1 : Tbl Inst) (x : Part) (h0 : x ≠ .sch) (h1 : x ≠ .insts) :
    State.get { s with sch := v0, insts := v1 } x = s.get x := by cases x <;> first | rfl | contradiction
@[simp] theorem State.get_with_sch_mem (s : State) (v0 : Sch) (v1 : Mem) (x : Part) (h0 : x ≠ .sch) (h1 : x ≠ .mem) :
    State.get { s with sch := v0, mem := v1 } x = s.get x := by cases x <;> first | rfl | contradiction
@[simp] theorem State.get_with_sch_tags (s : State) (v0 : Sch) (v1 : Tbl Tag) (x : Part) (h0 : x ≠ .sch) (h1 : x ≠ .tags) :
    State.get { s with sch := v0, tags := v1 } x = s.get x := by cases x <;> first | rfl | contradiction
@[simp] theorem State.get_with_sec_dmz (s : State) (v0 : Sec) (v1 : Dmz) (x : Part) (h0 : x ≠ .sec) (h1 : x ≠ .dmz) :
    State.get { s with sec := v0, dmz := v1 } x = s.get x := by cases x <;> first | rfl | contradiction
@[simp] theorem State.get_with_sec_flc (s : State) (v0 : Sec) (v1 : Flc) (x : Part) (h0 : x ≠ .sec) (h1 : x ≠ .flc) :
    State.get { s with sec := v0, flc := v1 } x = s.get x := by cases x <;> first | rfl | contradiction
@[simp] theorem State.get_with_spn_acceptCount (s : State) (v0 : Spn) (v1 : Nat) (x : Part) (h0 : x ≠ .spn) (h1 : x ≠ .acceptCount) :
    State.get { s with spn := v0, acceptCount := v1 } x = s.get x := by cases x <;> first | rfl | contradiction
@[simp] theorem State.get_with_spn_tags (s : State) (v0 : Spn) (v1 : Tbl Tag) (x : Part) (h0 : x ≠ .spn) (h1 : x ≠ .tags) :
    State.get { s with spn := v0, tags := v1 } x = s.get x := by cases x <;> first | rfl | contradiction
@[simp] theorem State.get_with_tags_acceptCount (s : State) (v0 : Tbl Tag) (v1 : Nat) (x : Part) (h0 : x ≠ .tags) (h1 : x ≠ .acceptCount) :
    State.get { s with tags := v0, acceptCount := v1 } x = s.get x := by cases x <;> first | rfl | contradiction
@[simp] theorem State.get_with_clk_otp_sec (s : State) (v0 : Clk) (v1 : Otp) (v2 : Sec) (x : Part) (h0 : x ≠ .clk) (h1 : x ≠ .otp) (h2 : x ≠ .sec) :
    State.get { s with clk := v0, otp := v1, sec := v2 } x = s.get x := by cases x <;> first | rfl | contradiction
@[simp] theorem State.get_with_glb_pwr_flc (s : State) (v0 : Glb) (v1 : Pwr) (v2 : Flc) (x : Part) (h0 : x ≠ .glb) (h1 : x ≠ .pwr) (h2 : x ≠ .flc) :
    State.get { s with glb := v0, pwr := v1, flc := v2 } x = s.get x := by cases x <;> first | rfl | contradiction
@[simp] theorem State.get_with_mem_cch_drc (s : State) (v0 : Mem) (v1 : Cch) (v2 : Drc) (x : Part) (h0 : x ≠ .mem) (h1 : x ≠ .cch) (h2 : x ≠ .drc) :
    State.get { s with mem := v0, cch := v1, drc := v2 } x = s.get x := by cases x <;> first | rfl | contradiction
@[simp] theorem State.get_with_sch_tags_locks (s : State) (v0 : Sch) (v1 : Tbl Tag) (v2 : List Lock) (x : Part) (h0 : x ≠ .sch) (h1 : x ≠ .tags) (h2 : x ≠ .locks) :
    State.get { s with sch := v0, tags := v1, locks := v2 } x = s.get x := by cases x <;> first | rfl | contradiction
@[simp] theorem State.get_with_glb_clk_hif_now (s : State) (v0 : Glb) (v1 : Clk) (v2 : Hif) (v3 : Nat) (x : Part) (h0 : x ≠ .glb) (h1 : x ≠ .clk) (h2 : x ≠ .hif) (h3 : x ≠ .now) :
    State.get { s with glb := v0, clk := v1, hif := v2, now := v3 } x = s.get x := by cases x <;> first | rfl | contradiction
@[simp] theorem State.get_with_glb_mem_cch_drc (s : State) (v0 : Glb) (v1 : Mem) (v2 : Cch) (v3 : Drc) (x : Part) (h0 : x ≠ .glb) (h1 : x ≠ .mem) (h2 : x ≠ .cch) (h3 : x ≠ .drc) :
    State.get { s with glb := v0, mem := v1, cch := v2, drc := v3 } x = s.get x := by cases x <;> first | rfl | contradiction
@[simp] theorem State.get_with_pwr_bsh_sec_idx_flc (s : State) (v0 : Pwr) (v1 : Bsh) (v2 : Sec) (v3 : Idx) (v4 : Flc) (x : Part) (h0 : x ≠ .pwr) (h1 : x ≠ .bsh) (h2 : x ≠ .sec) (h3 : x ≠ .idx) (h4 : x ≠ .flc) :
    State.get { s with pwr := v0, bsh := v1, sec := v2, idx := v3, flc := v4 } x = s.get x := by cases x <;> first | rfl | contradiction
@[simp] theorem State.get_with_glb_clk_hif_otp_sec_dmz_idx_flc (s : State) (v0 : Glb) (v1 : Clk) (v2 : Hif) (v3 : Otp) (v4 : Sec) (v5 : Dmz) (v6 : Idx) (v7 : Flc) (x : Part) (h0 : x ≠ .glb) (h1 : x ≠ .clk) (h2 : x ≠ .hif) (h3 : x ≠ .otp) (h4 : x ≠ .sec) (h5 : x ≠ .dmz) (h6 : x ≠ .idx) (h7 : x ≠ .flc) :
    State.get { s with glb := v0, clk := v1, hif := v2, otp := v3, sec := v4, dmz := v5, idx := v6, flc := v7 } x = s.get x := by cases x <;> first | rfl | contradiction
end Sys2Proof.Machine
end

