-- ==== Sys2Proof/Laws/FrameShared.lean ====
section
/-! SUPPORT. What the shared operations, the windows, the checks, flash, memory and the scheduler leave as it is: every part of the state that the
operation and those it calls do not write. One lemma for each operation. -/

set_option linter.all false

namespace Sys2Proof.Machine

@[simp] theorem appendGroup_get (held : Bool) (es : List JEnt) (s : State) (x : Part)
    (hx : x ∉ [Part.flc]) : (appendGroup held es s).get x = s.get x := by
  simp only [List.mem_cons, List.not_mem_nil, or_false, not_or] at hx
  unfold appendGroup; repeat' (first | (with_reducible rfl) | (simp [hx]; done) | split)

@[simp] theorem takeSeq_get (s : State) (x : Part)
    (hx : x ∉ [Part.glb, Part.flc]) : (takeSeq s).get x = s.get x := by
  simp only [List.mem_cons, List.not_mem_nil, or_false, not_or] at hx
  unfold takeSeq; repeat' (first | (with_reducible rfl) | (simp [hx]; done) | split)

@[simp] theorem numberHealth_get (e : HEntry) (s : State) (x : Part)
    (hx : x ∉ [Part.glb, Part.flc]) : (numberHealth e s).get x = s.get x := by
  simp only [List.mem_cons, List.not_mem_nil, or_false, not_or] at hx
  unfold numberHealth; repeat' (first | (with_reducible rfl) | (simp [hx]; done) | split)

@[simp] theorem pushHealth_get (e : HEntry) (s : State) (x : Part)
    (hx : x ∉ [Part.glb, Part.flc]) : (pushHealth e s).get x = s.get x := by
  simp only [List.mem_cons, List.not_mem_nil, or_false, not_or] at hx
  unfold pushHealth; repeat' (first | (with_reducible rfl) | (simp [hx]; done) | split)

@[simp] theorem logHealth_get (kind : Nat) (inst : Nat) (vol : Nat) (unit : Nat) (lba : Nat) (count : Nat) (detail : List Byte) (s : State) (x : Part)
    (hx : x ∉ [Part.glb, Part.flc]) : (logHealth kind inst vol unit lba count detail s).get x = s.get x := by
  simp only [List.mem_cons, List.not_mem_nil, or_false, not_or] at hx
  unfold logHealth; repeat' (first | (with_reducible rfl) | (simp [hx]; done) | split)

@[simp] theorem modInst_get (n : Nat) (f : Inst → Inst) (s : State) (x : Part)
    (hx : x ∉ [Part.insts]) : (modInst n f s).get x = s.get x := by
  simp only [List.mem_cons, List.not_mem_nil, or_false, not_or] at hx
  unfold modInst; repeat' (first | (with_reducible rfl) | (simp [hx]; done) | split)

@[simp] theorem raise_get (n : Nat) (e : Event) (s : State) (x : Part)
    (hx : x ∉ [Part.insts]) : (raise n e s).get x = s.get x := by
  simp only [List.mem_cons, List.not_mem_nil, or_false, not_or] at hx
  unfold raise; repeat' (first | (with_reducible rfl) | (simp [hx]; done) | split)

@[simp] theorem healthWarning_get (kind : Nat) (a : Nat) (b : Nat) (s : State) (x : Part)
    (hx : x ∉ [Part.insts]) : (healthWarning kind a b s).get x = s.get x := by
  simp only [List.mem_cons, List.not_mem_nil, or_false, not_or] at hx
  unfold healthWarning; repeat' (first | (with_reducible rfl) | (simp [hx]; done) | split)

@[simp] theorem bumpFresh_get (s : State) (x : Part)
    (hx : x ∉ [Part.fresh]) : (bumpFresh s).get x = s.get x := by
  simp only [List.mem_cons, List.not_mem_nil, or_false, not_or] at hx
  unfold bumpFresh; repeat' (first | (with_reducible rfl) | (simp [hx]; done) | split)

@[simp] theorem modRing_get (n : Nat) (f : Ring → Ring) (s : State) (x : Part)
    (hx : x ∉ [Part.insts]) : (modRing n f s).get x = s.get x := by
  simp only [List.mem_cons, List.not_mem_nil, or_false, not_or] at hx
  unfold modRing; repeat' (first | (with_reducible rfl) | (simp [hx]; done) | split)

@[simp] theorem modTag_get (k : Nat) (f : Tag → Tag) (s : State) (x : Part)
    (hx : x ∉ [Part.tags]) : (modTag k f s).get x = s.get x := by
  simp only [List.mem_cons, List.not_mem_nil, or_false, not_or] at hx
  unfold modTag; repeat' (first | (with_reducible rfl) | (simp [hx]; done) | split)

@[simp] theorem dropUnits_get (k : Nat) (s : State) (x : Part)
    (hx : x ∉ [Part.units]) : (dropUnits k s).get x = s.get x := by
  simp only [List.mem_cons, List.not_mem_nil, or_false, not_or] at hx
  unfold dropUnits; repeat' (first | (with_reducible rfl) | (simp [hx]; done) | split)

@[simp] theorem releaseLock_get (k : Nat) (s : State) (x : Part)
    (hx : x ∉ [Part.locks]) : (releaseLock k s).get x = s.get x := by
  simp only [List.mem_cons, List.not_mem_nil, or_false, not_or] at hx
  unfold releaseLock; repeat' (first | (with_reducible rfl) | (simp [hx]; done) | split)

@[simp] theorem finish_get (k : Nat) (r : Reply) (s : State) (x : Part)
    (hx : x ∉ [Part.tags, Part.locks, Part.units]) : (finish k r s).get x = s.get x := by
  simp only [List.mem_cons, List.not_mem_nil, or_false, not_or] at hx
  unfold finish; repeat' (first | (with_reducible rfl) | (simp [hx]; done) | split)

@[simp] theorem finishWith_get (k : Nat) (status : Nat) (r0 : Nat) (r1 : Nat) (s : State) (x : Part)
    (hx : x ∉ [Part.tags, Part.locks, Part.units]) : (finishWith k status r0 r1 s).get x = s.get x := by
  simp only [List.mem_cons, List.not_mem_nil, or_false, not_or] at hx
  unfold finishWith; repeat' (first | (with_reducible rfl) | (simp [hx]; done) | split)

@[simp] theorem modVol_get (v : Nat) (f : Vol → Vol) (s : State) (x : Part)
    (hx : x ∉ [Part.flc]) : (modVol v f s).get x = s.get x := by
  simp only [List.mem_cons, List.not_mem_nil, or_false, not_or] at hx
  unfold modVol; repeat' (first | (with_reducible rfl) | (simp [hx]; done) | split)

@[simp] theorem finishDurable_get (k : Nat) (gs : List Nat) (r : Reply) (s : State) (x : Part)
    (hx : x ∉ [Part.tags, Part.locks, Part.units]) : (finishDurable k gs r s).get x = s.get x := by
  simp only [List.mem_cons, List.not_mem_nil, or_false, not_or] at hx
  unfold finishDurable; repeat' (first | (with_reducible rfl) | (simp [hx]; done) | split)

@[simp] theorem hostStore_get (pasid : Nat) (a : Nat) (bs : List Byte) (s : State) (x : Part)
    (hx : x ∉ [Part.hostMem]) : (hostStore pasid a bs s).get x = s.get x := by
  simp only [List.mem_cons, List.not_mem_nil, or_false, not_or] at hx
  unfold hostStore; repeat' (first | (with_reducible rfl) | (simp [hx]; done) | split)

@[simp] theorem hostWrite_get (n : Nat) (a : Nat) (bs : List Byte) (s : State) (x : Part)
    (hx : x ∉ [Part.mgr, Part.hostMem]) : (hostWrite n a bs s).get x = s.get x := by
  simp only [List.mem_cons, List.not_mem_nil, or_false, not_or] at hx
  unfold hostWrite; repeat' (first | (with_reducible rfl) | (simp [hx]; done) | split)

@[simp] theorem runsWrite_get (n : Nat) (a1 : List (Nat × Nat)) (a2 : List Byte) (a3 : State) (x : Part)
    (hx : x ∉ [Part.mgr, Part.hostMem]) : (runsWrite n a1 a2 a3).get x = a3.get x := by
  simp only [List.mem_cons, List.not_mem_nil, or_false, not_or] at hx
  induction a1 generalizing a2 a3 with
  | nil => cases a2 <;> rfl
  | cons y ys ih =>
    obtain ⟨a, l⟩ := y
    simp [runsWrite, ih, hx]

@[simp] theorem deliver_get (n : Nat) (p : List Byte) (off : Nat) (bs : List Byte) (s : State) (x : Part)
    (hx : x ∉ [Part.mgr, Part.hostMem]) : (deliver n p off bs s).get x = s.get x := by
  simp only [List.mem_cons, List.not_mem_nil, or_false, not_or] at hx
  unfold deliver; repeat' (first | (with_reducible rfl) | (simp [hx]; done) | split)

@[simp] theorem badField_get (k : Nat) (off : Nat) (s : State) (x : Part)
    (hx : x ∉ [Part.tags, Part.locks, Part.units]) : (badField k off s).get x = s.get x := by
  simp only [List.mem_cons, List.not_mem_nil, or_false, not_or] at hx
  unfold badField; repeat' (first | (with_reducible rfl) | (simp [hx]; done) | split)

@[simp] theorem authFailed_get (k : Nat) (s : State) (x : Part)
    (hx : x ∉ [Part.sec, Part.tags, Part.locks, Part.units]) : (authFailed k s).get x = s.get x := by
  simp only [List.mem_cons, List.not_mem_nil, or_false, not_or] at hx
  unfold authFailed; repeat' (first | (with_reducible rfl) | (simp [hx]; done) | split)

@[simp] theorem modPort_get (p : Nat) (f : HPort → HPort) (s : State) (x : Part)
    (hx : x ∉ [Part.hif]) : (modPort p f s).get x = s.get x := by
  simp only [List.mem_cons, List.not_mem_nil, or_false, not_or] at hx
  unfold modPort; repeat' (first | (with_reducible rfl) | (simp [hx]; done) | split)

@[simp] theorem drainLog_get (a0 : Nat) (a1 : State) (x : Part)
    (hx : x ∉ [Part.glb, Part.flc]) : (drainLog a0 a1).get x = a1.get x := by
  simp only [List.mem_cons, List.not_mem_nil, or_false, not_or] at hx
  induction a0 generalizing a1 with
  | zero => rfl
  | succ n ih =>
    unfold drainLog; repeat' (first | (with_reducible rfl) | (simp [ih, hx]; done) | (simp (zetaDelta := true) [ih, hx]; done) | extract_lets | split)

@[simp] theorem signalPort_get (p : Nat) (v : Nat) (s : State) (x : Part)
    (hx : x ∉ [Part.hif]) : (signalPort p v s).get x = s.get x := by
  simp only [List.mem_cons, List.not_mem_nil, or_false, not_or] at hx
  unfold signalPort; repeat' (first | (with_reducible rfl) | (simp [hx]; done) | split)

@[simp] theorem signalInst_get (n : Nat) (k : Nat) (s : State) (x : Part)
    (hx : x ∉ [Part.hif]) : (signalInst n k s).get x = s.get x := by
  simp only [List.mem_cons, List.not_mem_nil, or_false, not_or] at hx
  unfold signalInst; repeat' (first | (with_reducible rfl) | (simp [hx]; done) | split)

@[simp] theorem noteEntry_get (n : Nat) (s : State) (x : Part)
    (hx : x ∉ [Part.hif, Part.insts]) : (noteEntry n s).get x = s.get x := by
  simp only [List.mem_cons, List.not_mem_nil, or_false, not_or] at hx
  unfold noteEntry; repeat' (first | (with_reducible rfl) | (simp [hx]; done) | split)

@[simp] theorem ringWrite_get (n : Nat) (bytes : Ring → List Byte) (s : State) (x : Part)
    (hx : x ∉ [Part.hif, Part.mgr, Part.insts, Part.hostMem]) : (ringWrite n bytes s).get x = s.get x := by
  simp only [List.mem_cons, List.not_mem_nil, or_false, not_or] at hx
  unfold ringWrite; repeat' (first | (with_reducible rfl) | (simp [hx]; done) | split)

@[simp] theorem tick_get (s : State) (x : Part)
    (hx : x ∉ [Part.now]) : (tick s).get x = s.get x := by
  simp only [List.mem_cons, List.not_mem_nil, or_false, not_or] at hx
  unfold tick; repeat' (first | (with_reducible rfl) | (simp [hx]; done) | split)

@[simp] theorem mailboxEvent_get (n : Nat) (dir : Nat) (m : Nat) (len : Nat) (word : Nat) (s : State) (x : Part)
    (hx : x ∉ [Part.hif, Part.insts]) : (mailboxEvent n dir m len word s).get x = s.get x := by
  simp only [List.mem_cons, List.not_mem_nil, or_false, not_or] at hx
  unfold mailboxEvent; repeat' (first | (with_reducible rfl) | (simp [hx]; done) | split)

@[simp] theorem countMalformed_get (s : State) (x : Part)
    (hx : x ∉ [Part.hif]) : (countMalformed s).get x = s.get x := by
  simp only [List.mem_cons, List.not_mem_nil, or_false, not_or] at hx
  unfold countMalformed; repeat' (first | (with_reducible rfl) | (simp [hx]; done) | split)

@[simp] theorem settleDrain_get (n : Nat) (s : State) (x : Part)
    (hx : x ∉ [Part.insts]) : (settleDrain n s).get x = s.get x := by
  simp only [List.mem_cons, List.not_mem_nil, or_false, not_or] at hx
  unfold settleDrain; repeat' (first | (with_reducible rfl) | (simp [hx]; done) | split)

@[simp] theorem countLocked_get (s : State) (x : Part)
    (hx : x ∉ [Part.hif]) : (countLocked s).get x = s.get x := by
  simp only [List.mem_cons, List.not_mem_nil, or_false, not_or] at hx
  unfold countLocked; repeat' (first | (with_reducible rfl) | (simp [hx]; done) | split)

@[simp] theorem refuseCfg_get (n : Nat) (slice : Bool) (s : State) (x : Part)
    (hx : x ∉ [Part.hif, Part.insts]) : (refuseCfg n slice s).get x = s.get x := by
  simp only [List.mem_cons, List.not_mem_nil, or_false, not_or] at hx
  unfold refuseCfg; repeat' (first | (with_reducible rfl) | (simp [hx]; done) | split)

@[simp] theorem answerRead_get (bs : List Byte) (s : State) (x : Part)
    (hx : x ∉ [Part.hif]) : (answerRead bs s).get x = s.get x := by
  simp only [List.mem_cons, List.not_mem_nil, or_false, not_or] at hx
  unfold answerRead; repeat' (first | (with_reducible rfl) | (simp [hx]; done) | split)

@[simp] theorem modLatch_get (fn : Nat) (f : Latch → Latch) (s : State) (x : Part)
    (hx : x ∉ [Part.glb]) : (modLatch fn f s).get x = s.get x := by
  simp only [List.mem_cons, List.not_mem_nil, or_false, not_or] at hx
  unfold modLatch; repeat' (first | (with_reducible rfl) | (simp [hx]; done) | split)

@[simp] theorem postMalformed_get (n : Nat) (size : Nat) (s : State) (x : Part)
    (hx : x ∉ [Part.insts]) : (postMalformed n size s).get x = s.get x := by
  simp only [List.mem_cons, List.not_mem_nil, or_false, not_or] at hx
  unfold postMalformed; repeat' (first | (with_reducible rfl) | (simp [hx]; done) | split)

@[simp] theorem refusePost_get (n : Nat) (s : State) (x : Part)
    (hx : x ∉ [Part.insts]) : (refusePost n s).get x = s.get x := by
  simp only [List.mem_cons, List.not_mem_nil, or_false, not_or] at hx
  unfold refusePost; repeat' (first | (with_reducible rfl) | (simp [hx]; done) | split)

@[simp] theorem acceptPost_get (n : Nat) (slot : Nat) (seq : Nat) (seq16 : Nat) (i : Inst) (s : State) (x : Part)
    (hx : x ∉ [Part.tags, Part.insts, Part.acceptCount]) : (acceptPost n slot seq seq16 i s).get x = s.get x := by
  simp only [List.mem_cons, List.not_mem_nil, or_false, not_or] at hx
  unfold acceptPost; repeat' (first | (with_reducible rfl) | (simp [hx]; done) | split)

@[simp] theorem post_get (n : Nat) (slot : Nat) (seq : Nat) (seq16 : Nat) (i : Inst) (s : State) (x : Part)
    (hx : x ∉ [Part.tags, Part.insts, Part.acceptCount]) : (post n slot seq seq16 i s).get x = s.get x := by
  simp only [List.mem_cons, List.not_mem_nil, or_false, not_or] at hx
  unfold post; repeat' (first | (with_reducible rfl) | (simp [hx]; done) | split)

@[simp] theorem grantLock_get (k : Nat) (s : State) (x : Part)
    (hx : x ∉ [Part.locks]) : (grantLock k s).get x = s.get x := by
  simp only [List.mem_cons, List.not_mem_nil, or_false, not_or] at hx
  unfold grantLock; repeat' (first | (with_reducible rfl) | (simp [hx]; done) | split)

@[simp] theorem requestLock_get (k : Nat) (ls : List Lock) (s : State) (x : Part)
    (hx : x ∉ [Part.locks]) : (requestLock k ls s).get x = s.get x := by
  simp only [List.mem_cons, List.not_mem_nil, or_false, not_or] at hx
  unfold requestLock; repeat' (first | (with_reducible rfl) | (simp [hx]; done) | split)

@[simp] theorem markDirty_get (vol : Nat) (allot : Nat) (s : State) (x : Part)
    (hx : x ∉ [Part.flc]) : (markDirty vol allot s).get x = s.get x := by
  simp only [List.mem_cons, List.not_mem_nil, or_false, not_or] at hx
  unfold markDirty; repeat' (first | (with_reducible rfl) | (simp [hx]; done) | split)

@[simp] theorem clearRuns_get (vol : Nat) (first : Nat) (count : Nat) (s : State) (x : Part)
    (hx : x ∉ [Part.flc]) : (clearRuns vol first count s).get x = s.get x := by
  simp only [List.mem_cons, List.not_mem_nil, or_false, not_or] at hx
  unfold clearRuns; repeat' (first | (with_reducible rfl) | (simp [hx]; done) | split)

@[simp] theorem moveRef_get (vol : Nat) (allot : Nat) (sb : Nat) (s : State) (x : Part)
    (hx : x ∉ [Part.flc]) : (moveRef vol allot sb s).get x = s.get x := by
  simp only [List.mem_cons, List.not_mem_nil, or_false, not_or] at hx
  unfold moveRef; repeat' (first | (with_reducible rfl) | (simp [hx]; done) | split)

@[simp] theorem dropRef_get (vol : Nat) (allots : Nat → Bool) (s : State) (x : Part)
    (hx : x ∉ [Part.flc]) : (dropRef vol allots s).get x = s.get x := by
  simp only [List.mem_cons, List.not_mem_nil, or_false, not_or] at hx
  unfold dropRef; repeat' (first | (with_reducible rfl) | (simp [hx]; done) | split)

@[simp] theorem countMoved_get (die : Nat) (s : State) (x : Part)
    (hx : x ∉ [Part.flc]) : (countMoved die s).get x = s.get x := by
  simp only [List.mem_cons, List.not_mem_nil, or_false, not_or] at hx
  unfold countMoved; repeat' (first | (with_reducible rfl) | (simp [hx]; done) | split)

@[simp] theorem pinReads_get (vol : Nat) (allot : Nat) (sb : Nat) (s : State) (x : Part)
    (hx : x ∉ [Part.flc]) : (pinReads vol allot sb s).get x = s.get x := by
  simp only [List.mem_cons, List.not_mem_nil, or_false, not_or] at hx
  unfold pinReads; repeat' (first | (with_reducible rfl) | (simp [hx]; done) | split)

@[simp] theorem applyVisible_get (e : JEnt) (s : State) (x : Part)
    (hx : x ∉ [Part.flc]) : (applyVisible e s).get x = s.get x := by
  simp only [List.mem_cons, List.not_mem_nil, or_false, not_or] at hx
  unfold applyVisible; repeat' (first | (with_reducible rfl) | (simp [hx]; done) | (simp (zetaDelta := true) [hx]; done) | extract_lets | split)

@[simp] theorem appendVisible_get (es : List JEnt) (s : State) (x : Part)
    (hx : x ∉ [Part.flc]) : (appendVisible es s).get x = s.get x := by
  simp only [List.mem_cons, List.not_mem_nil, or_false, not_or] at hx
  unfold appendVisible; repeat' (first | (with_reducible rfl) | (simp [hx]; done) | split)

@[simp] theorem applyDurable_get (e : JEnt) (s : State) (x : Part)
    (hx : x ∉ [Part.glb, Part.flc]) : (applyDurable e s).get x = s.get x := by
  simp only [List.mem_cons, List.not_mem_nil, or_false, not_or] at hx
  unfold applyDurable; repeat' (first | (with_reducible rfl) | (simp [hx]; done) | split)

@[simp] theorem applyGroup_get (g : Group) (s : State) (x : Part)
    (hx : x ∉ [Part.glb, Part.flc]) : (applyGroup g s).get x = s.get x := by
  simp only [List.mem_cons, List.not_mem_nil, or_false, not_or] at hx
  unfold applyGroup; repeat' (first | (with_reducible rfl) | (simp [hx]; done) | split)

@[simp] theorem addGroup_get (held : Bool) (es : List JEnt) (acc : State × List Nat) (x : Part)
    (hx : x ∉ [Part.flc, Part.fresh]) : (addGroup held es acc).1.get x = acc.1.get x := by
  simp only [List.mem_cons, List.not_mem_nil, or_false, not_or] at hx
  obtain ⟨s, ids⟩ := acc
  cases held <;> simp [addGroup, hx]

@[simp] theorem trimBlocks_get (held : Bool) (v : Nat) (lba : Nat) (n : Nat) (s : State) (x : Part)
    (hx : x ∉ [Part.flc, Part.fresh]) : (trimBlocks held v lba n s).1.get x = s.get x := by
  simp only [List.mem_cons, List.not_mem_nil, or_false, not_or] at hx
  unfold trimBlocks
  extract_lets lo hi zeros acc1 acc2
  have hz : ∀ a k acc, (zeros a k acc).1.get x = acc.1.get x := by
    intro a k acc
    simp only [zeros]
    split
    · simp
    · split <;> simp [hx]
  have h2 : acc2.1.get x = s.get x := by
    simp only [acc2, acc1]
    split <;> simp [hz, hx]
  split <;> simp [hz, h2]

@[simp] theorem writeBlocks_get (held : Bool) (compress : Bool) (margin : Nat) (v : Nat) (lba : Nat) (n : Nat) (bs : List Byte) (s : State) (x : Part)
    (hx : x ∉ [Part.flc, Part.fresh]) : (writeBlocks held compress margin v lba n bs s).1.get x = s.get x := by
  simp only [List.mem_cons, List.not_mem_nil, or_false, not_or] at hx
  unfold writeBlocks
  generalize unitPieces lba n = l
  suffices hs : ∀ acc : State × List Nat, acc.1.get x = s.get x →
      (l.foldl (fun acc p => match vol? acc.1 v with
        | none => acc
        | some u => addGroup held (unitGroup acc.1 v u compress margin p.1 p.2 (bs.drop (blockBytes * (p.1 - lba)))) acc)
        acc).1.get x = s.get x from hs (s, []) rfl
  induction l with
  | nil => exact fun acc h => h
  | cons y ys ih =>
    intro acc ha
    simp only [List.foldl_cons]
    refine ih _ ?_
    split
    · exact ha
    · rw [addGroup_get _ _ _ _ (by simp [hx])]; exact ha

@[simp] theorem announcePoison_get (v : Nat) (access : Nat) (first : Nat) (count : Nat) (s : State) (x : Part)
    (hx : x ∉ [Part.glb, Part.flc, Part.insts]) : (announcePoison v access first count s).get x = s.get x := by
  simp only [List.mem_cons, List.not_mem_nil, or_false, not_or] at hx
  unfold announcePoison; repeat' (first | (with_reducible rfl) | (simp [hx]; done) | split)

@[simp] theorem poisonBlocks_get (v : Nat) (bs : List Nat) (s : State) (x : Part)
    (hx : x ∉ [Part.glb, Part.flc, Part.insts]) : (poisonBlocks v bs s).get x = s.get x := by
  simp only [List.mem_cons, List.not_mem_nil, or_false, not_or] at hx
  unfold poisonBlocks; repeat' (first | (with_reducible rfl) | (simp [hx]; done) | split)

@[simp] theorem settleWriteBack_get (was : Bool) (s : State) (x : Part)
    (hx : x ∉ [Part.insts]) : (settleWriteBack was s).get x = s.get x := by
  simp only [List.mem_cons, List.not_mem_nil, or_false, not_or] at hx
  unfold settleWriteBack; repeat' (first | (with_reducible rfl) | (simp [hx]; done) | split)

@[simp] theorem drbgUsed_get (s : State) (x : Part)
    (hx : x ∉ [Part.sec, Part.fresh]) : (drbgUsed s).get x = s.get x := by
  simp only [List.mem_cons, List.not_mem_nil, or_false, not_or] at hx
  unfold drbgUsed; repeat' (first | (with_reducible rfl) | (simp [hx]; done) | split)

@[simp] theorem newVolumeKey_get (v : Nat) (s : State) (x : Part)
    (hx : x ∉ [Part.sec, Part.flc, Part.fresh]) : (newVolumeKey v s).get x = s.get x := by
  simp only [List.mem_cons, List.not_mem_nil, or_false, not_or] at hx
  unfold newVolumeKey; repeat' (first | (with_reducible rfl) | (simp [hx]; done) | split)

@[simp] theorem discardPackages_get (v : Nat) (first : Nat) (count : Nat) (s : State) (x : Part)
    (hx : x ∉ [Part.bsh]) : (discardPackages v first count s).get x = s.get x := by
  simp only [List.mem_cons, List.not_mem_nil, or_false, not_or] at hx
  unfold discardPackages; repeat' (first | (with_reducible rfl) | (simp [hx]; done) | split)

@[simp] theorem discardVolumePackages_get (v : Nat) (s : State) (x : Part)
    (hx : x ∉ [Part.bsh]) : (discardVolumePackages v s).get x = s.get x := by
  simp only [List.mem_cons, List.not_mem_nil, or_false, not_or] at hx
  unfold discardVolumePackages; repeat' (first | (with_reducible rfl) | (simp [hx]; done) | split)

@[simp] theorem unmapAll_get (v : Nat) (s : State) (x : Part)
    (hx : x ∉ [Part.flc]) : (unmapAll v s).get x = s.get x := by
  simp only [List.mem_cons, List.not_mem_nil, or_false, not_or] at hx
  unfold unmapAll; repeat' (first | (with_reducible rfl) | (simp [hx]; done) | split)

@[simp] theorem destroyKey_get (v : Nat) (s : State) (x : Part)
    (hx : x ∉ [Part.sec, Part.flc]) : (destroyKey v s).get x = s.get x := by
  simp only [List.mem_cons, List.not_mem_nil, or_false, not_or] at hx
  unfold destroyKey; repeat' (first | (with_reducible rfl) | (simp [hx]; done) | split)

@[simp] theorem settleFaults_get (s : State) (x : Part)
    (hx : x ∉ [Part.pwr]) : (settleFaults s).get x = s.get x := by
  simp only [List.mem_cons, List.not_mem_nil, or_false, not_or] at hx
  unfold settleFaults; repeat' (first | (with_reducible rfl) | (simp [hx]; done) | split)

@[simp] theorem takeover_get (code : Nat) (unit : Nat) (repl : Nat) (ns : Nat) (s : State) (x : Part)
    (hx : x ∉ [Part.glb, Part.pwr, Part.flc, Part.insts]) : (takeover code unit repl ns s).get x = s.get x := by
  simp only [List.mem_cons, List.not_mem_nil, or_false, not_or] at hx
  unfold takeover; repeat' (first | (with_reducible rfl) | (simp [hx]; done) | split)

@[simp] theorem powerReset_get (cause : Nat) (held : Bool) (straps : Nat) (smba : Nat) (s : State) (x : Part)
    (hx : x ∉ [Part.glb, Part.clk, Part.hif, Part.mgr, Part.otp, Part.dbg, Part.pwr, Part.bsh, Part.sec, Part.sch, Part.dmz, Part.idx, Part.flc, Part.mem, Part.cch, Part.drc, Part.spn, Part.tags, Part.locks, Part.insts, Part.units, Part.acceptCount, Part.now]) : (powerReset cause held straps smba s).get x = s.get x := by
  simp only [List.mem_cons, List.not_mem_nil, or_false, not_or] at hx
  cases x <;> first | rfl | simp at hx

@[simp] theorem internalReset_get (causeBit : Nat) (held : Bool) (s : State) (x : Part)
    (hx : x ∉ [Part.glb, Part.clk, Part.hif, Part.mgr, Part.otp, Part.dbg, Part.pwr, Part.bsh, Part.sec, Part.sch, Part.dmz, Part.idx, Part.flc, Part.mem, Part.cch, Part.drc, Part.spn, Part.tags, Part.locks, Part.insts, Part.units, Part.acceptCount, Part.now]) : (internalReset causeBit held s).get x = s.get x := by
  simp only [List.mem_cons, List.not_mem_nil, or_false, not_or] at hx
  unfold internalReset; repeat' (first | (with_reducible rfl) | (simp [hx]; done) | split)

@[simp] theorem settleCache_get (s : State) (x : Part)
    (hx : x ∉ [Part.clk, Part.cch]) : (settleCache s).get x = s.get x := by
  simp only [List.mem_cons, List.not_mem_nil, or_false, not_or] at hx
  unfold settleCache; repeat' (first | (with_reducible rfl) | (simp [hx]; done) | split)

@[simp] theorem writeCchCtl_get (v : Nat) (s : State) (x : Part)
    (hx : x ∉ [Part.clk, Part.cch]) : (writeCchCtl v s).get x = s.get x := by
  simp only [List.mem_cons, List.not_mem_nil, or_false, not_or] at hx
  unfold writeCchCtl; repeat' (first | (with_reducible rfl) | (simp [hx]; done) | split)

@[simp] theorem disarm_get (s : State) (x : Part)
    (hx : x ∉ [Part.mem]) : (disarm s).get x = s.get x := by
  simp only [List.mem_cons, List.not_mem_nil, or_false, not_or] at hx
  unfold disarm; repeat' (first | (with_reducible rfl) | (simp [hx]; done) | split)

@[simp] theorem firkinStore_get (e : Nat) (off : Nat) (b : Byte) (s : State) (x : Part)
    (hx : x ∉ [Part.mem]) : (firkinStore e off b s).get x = s.get x := by
  simp only [List.mem_cons, List.not_mem_nil, or_false, not_or] at hx
  unfold firkinStore; repeat' (first | (with_reducible rfl) | (simp [hx]; done) | split)

@[simp] theorem modSide_get (b : Bool) (f : Side → Side) (s : State) (x : Part)
    (hx : x ∉ [Part.drc]) : (modSide b f s).get x = s.get x := by
  simp only [List.mem_cons, List.not_mem_nil, or_false, not_or] at hx
  unfold modSide; repeat' (first | (with_reducible rfl) | (simp [hx]; done) | split)

@[simp] theorem noteError_get (addr : Nat) (source : Nat) (unit : Nat) (kind : Nat) (s : State) (x : Part)
    (hx : x ∉ [Part.mem]) : (noteError addr source unit kind s).get x = s.get x := by
  simp only [List.mem_cons, List.not_mem_nil, or_false, not_or] at hx
  unfold noteError; repeat' (first | (with_reducible rfl) | (simp [hx]; done) | split)

@[simp] theorem sideStore_get (b : Bool) (off : Nat) (bs : List Byte) (ps : List Nat) (s : State) (x : Part)
    (hx : x ∉ [Part.mem, Part.drc]) : (sideStore b off bs ps s).get x = s.get x := by
  simp only [List.mem_cons, List.not_mem_nil, or_false, not_or] at hx
  unfold sideStore; repeat' (first | (with_reducible rfl) | (simp [hx]; done) | split)

@[simp] theorem storePoison_get (b : Bool) (off : Nat) (bs : List Byte) (s : State) (x : Part)
    (hx : x ∉ [Part.mem, Part.drc]) : (storePoison b off bs s).get x = s.get x := by
  simp only [List.mem_cons, List.not_mem_nil, or_false, not_or] at hx
  unfold storePoison; repeat' (first | (with_reducible rfl) | (simp [hx]; done) | split)

@[simp] theorem countCorrected_get (b : Bool) (off : Nat) (s : State) (x : Part)
    (hx : x ∉ [Part.mem, Part.drc]) : (countCorrected b off s).get x = s.get x := by
  simp only [List.mem_cons, List.not_mem_nil, or_false, not_or] at hx
  unfold countCorrected; repeat' (first | (with_reducible rfl) | (simp [hx]; done) | split)

@[simp] theorem wholeWrite_get (a : Nat) (bs : List Byte) (s : State) (x : Part)
    (hx : x ∉ [Part.mem, Part.drc]) : (wholeWrite a bs s).get x = s.get x := by
  simp only [List.mem_cons, List.not_mem_nil, or_false, not_or] at hx
  unfold wholeWrite
  generalize dramPlace s a = y
  obtain ⟨b, off, m⟩ := y
  simp only; repeat' (first | (with_reducible rfl) | (simp [hx]; done) | (simp (zetaDelta := true) [hx]; done) | extract_lets | split)

@[simp] theorem mergePoison_get (b : Bool) (off : Nat) (new : List (Nat × Byte)) (s : State) (x : Part)
    (hx : x ∉ [Part.mem, Part.drc]) : (mergePoison b off new s).get x = s.get x := by
  simp only [List.mem_cons, List.not_mem_nil, or_false, not_or] at hx
  unfold mergePoison; repeat' (first | (with_reducible rfl) | (simp [hx]; done) | split)

@[simp] theorem countRepair_get (s : State) (x : Part)
    (hx : x ∉ [Part.drc]) : (countRepair s).get x = s.get x := by
  simp only [List.mem_cons, List.not_mem_nil, or_false, not_or] at hx
  unfold countRepair; repeat' (first | (with_reducible rfl) | (simp [hx]; done) | split)

@[simp] theorem narrowWrite_get (a : Nat) (new : List (Nat × Byte)) (s : State) (x : Part)
    (hx : x ∉ [Part.mem, Part.drc]) : (narrowWrite a new s).get x = s.get x := by
  simp only [List.mem_cons, List.not_mem_nil, or_false, not_or] at hx
  unfold narrowWrite
  generalize dramPlace s a = y
  obtain ⟨b, off, m⟩ := y
  simp only; repeat' (first | (with_reducible rfl) | (simp [hx]; done) | (simp (zetaDelta := true) [hx]; done) | extract_lets | split)

@[simp] theorem drainEntry_get (e : WEntry) (s : State) (x : Part)
    (hx : x ∉ [Part.mem, Part.drc]) : (drainEntry e s).get x = s.get x := by
  simp only [List.mem_cons, List.not_mem_nil, or_false, not_or] at hx
  unfold drainEntry; repeat' (first | (with_reducible rfl) | (simp [hx]; done) | split)

@[simp] theorem drainFirst_get (s : State) (x : Part)
    (hx : x ∉ [Part.mem, Part.cch, Part.drc]) : (drainFirst s).get x = s.get x := by
  simp only [List.mem_cons, List.not_mem_nil, or_false, not_or] at hx
  unfold drainFirst; repeat' (first | (with_reducible rfl) | (simp [hx]; done) | split)

@[simp] theorem writeWayPwr_get (v : Nat) (s : State) (x : Part)
    (hx : x ∉ [Part.clk, Part.cch]) : (writeWayPwr v s).get x = s.get x := by
  simp only [List.mem_cons, List.not_mem_nil, or_false, not_or] at hx
  unfold writeWayPwr; repeat' (first | (with_reducible rfl) | (simp [hx]; done) | split)

@[simp] theorem hogStoreOne_get (a : Nat) (b : Byte) (s : State) (x : Part)
    (hx : x ∉ [Part.mem]) : (hogStoreOne a b s).get x = s.get x := by
  simp only [List.mem_cons, List.not_mem_nil, or_false, not_or] at hx
  unfold hogStoreOne; repeat' (first | (with_reducible rfl) | (simp [hx]; done) | split)

@[simp] theorem hogStore_get (a : Nat) (b : Byte) (s : State) (x : Part)
    (hx : x ∉ [Part.mem]) : (hogStore a b s).get x = s.get x := by
  simp only [List.mem_cons, List.not_mem_nil, or_false, not_or] at hx
  unfold hogStore; repeat' (first | (with_reducible rfl) | (simp [hx]; done) | split)

@[simp] theorem dramStore_get (a : Nat) (b : Byte) (s : State) (x : Part)
    (hx : x ∉ [Part.mem, Part.cch, Part.drc]) : (dramStore a b s).get x = s.get x := by
  simp only [List.mem_cons, List.not_mem_nil, or_false, not_or] at hx
  unfold dramStore; repeat' (first | (with_reducible rfl) | (simp [hx]; done) | split)

@[simp] theorem countBad_get (b : Bool) (off : Nat) (v : Verdict) (s : State) (x : Part)
    (hx : x ∉ [Part.mem, Part.drc]) : (countBad b off v s).get x = s.get x := by
  simp only [List.mem_cons, List.not_mem_nil, or_false, not_or] at hx
  unfold countBad; repeat' (first | (with_reducible rfl) | (simp [hx]; done) | split)

@[simp] theorem dramReadGranule_get (a : Nat) (s : State) (x : Part)
    (hx : x ∉ [Part.mem, Part.drc]) : (dramReadGranule a s).2.get x = s.get x := by
  simp only [List.mem_cons, List.not_mem_nil, or_false, not_or] at hx
  unfold dramReadGranule
  generalize dramPlace s a = y
  obtain ⟨b, off, m⟩ := y
  simp only; repeat' (first | (with_reducible rfl) | (simp [hx]; done) | (simp (zetaDelta := true) [hx]; done) | extract_lets | split)

@[simp] theorem dramReadLine_get (line : Nat) (s : State) (x : Part)
    (hx : x ∉ [Part.mem, Part.drc]) : (dramReadLine line s).2.get x = s.get x := by
  simp only [List.mem_cons, List.not_mem_nil, or_false, not_or] at hx
  unfold dramReadLine
  simp [hx]

@[simp] theorem freshLine_get (s : State) (line : Nat) (x : Part)
    (hx : x ∉ [Part.mem]) : (freshLine s line).2.get x = s.get x := by
  simp only [List.mem_cons, List.not_mem_nil, or_false, not_or] at hx
  unfold freshLine; repeat' (first | (with_reducible rfl) | (simp [hx]; done) | split)

@[simp] theorem countSram_get (addr : Nat) (source : Nat) (unit : Nat) (bad : Bool) (s : State) (x : Part)
    (hx : x ∉ [Part.mem]) : (countSram addr source unit bad s).get x = s.get x := by
  simp only [List.mem_cons, List.not_mem_nil, or_false, not_or] at hx
  unfold countSram; repeat' (first | (with_reducible rfl) | (simp [hx]; done) | split)

@[simp] theorem noteRepair_get (kind : Nat) (unit : Nat) (addr : Nat) (s : State) (x : Part)
    (hx : x ∉ [Part.mem]) : (noteRepair kind unit addr s).get x = s.get x := by
  simp only [List.mem_cons, List.not_mem_nil, or_false, not_or] at hx
  unfold noteRepair; repeat' (first | (with_reducible rfl) | (simp [hx]; done) | split)

@[simp] theorem remapGranule_get (a : Nat) (s : State) (x : Part)
    (hx : x ∉ [Part.mem]) : (remapGranule a s).get x = s.get x := by
  simp only [List.mem_cons, List.not_mem_nil, or_false, not_or] at hx
  unfold remapGranule; repeat' (first | (with_reducible rfl) | (simp [hx]; done) | split)

@[simp] theorem remapLine_get (e : Nat) (line : Nat) (s : State) (x : Part)
    (hx : x ∉ [Part.mem]) : (remapLine e line s).get x = s.get x := by
  simp only [List.mem_cons, List.not_mem_nil, or_false, not_or] at hx
  unfold remapLine; repeat' (first | (with_reducible rfl) | (simp [hx]; done) | split)

@[simp] theorem storeFirkin_get (e : Nat) (es : List (Fin 5 × Nat × Nat)) (s : State) (x : Part)
    (hx : x ∉ [Part.mem]) : (storeFirkin e es s).get x = s.get x := by
  simp only [List.mem_cons, List.not_mem_nil, or_false, not_or] at hx
  unfold storeFirkin; repeat' (first | (with_reducible rfl) | (simp [hx]; done) | split)

@[simp] theorem charge_get (o : Nat) (us : Nat) (s : State) (x : Part)
    (hx : x ∉ [Part.sch, Part.insts]) : (charge o us s).get x = s.get x := by
  simp only [List.mem_cons, List.not_mem_nil, or_false, not_or] at hx
  unfold charge; repeat' (first | (with_reducible rfl) | (simp [hx]; done) | split)

@[simp] theorem modTask_get (c : Nat) (f : Task → Task) (s : State) (x : Part)
    (hx : x ∉ [Part.sch]) : (modTask c f s).get x = s.get x := by
  simp only [List.mem_cons, List.not_mem_nil, or_false, not_or] at hx
  unfold modTask; repeat' (first | (with_reducible rfl) | (simp [hx]; done) | split)

@[simp] theorem modEngine_get (e : Nat) (f : Engine → Engine) (s : State) (x : Part)
    (hx : x ∉ [Part.sch]) : (modEngine e f s).get x = s.get x := by
  simp only [List.mem_cons, List.not_mem_nil, or_false, not_or] at hx
  unfold modEngine; repeat' (first | (with_reducible rfl) | (simp [hx]; done) | split)

@[simp] theorem trace_get (kind : Nat) (ctx : Nat) (engine : Nat) (owner : Option Nat) (aux : Nat) (arg : Nat) (s : State) (x : Part)
    (hx : x ∉ [Part.sch, Part.fresh]) : (trace kind ctx engine owner aux arg s).get x = s.get x := by
  simp only [List.mem_cons, List.not_mem_nil, or_false, not_or] at hx
  unfold trace; repeat' (first | (with_reducible rfl) | (simp [hx]; done) | split)

@[simp] theorem traceTask_get (kind : Nat) (ctx : Nat) (engine : Nat) (aux : Nat) (arg : Nat) (s : State) (x : Part)
    (hx : x ∉ [Part.sch, Part.fresh]) : (traceTask kind ctx engine aux arg s).get x = s.get x := by
  simp only [List.mem_cons, List.not_mem_nil, or_false, not_or] at hx
  unfold traceTask; repeat' (first | (with_reducible rfl) | (simp [hx]; done) | split)

@[simp] theorem commitCkpt_get (e : Nat) (c : Nat) (lines : Nat) (xs : List (Fin 5 × Nat × Nat)) (s : State) (x : Part)
    (hx : x ∉ [Part.sch, Part.mem, Part.insts, Part.fresh]) : (commitCkpt e c lines xs s).get x = s.get x := by
  simp only [List.mem_cons, List.not_mem_nil, or_false, not_or] at hx
  unfold commitCkpt; repeat' (first | (with_reducible rfl) | (simp [hx]; done) | split)

@[simp] theorem writeTraceCtl_get (v : Nat) (s : State) (x : Part)
    (hx : x ∉ [Part.sch]) : (writeTraceCtl v s).get x = s.get x := by
  simp only [List.mem_cons, List.not_mem_nil, or_false, not_or] at hx
  unfold writeTraceCtl; repeat' (first | (with_reducible rfl) | (simp [hx]; done) | split)

@[simp] theorem freeCtx_get (c : Nat) (s : State) (x : Part)
    (hx : x ∉ [Part.sch]) : (freeCtx c s).get x = s.get x := by
  simp only [List.mem_cons, List.not_mem_nil, or_false, not_or] at hx
  unfold freeCtx; repeat' (first | (with_reducible rfl) | (simp [hx]; done) | split)

@[simp] theorem cancelCtx_get (c : Nat) (s : State) (x : Part)
    (hx : x ∉ [Part.sch, Part.fresh]) : (cancelCtx c s).get x = s.get x := by
  simp only [List.mem_cons, List.not_mem_nil, or_false, not_or] at hx
  unfold cancelCtx; repeat' (first | (with_reducible rfl) | (simp [hx]; done) | split)

@[simp] theorem cancelOwner_get (o : Nat) (s : State) (x : Part)
    (hx : x ∉ [Part.sch, Part.fresh]) : (cancelOwner o s).get x = s.get x := by
  simp only [List.mem_cons, List.not_mem_nil, or_false, not_or] at hx
  unfold cancelOwner; repeat' (first | (with_reducible rfl) | (simp [hx]; done) | split)

@[simp] theorem makeReady_get (c : Nat) (flags : Nat) (s : State) (x : Part)
    (hx : x ∉ [Part.sch, Part.fresh]) : (makeReady c flags s).get x = s.get x := by
  simp only [List.mem_cons, List.not_mem_nil, or_false, not_or] at hx
  unfold makeReady; repeat' (first | (with_reducible rfl) | (simp [hx]; done) | split)

@[simp] theorem releaseEngine_get (e : Nat) (s : State) (x : Part)
    (hx : x ∉ [Part.sch]) : (releaseEngine e s).get x = s.get x := by
  simp only [List.mem_cons, List.not_mem_nil, or_false, not_or] at hx
  unfold releaseEngine; repeat' (first | (with_reducible rfl) | (simp [hx]; done) | split)

@[simp] theorem postFlag_get (c : Nat) (k : Nat) (source : Nat) (s : State) (x : Part)
    (hx : x ∉ [Part.sch, Part.fresh]) : (postFlag c k source s).get x = s.get x := by
  simp only [List.mem_cons, List.not_mem_nil, or_false, not_or] at hx
  unfold postFlag; repeat' (first | (with_reducible rfl) | (simp [hx]; done) | (simp (zetaDelta := true) [hx]; done) | extract_lets | split)

@[simp] theorem orphan_get (source : Nat) (arg : Nat) (s : State) (x : Part)
    (hx : x ∉ [Part.sch, Part.fresh]) : (orphan source arg s).get x = s.get x := by
  simp only [List.mem_cons, List.not_mem_nil, or_false, not_or] at hx
  unfold orphan; repeat' (first | (with_reducible rfl) | (simp [hx]; done) | split)

@[simp] theorem postTask_get (source : Nat) (h : Nat) (k : Nat) (s : State) (x : Part)
    (hx : x ∉ [Part.sch, Part.fresh]) : (postTask source h k s).get x = s.get x := by
  simp only [List.mem_cons, List.not_mem_nil, or_false, not_or] at hx
  unfold postTask; repeat' (first | (with_reducible rfl) | (simp [hx]; done) | split)

@[simp] theorem releaseEffect_get (s : State) (e : Effect) (x : Part)
    (hx : x ∉ [Part.sch, Part.mem, Part.cch, Part.drc, Part.fresh]) : (releaseEffect s e).get x = s.get x := by
  simp only [List.mem_cons, List.not_mem_nil, or_false, not_or] at hx
  unfold releaseEffect; repeat' (first | (with_reducible rfl) | (simp [hx]; done) | split)

@[simp] theorem applyHalf_get (e : Nat) (s : State) (x : Part)
    (hx : x ∉ [Part.sch, Part.mem, Part.cch, Part.drc, Part.fresh]) : (applyHalf e s).get x = s.get x := by
  simp only [List.mem_cons, List.not_mem_nil, or_false, not_or] at hx
  unfold applyHalf; repeat' (first | (with_reducible rfl) | (simp [hx]; done) | split)

@[simp] theorem interrupted_get (c : Nat) (s : State) (x : Part)
    (hx : x ∉ [Part.sch, Part.fresh]) : (interrupted c s).get x = s.get x := by
  simp only [List.mem_cons, List.not_mem_nil, or_false, not_or] at hx
  unfold interrupted; repeat' (first | (with_reducible rfl) | (simp [hx]; done) | split)

@[simp] theorem dispatchTo_get (c : Nat) (e : Nat) (s : State) (x : Part)
    (hx : x ∉ [Part.sch, Part.fresh]) : (dispatchTo c e s).get x = s.get x := by
  simp only [List.mem_cons, List.not_mem_nil, or_false, not_or] at hx
  unfold dispatchTo; repeat' (first | (with_reducible rfl) | (simp [hx]; done) | split)

@[simp] theorem engineFault_get (e : Nat) (ns : Nat) (y : Engine) (s : State) (x : Part)
    (hx : x ∉ [Part.glb, Part.clk, Part.pwr, Part.sch, Part.flc, Part.mem, Part.cch, Part.drc, Part.insts, Part.fresh]) : (engineFault e ns y s).get x = s.get x := by
  simp only [List.mem_cons, List.not_mem_nil, or_false, not_or] at hx
  unfold engineFault
  dsimp only
  generalize engineSpare s = sp
  cases sp <;> cases y.ctx <;> (simp [hx]; try (split <;> simp [hx]))

@[simp] theorem retireDue_get (e : Nat) (s : State) (x : Part)
    (hx : x ∉ [Part.glb, Part.clk, Part.pwr, Part.sch, Part.flc, Part.mem, Part.cch, Part.drc, Part.insts, Part.fresh]) : (retireDue e s).get x = s.get x := by
  simp only [List.mem_cons, List.not_mem_nil, or_false, not_or] at hx
  unfold retireDue; repeat' (first | (with_reducible rfl) | (simp [hx]; done) | split)

@[simp] theorem postCommand_get (source : Nat) (key : Nat) (k : Nat) (s : State) (x : Part)
    (hx : x ∉ [Part.sch, Part.fresh]) : (postCommand source key k s).get x = s.get x := by
  simp only [List.mem_cons, List.not_mem_nil, or_false, not_or] at hx
  unfold postCommand; repeat' (first | (with_reducible rfl) | (simp [hx]; done) | split)

@[simp] theorem switchOut_get (e : Nat) (c : Nat) (reason : Nat) (s : State) (x : Part)
    (hx : x ∉ [Part.sch, Part.fresh]) : (switchOut e c reason s).get x = s.get x := by
  simp only [List.mem_cons, List.not_mem_nil, or_false, not_or] at hx
  unfold switchOut; repeat' (first | (with_reducible rfl) | (simp [hx]; done) | split)

end Sys2Proof.Machine
end

