-- ==== Sys2Proof/Laws/FrameWork.lean ====
section
/-! SUPPORT. What the operations behind the commands of tags and behind spans leave as it is: every part of the state that the
operation and those it calls do not write. One lemma for each operation. -/

set_option linter.all false

namespace Sys2Proof.Machine

@[simp] theorem modEPort_get (p : Nat) (f : EPort → EPort) (s : State) (x : Part)
    (hx : x ∉ [Part.spn]) : (modEPort p f s).get x = s.get x := by
  simp only [List.mem_cons, List.not_mem_nil, or_false, not_or] at hx
  unfold modEPort; repeat' (first | (with_reducible rfl) | (simp [hx]; done) | split)

@[simp] theorem deliverHere_get (port : Nat) (f : Flit) (s : State) (x : Part)
    (hx : x ∉ [Part.spn]) : (deliverHere port f s).get x = s.get x := by
  simp only [List.mem_cons, List.not_mem_nil, or_false, not_or] at hx
  unfold deliverHere; repeat' (first | (with_reducible rfl) | (simp [hx]; done) | split)

@[simp] theorem onWire_get (p : Nat) (f : Flit) (s : State) (x : Part)
    (hx : x ∉ [Part.spn]) : (onWire p f s).get x = s.get x := by
  simp only [List.mem_cons, List.not_mem_nil, or_false, not_or] at hx
  unfold onWire; repeat' (first | (with_reducible rfl) | (simp [hx]; done) | split)

@[simp] theorem sendSequenced_get (p : Nat) (f : Flit) (s : State) (x : Part)
    (hx : x ∉ [Part.spn]) : (sendSequenced p f s).get x = s.get x := by
  simp only [List.mem_cons, List.not_mem_nil, or_false, not_or] at hx
  unfold sendSequenced; repeat' (first | (with_reducible rfl) | (simp [hx]; done) | split)

@[simp] theorem forwardFlit_get (arrival : Option Nat) (p : Nat) (f : Flit) (s : State) (x : Part)
    (hx : x ∉ [Part.spn]) : (forwardFlit arrival p f s).get x = s.get x := by
  simp only [List.mem_cons, List.not_mem_nil, or_false, not_or] at hx
  unfold forwardFlit; repeat' (first | (with_reducible rfl) | (simp [hx]; done) | split)

@[simp] theorem dropFlit_get (s : State) (x : Part)
    (hx : x ∉ [Part.spn]) : (dropFlit s).get x = s.get x := by
  simp only [List.mem_cons, List.not_mem_nil, or_false, not_or] at hx
  unfold dropFlit; repeat' (first | (with_reducible rfl) | (simp [hx]; done) | split)

@[simp] theorem routeAnswer_get (f : Flit) (s : State) (x : Part)
    (hx : x ∉ [Part.spn]) : (routeAnswer f s).get x = s.get x := by
  simp only [List.mem_cons, List.not_mem_nil, or_false, not_or] at hx
  unfold routeAnswer; repeat' (first | (with_reducible rfl) | (simp [hx]; done) | split)

@[simp] theorem route_get (arrival : Option Nat) (f : Flit) (s : State) (x : Part)
    (hx : x ∉ [Part.spn]) : (route arrival f s).get x = s.get x := by
  simp only [List.mem_cons, List.not_mem_nil, or_false, not_or] at hx
  unfold route; repeat' (first | (with_reducible rfl) | (simp [hx]; done) | split)

@[simp] theorem flood_get (but : Option Nat) (f : Flit) (s : State) (x : Part)
    (hx : x ∉ [Part.spn]) : (flood but f s).get x = s.get x := by
  simp only [List.mem_cons, List.not_mem_nil, or_false, not_or] at hx
  unfold flood; repeat' (first | (with_reducible rfl) | (simp [hx]; done) | split)

@[simp] theorem announce_get (leaving : Bool) (s : State) (x : Part)
    (hx : x ∉ [Part.spn]) : (announce leaving s).get x = s.get x := by
  simp only [List.mem_cons, List.not_mem_nil, or_false, not_or] at hx
  unfold announce; repeat' (first | (with_reducible rfl) | (simp [hx]; done) | split)

@[simp] theorem spanChange_get (port : Nat) (code : Nat) (id : Nat) (r1 : Nat) (s : State) (x : Part)
    (hx : x ∉ [Part.insts]) : (spanChange port code id r1 s).get x = s.get x := by
  simp only [List.mem_cons, List.not_mem_nil, or_false, not_or] at hx
  unfold spanChange; repeat' (first | (with_reducible rfl) | (simp [hx]; done) | split)

@[simp] theorem setPort_get (p : Nat) (st : PortSt) (s : State) (x : Part)
    (hx : x ∉ [Part.spn, Part.insts]) : (setPort p st s).get x = s.get x := by
  simp only [List.mem_cons, List.not_mem_nil, or_false, not_or] at hx
  unfold setPort; repeat' (first | (with_reducible rfl) | (simp [hx]; done) | split)

@[simp] theorem dropXact_get (k : Nat) (s : State) (x : Part)
    (hx : x ∉ [Part.spn]) : (dropXact k s).get x = s.get x := by
  simp only [List.mem_cons, List.not_mem_nil, or_false, not_or] at hx
  unfold dropXact; repeat' (first | (with_reducible rfl) | (simp [hx]; done) | split)

@[simp] theorem sendMessage_get (type : Nat) (dest : Nat) (xid : Nat) (budget : Nat) (resent : Bool) (first : List Byte) (rest : List Byte) (s : State) (x : Part)
    (hx : x ∉ [Part.spn]) : (sendMessage type dest xid budget resent first rest s).get x = s.get x := by
  simp only [List.mem_cons, List.not_mem_nil, or_false, not_or] at hx
  unfold sendMessage; repeat' (first | (with_reducible rfl) | (simp [hx]; done) | split)

@[simp] theorem cancelXact_get (k : Nat) (s : State) (x : Part)
    (hx : x ∉ [Part.spn]) : (cancelXact k s).get x = s.get x := by
  simp only [List.mem_cons, List.not_mem_nil, or_false, not_or] at hx
  unfold cancelXact; repeat' (first | (with_reducible rfl) | (simp [hx]; done) | split)

@[simp] theorem freeWaits_get (k : Nat) (s : State) (x : Part)
    (hx : x ∉ [Part.spn]) : (freeWaits k s).get x = s.get x := by
  simp only [List.mem_cons, List.not_mem_nil, or_false, not_or] at hx
  unfold freeWaits; repeat' (first | (with_reducible rfl) | (simp [hx]; done) | split)

@[simp] theorem keepResp_get (key : Nat) (bs : List Byte) (s : State) (x : Part)
    (hx : x ∉ [Part.spn]) : (keepResp key bs s).get x = s.get x := by
  simp only [List.mem_cons, List.not_mem_nil, or_false, not_or] at hx
  unfold keepResp; repeat' (first | (with_reducible rfl) | (simp [hx]; done) | split)

@[simp] theorem answerServed_get (key : Nat) (v : Served) (r : Reply) (s : State) (x : Part)
    (hx : x ∉ [Part.spn, Part.locks]) : (answerServed key v r s).get x = s.get x := by
  simp only [List.mem_cons, List.not_mem_nil, or_false, not_or] at hx
  unfold answerServed; repeat' (first | (with_reducible rfl) | (simp [hx]; done) | split)

@[simp] theorem mirrorOne_get (k : Nat) (v : Nat) (n : Nat) (p : List Byte) (bs : List Byte) (s : State) (c : Nat) (x : Part)
    (hx : x ∉ [Part.spn]) : (mirrorOne k v n p bs s c).get x = s.get x := by
  simp only [List.mem_cons, List.not_mem_nil, or_false, not_or] at hx
  unfold mirrorOne; repeat' (first | (with_reducible rfl) | (simp [hx]; done) | split)

@[simp] theorem settleServed_get (s : State) (x : Part)
    (hx : x ∉ [Part.spn, Part.locks]) : (settleServed s).get x = s.get x := by
  simp only [List.mem_cons, List.not_mem_nil, or_false, not_or] at hx
  unfold settleServed; refine State.get_foldl _ _ _ _ (fun s p => ?_); repeat' (first | (with_reducible rfl) | (simp [hx]; done) | split)

@[simp] theorem settleDurable_get (k : Nat) (s : State) (x : Part)
    (hx : x ∉ [Part.spn, Part.tags, Part.locks, Part.units]) : (settleDurable k s).get x = s.get x := by
  simp only [List.mem_cons, List.not_mem_nil, or_false, not_or] at hx
  unfold settleDurable; repeat' (first | (with_reducible rfl) | (simp [hx]; done) | split)

@[simp] theorem groupsDurable_get (ids : List Nat) (s : State) (x : Part)
    (hx : x ∉ [Part.spn, Part.tags, Part.locks, Part.units]) : (groupsDurable ids s).get x = s.get x := by
  simp only [List.mem_cons, List.not_mem_nil, or_false, not_or] at hx
  unfold groupsDurable; repeat' (first | (with_reducible rfl) | (simp [hx]; done) | split)

@[simp] theorem mirrorSend_get (k : Nat) (v : Nat) (n : Nat) (p : List Byte) (u : Vol) (lba : Nat) (len : Nat) (bs : List Byte) (s : State) (x : Part)
    (hx : x ∉ [Part.spn]) : (mirrorSend k v n p u lba len bs s).get x = s.get x := by
  simp only [List.mem_cons, List.not_mem_nil, or_false, not_or] at hx
  unfold mirrorSend; repeat' (first | (with_reducible rfl) | (simp [hx]; done) | split)

@[simp] theorem sendReq_get (k : Nat) (n : Nat) (p : List Byte) (data : List Byte) (home : Nat) (homeVol : Nat) (deadline : Nat) (s : State) (x : Part)
    (hx : x ∉ [Part.spn, Part.tags]) : (sendReq k n p data home homeVol deadline s).get x = s.get x := by
  simp only [List.mem_cons, List.not_mem_nil, or_false, not_or] at hx
  unfold sendReq; repeat' (first | (with_reducible rfl) | (simp [hx]; done) | split)

@[simp] theorem sendUnsequenced_get (p : Nat) (type : Nat) (s : State) (x : Part)
    (hx : x ∉ [Part.spn]) : (sendUnsequenced p type s).get x = s.get x := by
  simp only [List.mem_cons, List.not_mem_nil, or_false, not_or] at hx
  unfold sendUnsequenced; repeat' (first | (with_reducible rfl) | (simp [hx]; done) | split)

@[simp] theorem forward_get (k : Nat) (n : Nat) (p : List Byte) (home : Nat) (homeVol : Nat) (s : State) (x : Part)
    (hx : x ∉ [Part.spn, Part.tags]) : (forward k n p home homeVol s).get x = s.get x := by
  simp only [List.mem_cons, List.not_mem_nil, or_false, not_or] at hx
  unfold forward; repeat' (first | (with_reducible rfl) | (simp [hx]; done) | split)

@[simp] theorem sendWaiting_get (a0 : Nat) (a1 : Nat) (a2 : State) (x : Part)
    (hx : x ∉ [Part.spn]) : (sendWaiting a0 a1 a2).get x = a2.get x := by
  simp only [List.mem_cons, List.not_mem_nil, or_false, not_or] at hx
  induction a0 generalizing a1 a2 with
  | zero => rfl
  | succ n ih =>
    unfold sendWaiting; repeat' (first | (with_reducible rfl) | (simp [ih, hx]; done) | (simp (zetaDelta := true) [ih, hx]; done) | extract_lets | split)

@[simp] theorem takeMessage_get (type : Nat) (origin : Nat) (xid : Nat) (s : State) (x : Part)
    (hx : x ∉ [Part.spn]) : (takeMessage type origin xid s).get x = s.get x := by
  simp only [List.mem_cons, List.not_mem_nil, or_false, not_or] at hx
  unfold takeMessage; repeat' (first | (with_reducible rfl) | (simp [hx]; done) | split)

@[simp] theorem zeroiseSlots_get (s : State) (x : Part)
    (hx : x ∉ [Part.bsh, Part.sec]) : (zeroiseSlots s).get x = s.get x := by
  simp only [List.mem_cons, List.not_mem_nil, or_false, not_or] at hx
  unfold zeroiseSlots; repeat' (first | (with_reducible rfl) | (simp [hx]; done) | split)

@[simp] theorem applyRevocation_get (s : State) (x : Part)
    (hx : x ∉ [Part.bsh, Part.sec]) : (applyRevocation s).get x = s.get x := by
  simp only [List.mem_cons, List.not_mem_nil, or_false, not_or] at hx
  unfold applyRevocation; repeat' (first | (with_reducible rfl) | (simp [hx]; done) | split)

@[simp] theorem freeLicence_get (slot : Nat) (s : State) (x : Part)
    (hx : x ∉ [Part.bsh, Part.sec]) : (freeLicence slot s).get x = s.get x := by
  simp only [List.mem_cons, List.not_mem_nil, or_false, not_or] at hx
  unfold freeLicence; repeat' (first | (with_reducible rfl) | (simp [hx]; done) | split)

@[simp] theorem dropLicence_get (slot : Nat) (tag : Option Nat) (s : State) (x : Part)
    (hx : x ∉ [Part.bsh, Part.sec, Part.tags, Part.locks, Part.units]) : (dropLicence slot tag s).get x = s.get x := by
  simp only [List.mem_cons, List.not_mem_nil, or_false, not_or] at hx
  unfold dropLicence; repeat' (first | (with_reducible rfl) | (simp [hx]; done) | split)

@[simp] theorem freeSeal_get (no : Nat) (s : State) (x : Part)
    (hx : x ∉ [Part.sec]) : (freeSeal no s).get x = s.get x := by
  simp only [List.mem_cons, List.not_mem_nil, or_false, not_or] at hx
  unfold freeSeal; repeat' (first | (with_reducible rfl) | (simp [hx]; done) | split)

@[simp] theorem advanceSeal_get (no : Nat) (n : Nat) (s : State) (x : Part)
    (hx : x ∉ [Part.sec]) : (advanceSeal no n s).get x = s.get x := by
  simp only [List.mem_cons, List.not_mem_nil, or_false, not_or] at hx
  unfold advanceSeal; repeat' (first | (with_reducible rfl) | (simp [hx]; done) | split)

@[simp] theorem licenceRefused_get (k : Nat) (status : Nat) (r0 : Nat) (s : State) (x : Part)
    (hx : x ∉ [Part.sec, Part.tags, Part.locks, Part.units]) : (licenceRefused k status r0 s).get x = s.get x := by
  simp only [List.mem_cons, List.not_mem_nil, or_false, not_or] at hx
  unfold licenceRefused; repeat' (first | (with_reducible rfl) | (simp [hx]; done) | split)

@[simp] theorem fillLicence_get (n : Nat) (k : Nat) (l : List Byte) (key : BitVec 256) (s : State) (x : Part)
    (hx : x ∉ [Part.sec, Part.tags, Part.locks, Part.units]) : (fillLicence n k l key s).get x = s.get x := by
  simp only [List.mem_cons, List.not_mem_nil, or_false, not_or] at hx
  unfold fillLicence; repeat' (first | (with_reducible rfl) | (simp [hx]; done) | split)

@[simp] theorem settleLicence_get (slot : Nat) (s : State) (x : Part)
    (hx : x ∉ [Part.bsh, Part.sec, Part.tags, Part.locks, Part.units]) : (settleLicence slot s).get x = s.get x := by
  simp only [List.mem_cons, List.not_mem_nil, or_false, not_or] at hx
  unfold settleLicence; repeat' (first | (with_reducible rfl) | (simp [hx]; done) | split)

@[simp] theorem settleSeal_get (no : Nat) (s : State) (x : Part)
    (hx : x ∉ [Part.sec, Part.tags, Part.locks, Part.units]) : (settleSeal no s).get x = s.get x := by
  simp only [List.mem_cons, List.not_mem_nil, or_false, not_or] at hx
  unfold settleSeal; repeat' (first | (with_reducible rfl) | (simp [hx]; done) | split)

@[simp] theorem closeSeal_get (no : Nat) (k : Nat) (s : State) (x : Part)
    (hx : x ∉ [Part.sec, Part.tags, Part.locks, Part.units]) : (closeSeal no k s).get x = s.get x := by
  simp only [List.mem_cons, List.not_mem_nil, or_false, not_or] at hx
  unfold closeSeal; repeat' (first | (with_reducible rfl) | (simp [hx]; done) | split)

@[simp] theorem countUnit_get (st : Nat) (s : State) (x : Part)
    (hx : x ∉ [Part.bsh, Part.sec]) : (countUnit st s).get x = s.get x := by
  simp only [List.mem_cons, List.not_mem_nil, or_false, not_or] at hx
  unfold countUnit; repeat' (first | (with_reducible rfl) | (simp [hx]; done) | split)

@[simp] theorem endAsset_get (k : Nat) (r : Reply) (s : State) (x : Part)
    (hx : x ∉ [Part.bsh, Part.sec, Part.tags, Part.locks, Part.units]) : (endAsset k r s).get x = s.get x := by
  simp only [List.mem_cons, List.not_mem_nil, or_false, not_or] at hx
  unfold endAsset; repeat' (first | (with_reducible rfl) | (simp [hx]; done) | split)

@[simp] theorem keepPackage_get (v : Nat) (lba : Nat) (slot : Nat) (h : List Byte) (d : List Byte) (dict : Option (List Byte)) (s : State) (x : Part)
    (hx : x ∉ [Part.bsh]) : (keepPackage v lba slot h d dict s).get x = s.get x := by
  simp only [List.mem_cons, List.not_mem_nil, or_false, not_or] at hx
  unfold keepPackage; repeat' (first | (with_reducible rfl) | (simp [hx]; done) | split)

@[simp] theorem logReread_get (n : Nat) (v : Nat) (lba : Nat) (s : State) (x : Part)
    (hx : x ∉ [Part.glb, Part.flc]) : (logReread n v lba s).get x = s.get x := by
  simp only [List.mem_cons, List.not_mem_nil, or_false, not_or] at hx
  unfold logReread; repeat' (first | (with_reducible rfl) | (simp [hx]; done) | split)

@[simp] theorem countSearch_get (s : State) (x : Part)
    (hx : x ∉ [Part.idx]) : (countSearch s).get x = s.get x := by
  simp only [List.mem_cons, List.not_mem_nil, or_false, not_or] at hx
  unfold countSearch; repeat' (first | (with_reducible rfl) | (simp [hx]; done) | split)

@[simp] theorem moveEntry_get (tb : Nat) (a : Nat) (b : Nat) (s : State) (x : Part)
    (hx : x ∉ [Part.idx]) : (moveEntry tb a b s).get x = s.get x := by
  simp only [List.mem_cons, List.not_mem_nil, or_false, not_or] at hx
  unfold moveEntry; repeat' (first | (with_reducible rfl) | (simp [hx]; done) | split)

@[simp] theorem freeCursors_get (f : Cursor → Bool) (s : State) (x : Part)
    (hx : x ∉ [Part.idx]) : (freeCursors f s).get x = s.get x := by
  simp only [List.mem_cons, List.not_mem_nil, or_false, not_or] at hx
  unfold freeCursors; repeat' (first | (with_reducible rfl) | (simp [hx]; done) | split)

@[simp] theorem emptyTable_get (tb : Nat) (s : State) (x : Part)
    (hx : x ∉ [Part.idx]) : (emptyTable tb s).get x = s.get x := by
  simp only [List.mem_cons, List.not_mem_nil, or_false, not_or] at hx
  unfold emptyTable; repeat' (first | (with_reducible rfl) | (simp [hx]; done) | split)

@[simp] theorem deleteTable_get (tb : Nat) (s : State) (x : Part)
    (hx : x ∉ [Part.idx]) : (deleteTable tb s).get x = s.get x := by
  simp only [List.mem_cons, List.not_mem_nil, or_false, not_or] at hx
  unfold deleteTable; repeat' (first | (with_reducible rfl) | (simp [hx]; done) | split)

@[simp] theorem settleTable_get (s : State) (x : Part)
    (hx : x ∉ [Part.idx]) : (settleTable s).get x = s.get x := by
  simp only [List.mem_cons, List.not_mem_nil, or_false, not_or] at hx
  unfold settleTable; repeat' (first | (with_reducible rfl) | (simp [hx]; done) | split)

@[simp] theorem commitCursors_get (k : Nat) (result : Bool) (s : State) (x : Part)
    (hx : x ∉ [Part.idx]) : (commitCursors k result s).get x = s.get x := by
  simp only [List.mem_cons, List.not_mem_nil, or_false, not_or] at hx
  unfold commitCursors; repeat' (first | (with_reducible rfl) | (simp [hx]; done) | split)

@[simp] theorem freeCursor_get (c : Nat) (s : State) (x : Part)
    (hx : x ∉ [Part.idx]) : (freeCursor c s).get x = s.get x := by
  simp only [List.mem_cons, List.not_mem_nil, or_false, not_or] at hx
  unfold freeCursor; repeat' (first | (with_reducible rfl) | (simp [hx]; done) | split)

@[simp] theorem putEntry_get (i : Nat) (e : IEntry) (s : State) (x : Part)
    (hx : x ∉ [Part.idx]) : (putEntry i e s).get x = s.get x := by
  simp only [List.mem_cons, List.not_mem_nil, or_false, not_or] at hx
  unfold putEntry; repeat' (first | (with_reducible rfl) | (simp [hx]; done) | split)

@[simp] theorem moveDown_get (tb : Nat) (a1 : Nat) (a2 : Nat) (a3 : State) (x : Part)
    (hx : x ∉ [Part.idx]) : (moveDown tb a1 a2 a3).get x = a3.get x := by
  simp only [List.mem_cons, List.not_mem_nil, or_false, not_or] at hx
  induction a1 generalizing a2 a3 with
  | zero => rfl
  | succ n ih =>
    unfold moveDown; repeat' (first | (with_reducible rfl) | (simp [ih, hx]; done) | (simp (zetaDelta := true) [ih, hx]; done) | extract_lets | split)

@[simp] theorem indexRepair_get (err : Bool) (s : State) (x : Part)
    (hx : x ∉ [Part.idx]) : (indexRepair err s).get x = s.get x := by
  simp only [List.mem_cons, List.not_mem_nil, or_false, not_or] at hx
  unfold indexRepair; repeat' (first | (with_reducible rfl) | (simp [hx]; done) | split)

@[simp] theorem reserveCursor_get (n : Nat) (s : State) (x : Part)
    (hx : x ∉ [Part.idx]) : (reserveCursor n s).2.get x = s.get x := by
  simp only [List.mem_cons, List.not_mem_nil, or_false, not_or] at hx
  unfold reserveCursor; repeat' (first | (with_reducible rfl) | (simp [hx]; done) | (simp (zetaDelta := true) [hx]; done) | extract_lets | split)

@[simp] theorem takeCursor_get (n : Nat) (tb : Nat) (key : Nat) (m : Nat × Nat) (k : Nat) (s : State) (x : Part)
    (hx : x ∉ [Part.idx]) : (takeCursor n tb key m k s).2.get x = s.get x := by
  simp only [List.mem_cons, List.not_mem_nil, or_false, not_or] at hx
  unfold takeCursor; repeat' (first | (with_reducible rfl) | (simp [hx]; done) | split)

@[simp] theorem dropWorkers_get (k : Nat) (s : State) (x : Part)
    (hx : x ∉ [Part.dmz]) : (dropWorkers k s).get x = s.get x := by
  simp only [List.mem_cons, List.not_mem_nil, or_false, not_or] at hx
  unfold dropWorkers; repeat' (first | (with_reducible rfl) | (simp [hx]; done) | split)

@[simp] theorem endScan_get (n : Nat) (p : List Byte) (k : Nat) (c : ScanSet) (i : ScanIn) (sess : Option (Nat × Seal)) (s : State) (x : Part)
    (hx : x ∉ [Part.mgr, Part.bsh, Part.sec, Part.dmz, Part.idx, Part.tags, Part.locks, Part.units, Part.hostMem, Part.fresh]) : (endScan n p k c i sess s).get x = s.get x := by
  simp only [List.mem_cons, List.not_mem_nil, or_false, not_or] at hx
  unfold endScan; repeat' (first | (with_reducible rfl) | (simp [hx]; done) | split)

@[simp] theorem countHostRead_get (n : Nat) (s : State) (x : Part)
    (hx : x ∉ [Part.flc]) : (countHostRead n s).get x = s.get x := by
  simp only [List.mem_cons, List.not_mem_nil, or_false, not_or] at hx
  unfold countHostRead; repeat' (first | (with_reducible rfl) | (simp [hx]; done) | split)

@[simp] theorem verifyDone_get (lost : List Nat) (crcFail : List Nat) (p : List Byte) (k : Nat) (s : State) (x : Part)
    (hx : x ∉ [Part.flc, Part.tags, Part.locks, Part.units]) : (verifyDone lost crcFail p k s).get x = s.get x := by
  simp only [List.mem_cons, List.not_mem_nil, or_false, not_or] at hx
  unfold verifyDone
  cases vol? s (pkVolume p) with
  | none => rfl
  | some u =>
    dsimp only
    generalize failingBlocks _ _ _ _ _ = bad
    cases bad <;> simp [hx]

@[simp] theorem deliverBlocks_get (n : Nat) (p : List Byte) (u : Vol) (lba : Nat) (len : Nat) (bad : List Nat) (s : State) (x : Part)
    (hx : x ∉ [Part.mgr, Part.hostMem, Part.fresh]) : (deliverBlocks n p u lba len bad s).get x = s.get x := by
  simp only [List.mem_cons, List.not_mem_nil, or_false, not_or] at hx
  unfold deliverBlocks; repeat' (first | (with_reducible rfl) | (simp [hx]; done) | split)

@[simp] theorem countHostWritten_get (n : Nat) (s : State) (x : Part)
    (hx : x ∉ [Part.flc]) : (countHostWritten n s).get x = s.get x := by
  simp only [List.mem_cons, List.not_mem_nil, or_false, not_or] at hx
  unfold countHostWritten; repeat' (first | (with_reducible rfl) | (simp [hx]; done) | split)

@[simp] theorem holdBytes_get (n : Nat) (s : State) (x : Part)
    (hx : x ∉ [Part.flc]) : (holdBytes n s).get x = s.get x := by
  simp only [List.mem_cons, List.not_mem_nil, or_false, not_or] at hx
  unfold holdBytes; repeat' (first | (with_reducible rfl) | (simp [hx]; done) | split)

@[simp] theorem writeEnds_get (held : Bool) (k : Nat) (status : Nat) (len : Nat) (done : Nat) (stored : Nat) (ids : List Nat) (s : State) (x : Part)
    (hx : x ∉ [Part.flc, Part.spn, Part.tags, Part.locks, Part.units]) : (writeEnds held k status len done stored ids s).get x = s.get x := by
  simp only [List.mem_cons, List.not_mem_nil, or_false, not_or] at hx
  unfold writeEnds; repeat' (first | (with_reducible rfl) | (simp [hx]; done) | split)

@[simp] theorem trimDone_get (n : Nat) (status : Nat) (units : Nat) (p : List Byte) (k : Nat) (s : State) (x : Part)
    (hx : x ∉ [Part.bsh, Part.flc, Part.spn, Part.tags, Part.locks, Part.units, Part.fresh]) : (trimDone n status units p k s).get x = s.get x := by
  simp only [List.mem_cons, List.not_mem_nil, or_false, not_or] at hx
  unfold trimDone; repeat' (first | (with_reducible rfl) | (simp [hx]; done) | split)

@[simp] theorem writeDone_get (n : Nat) (status : Nat) (units : Nat) (p : List Byte) (k : Nat) (s : State) (x : Part)
    (hx : x ∉ [Part.bsh, Part.flc, Part.spn, Part.tags, Part.locks, Part.units, Part.fresh]) : (writeDone n status units p k s).get x = s.get x := by
  simp only [List.mem_cons, List.not_mem_nil, or_false, not_or] at hx
  unfold writeDone; repeat' (first | (with_reducible rfl) | (simp [hx]; done) | split)

@[simp] theorem readDone_get (n : Nat) (lost : List Nat) (crcFail : List Nat) (p : List Byte) (k : Nat) (s : State) (x : Part)
    (hx : x ∉ [Part.mgr, Part.flc, Part.tags, Part.locks, Part.units, Part.hostMem, Part.fresh]) : (readDone n lost crcFail p k s).get x = s.get x := by
  simp only [List.mem_cons, List.not_mem_nil, or_false, not_or] at hx
  unfold readDone
  cases vol? s (pkVolume p) with
  | none => rfl
  | some u =>
    dsimp only
    generalize failingBlocks _ _ _ _ _ = bad
    cases bad <;> simp [hx]

@[simp] theorem freeProgram_get (slot : Nat) (s : State) (x : Part)
    (hx : x ∉ [Part.dmz]) : (freeProgram slot s).get x = s.get x := by
  simp only [List.mem_cons, List.not_mem_nil, or_false, not_or] at hx
  unfold freeProgram; repeat' (first | (with_reducible rfl) | (simp [hx]; done) | split)

@[simp] theorem logRereads_get (n : Nat) (v : Nat) (lba : Nat) (o : Opened) (again : List Nat) (failed : Option Nat) (s : State) (x : Part)
    (hx : x ∉ [Part.glb, Part.flc]) : (logRereads n v lba o again failed s).get x = s.get x := by
  simp only [List.mem_cons, List.not_mem_nil, or_false, not_or] at hx
  unfold logRereads; repeat' (first | (with_reducible rfl) | (simp [hx]; done) | split)

@[simp] theorem scanDone.packageScan_get (rd : Reader) (n : Nat) (p : List Byte) (k : Nat) (c : ScanSet) (o : Opened) (sess : Option (Nat × Seal)) (slot : Nat) (first : Nat) (count : Nat) (crcFail : List Nat) (again : List Nat) (s : State) (x : Part)
    (hx : x ∉ [Part.glb, Part.mgr, Part.bsh, Part.sec, Part.dmz, Part.idx, Part.flc, Part.tags, Part.locks, Part.units, Part.hostMem, Part.fresh]) : (scanDone.packageScan rd n p k c o sess slot first count crcFail again s).get x = s.get x := by
  simp only [List.mem_cons, List.not_mem_nil, or_false, not_or] at hx
  unfold scanDone.packageScan; repeat' (first | (with_reducible rfl) | (simp [hx]; done) | split)

@[simp] theorem scanDone_get (rd : Reader) (n : Nat) (crcFail : List Nat) (again : List Nat) (p : List Byte) (k : Nat) (s : State) (x : Part)
    (hx : x ∉ [Part.glb, Part.mgr, Part.bsh, Part.sec, Part.dmz, Part.idx, Part.flc, Part.tags, Part.locks, Part.units, Part.hostMem, Part.fresh]) : (scanDone rd n crcFail again p k s).get x = s.get x := by
  simp only [List.mem_cons, List.not_mem_nil, or_false, not_or] at hx
  unfold scanDone; repeat' (first | (with_reducible rfl) | (simp [hx]; done) | (simp (zetaDelta := true) [hx]; done) | extract_lets | split)

@[simp] theorem settleProgram_get (slot : Nat) (s : State) (x : Part)
    (hx : x ∉ [Part.dmz, Part.tags, Part.locks, Part.units]) : (settleProgram slot s).get x = s.get x := by
  simp only [List.mem_cons, List.not_mem_nil, or_false, not_or] at hx
  unfold settleProgram; repeat' (first | (with_reducible rfl) | (simp [hx]; done) | split)

@[simp] theorem deliverChunks_get (rd : Reader) (n : Nat) (p : List Byte) (k : Nat) (slot : Nat) (first : Nat) (count : Nat) (o : Opened) (sess : Option (Nat × Seal)) (crcFail : List Nat) (again : List Nat) (s : State) (x : Part)
    (hx : x ∉ [Part.glb, Part.mgr, Part.bsh, Part.sec, Part.idx, Part.flc, Part.tags, Part.locks, Part.units, Part.hostMem, Part.fresh]) : (deliverChunks rd n p k slot first count o sess crcFail again s).get x = s.get x := by
  simp only [List.mem_cons, List.not_mem_nil, or_false, not_or] at hx
  unfold deliverChunks; repeat' (first | (with_reducible rfl) | (simp [hx]; done) | split)

@[simp] theorem assetDone_get (rd : Reader) (n : Nat) (crcFail : List Nat) (again : List Nat) (p : List Byte) (k : Nat) (s : State) (x : Part)
    (hx : x ∉ [Part.glb, Part.mgr, Part.bsh, Part.sec, Part.dmz, Part.idx, Part.flc, Part.tags, Part.locks, Part.units, Part.hostMem, Part.fresh]) : (assetDone rd n crcFail again p k s).get x = s.get x := by
  simp only [List.mem_cons, List.not_mem_nil, or_false, not_or] at hx
  unfold assetDone
  dsimp only
  generalize filterProgram s n (field p 48 4) = prog
  generalize filterTable s n (field p 48 4) = tab
  generalize packageChecks _ _ _ _ _ _ _ _ _ _ _ = r
  cases r with
  | error y => simp [hx]
  | ok y =>
    obtain ⟨o, sess⟩ := y
    cases prog <;> cases tab <;> (simp [hx]; try (split <;> simp [hx]))

@[simp] theorem installWrite_get (n : Nat) (status : Nat) (units : Nat) (off : Nat) (count : Nat) (r : List Byte) (p : List Byte) (k : Nat) (s : State) (x : Part)
    (hx : x ∉ [Part.flc, Part.spn, Part.tags, Part.locks, Part.units, Part.fresh]) : (installWrite n status units off count r p k s).get x = s.get x := by
  simp only [List.mem_cons, List.not_mem_nil, or_false, not_or] at hx
  unfold installWrite; repeat' (first | (with_reducible rfl) | (simp [hx]; done) | split)

@[simp] theorem installDone_get (n : Nat) (status : Nat) (units : Nat) (lost : List Nat) (p : List Byte) (k : Nat) (s : State) (x : Part)
    (hx : x ∉ [Part.bsh, Part.sec, Part.flc, Part.spn, Part.tags, Part.locks, Part.units, Part.fresh]) : (installDone n status units lost p k s).get x = s.get x := by
  simp only [List.mem_cons, List.not_mem_nil, or_false, not_or] at hx
  unfold installDone; repeat' (first | (with_reducible rfl) | (simp [hx]; done) | (simp (zetaDelta := true) [hx]; done) | extract_lets | split)

@[simp] theorem programUnload_get (p : List Byte) (k : Nat) (s : State) (x : Part)
    (hx : x ∉ [Part.dmz, Part.tags, Part.locks, Part.units]) : (programUnload p k s).get x = s.get x := by
  simp only [List.mem_cons, List.not_mem_nil, or_false, not_or] at hx
  unfold programUnload; repeat' (first | (with_reducible rfl) | (simp [hx]; done) | split)

@[simp] theorem storeProgram_get (n : Nat) (slot : Nat) (c : List Byte) (s : State) (x : Part)
    (hx : x ∉ [Part.dmz]) : (storeProgram n slot c s).get x = s.get x := by
  simp only [List.mem_cons, List.not_mem_nil, or_false, not_or] at hx
  unfold storeProgram; repeat' (first | (with_reducible rfl) | (simp [hx]; done) | split)

@[simp] theorem programLoad_get (n : Nat) (p : List Byte) (k : Nat) (s : State) (x : Part)
    (hx : x ∉ [Part.sec, Part.dmz, Part.tags, Part.locks, Part.units]) : (programLoad n p k s).get x = s.get x := by
  simp only [List.mem_cons, List.not_mem_nil, or_false, not_or] at hx
  unfold programLoad; repeat' (first | (with_reducible rfl) | (simp [hx]; done) | (simp (zetaDelta := true) [hx]; done) | extract_lets | split)

@[simp] theorem saveDone_get (n : Nat) (p : List Byte) (k : Nat) (s : State) (x : Part)
    (hx : x ∉ [Part.mgr, Part.tags, Part.locks, Part.units, Part.hostMem]) : (saveDone n p k s).get x = s.get x := by
  simp only [List.mem_cons, List.not_mem_nil, or_false, not_or] at hx
  unfold saveDone; repeat' (first | (with_reducible rfl) | (simp [hx]; done) | split)

@[simp] theorem putCtx_get (n : Nat) (c : Nat) (y : Option Ctx) (s : State) (x : Part)
    (hx : x ∉ [Part.bsh]) : (putCtx n c y s).get x = s.get x := by
  simp only [List.mem_cons, List.not_mem_nil, or_false, not_or] at hx
  unfold putCtx; repeat' (first | (with_reducible rfl) | (simp [hx]; done) | split)

@[simp] theorem codecCount_get (st : Nat) (s : State) (x : Part)
    (hx : x ∉ [Part.bsh]) : (codecCount st s).get x = s.get x := by
  simp only [List.mem_cons, List.not_mem_nil, or_false, not_or] at hx
  unfold codecCount; repeat' (first | (with_reducible rfl) | (simp [hx]; done) | split)

@[simp] theorem codecFails_get (n : Nat) (c : Nat) (k : Nat) (st : Nat) (r0 : Nat) (r1 : Nat) (s : State) (x : Part)
    (hx : x ∉ [Part.bsh, Part.tags, Part.locks, Part.units]) : (codecFails n c k st r0 r1 s).get x = s.get x := by
  simp only [List.mem_cons, List.not_mem_nil, or_false, not_or] at hx
  unfold codecFails; repeat' (first | (with_reducible rfl) | (simp [hx]; done) | split)

@[simp] theorem restoreDone_get (n : Nat) (p : List Byte) (k : Nat) (s : State) (x : Part)
    (hx : x ∉ [Part.bsh, Part.tags, Part.locks, Part.units]) : (restoreDone n p k s).get x = s.get x := by
  simp only [List.mem_cons, List.not_mem_nil, or_false, not_or] at hx
  unfold restoreDone; repeat' (first | (with_reducible rfl) | (simp [hx]; done) | (simp (zetaDelta := true) [hx]; done) | extract_lets | split)

@[simp] theorem codecOutput_get (n : Nat) (addr : Nat) (outLen : Nat) (out : List Byte) (rest : Bool) (s : State) (x : Part)
    (hx : x ∉ [Part.mgr, Part.hostMem, Part.fresh]) : (codecOutput n addr outLen out rest s).get x = s.get x := by
  simp only [List.mem_cons, List.not_mem_nil, or_false, not_or] at hx
  unfold codecOutput; repeat' (first | (with_reducible rfl) | (simp [hx]; done) | split)

@[simp] theorem setContexts_get (n : Nat) (v : Nat) (s : State) (x : Part)
    (hx : x ∉ [Part.bsh, Part.insts]) : (setContexts n v s).get x = s.get x := by
  simp only [List.mem_cons, List.not_mem_nil, or_false, not_or] at hx
  unfold setContexts; repeat' (first | (with_reducible rfl) | (simp [hx]; done) | split)

@[simp] theorem codecRun_get (n : Nat) (ends : Bool) (y : Ctx) (p : List Byte) (k : Nat) (s : State) (x : Part)
    (hx : x ∉ [Part.mgr, Part.bsh, Part.tags, Part.locks, Part.units, Part.hostMem, Part.fresh]) : (codecRun n ends y p k s).get x = s.get x := by
  simp only [List.mem_cons, List.not_mem_nil, or_false, not_or] at hx
  unfold codecRun; repeat' (first | (with_reducible rfl) | (simp [hx]; done) | split)

@[simp] theorem codecDone_get (n : Nat) (p : List Byte) (k : Nat) (s : State) (x : Part)
    (hx : x ∉ [Part.mgr, Part.bsh, Part.tags, Part.locks, Part.units, Part.hostMem, Part.fresh]) : (codecDone n p k s).get x = s.get x := by
  simp only [List.mem_cons, List.not_mem_nil, or_false, not_or] at hx
  unfold codecDone; repeat' (first | (with_reducible rfl) | (simp [hx]; done) | split)

@[simp] theorem resumeDone_get (n : Nat) (p : List Byte) (k : Nat) (s : State) (x : Part)
    (hx : x ∉ [Part.mgr, Part.bsh, Part.tags, Part.locks, Part.units, Part.hostMem, Part.fresh]) : (resumeDone n p k s).get x = s.get x := by
  simp only [List.mem_cons, List.not_mem_nil, or_false, not_or] at hx
  unfold resumeDone; repeat' (first | (with_reducible rfl) | (simp [hx]; done) | split)

@[simp] theorem memberReturns_get (id : Nat) (s : State) (x : Part)
    (hx : x ∉ [Part.flc]) : (memberReturns id s).get x = s.get x := by
  simp only [List.mem_cons, List.not_mem_nil, or_false, not_or] at hx
  unfold memberReturns; repeat' (first | (with_reducible rfl) | (simp [hx]; done) | split)

@[simp] theorem recordMember_get (f : Flit) (s : State) (x : Part)
    (hx : x ∉ [Part.flc, Part.spn]) : (recordMember f s).get x = s.get x := by
  simp only [List.mem_cons, List.not_mem_nil, or_false, not_or] at hx
  unfold recordMember; repeat' (first | (with_reducible rfl) | (simp [hx]; done) | split)

@[simp] theorem rerouteRetry_get (p : Nat) (s : State) (x : Part)
    (hx : x ∉ [Part.spn]) : (rerouteRetry p s).get x = s.get x := by
  simp only [List.mem_cons, List.not_mem_nil, or_false, not_or] at hx
  unfold rerouteRetry; repeat' (first | (with_reducible rfl) | (simp [hx]; done) | split)

@[simp] theorem portDown_get (p : Nat) (s : State) (x : Part)
    (hx : x ∉ [Part.spn, Part.insts]) : (portDown p s).get x = s.get x := by
  simp only [List.mem_cons, List.not_mem_nil, or_false, not_or] at hx
  unfold portDown; repeat' (first | (with_reducible rfl) | (simp [hx]; done) | split)

@[simp] theorem joinConflict_get (s : State) (x : Part)
    (hx : x ∉ [Part.spn, Part.tags, Part.locks, Part.insts, Part.units]) : (joinConflict s).get x = s.get x := by
  simp only [List.mem_cons, List.not_mem_nil, or_false, not_or] at hx
  unfold joinConflict; repeat' (first | (with_reducible rfl) | (simp [hx]; done) | (simp (zetaDelta := true) [hx]; done) | extract_lets | split)

@[simp] theorem copyOut_get (v : Nat) (id : Nat) (s : State) (x : Part)
    (hx : x ∉ [Part.flc, Part.spn, Part.tags, Part.insts]) : (copyOut v id s).get x = s.get x := by
  simp only [List.mem_cons, List.not_mem_nil, or_false, not_or] at hx
  unfold copyOut; repeat' (first | (with_reducible rfl) | (simp [hx]; done) | split)

@[simp] theorem memberGone_get (id : Nat) (s : State) (x : Part)
    (hx : x ∉ [Part.flc, Part.spn, Part.tags, Part.insts]) : (memberGone id s).get x = s.get x := by
  simp only [List.mem_cons, List.not_mem_nil, or_false, not_or] at hx
  unfold memberGone; repeat' (first | (with_reducible rfl) | (simp [hx]; done) | split)

@[simp] theorem takeAnnounce_get (p : Nat) (f : Flit) (s : State) (x : Part)
    (hx : x ∉ [Part.flc, Part.spn, Part.tags, Part.locks, Part.insts, Part.units]) : (takeAnnounce p f s).get x = s.get x := by
  simp only [List.mem_cons, List.not_mem_nil, or_false, not_or] at hx
  unfold takeAnnounce; repeat' (first | (with_reducible rfl) | (simp [hx]; done) | split)

@[simp] theorem takeHello_get (p : Nat) (f : Flit) (s : State) (x : Part)
    (hx : x ∉ [Part.glb, Part.flc, Part.spn, Part.tags, Part.locks, Part.insts, Part.units, Part.fresh]) : (takeHello p f s).get x = s.get x := by
  simp only [List.mem_cons, List.not_mem_nil, or_false, not_or] at hx
  unfold takeHello; repeat' (first | (with_reducible rfl) | (simp [hx]; done) | split)

@[simp] theorem takeArrived_get (p : Nat) (type : Nat) (s : State) (x : Part)
    (hx : x ∉ [Part.spn]) : (takeArrived p type s).get x = s.get x := by
  simp only [List.mem_cons, List.not_mem_nil, or_false, not_or] at hx
  unfold takeArrived; repeat' (first | (with_reducible rfl) | (simp [hx]; done) | split)

@[simp] theorem startTraining_get (p : Nat) (s : State) (x : Part)
    (hx : x ∉ [Part.spn, Part.insts]) : (startTraining p s).get x = s.get x := by
  simp only [List.mem_cons, List.not_mem_nil, or_false, not_or] at hx
  unfold startTraining; repeat' (first | (with_reducible rfl) | (simp [hx]; done) | split)

@[simp] theorem discardFlit_get (p : Nat) (crcBad : Bool) (s : State) (x : Part)
    (hx : x ∉ [Part.spn]) : (discardFlit p crcBad s).get x = s.get x := by
  simp only [List.mem_cons, List.not_mem_nil, or_false, not_or] at hx
  unfold discardFlit; repeat' (first | (with_reducible rfl) | (simp [hx]; done) | split)

@[simp] theorem handFlit_get (p : Nat) (f : Flit) (s : State) (x : Part)
    (hx : x ∉ [Part.spn]) : (handFlit p f s).get x = s.get x := by
  simp only [List.mem_cons, List.not_mem_nil, or_false, not_or] at hx
  unfold handFlit; repeat' (first | (with_reducible rfl) | (simp [hx]; done) | split)

@[simp] theorem takeLack_get (p : Nat) (f : Flit) (s : State) (x : Part)
    (hx : x ∉ [Part.spn]) : (takeLack p f s).get x = s.get x := by
  simp only [List.mem_cons, List.not_mem_nil, or_false, not_or] at hx
  unfold takeLack; repeat' (first | (with_reducible rfl) | (simp [hx]; done) | split)

@[simp] theorem acceptFlit_get (p : Nat) (f : Flit) (s : State) (x : Part)
    (hx : x ∉ [Part.spn]) : (acceptFlit p f s).get x = s.get x := by
  simp only [List.mem_cons, List.not_mem_nil, or_false, not_or] at hx
  unfold acceptFlit; repeat' (first | (with_reducible rfl) | (simp [hx]; done) | split)

@[simp] theorem receive_get (p : Nat) (bs : List Byte) (s : State) (x : Part)
    (hx : x ∉ [Part.spn]) : (receive p bs s).get x = s.get x := by
  simp only [List.mem_cons, List.not_mem_nil, or_false, not_or] at hx
  unfold receive; repeat' (first | (with_reducible rfl) | (simp [hx]; done) | split)

@[simp] theorem resendAll_get (p : Nat) (s : State) (x : Part)
    (hx : x ∉ [Part.spn]) : (resendAll p s).get x = s.get x := by
  simp only [List.mem_cons, List.not_mem_nil, or_false, not_or] at hx
  unfold resendAll; repeat' (first | (with_reducible rfl) | (simp [hx]; done) | split)

end Sys2Proof.Machine
end

