-- ==== Sys2Proof/Laws/FrameUnits.lean ====
section
/-! SUPPORT. What the operations of the units: flash wear, spans, mirrors, resets, memories, availability, supply and heat leave as it is: every part of the state that the
operation and those it calls do not write. One lemma for each operation. -/

set_option linter.all false

namespace Sys2Proof.Machine

@[simp] theorem modChan_get (c : Nat) (f : Chan → Chan) (s : State) (x : Part)
    (hx : x ∉ [Part.flc]) : (modChan c f s).get x = s.get x := by
  simp only [List.mem_cons, List.not_mem_nil, or_false, not_or] at hx
  unfold modChan; repeat' (first | (with_reducible rfl) | (simp [hx]; done) | split)

@[simp] theorem modDie_get (d : Nat) (f : Die → Die) (s : State) (x : Part)
    (hx : x ∉ [Part.flc]) : (modDie d f s).get x = s.get x := by
  simp only [List.mem_cons, List.not_mem_nil, or_false, not_or] at hx
  unfold modDie; repeat' (first | (with_reducible rfl) | (simp [hx]; done) | split)

@[simp] theorem warnOnce_get (b : Nat) (kind : Nat) (a : Nat) (due : Bool) (s : State) (x : Part)
    (hx : x ∉ [Part.flc, Part.insts]) : (warnOnce b kind a due s).get x = s.get x := by
  simp only [List.mem_cons, List.not_mem_nil, or_false, not_or] at hx
  unfold warnOnce; repeat' (first | (with_reducible rfl) | (simp [hx]; done) | split)

@[simp] theorem settleWarnings_get (s : State) (x : Part)
    (hx : x ∉ [Part.flc, Part.insts]) : (settleWarnings s).get x = s.get x := by
  simp only [List.mem_cons, List.not_mem_nil, or_false, not_or] at hx
  unfold settleWarnings; repeat' (first | (with_reducible rfl) | (simp [hx]; done) | split)

@[simp] theorem stopEvacuations_get (s : State) (x : Part)
    (hx : x ∉ [Part.flc]) : (stopEvacuations s).get x = s.get x := by
  simp only [List.mem_cons, List.not_mem_nil, or_false, not_or] at hx
  unfold stopEvacuations; repeat' (first | (with_reducible rfl) | (simp [hx]; done) | split)

@[simp] theorem settleReadOnly_get (s : State) (x : Part)
    (hx : x ∉ [Part.flc, Part.insts]) : (settleReadOnly s).get x = s.get x := by
  simp only [List.mem_cons, List.not_mem_nil, or_false, not_or] at hx
  unfold settleReadOnly; repeat' (first | (with_reducible rfl) | (simp [hx]; done) | split)

@[simp] theorem retireDie_get (d : Nat) (s : State) (x : Part)
    (hx : x ∉ [Part.glb, Part.pwr, Part.flc, Part.insts]) : (retireDie d s).get x = s.get x := by
  simp only [List.mem_cons, List.not_mem_nil, or_false, not_or] at hx
  unfold retireDie; repeat' (first | (with_reducible rfl) | (simp [hx]; done) | split)

@[simp] theorem retireBlock_get (d : Nat) (b : Nat) (reason : Nat) (s : State) (x : Part)
    (hx : x ∉ [Part.glb, Part.pwr, Part.flc, Part.insts]) : (retireBlock d b reason s).get x = s.get x := by
  simp only [List.mem_cons, List.not_mem_nil, or_false, not_or] at hx
  unfold retireBlock; repeat' (first | (with_reducible rfl) | (simp [hx]; done) | split)

@[simp] theorem modSb_get (n : Nat) (f : Superblock → Superblock) (s : State) (x : Part)
    (hx : x ∉ [Part.flc]) : (modSb n f s).get x = s.get x := by
  simp only [List.mem_cons, List.not_mem_nil, or_false, not_or] at hx
  unfold modSb; repeat' (first | (with_reducible rfl) | (simp [hx]; done) | split)

@[simp] theorem skipRef_get (n : Nat) (vol : Nat) (allot : Nat) (s : State) (x : Part)
    (hx : x ∉ [Part.flc]) : (skipRef n vol allot s).get x = s.get x := by
  simp only [List.mem_cons, List.not_mem_nil, or_false, not_or] at hx
  unfold skipRef; repeat' (first | (with_reducible rfl) | (simp [hx]; done) | split)

@[simp] theorem eraseWhole_get (n : Nat) (times : Nat) (s : State) (x : Part)
    (hx : x ∉ [Part.flc, Part.insts]) : (eraseWhole n times s).get x = s.get x := by
  simp only [List.mem_cons, List.not_mem_nil, or_false, not_or] at hx
  unfold eraseWhole; repeat' (first | (with_reducible rfl) | (simp [hx]; done) | split)

@[simp] theorem countCodeWords_get (d : Nat) (b : Nat) (cws : List Nat) (offset : Nat) (s : State) (x : Part)
    (hx : x ∉ [Part.flc]) : (countCodeWords d b cws offset s).get x = s.get x := by
  simp only [List.mem_cons, List.not_mem_nil, or_false, not_or] at hx
  unfold countCodeWords; repeat' (first | (with_reducible rfl) | (simp [hx]; done) | split)

@[simp] theorem markRefresh_get (d : Nat) (b : Nat) (due : Bool) (s : State) (x : Part)
    (hx : x ∉ [Part.flc]) : (markRefresh d b due s).get x = s.get x := by
  simp only [List.mem_cons, List.not_mem_nil, or_false, not_or] at hx
  unfold markRefresh; repeat' (first | (with_reducible rfl) | (simp [hx]; done) | split)

@[simp] theorem poisonLost_get (lost : List (Nat × Nat)) (s : State) (x : Part)
    (hx : x ∉ [Part.glb, Part.flc, Part.insts]) : (poisonLost lost s).get x = s.get x := by
  simp only [List.mem_cons, List.not_mem_nil, or_false, not_or] at hx
  unfold poisonLost; refine State.get_foldl _ _ _ _ (fun s p => ?_); repeat' (first | (with_reducible rfl) | (simp [hx]; done) | split)

@[simp] theorem pageRead_get (d : Nat) (b : Nat) (cws : List Nat) (weak : Bool) (offset : Nat) (lost : List (Nat × Nat)) (s : State) (x : Part)
    (hx : x ∉ [Part.glb, Part.pwr, Part.flc, Part.insts]) : (pageRead d b cws weak offset lost s).get x = s.get x := by
  simp only [List.mem_cons, List.not_mem_nil, or_false, not_or] at hx
  unfold pageRead; repeat' (first | (with_reducible rfl) | (simp [hx]; done) | split)

@[simp] theorem countSpanEnd_get (status : Nat) (s : State) (x : Part)
    (hx : x ∉ [Part.spn]) : (countSpanEnd status s).get x = s.get x := by
  simp only [List.mem_cons, List.not_mem_nil, or_false, not_or] at hx
  unfold countSpanEnd; repeat' (first | (with_reducible rfl) | (simp [hx]; done) | split)

@[simp] theorem keyGranted_get (n : Nat) (k : Nat) (l : List Byte) (g : List Byte) (s : State) (x : Part)
    (hx : x ∉ [Part.sec, Part.spn, Part.tags, Part.locks, Part.units]) : (keyGranted n k l g s).get x = s.get x := by
  simp only [List.mem_cons, List.not_mem_nil, or_false, not_or] at hx
  unfold keyGranted; repeat' (first | (with_reducible rfl) | (simp [hx]; done) | split)

@[simp] theorem serveRead_get (key : Nat) (v : Served) (lost : List Nat) (crcFail : List Nat) (u : Vol) (p : List Byte) (s : State) (x : Part)
    (hx : x ∉ [Part.flc, Part.spn, Part.locks, Part.fresh]) : (serveRead key v lost crcFail u p s).get x = s.get x := by
  simp only [List.mem_cons, List.not_mem_nil, or_false, not_or] at hx
  unfold serveRead; repeat' (first | (with_reducible rfl) | (simp [hx]; done) | split)

@[simp] theorem finishRemote_get (k : Nat) (r : Reply) (s : State) (x : Part)
    (hx : x ∉ [Part.spn, Part.tags, Part.locks, Part.units]) : (finishRemote k r s).get x = s.get x := by
  simp only [List.mem_cons, List.not_mem_nil, or_false, not_or] at hx
  unfold finishRemote; repeat' (first | (with_reducible rfl) | (simp [hx]; done) | split)

@[simp] theorem markRemote_get (k : Nat) (s : State) (x : Part)
    (hx : x ∉ [Part.tags]) : (markRemote k s).get x = s.get x := by
  simp only [List.mem_cons, List.not_mem_nil, or_false, not_or] at hx
  unfold markRemote; repeat' (first | (with_reducible rfl) | (simp [hx]; done) | split)

@[simp] theorem installNext_get (n : Nat) (k : Nat) (y : Xact) (q : List Byte) (p : List Byte) (data : List Byte) (r : Reply) (s : State) (x : Part)
    (hx : x ∉ [Part.bsh, Part.sec, Part.spn, Part.tags, Part.locks, Part.units]) : (installNext n k y q p data r s).get x = s.get x := by
  simp only [List.mem_cons, List.not_mem_nil, or_false, not_or] at hx
  unfold installNext; repeat' (first | (with_reducible rfl) | (simp [hx]; done) | (simp (zetaDelta := true) [hx]; done) | extract_lets | split)

@[simp] theorem respDone_get (n : Nat) (k : Nat) (y : Xact) (crcFail : List Nat) (again : List Nat) (t : Tag) (data : List Byte) (r : Reply) (s : State) (x : Part)
    (hx : x ∉ [Part.glb, Part.mgr, Part.bsh, Part.sec, Part.dmz, Part.idx, Part.flc, Part.spn, Part.tags, Part.locks, Part.units, Part.hostMem, Part.fresh]) : (respDone n k y crcFail again t data r s).get x = s.get x := by
  simp only [List.mem_cons, List.not_mem_nil, or_false, not_or] at hx
  unfold respDone; repeat' (first | (with_reducible rfl) | (simp [hx]; done) | split)

@[simp] theorem answerReq_get (origin : Nat) (xid : Nat) (r : Reply) (s : State) (x : Part)
    (hx : x ∉ [Part.spn]) : (answerReq origin xid r s).get x = s.get x := by
  simp only [List.mem_cons, List.not_mem_nil, or_false, not_or] at hx
  unfold answerReq; repeat' (first | (with_reducible rfl) | (simp [hx]; done) | split)

@[simp] theorem admitReq_get (origin : Nat) (xid : Nat) (ps : List (List Byte)) (budget : Nat) (s : State) (x : Part)
    (hx : x ∉ [Part.spn, Part.locks, Part.acceptCount]) : (admitReq origin xid ps budget s).get x = s.get x := by
  simp only [List.mem_cons, List.not_mem_nil, or_false, not_or] at hx
  unfold admitReq; repeat' (first | (with_reducible rfl) | (simp [hx]; done) | (simp (zetaDelta := true) [hx]; done) | extract_lets | split)

@[simp] theorem takeReq_get (origin : Nat) (xid : Nat) (ps : List (List Byte)) (f : Flit) (s : State) (x : Part)
    (hx : x ∉ [Part.spn, Part.locks, Part.acceptCount]) : (takeReq origin xid ps f s).get x = s.get x := by
  simp only [List.mem_cons, List.not_mem_nil, or_false, not_or] at hx
  unfold takeReq; repeat' (first | (with_reducible rfl) | (simp [hx]; done) | (simp (zetaDelta := true) [hx]; done) | extract_lets | split)

@[simp] theorem serveWaits_get (key : Nat) (status : Nat) (done : Nat) (len : Nat) (r0 : Nat) (stored : Nat) (ids : List Nat) (s : State) (x : Part)
    (hx : x ∉ [Part.flc, Part.spn, Part.locks]) : (serveWaits key status done len r0 stored ids s).get x = s.get x := by
  simp only [List.mem_cons, List.not_mem_nil, or_false, not_or] at hx
  unfold serveWaits; repeat' (first | (with_reducible rfl) | (simp [hx]; done) | split)

@[simp] theorem serveWrite_get (key : Nat) (v : Served) (outcome : Fin 3) (units : Nat) (u : Vol) (p : List Byte) (s : State) (x : Part)
    (hx : x ∉ [Part.bsh, Part.flc, Part.spn, Part.locks, Part.fresh]) : (serveWrite key v outcome units u p s).get x = s.get x := by
  simp only [List.mem_cons, List.not_mem_nil, or_false, not_or] at hx
  unfold serveWrite; repeat' (first | (with_reducible rfl) | (simp [hx]; done) | (simp (zetaDelta := true) [hx, apply_ite Prod.fst]; done) | extract_lets | split)

@[simp] theorem serveReq_get (key : Nat) (v : Served) (lost : List Nat) (crcFail : List Nat) (outcome : Fin 3) (units : Nat) (s : State) (x : Part)
    (hx : x ∉ [Part.bsh, Part.flc, Part.spn, Part.locks, Part.fresh]) : (serveReq key v lost crcFail outcome units s).get x = s.get x := by
  simp only [List.mem_cons, List.not_mem_nil, or_false, not_or] at hx
  unfold serveReq; repeat' (first | (with_reducible rfl) | (simp [hx]; done) | (simp (zetaDelta := true) [hx]; done) | extract_lets | split)

@[simp] theorem endServed_get (key : Nat) (v : Served) (status : Nat) (s : State) (x : Part)
    (hx : x ∉ [Part.spn, Part.locks]) : (endServed key v status s).get x = s.get x := by
  simp only [List.mem_cons, List.not_mem_nil, or_false, not_or] at hx
  unfold endServed; repeat' (first | (with_reducible rfl) | (simp [hx]; done) | split)

@[simp] theorem keyRequest_get (origin : Nat) (xid : Nat) (bs : List Byte) (s : State) (x : Part)
    (hx : x ∉ [Part.sec, Part.spn, Part.fresh]) : (keyRequest origin xid bs s).get x = s.get x := by
  simp only [List.mem_cons, List.not_mem_nil, or_false, not_or] at hx
  unfold keyRequest; repeat' (first | (with_reducible rfl) | (simp [hx]; done) | (simp (zetaDelta := true) [hx]; done) | extract_lets | split)

@[simp] theorem leaveSpan_get (k : Nat) (s : State) (x : Part)
    (hx : x ∉ [Part.bsh, Part.sec, Part.spn, Part.tags, Part.locks, Part.insts, Part.units]) : (leaveSpan k s).get x = s.get x := by
  simp only [List.mem_cons, List.not_mem_nil, or_false, not_or] at hx
  unfold leaveSpan; repeat' (first | (with_reducible rfl) | (simp [hx]; done) | split)

@[simp] theorem ctlSend_get (k : Nat) (v : Nat) (kind : Nat) (cap : Nat) (copies : Nat) (id1 : Nat) (id2 : Nat) (s : State) (c : Nat) (x : Part)
    (hx : x ∉ [Part.spn]) : (ctlSend k v kind cap copies id1 id2 s c).get x = s.get x := by
  simp only [List.mem_cons, List.not_mem_nil, or_false, not_or] at hx
  unfold ctlSend; repeat' (first | (with_reducible rfl) | (simp [hx]; done) | split)

@[simp] theorem mirrorSetEnds_get (k : Nat) (s : State) (x : Part)
    (hx : x ∉ [Part.flc, Part.spn, Part.tags, Part.locks, Part.units]) : (mirrorSetEnds k s).get x = s.get x := by
  simp only [List.mem_cons, List.not_mem_nil, or_false, not_or] at hx
  unfold mirrorSetEnds; repeat' (first | (with_reducible rfl) | (simp [hx]; done) | (simp (zetaDelta := true) [hx]; done) | extract_lets | split)

@[simp] theorem spanMirrorSet_get (p : List Byte) (k : Nat) (s : State) (x : Part)
    (hx : x ∉ [Part.flc, Part.spn, Part.tags, Part.locks, Part.units]) : (spanMirrorSet p k s).get x = s.get x := by
  simp only [List.mem_cons, List.not_mem_nil, or_false, not_or] at hx
  unfold spanMirrorSet; repeat' (first | (with_reducible rfl) | (simp [hx]; done) | split)

@[simp] theorem sendUnmapped_get (v : Nat) (c : Nat) (s : State) (r : Nat × Nat) (x : Part)
    (hx : x ∉ [Part.spn]) : (sendUnmapped v c s r).get x = s.get x := by
  simp only [List.mem_cons, List.not_mem_nil, or_false, not_or] at hx
  unfold sendUnmapped; repeat' (first | (with_reducible rfl) | (simp [hx]; done) | split)

@[simp] theorem spanLeave_get (k : Nat) (s : State) (x : Part)
    (hx : x ∉ [Part.bsh, Part.sec, Part.spn, Part.tags, Part.locks, Part.insts, Part.units]) : (spanLeave k s).get x = s.get x := by
  simp only [List.mem_cons, List.not_mem_nil, or_false, not_or] at hx
  unfold spanLeave; repeat' (first | (with_reducible rfl) | (simp [hx]; done) | split)

@[simp] theorem spanJoin_get (p : List Byte) (k : Nat) (s : State) (x : Part)
    (hx : x ∉ [Part.spn, Part.tags, Part.locks, Part.insts, Part.units]) : (spanJoin p k s).get x = s.get x := by
  simp only [List.mem_cons, List.not_mem_nil, or_false, not_or] at hx
  unfold spanJoin; repeat' (first | (with_reducible rfl) | (simp [hx]; done) | split)

@[simp] theorem applyMirror_get (origin : Nat) (p : List Byte) (body : List Byte) (s : State) (x : Part)
    (hx : x ∉ [Part.bsh, Part.flc, Part.fresh]) : (applyMirror origin p body s).2.1.get x = s.get x := by
  simp only [List.mem_cons, List.not_mem_nil, or_false, not_or] at hx
  unfold applyMirror
  dsimp only
  split
  · rfl
  · split
    · rfl
    · split <;> simp [hx]

@[simp] theorem takeMirror_get (origin : Nat) (xid : Nat) (first : List Byte) (body : List Byte) (s : State) (x : Part)
    (hx : x ∉ [Part.bsh, Part.flc, Part.spn, Part.locks, Part.fresh]) : (takeMirror origin xid first body s).get x = s.get x := by
  simp only [List.mem_cons, List.not_mem_nil, or_false, not_or] at hx
  unfold takeMirror
  dsimp only
  split
  · generalize takeCtl _ origin (bytesAt first 0 64) = r
    obtain ⟨st, role⟩ := r
    cases role <;> simp [hx]
  · have hm := applyMirror_get origin (bytesAt first 0 64) body
      { s with spn := { s.spn with mirrorRx := Tbl.set s.spn.mirrorRx origin ((field first 64 4 + 1) % 2 ^ 32) } } x
    generalize applyMirror _ _ _ _ = r at *
    obtain ⟨st, s', ids⟩ := r
    simpa [hx] using hm

@[simp] theorem acked_get (copy : Nat) (xid : Nat) (status : Nat) (s : State) (x : Part)
    (hx : x ∉ [Part.flc, Part.spn, Part.tags, Part.locks, Part.units]) : (acked copy xid status s).get x = s.get x := by
  simp only [List.mem_cons, List.not_mem_nil, or_false, not_or] at hx
  unfold acked; repeat' (first | (with_reducible rfl) | (simp [hx]; done) | split)

@[simp] theorem sendMapped_get (v : Nat) (u : Vol) (c : Nat) (s : State) (e : Nat × MapEnt) (x : Part)
    (hx : x ∉ [Part.spn]) : (sendMapped v u c s e).get x = s.get x := by
  simp only [List.mem_cons, List.not_mem_nil, or_false, not_or] at hx
  unfold sendMapped; repeat' (first | (with_reducible rfl) | (simp [hx]; done) | split)

@[simp] theorem sendPass_get (v : Nat) (u : Vol) (c : Nat) (s : State) (x : Part)
    (hx : x ∉ [Part.spn]) : (sendPass v u c s).get x = s.get x := by
  simp only [List.mem_cons, List.not_mem_nil, or_false, not_or] at hx
  unfold sendPass; repeat' (first | (with_reducible rfl) | (simp [hx]; done) | split)

@[simp] theorem undoJoin_get (s : State) (x : Part)
    (hx : x ∉ [Part.spn, Part.insts]) : (undoJoin s).get x = s.get x := by
  simp only [List.mem_cons, List.not_mem_nil, or_false, not_or] at hx
  unfold undoJoin; repeat' (first | (with_reducible rfl) | (simp [hx]; done) | split)

@[simp] theorem dropNote_get (k : Nat) (s : State) (x : Part)
    (hx : x ∉ [Part.insts]) : (dropNote k s).get x = s.get x := by
  simp only [List.mem_cons, List.not_mem_nil, or_false, not_or] at hx
  unfold dropNote; repeat' (first | (with_reducible rfl) | (simp [hx]; done) | split)

@[simp] theorem unnameTag_get (k : Nat) (s : State) (x : Part)
    (hx : x ∉ [Part.sec, Part.dmz]) : (unnameTag k s).get x = s.get x := by
  simp only [List.mem_cons, List.not_mem_nil, or_false, not_or] at hx
  unfold unnameTag; repeat' (first | (with_reducible rfl) | (simp [hx]; done) | split)

@[simp] theorem dropWork_get (k : Nat) (t : Tag) (s : State) (x : Part)
    (hx : x ∉ [Part.bsh, Part.sec, Part.dmz, Part.spn, Part.locks, Part.insts, Part.units]) : (dropWork k t s).get x = s.get x := by
  simp only [List.mem_cons, List.not_mem_nil, or_false, not_or] at hx
  unfold dropWork; repeat' (first | (with_reducible rfl) | (simp [hx]; done) | split)

@[simp] theorem resetTag_get (k : Nat) (s : State) (x : Part)
    (hx : x ∉ [Part.bsh, Part.sec, Part.dmz, Part.spn, Part.tags, Part.locks, Part.insts, Part.units]) : (resetTag k s).get x = s.get x := by
  simp only [List.mem_cons, List.not_mem_nil, or_false, not_or] at hx
  unfold resetTag; repeat' (first | (with_reducible rfl) | (simp [hx]; done) | split)

@[simp] theorem freeObjects_get (n : Nat) (s : State) (x : Part)
    (hx : x ∉ [Part.bsh, Part.sec, Part.dmz, Part.idx, Part.insts]) : (freeObjects n s).get x = s.get x := by
  simp only [List.mem_cons, List.not_mem_nil, or_false, not_or] at hx
  unfold freeObjects; repeat' (first | (with_reducible rfl) | (simp [hx]; done) | split)

@[simp] theorem resetInstance_get (n : Nat) (st : InstSt) (s : State) (x : Part)
    (hx : x ∉ [Part.bsh, Part.sec, Part.sch, Part.dmz, Part.idx, Part.spn, Part.tags, Part.locks, Part.insts, Part.units, Part.fresh]) : (resetInstance n st s).get x = s.get x := by
  simp only [List.mem_cons, List.not_mem_nil, or_false, not_or] at hx
  unfold resetInstance; repeat' (first | (with_reducible rfl) | (simp [hx]; done) | split)

@[simp] theorem resetEnds_get (n : Nat) (s : State) (x : Part)
    (hx : x ∉ [Part.insts]) : (resetEnds n s).get x = s.get x := by
  simp only [List.mem_cons, List.not_mem_nil, or_false, not_or] at hx
  unfold resetEnds; repeat' (first | (with_reducible rfl) | (simp [hx]; done) | split)

@[simp] theorem deleteTables_get (n : Nat) (s : State) (x : Part)
    (hx : x ∉ [Part.idx]) : (deleteTables n s).get x = s.get x := by
  simp only [List.mem_cons, List.not_mem_nil, or_false, not_or] at hx
  unfold deleteTables; repeat' (first | (with_reducible rfl) | (simp [hx]; done) | split)

@[simp] theorem eraseInst_get (n : Nat) (s : State) (x : Part)
    (hx : x ∉ [Part.insts]) : (eraseInst n s).get x = s.get x := by
  simp only [List.mem_cons, List.not_mem_nil, or_false, not_or] at hx
  unfold eraseInst; repeat' (first | (with_reducible rfl) | (simp [hx]; done) | split)

@[simp] theorem destroyEnds_get (n : Nat) (s : State) (x : Part)
    (hx : x ∉ [Part.idx, Part.flc, Part.spn, Part.insts]) : (destroyEnds n s).get x = s.get x := by
  simp only [List.mem_cons, List.not_mem_nil, or_false, not_or] at hx
  unfold destroyEnds; repeat' (first | (with_reducible rfl) | (simp [hx]; done) | split)

@[simp] theorem beginReset_get (st : InstSt) (r0 : Nat → Nat) (p : List Byte) (k : Nat) (s : State) (x : Part)
    (hx : x ∉ [Part.bsh, Part.sec, Part.sch, Part.dmz, Part.idx, Part.spn, Part.tags, Part.locks, Part.insts, Part.units, Part.fresh]) : (beginReset st r0 p k s).get x = s.get x := by
  simp only [List.mem_cons, List.not_mem_nil, or_false, not_or] at hx
  unfold beginReset; repeat' (first | (with_reducible rfl) | (simp [hx]; done) | split)

@[simp] theorem modLog_get (k : Nat) (f : PLog → PLog) (s : State) (x : Part)
    (hx : x ∉ [Part.mgr]) : (modLog k f s).get x = s.get x := by
  simp only [List.mem_cons, List.not_mem_nil, or_false, not_or] at hx
  unfold modLog; repeat' (first | (with_reducible rfl) | (simp [hx]; done) | split)

@[simp] theorem writeLogCtl_get (k : Nat) (v : Nat) (s : State) (x : Part)
    (hx : x ∉ [Part.mgr]) : (writeLogCtl k v s).get x = s.get x := by
  simp only [List.mem_cons, List.not_mem_nil, or_false, not_or] at hx
  unfold writeLogCtl; repeat' (first | (with_reducible rfl) | (simp [hx]; done) | split)

@[simp] theorem migResult_get (r : Nat) (s : State) (x : Part)
    (hx : x ∉ [Part.mgr]) : (migResult r s).get x = s.get x := by
  simp only [List.mem_cons, List.not_mem_nil, or_false, not_or] at hx
  unfold migResult; repeat' (first | (with_reducible rfl) | (simp [hx]; done) | split)

@[simp] theorem appendLog_get (k : Nat) (y : Nat) (f : PLog → PLog) (s : State) (x : Part)
    (hx : x ∉ [Part.mgr, Part.hostMem]) : (appendLog k y f s).get x = s.get x := by
  simp only [List.mem_cons, List.not_mem_nil, or_false, not_or] at hx
  unfold appendLog; repeat' (first | (with_reducible rfl) | (simp [hx]; done) | split)

@[simp] theorem writeInstCtl_get (v : Nat) (s : State) (x : Part)
    (hx : x ∉ [Part.insts]) : (writeInstCtl v s).get x = s.get x := by
  simp only [List.mem_cons, List.not_mem_nil, or_false, not_or] at hx
  unfold writeInstCtl; repeat' (first | (with_reducible rfl) | (simp [hx]; done) | split)

@[simp] theorem createInstance_get (n : Nat) (p : List Byte) (k : Nat) (s : State) (x : Part)
    (hx : x ∉ [Part.tags, Part.locks, Part.insts, Part.units]) : (createInstance n p k s).get x = s.get x := by
  simp only [List.mem_cons, List.not_mem_nil, or_false, not_or] at hx
  unfold createInstance; repeat' (first | (with_reducible rfl) | (simp [hx]; done) | split)

@[simp] theorem sendMail_get (n : Nat) (len : Nat) (i : Inst) (s : State) (x : Part)
    (hx : x ∉ [Part.hif, Part.insts]) : (sendMail n len i s).get x = s.get x := by
  simp only [List.mem_cons, List.not_mem_nil, or_false, not_or] at hx
  unfold sendMail; repeat' (first | (with_reducible rfl) | (simp [hx]; done) | split)

@[simp] theorem noteBankError_get (a : Nat) (s : State) (x : Part)
    (hx : x ∉ [Part.mem]) : (noteBankError a s).get x = s.get x := by
  simp only [List.mem_cons, List.not_mem_nil, or_false, not_or] at hx
  unfold noteBankError; repeat' (first | (with_reducible rfl) | (simp [hx]; done) | split)

@[simp] theorem failSide_get (b : Bool) (dropped : List (Nat × Nat)) (ns : Nat) (s : State) (x : Part)
    (hx : x ∉ [Part.glb, Part.pwr, Part.bsh, Part.flc, Part.drc, Part.insts]) : (failSide b dropped ns s).get x = s.get x := by
  simp only [List.mem_cons, List.not_mem_nil, or_false, not_or] at hx
  unfold failSide; repeat' (first | (with_reducible rfl) | (simp [hx]; done) | split)

@[simp] theorem flipSide_get (b : Bool) (fs : List (Nat × List Nat)) (s : State) (x : Part)
    (hx : x ∉ [Part.drc]) : (flipSide b fs s).get x = s.get x := by
  simp only [List.mem_cons, List.not_mem_nil, or_false, not_or] at hx
  unfold flipSide; repeat' (first | (with_reducible rfl) | (simp [hx]; done) | split)

@[simp] theorem restoreTwin_get (a : Nat) (s : State) (x : Part)
    (hx : x ∉ [Part.mem]) : (restoreTwin a s).get x = s.get x := by
  simp only [List.mem_cons, List.not_mem_nil, or_false, not_or] at hx
  unfold restoreTwin; repeat' (first | (with_reducible rfl) | (simp [hx]; done) | split)

@[simp] theorem scrubHog_get (a : Nat) (ps : List Nat) (hard : Bool) (s : State) (x : Part)
    (hx : x ∉ [Part.mem]) : (scrubHog a ps hard s).get x = s.get x := by
  simp only [List.mem_cons, List.not_mem_nil, or_false, not_or] at hx
  unfold scrubHog; repeat' (first | (with_reducible rfl) | (simp [hx]; done) | split)

@[simp] theorem scrubFirkin_get (a : Nat) (ps : List Nat) (hard : Bool) (s : State) (x : Part)
    (hx : x ∉ [Part.mem]) : (scrubFirkin a ps hard s).get x = s.get x := by
  simp only [List.mem_cons, List.not_mem_nil, or_false, not_or] at hx
  unfold scrubFirkin; repeat' (first | (with_reducible rfl) | (simp [hx]; done) | split)

@[simp] theorem scrubStore_get (a : Nat) (ps : List Nat) (s : State) (x : Part)
    (hx : x ∉ [Part.mem]) : (scrubStore a ps s).get x = s.get x := by
  simp only [List.mem_cons, List.not_mem_nil, or_false, not_or] at hx
  unfold scrubStore; repeat' (first | (with_reducible rfl) | (simp [hx]; done) | (simp (zetaDelta := true) [hx]; done) | extract_lets | split)

@[simp] theorem scrubTrace_get (a : Nat) (ps : List Nat) (s : State) (x : Part)
    (hx : x ∉ [Part.sch, Part.mem]) : (scrubTrace a ps s).get x = s.get x := by
  simp only [List.mem_cons, List.not_mem_nil, or_false, not_or] at hx
  unfold scrubTrace; repeat' (first | (with_reducible rfl) | (simp [hx]; done) | split)

@[simp] theorem scrubSram_get (target : Nat) (first : Nat) (len : Nat) (nature : List (Nat × List Nat)) (hard : List Nat) (s : State) (x : Part)
    (hx : x ∉ [Part.sch, Part.mem]) : (scrubSram target first len nature hard s).get x = s.get x := by
  simp only [List.mem_cons, List.not_mem_nil, or_false, not_or] at hx
  unfold scrubSram; repeat' (first | (with_reducible rfl) | (simp [hx]; done) | split)

@[simp] theorem writeInjCtl_get (v : Nat) (s : State) (x : Part)
    (hx : x ∉ [Part.mem]) : (writeInjCtl v s).get x = s.get x := by
  simp only [List.mem_cons, List.not_mem_nil, or_false, not_or] at hx
  unfold writeInjCtl; repeat' (first | (with_reducible rfl) | (simp [hx]; done) | split)

@[simp] theorem scrubGranule_get (b : Bool) (g : Nat) (s : State) (x : Part)
    (hx : x ∉ [Part.mem, Part.drc]) : (scrubGranule b g s).get x = s.get x := by
  simp only [List.mem_cons, List.not_mem_nil, or_false, not_or] at hx
  unfold scrubGranule; repeat' (first | (with_reducible rfl) | (simp [hx]; done) | (simp (zetaDelta := true) [hx]; done) | extract_lets | split)

@[simp] theorem switchRoot_get (s : State) (x : Part)
    (hx : x ∉ [Part.glb, Part.clk, Part.flc]) : (switchRoot s).get x = s.get x := by
  simp only [List.mem_cons, List.not_mem_nil, or_false, not_or] at hx
  unfold switchRoot; repeat' (first | (with_reducible rfl) | (simp [hx]; done) | split)

@[simp] theorem dropRefClock_get (ref : Nat) (s : State) (x : Part)
    (hx : x ∉ [Part.clk]) : (dropRefClock ref s).get x = s.get x := by
  simp only [List.mem_cons, List.not_mem_nil, or_false, not_or] at hx
  unfold dropRefClock; repeat' (first | (with_reducible rfl) | (simp [hx]; done) | split)

@[simp] theorem settleRoot_get (s : State) (x : Part)
    (hx : x ∉ [Part.glb, Part.clk, Part.flc]) : (settleRoot s).get x = s.get x := by
  simp only [List.mem_cons, List.not_mem_nil, or_false, not_or] at hx
  unfold settleRoot; repeat' (first | (with_reducible rfl) | (simp [hx]; done) | split)

@[simp] theorem spareFails_get (pool : Nat) (unit : Nat) (s : State) (x : Part)
    (hx : x ∉ [Part.bsh, Part.sec, Part.sch, Part.idx, Part.flc, Part.mem]) : (spareFails pool unit s).get x = s.get x := by
  simp only [List.mem_cons, List.not_mem_nil, or_false, not_or] at hx
  unfold spareFails; repeat' (first | (with_reducible rfl) | (simp [hx]; done) | (simp (zetaDelta := true) [hx]; done) | extract_lets | split)

@[simp] theorem countHostError_get (s : State) (x : Part)
    (hx : x ∉ [Part.hif]) : (countHostError s).get x = s.get x := by
  simp only [List.mem_cons, List.not_mem_nil, or_false, not_or] at hx
  unfold countHostError; repeat' (first | (with_reducible rfl) | (simp [hx]; done) | split)

@[simp] theorem readErrorEnds_get (n : Nat) (what : Fin 4) (units : Nat) (p : List Byte) (k : Nat) (s : State) (x : Part)
    (hx : x ∉ [Part.mgr, Part.bsh, Part.sec, Part.flc, Part.spn, Part.tags, Part.locks, Part.units, Part.hostMem, Part.fresh]) : (readErrorEnds n what units p k s).get x = s.get x := by
  simp only [List.mem_cons, List.not_mem_nil, or_false, not_or] at hx
  unfold readErrorEnds; repeat' (first | (with_reducible rfl) | (simp [hx]; done) | split)

@[simp] theorem releaseMsix_get (p : Nat) (s : State) (x : Part)
    (hx : x ∉ [Part.hif]) : (releaseMsix p s).get x = s.get x := by
  simp only [List.mem_cons, List.not_mem_nil, or_false, not_or] at hx
  unfold releaseMsix; repeat' (first | (with_reducible rfl) | (simp [hx]; done) | split)

@[simp] theorem writeRootCtl_get (v : Nat) (s : State) (x : Part)
    (hx : x ∉ [Part.glb, Part.clk, Part.pwr, Part.flc]) : (writeRootCtl v s).get x = s.get x := by
  simp only [List.mem_cons, List.not_mem_nil, or_false, not_or] at hx
  unfold writeRootCtl; repeat' (first | (with_reducible rfl) | (simp [hx]; done) | split)

@[simp] theorem movePort_get (p : Nat) (vectors : List Nat) (ns : Nat) (s : State) (x : Part)
    (hx : x ∉ [Part.glb, Part.hif, Part.pwr, Part.flc, Part.insts]) : (movePort p vectors ns s).get x = s.get x := by
  simp only [List.mem_cons, List.not_mem_nil, or_false, not_or] at hx
  unfold movePort; repeat' (first | (with_reducible rfl) | (simp [hx]; done) | split)

@[simp] theorem linkUpAs_get (p : Nat) (width : Nat) (speed : Nat) (reversed : Bool) (polarity : Nat) (s : State) (x : Part)
    (hx : x ∉ [Part.hif]) : (linkUpAs p width speed reversed polarity s).get x = s.get x := by
  simp only [List.mem_cons, List.not_mem_nil, or_false, not_or] at hx
  unfold linkUpAs; repeat' (first | (with_reducible rfl) | (simp [hx]; done) | split)

@[simp] theorem programFailed_get (die : Nat) (block : Nat) (src : Option Nat) (s : State) (x : Part)
    (hx : x ∉ [Part.glb, Part.pwr, Part.flc, Part.insts]) : (programFailed die block src s).get x = s.get x := by
  simp only [List.mem_cons, List.not_mem_nil, or_false, not_or] at hx
  unfold programFailed; repeat' (first | (with_reducible rfl) | (simp [hx]; done) | split)

@[simp] theorem carrierEnds_get (c : Nat) (op : Nat) (result : Nat) (s : State) (x : Part)
    (hx : x ∉ [Part.glb, Part.flc]) : (carrierEnds c op result s).get x = s.get x := by
  simp only [List.mem_cons, List.not_mem_nil, or_false, not_or] at hx
  unfold carrierEnds; repeat' (first | (with_reducible rfl) | (simp [hx]; done) | split)

@[simp] theorem noteFree_get (wb : Nat) (dense : Nat) (s : State) (x : Part)
    (hx : x ∉ [Part.flc]) : (noteFree wb dense s).get x = s.get x := by
  simp only [List.mem_cons, List.not_mem_nil, or_false, not_or] at hx
  unfold noteFree; repeat' (first | (with_reducible rfl) | (simp [hx]; done) | split)

@[simp] theorem programmed_get (n : Nat) (die : Nat) (block : Nat) (slc : Bool) (closes : Bool) (s : State) (x : Part)
    (hx : x ∉ [Part.flc]) : (programmed n die block slc closes s).get x = s.get x := by
  simp only [List.mem_cons, List.not_mem_nil, or_false, not_or] at hx
  unfold programmed; repeat' (first | (with_reducible rfl) | (simp [hx]; done) | split)

@[simp] theorem pageDurable_get (n : Nat) (s : State) (x : Part)
    (hx : x ∉ [Part.glb, Part.flc, Part.spn, Part.tags, Part.locks, Part.units]) : (pageDurable n s).get x = s.get x := by
  simp only [List.mem_cons, List.not_mem_nil, or_false, not_or] at hx
  unfold pageDurable; repeat' (first | (with_reducible rfl) | (simp [hx]; done) | split)

@[simp] theorem gcRead_get (n : Nat) (vol : Nat) (allot : Nat) (isLost : Bool) (s : State) (x : Part)
    (hx : x ∉ [Part.flc]) : (gcRead n vol allot isLost s).get x = s.get x := by
  simp only [List.mem_cons, List.not_mem_nil, or_false, not_or] at hx
  unfold gcRead; repeat' (first | (with_reducible rfl) | (simp [hx]; done) | split)

@[simp] theorem appendMove_get (src : Nat) (dst : Nat) (vol : Nat) (allot : Nat) (s : State) (x : Part)
    (hx : x ∉ [Part.flc, Part.fresh]) : (appendMove src dst vol allot s).get x = s.get x := by
  simp only [List.mem_cons, List.not_mem_nil, or_false, not_or] at hx
  unfold appendMove; repeat' (first | (with_reducible rfl) | (simp [hx]; done) | split)

@[simp] theorem refusePart_get (d : Nat) (s : State) (x : Part)
    (hx : x ∉ [Part.glb, Part.flc, Part.insts]) : (refusePart d s).get x = s.get x := by
  simp only [List.mem_cons, List.not_mem_nil, or_false, not_or] at hx
  unfold refusePart; repeat' (first | (with_reducible rfl) | (simp [hx]; done) | split)

@[simp] theorem fitDies_get (c : Nat) (dies : List (Fin 16 × Nat × Nat × Nat × Nat × Nat)) (refused : List (Fin 16)) (s : State) (x : Part)
    (hx : x ∉ [Part.glb, Part.flc, Part.insts]) : (fitDies c dies refused s).get x = s.get x := by
  simp only [List.mem_cons, List.not_mem_nil, or_false, not_or] at hx
  unfold fitDies; repeat' (first | (with_reducible rfl) | (simp [hx]; done) | split)

@[simp] theorem channelTrained_get (c : Nat) (rate : Nat) (s : State) (x : Part)
    (hx : x ∉ [Part.flc]) : (channelTrained c rate s).get x = s.get x := by
  simp only [List.mem_cons, List.not_mem_nil, or_false, not_or] at hx
  unfold channelTrained; repeat' (first | (with_reducible rfl) | (simp [hx]; done) | split)

@[simp] theorem insertedEnds_get (c : Nat) (rate : Nat) (trained : Bool) (dies : List (Fin 16 × Nat × Nat × Nat × Nat × Nat)) (refused : List (Fin 16)) (s : State) (x : Part)
    (hx : x ∉ [Part.glb, Part.flc, Part.insts, Part.fresh]) : (insertedEnds c rate trained dies refused s).get x = s.get x := by
  simp only [List.mem_cons, List.not_mem_nil, or_false, not_or] at hx
  unfold insertedEnds; repeat' (first | (with_reducible rfl) | (simp [hx]; done) | split)

@[simp] theorem channelLost_get (c : Nat) (ns : Nat) (s : State) (x : Part)
    (hx : x ∉ [Part.glb, Part.pwr, Part.flc, Part.insts]) : (channelLost c ns s).get x = s.get x := by
  simp only [List.mem_cons, List.not_mem_nil, or_false, not_or] at hx
  unfold channelLost; repeat' (first | (with_reducible rfl) | (simp [hx]; done) | split)

@[simp] theorem erasedOne_get (n : Nat) (die : Nat) (block : Nat) (s : State) (x : Part)
    (hx : x ∉ [Part.flc]) : (erasedOne n die block s).get x = s.get x := by
  simp only [List.mem_cons, List.not_mem_nil, or_false, not_or] at hx
  unfold erasedOne; repeat' (first | (with_reducible rfl) | (simp [hx]; done) | (simp (zetaDelta := true) [hx]; done) | extract_lets | split)

@[simp] theorem evacuate_get (c : Nat) (y : Chan) (s : State) (x : Part)
    (hx : x ∉ [Part.glb, Part.flc]) : (evacuate c y s).get x = s.get x := by
  simp only [List.mem_cons, List.not_mem_nil, or_false, not_or] at hx
  unfold evacuate; repeat' (first | (with_reducible rfl) | (simp [hx]; done) | split)

@[simp] theorem noteRail_get (r : Nat) (mv : Nat) (s : State) (x : Part)
    (hx : x ∉ [Part.pwr]) : (noteRail r mv s).get x = s.get x := by
  simp only [List.mem_cons, List.not_mem_nil, or_false, not_or] at hx
  unfold noteRail; repeat' (first | (with_reducible rfl) | (simp [hx]; done) | split)

@[simp] theorem supplyDip_get (rail : Nat) (flags : Nat) (mv : Nat) (us : Nat) (s : State) (x : Part)
    (hx : x ∉ [Part.insts]) : (supplyDip rail flags mv us s).get x = s.get x := by
  simp only [List.mem_cons, List.not_mem_nil, or_false, not_or] at hx
  unfold supplyDip; repeat' (first | (with_reducible rfl) | (simp [hx]; done) | split)

@[simp] theorem endDip_get (s : State) (x : Part)
    (hx : x ∉ [Part.glb, Part.pwr, Part.flc, Part.insts]) : (endDip s).get x = s.get x := by
  simp only [List.mem_cons, List.not_mem_nil, or_false, not_or] at hx
  unfold endDip; repeat' (first | (with_reducible rfl) | (simp [hx]; done) | split)

@[simp] theorem writeRepairs_get (s : State) (x : Part)
    (hx : x ∉ [Part.mem]) : (writeRepairs s).get x = s.get x := by
  simp only [List.mem_cons, List.not_mem_nil, or_false, not_or] at hx
  unfold writeRepairs; repeat' (first | (with_reducible rfl) | (simp [hx]; done) | split)

@[simp] theorem writeLog_get (s : State) (x : Part)
    (hx : x ∉ [Part.flc]) : (writeLog s).get x = s.get x := by
  simp only [List.mem_cons, List.not_mem_nil, or_false, not_or] at hx
  unfold writeLog; repeat' (first | (with_reducible rfl) | (simp [hx]; done) | split)

@[simp] theorem flushAll_get (s : State) (x : Part)
    (hx : x ∉ [Part.glb, Part.flc, Part.mem, Part.drc, Part.spn, Part.tags, Part.locks, Part.units]) : (flushAll s).get x = s.get x := by
  simp only [List.mem_cons, List.not_mem_nil, or_false, not_or] at hx
  unfold flushAll; repeat' (first | (with_reducible rfl) | (simp [hx]; done) | split)

@[simp] theorem gateDomains_get (on : Bool) (ds : List Nat) (s : State) (x : Part)
    (hx : x ∉ [Part.clk]) : (gateDomains on ds s).get x = s.get x := by
  simp only [List.mem_cons, List.not_mem_nil, or_false, not_or] at hx
  unfold gateDomains; repeat' (first | (with_reducible rfl) | (simp [hx]; done) | split)

@[simp] theorem resumeSupply_get (s : State) (x : Part)
    (hx : x ∉ [Part.clk, Part.pwr, Part.drc]) : (resumeSupply s).get x = s.get x := by
  simp only [List.mem_cons, List.not_mem_nil, or_false, not_or] at hx
  unfold resumeSupply; repeat' (first | (with_reducible rfl) | (simp [hx]; done) | split)

@[simp] theorem settleResume_get (s : State) (x : Part)
    (hx : x ∉ [Part.clk, Part.pwr, Part.drc]) : (settleResume s).get x = s.get x := by
  simp only [List.mem_cons, List.not_mem_nil, or_false, not_or] at hx
  unfold settleResume; repeat' (first | (with_reducible rfl) | (simp [hx]; done) | split)

@[simp] theorem beginDip_get (r : Nat) (mv : Nat) (s : State) (x : Part)
    (hx : x ∉ [Part.pwr]) : (beginDip r mv s).get x = s.get x := by
  simp only [List.mem_cons, List.not_mem_nil, or_false, not_or] at hx
  unfold beginDip; repeat' (first | (with_reducible rfl) | (simp [hx]; done) | split)

@[simp] theorem noteDip_get (r : Nat) (mv : Nat) (s : State) (x : Part)
    (hx : x ∉ [Part.pwr]) : (noteDip r mv s).get x = s.get x := by
  simp only [List.mem_cons, List.not_mem_nil, or_false, not_or] at hx
  unfold noteDip; repeat' (first | (with_reducible rfl) | (simp [hx]; done) | split)

@[simp] theorem beginFlush_get (s : State) (x : Part)
    (hx : x ∉ [Part.clk, Part.pwr, Part.insts]) : (beginFlush s).get x = s.get x := by
  simp only [List.mem_cons, List.not_mem_nil, or_false, not_or] at hx
  unfold beginFlush; repeat' (first | (with_reducible rfl) | (simp [hx]; done) | split)

@[simp] theorem closeOn_get (c : Nat) (s : State) (x : Part)
    (hx : x ∉ [Part.flc]) : (closeOn c s).get x = s.get x := by
  simp only [List.mem_cons, List.not_mem_nil, or_false, not_or] at hx
  unfold closeOn; repeat' (first | (with_reducible rfl) | (simp [hx]; done) | split)

@[simp] theorem shedChannel_get (c : Nat) (s : State) (x : Part)
    (hx : x ∉ [Part.flc]) : (shedChannel c s).get x = s.get x := by
  simp only [List.mem_cons, List.not_mem_nil, or_false, not_or] at hx
  unfold shedChannel; repeat' (first | (with_reducible rfl) | (simp [hx]; done) | split)

@[simp] theorem settleShed_get (s : State) (x : Part)
    (hx : x ∉ [Part.flc]) : (settleShed s).get x = s.get x := by
  simp only [List.mem_cons, List.not_mem_nil, or_false, not_or] at hx
  unfold settleShed; refine State.get_foldl _ _ _ _ (fun s p => ?_); repeat' (first | (with_reducible rfl) | (simp [hx]; done) | split)

@[simp] theorem logRetrain_get (unit : Nat) (r : Nat × Nat) (s : State) (x : Part)
    (hx : x ∉ [Part.glb, Part.flc]) : (logRetrain unit r s).get x = s.get x := by
  simp only [List.mem_cons, List.not_mem_nil, or_false, not_or] at hx
  unfold logRetrain; repeat' (first | (with_reducible rfl) | (simp [hx]; done) | split)

@[simp] theorem sideRetrained_get (b : Bool) (pass : Bool) (dropped : List (Nat × Nat)) (ns : Nat) (r : Nat × Nat) (s : State) (x : Part)
    (hx : x ∉ [Part.glb, Part.pwr, Part.bsh, Part.flc, Part.drc, Part.insts]) : (sideRetrained b pass dropped ns r s).get x = s.get x := by
  simp only [List.mem_cons, List.not_mem_nil, or_false, not_or] at hx
  unfold sideRetrained; repeat' (first | (with_reducible rfl) | (simp [hx]; done) | split)

@[simp] theorem channelRetrained_get (c : Nat) (pass : Bool) (ns : Nat) (r : Nat × Nat) (s : State) (x : Part)
    (hx : x ∉ [Part.glb, Part.pwr, Part.flc, Part.insts]) : (channelRetrained c pass ns r s).get x = s.get x := by
  simp only [List.mem_cons, List.not_mem_nil, or_false, not_or] at hx
  unfold channelRetrained; repeat' (first | (with_reducible rfl) | (simp [hx]; done) | split)

@[simp] theorem setSensor_get (n : Nat) (y : Sensor) (s : State) (x : Part)
    (hx : x ∉ [Part.pwr]) : (setSensor n y s).get x = s.get x := by
  simp only [List.mem_cons, List.not_mem_nil, or_false, not_or] at hx
  unfold setSensor; repeat' (first | (with_reducible rfl) | (simp [hx]; done) | split)

@[simp] theorem thermalChange_get (n : Nat) (new : Nat) (prev : Nat) (t : Int) (s : State) (x : Part)
    (hx : x ∉ [Part.glb, Part.flc, Part.insts]) : (thermalChange n new prev t s).get x = s.get x := by
  simp only [List.mem_cons, List.not_mem_nil, or_false, not_or] at hx
  unfold thermalChange; repeat' (first | (with_reducible rfl) | (simp [hx]; done) | split)

@[simp] theorem failSensor_get (n : Nat) (reading : Option Int) (s : State) (x : Part)
    (hx : x ∉ [Part.glb, Part.pwr, Part.flc, Part.insts]) : (failSensor n reading s).get x = s.get x := by
  simp only [List.mem_cons, List.not_mem_nil, or_false, not_or] at hx
  unfold failSensor; repeat' (first | (with_reducible rfl) | (simp [hx]; done) | split)

@[simp] theorem restoreSensor_get (n : Nat) (t : Int) (s : State) (x : Part)
    (hx : x ∉ [Part.glb, Part.pwr, Part.flc, Part.insts]) : (restoreSensor n t s).get x = s.get x := by
  simp only [List.mem_cons, List.not_mem_nil, or_false, not_or] at hx
  unfold restoreSensor; repeat' (first | (with_reducible rfl) | (simp [hx]; done) | split)

@[simp] theorem takeSample_get (n : Nat) (t : Int) (s : State) (x : Part)
    (hx : x ∉ [Part.glb, Part.pwr, Part.flc, Part.insts]) : (takeSample n t s).get x = s.get x := by
  simp only [List.mem_cons, List.not_mem_nil, or_false, not_or] at hx
  unfold takeSample; repeat' (first | (with_reducible rfl) | (simp [hx]; done) | split)

@[simp] theorem dieSample_get (n : Nat) (r : Option Int) (s : State) (x : Part)
    (hx : x ∉ [Part.glb, Part.pwr, Part.flc, Part.insts, Part.fresh]) : (dieSample n r s).get x = s.get x := by
  simp only [List.mem_cons, List.not_mem_nil, or_false, not_or] at hx
  unfold dieSample; repeat' (first | (with_reducible rfl) | (simp [hx]; done) | split)

@[simp] theorem remoteSample_get (n : Nat) (r : Option Int) (s : State) (x : Part)
    (hx : x ∉ [Part.glb, Part.pwr, Part.flc, Part.insts, Part.fresh]) : (remoteSample n r s).get x = s.get x := by
  simp only [List.mem_cons, List.not_mem_nil, or_false, not_or] at hx
  unfold remoteSample; repeat' (first | (with_reducible rfl) | (simp [hx]; done) | split)

@[simp] theorem retrainChannel_get (c : Nat) (trigger : Nat) (s : State) (x : Part)
    (hx : x ∉ [Part.flc]) : (retrainChannel c trigger s).get x = s.get x := by
  simp only [List.mem_cons, List.not_mem_nil, or_false, not_or] at hx
  unfold retrainChannel; repeat' (first | (with_reducible rfl) | (simp [hx]; done) | split)

@[simp] theorem retrainSide_get (b : Bool) (trigger : Nat) (s : State) (x : Part)
    (hx : x ∉ [Part.drc]) : (retrainSide b trigger s).get x = s.get x := by
  simp only [List.mem_cons, List.not_mem_nil, or_false, not_or] at hx
  unfold retrainSide; repeat' (first | (with_reducible rfl) | (simp [hx]; done) | split)

end Sys2Proof.Machine
end

