-- ==== Sys2Proof/Laws/FrameControl.lean ====
section
/-! SUPPORT. What the operations of firmware, start-up, reset causes, commits and registers leave as it is: every part of the state that the
operation and those it calls do not write. One lemma for each operation. -/

set_option linter.all false

namespace Sys2Proof.Machine

@[simp] theorem dropPieces_get (s : State) (x : Part)
    (hx : x ∉ [Part.glb]) : (dropPieces s).get x = s.get x := by
  simp only [List.mem_cons, List.not_mem_nil, or_false, not_or] at hx
  unfold dropPieces; repeat' (first | (with_reducible rfl) | (simp [hx]; done) | split)

@[simp] theorem fwStage_get (n : Nat) (p : List Byte) (k : Nat) (s : State) (x : Part)
    (hx : x ∉ [Part.glb, Part.sec, Part.tags, Part.locks, Part.units]) : (fwStage n p k s).get x = s.get x := by
  simp only [List.mem_cons, List.not_mem_nil, or_false, not_or] at hx
  unfold fwStage; repeat' (first | (with_reducible rfl) | (simp [hx]; done) | (simp (zetaDelta := true) [hx]; done) | extract_lets | split)

@[simp] theorem activated_get (k : Nat) (pause : Nat) (y : Image) (s : State) (x : Part)
    (hx : x ∉ [Part.glb, Part.flc, Part.tags, Part.locks, Part.insts, Part.units]) : (activated k pause y s).get x = s.get x := by
  simp only [List.mem_cons, List.not_mem_nil, or_false, not_or] at hx
  unfold activated; repeat' (first | (with_reducible rfl) | (simp [hx]; done) | split)

@[simp] theorem clearHold_get (s : State) (x : Part)
    (hx : x ∉ [Part.sch, Part.tags, Part.fresh]) : (clearHold s).get x = s.get x := by
  simp only [List.mem_cons, List.not_mem_nil, or_false, not_or] at hx
  unfold clearHold; repeat' (first | (with_reducible rfl) | (simp [hx]; done) | split)

@[simp] theorem featureGet_get (n : Nat) (p : List Byte) (k : Nat) (s : State) (x : Part)
    (hx : x ∉ [Part.tags, Part.locks, Part.units, Part.fresh]) : (featureGet n p k s).get x = s.get x := by
  simp only [List.mem_cons, List.not_mem_nil, or_false, not_or] at hx
  unfold featureGet; repeat' (first | (with_reducible rfl) | (simp [hx]; done) | split)

@[simp] theorem setFeature_get (n : Nat) (id : Nat) (v : Nat) (s : State) (x : Part)
    (hx : x ∉ [Part.bsh, Part.insts]) : (setFeature n id v s).get x = s.get x := by
  simp only [List.mem_cons, List.not_mem_nil, or_false, not_or] at hx
  unfold setFeature; repeat' (first | (with_reducible rfl) | (simp [hx]; done) | split)

@[simp] theorem featureSet_get (n : Nat) (p : List Byte) (k : Nat) (s : State) (x : Part)
    (hx : x ∉ [Part.bsh, Part.tags, Part.locks, Part.insts, Part.units]) : (featureSet n p k s).get x = s.get x := by
  simp only [List.mem_cons, List.not_mem_nil, or_false, not_or] at hx
  unfold featureSet; repeat' (first | (with_reducible rfl) | (simp [hx]; done) | split)

@[simp] theorem logRead_get (n : Nat) (p : List Byte) (k : Nat) (s : State) (x : Part)
    (hx : x ∉ [Part.mgr, Part.tags, Part.locks, Part.units, Part.hostMem]) : (logRead n p k s).get x = s.get x := by
  simp only [List.mem_cons, List.not_mem_nil, or_false, not_or] at hx
  unfold logRead; repeat' (first | (with_reducible rfl) | (simp [hx]; done) | split)

@[simp] theorem fwActivate_get (accepts : Bool) (k : Nat) (s : State) (x : Part)
    (hx : x ∉ [Part.sec, Part.tags, Part.locks, Part.units]) : (fwActivate accepts k s).get x = s.get x := by
  simp only [List.mem_cons, List.not_mem_nil, or_false, not_or] at hx
  unfold fwActivate; repeat' (first | (with_reducible rfl) | (simp [hx]; done) | split)

@[simp] theorem laneFault_get (pool : Nat) (lane : Nat) (by_ : Nat) (ns : Nat) (s : State) (x : Part)
    (hx : x ∉ [Part.glb, Part.pwr, Part.bsh, Part.sec, Part.flc, Part.insts]) : (laneFault pool lane by_ ns s).get x = s.get x := by
  simp only [List.mem_cons, List.not_mem_nil, or_false, not_or] at hx
  unfold laneFault; repeat' (first | (with_reducible rfl) | (simp [hx]; done) | split)

@[simp] theorem countLane_get (y : Nat) (lane : Nat) (inLen : Nat) (outLen : Nat) (s : State) (x : Part)
    (hx : x ∉ [Part.bsh]) : (countLane y lane inLen outLen s).get x = s.get x := by
  simp only [List.mem_cons, List.not_mem_nil, or_false, not_or] at hx
  unfold countLane; repeat' (first | (with_reducible rfl) | (simp [hx]; done) | split)

@[simp] theorem stageGood_get (n : Nat) (p : List Byte) (lane : Nat) (len : Nat) (u : UnitDesc) (s : State) (x : Part)
    (hx : x ∉ [Part.glb, Part.bsh, Part.flc]) : (stageGood n p lane len u s).2.get x = s.get x := by
  simp only [List.mem_cons, List.not_mem_nil, or_false, not_or] at hx
  unfold stageGood; repeat' (first | (with_reducible rfl) | (simp [hx]; done) | split)

@[simp] theorem stageCrc_get (n : Nat) (p : List Byte) (u : UnitDesc) (s : State) (x : Part)
    (hx : x ∉ [Part.glb, Part.flc]) : (stageCrc n p u s).2.get x = s.get x := by
  simp only [List.mem_cons, List.not_mem_nil, or_false, not_or] at hx
  unfold stageCrc; repeat' (first | (with_reducible rfl) | (simp [hx]; done) | split)

@[simp] theorem stageTag_get (n : Nat) (p : List Byte) (u : UnitDesc) (s : State) (x : Part)
    (hx : x ∉ [Part.glb, Part.flc]) : (stageTag n p u s).2.get x = s.get x := by
  simp only [List.mem_cons, List.not_mem_nil, or_false, not_or] at hx
  unfold stageTag; repeat' (first | (with_reducible rfl) | (simp [hx]; done) | split)

@[simp] theorem stageDone_get (n : Nat) (p : List Byte) (k : Nat) (i : Nat) (lane : Nat) (len : Nat) (outcome : Nat) (by_ : Nat) (ns : Nat) (u : UnitDesc) (s : State) (x : Part)
    (hx : x ∉ [Part.glb, Part.pwr, Part.bsh, Part.sec, Part.flc, Part.insts, Part.units, Part.fresh]) : (stageDone n p k i lane len outcome by_ ns u s).get x = s.get x := by
  simp only [List.mem_cons, List.not_mem_nil, or_false, not_or] at hx
  unfold stageDone
  have hg := stageGood_get n p lane len u s x
  have hc := stageCrc_get n p u s x
  have ht := stageTag_get n p u s x
  generalize stageGood n p lane len u s = g at *
  generalize stageCrc n p u s = c at *
  generalize stageTag n p u s = t at *
  obtain ⟨gv, gs⟩ := g
  obtain ⟨cv, cs⟩ := c
  obtain ⟨tv, ts⟩ := t
  by_cases h0 : outcome = 0
  · simpa [h0, hx] using hg
  by_cases h1 : outcome = 1
  · cases producingPool p u.stages <;> simpa [h1, hx] using hc
  by_cases h2 : outcome = 2
  · simpa [h2, hx] using ht
  · simp [h0, h1, h2, hx]

@[simp] theorem openDebug_get (scope : Nat) (s : State) (x : Part)
    (hx : x ∉ [Part.bsh, Part.sec]) : (openDebug scope s).get x = s.get x := by
  simp only [List.mem_cons, List.not_mem_nil, or_false, not_or] at hx
  unfold openDebug; repeat' (first | (with_reducible rfl) | (simp [hx]; done) | split)

@[simp] theorem freshChallenge_get (s : State) (x : Part)
    (hx : x ∉ [Part.sec, Part.fresh]) : (freshChallenge s).get x = s.get x := by
  simp only [List.mem_cons, List.not_mem_nil, or_false, not_or] at hx
  unfold freshChallenge; repeat' (first | (with_reducible rfl) | (simp [hx]; done) | split)

@[simp] theorem submit_get (s : State) (x : Part)
    (hx : x ∉ [Part.bsh, Part.sec, Part.fresh]) : (submit s).get x = s.get x := by
  simp only [List.mem_cons, List.not_mem_nil, or_false, not_or] at hx
  unfold submit; repeat' (first | (with_reducible rfl) | (simp [hx]; done) | split)

@[simp] theorem revocationLoad_get (n : Nat) (p : List Byte) (k : Nat) (s : State) (x : Part)
    (hx : x ∉ [Part.bsh, Part.sec, Part.tags, Part.locks, Part.units]) : (revocationLoad n p k s).get x = s.get x := by
  simp only [List.mem_cons, List.not_mem_nil, or_false, not_or] at hx
  unfold revocationLoad; repeat' (first | (with_reducible rfl) | (simp [hx]; done) | split)

@[simp] theorem attest_get (n : Nat) (p : List Byte) (k : Nat) (s : State) (x : Part)
    (hx : x ∉ [Part.mgr, Part.tags, Part.locks, Part.units, Part.hostMem]) : (attest n p k s).get x = s.get x := by
  simp only [List.mem_cons, List.not_mem_nil, or_false, not_or] at hx
  unfold attest; repeat' (first | (with_reducible rfl) | (simp [hx]; done) | split)

@[simp] theorem reseed_get (s : State) (x : Part)
    (hx : x ∉ [Part.sec]) : (reseed s).get x = s.get x := by
  simp only [List.mem_cons, List.not_mem_nil, or_false, not_or] at hx
  unfold reseed; repeat' (first | (with_reducible rfl) | (simp [hx]; done) | split)

@[simp] theorem entropyFails_get (s : State) (x : Part)
    (hx : x ∉ [Part.glb, Part.sec, Part.flc]) : (entropyFails s).get x = s.get x := by
  simp only [List.mem_cons, List.not_mem_nil, or_false, not_or] at hx
  unfold entropyFails; repeat' (first | (with_reducible rfl) | (simp [hx]; done) | split)

@[simp] theorem requestKey_get (k : Nat) (n : Nat) (anchorId : Nat) (l : List Byte) (s : State) (x : Part)
    (hx : x ∉ [Part.spn, Part.tags]) : (requestKey k n anchorId l s).get x = s.get x := by
  simp only [List.mem_cons, List.not_mem_nil, or_false, not_or] at hx
  unfold requestKey; repeat' (first | (with_reducible rfl) | (simp [hx]; done) | split)

@[simp] theorem licenceLoad_get (n : Nat) (p : List Byte) (k : Nat) (s : State) (x : Part)
    (hx : x ∉ [Part.sec, Part.spn, Part.tags, Part.locks, Part.units]) : (licenceLoad n p k s).get x = s.get x := by
  simp only [List.mem_cons, List.not_mem_nil, or_false, not_or] at hx
  unfold licenceLoad; repeat' (first | (with_reducible rfl) | (simp [hx]; done) | (simp (zetaDelta := true) [hx]; done) | extract_lets | split)

@[simp] theorem openSeal_get (n : Nat) (k : Nat) (no : Nat) (out : Nat) (b : List Byte) (s : State) (x : Part)
    (hx : x ∉ [Part.mgr, Part.sec, Part.tags, Part.locks, Part.units, Part.hostMem, Part.fresh]) : (openSeal n k no out b s).get x = s.get x := by
  simp only [List.mem_cons, List.not_mem_nil, or_false, not_or] at hx
  unfold openSeal; repeat' (first | (with_reducible rfl) | (simp [hx]; done) | split)

@[simp] theorem sealOpen_get (n : Nat) (p : List Byte) (k : Nat) (s : State) (x : Part)
    (hx : x ∉ [Part.mgr, Part.sec, Part.tags, Part.locks, Part.units, Part.hostMem, Part.fresh]) : (sealOpen n p k s).get x = s.get x := by
  simp only [List.mem_cons, List.not_mem_nil, or_false, not_or] at hx
  unfold sealOpen; repeat' (first | (with_reducible rfl) | (simp [hx]; done) | split)

@[simp] theorem commit_get (made : List Nat) (s : State) (x : Part)
    (hx : x ∉ [Part.otp, Part.sec]) : (commit made s).get x = s.get x := by
  simp only [List.mem_cons, List.not_mem_nil, or_false, not_or] at hx
  unfold commit; repeat' (first | (with_reducible rfl) | (simp [hx]; done) | split)

@[simp] theorem createVolume_get (p : List Byte) (k : Nat) (s : State) (x : Part)
    (hx : x ∉ [Part.sec, Part.flc, Part.tags, Part.locks, Part.units, Part.fresh]) : (createVolume p k s).get x = s.get x := by
  simp only [List.mem_cons, List.not_mem_nil, or_false, not_or] at hx
  unfold createVolume; repeat' (first | (with_reducible rfl) | (simp [hx]; done) | split)

@[simp] theorem sanitOne_get (method : Nat) (s : State) (v : Nat) (x : Part)
    (hx : x ∉ [Part.bsh, Part.sec, Part.flc, Part.fresh]) : (sanitOne method s v).get x = s.get x := by
  simp only [List.mem_cons, List.not_mem_nil, or_false, not_or] at hx
  unfold sanitOne; repeat' (first | (with_reducible rfl) | (simp [hx]; done) | split)

@[simp] theorem dropSanit_get (v : Nat) (s : State) (x : Part)
    (hx : x ∉ [Part.flc]) : (dropSanit v s).get x = s.get x := by
  simp only [List.mem_cons, List.not_mem_nil, or_false, not_or] at hx
  unfold dropSanit; repeat' (first | (with_reducible rfl) | (simp [hx]; done) | split)

@[simp] theorem sanitErase_get (y : Sanit) (sbs : List Nat) (w : Nat) (s : State) (x : Part)
    (hx : x ∉ [Part.flc, Part.insts]) : (sanitErase y sbs w s).get x = s.get x := by
  simp only [List.mem_cons, List.not_mem_nil, or_false, not_or] at hx
  unfold sanitErase; repeat' (first | (with_reducible rfl) | (simp [hx]; done) | split)

@[simp] theorem deleteVolume_get (p : List Byte) (k : Nat) (s : State) (x : Part)
    (hx : x ∉ [Part.bsh, Part.sec, Part.flc, Part.tags, Part.locks, Part.units]) : (deleteVolume p k s).get x = s.get x := by
  simp only [List.mem_cons, List.not_mem_nil, or_false, not_or] at hx
  unfold deleteVolume; repeat' (first | (with_reducible rfl) | (simp [hx]; done) | split)

@[simp] theorem sanitStep_get (method : Nat) (sbs : List Nat) (w : Nat) (p : List Byte) (k : Nat) (s : State) (x : Part)
    (hx : x ∉ [Part.bsh, Part.sec, Part.flc, Part.tags, Part.locks, Part.insts, Part.units, Part.fresh]) : (sanitStep method sbs w p k s).get x = s.get x := by
  simp only [List.mem_cons, List.not_mem_nil, or_false, not_or] at hx
  unfold sanitStep; repeat' (first | (with_reducible rfl) | (simp [hx]; done) | (simp (zetaDelta := true) [hx]; done) | extract_lets | split)

@[simp] theorem cleanStop_get (s : State) (x : Part)
    (hx : x ∉ [Part.glb, Part.flc, Part.mem, Part.spn, Part.tags, Part.locks, Part.units]) : (cleanStop s).get x = s.get x := by
  simp only [List.mem_cons, List.not_mem_nil, or_false, not_or] at hx
  unfold cleanStop; repeat' (first | (with_reducible rfl) | (simp [hx]; done) | split)

@[simp] theorem applyRepair_get (factory : Bool) (kind : Nat) (unit : Nat) (addr : Nat) (s : State) (x : Part)
    (hx : x ∉ [Part.mem]) : (applyRepair factory kind unit addr s).get x = s.get x := by
  simp only [List.mem_cons, List.not_mem_nil, or_false, not_or] at hx
  unfold applyRepair; repeat' (first | (with_reducible rfl) | (simp [hx]; done) | (simp (zetaDelta := true) [hx]; done) | extract_lets | split)

@[simp] theorem factoryRepairs_get (s : State) (x : Part)
    (hx : x ∉ [Part.mem]) : (factoryRepairs s).get x = s.get x := by
  simp only [List.mem_cons, List.not_mem_nil, or_false, not_or] at hx
  unfold factoryRepairs; repeat' (first | (with_reducible rfl) | (simp [hx]; done) | split)

@[simp] theorem toStage_get (n : Nat) (s : State) (x : Part)
    (hx : x ∉ [Part.glb]) : (toStage n s).get x = s.get x := by
  simp only [List.mem_cons, List.not_mem_nil, or_false, not_or] at hx
  unfold toStage; repeat' (first | (with_reducible rfl) | (simp [hx]; done) | split)

@[simp] theorem runImage_get (candidate : Nat) (src : Nat) (y : Image) (s : State) (x : Part)
    (hx : x ∉ [Part.glb]) : (runImage candidate src y s).get x = s.get x := by
  simp only [List.mem_cons, List.not_mem_nil, or_false, not_or] at hx
  unfold runImage; repeat' (first | (with_reducible rfl) | (simp [hx]; done) | split)

@[simp] theorem endImage_get (o : StartOutcome) (s : State) (x : Part)
    (hx : x ∉ [Part.glb]) : (endImage o s).get x = s.get x := by
  simp only [List.mem_cons, List.not_mem_nil, or_false, not_or] at hx
  unfold endImage; repeat' (first | (with_reducible rfl) | (simp [hx]; done) | (simp (zetaDelta := true) [hx]; done) | extract_lets | split)

@[simp] theorem progResult_get (r : Nat) (s : State) (x : Part)
    (hx : x ∉ [Part.otp]) : (progResult r s).get x = s.get x := by
  simp only [List.mem_cons, List.not_mem_nil, or_false, not_or] at hx
  unfold progResult; repeat' (first | (with_reducible rfl) | (simp [hx]; done) | split)

@[simp] theorem firstFormat_get (o : StartOutcome) (s : State) (x : Part)
    (hx : x ∉ [Part.glb, Part.flc, Part.drc, Part.fresh]) : (firstFormat o s).get x = s.get x := by
  simp only [List.mem_cons, List.not_mem_nil, or_false, not_or] at hx
  unfold firstFormat; repeat' (first | (with_reducible rfl) | (simp [hx]; done) | split)

@[simp] theorem newLimit_get (s : State) (x : Part)
    (hx : x ∉ [Part.glb, Part.flc]) : (newLimit s).get x = s.get x := by
  simp only [List.mem_cons, List.not_mem_nil, or_false, not_or] at hx
  unfold newLimit; repeat' (first | (with_reducible rfl) | (simp [hx]; done) | split)

@[simp] theorem resumeSanitize_get (w : Nat) (y : Sanit) (s : State) (x : Part)
    (hx : x ∉ [Part.glb, Part.bsh, Part.sec, Part.flc, Part.insts, Part.fresh]) : (resumeSanitize w y s).get x = s.get x := by
  simp only [List.mem_cons, List.not_mem_nil, or_false, not_or] at hx
  unfold resumeSanitize; repeat' (first | (with_reducible rfl) | (simp [hx]; done) | split)

@[simp] theorem endReplay_get (o : StartOutcome) (s : State) (x : Part)
    (hx : x ∉ [Part.glb, Part.bsh, Part.sec, Part.flc, Part.drc, Part.spn, Part.tags, Part.locks, Part.insts, Part.units, Part.fresh]) : (endReplay o s).get x = s.get x := by
  simp only [List.mem_cons, List.not_mem_nil, or_false, not_or] at hx
  unfold endReplay; repeat' (first | (with_reducible rfl) | (simp [hx]; done) | split)

@[simp] theorem becomeReady_get (s : State) (x : Part)
    (hx : x ∉ [Part.glb, Part.pwr, Part.flc]) : (becomeReady s).get x = s.get x := by
  simp only [List.mem_cons, List.not_mem_nil, or_false, not_or] at hx
  unfold becomeReady; repeat' (first | (with_reducible rfl) | (simp [hx]; done) | split)

@[simp] theorem mapVolume_get (v : Nat) (u : Vol) (s : State) (x : Part)
    (hx : x ∉ [Part.glb, Part.sec, Part.flc, Part.insts, Part.fresh]) : (mapVolume v u s).get x = s.get x := by
  simp only [List.mem_cons, List.not_mem_nil, or_false, not_or] at hx
  unfold mapVolume; repeat' (first | (with_reducible rfl) | (simp [hx]; done) | split)

@[simp] theorem endMap_get (s : State) (x : Part)
    (hx : x ∉ [Part.glb, Part.sec, Part.flc, Part.mem, Part.insts, Part.fresh]) : (endMap s).get x = s.get x := by
  simp only [List.mem_cons, List.not_mem_nil, or_false, not_or] at hx
  unfold endMap; repeat' (first | (with_reducible rfl) | (simp [hx]; done) | split)

@[simp] theorem zeroiseKeys_get (s : State) (x : Part)
    (hx : x ∉ [Part.otp, Part.bsh, Part.sec]) : (zeroiseKeys s).get x = s.get x := by
  simp only [List.mem_cons, List.not_mem_nil, or_false, not_or] at hx
  unfold zeroiseKeys; repeat' (first | (with_reducible rfl) | (simp [hx]; done) | split)

@[simp] theorem program_get (addr : Nat) (bs : List Byte) (misses : List (Nat × Nat)) (s : State) (x : Part)
    (hx : x ∉ [Part.otp]) : (program addr bs misses s).2.get x = s.get x := by
  simp only [List.mem_cons, List.not_mem_nil, or_false, not_or] at hx
  unfold program; repeat' (first | (with_reducible rfl) | (simp [hx]; done) | split)

@[simp] theorem transition_get (goal : Nat) (misses : List (Nat × Nat)) (s : State) (x : Part)
    (hx : x ∉ [Part.otp, Part.bsh, Part.sec]) : (transition goal misses s).2.get x = s.get x := by
  simp only [List.mem_cons, List.not_mem_nil, or_false, not_or] at hx
  unfold transition
  simp only
  split <;> simp [hx]

@[simp] theorem otpGo_get (misses : List (Nat × Nat)) (s : State) (x : Part)
    (hx : x ∉ [Part.glb, Part.otp, Part.bsh, Part.sec, Part.flc, Part.fresh]) : (otpGo misses s).get x = s.get x := by
  simp only [List.mem_cons, List.not_mem_nil, or_false, not_or] at hx
  unfold otpGo; repeat' (first | (with_reducible rfl) | (simp [hx]; done) | split)

@[simp] theorem recovResult_get (r : Nat) (s : State) (x : Part)
    (hx : x ∉ [Part.glb]) : (recovResult r s).get x = s.get x := by
  simp only [List.mem_cons, List.not_mem_nil, or_false, not_or] at hx
  unfold recovResult; repeat' (first | (with_reducible rfl) | (simp [hx]; done) | split)

@[simp] theorem recover_get (hostError : Bool) (s : State) (x : Part)
    (hx : x ∉ [Part.glb]) : (recover hostError s).get x = s.get x := by
  simp only [List.mem_cons, List.not_mem_nil, or_false, not_or] at hx
  unfold recover; repeat' (first | (with_reducible rfl) | (simp [hx]; done) | split)

@[simp] theorem sampledPins_get (straps : Nat) (smba : Nat) (ref0 : Bool) (ref1 : Bool) (s : State) (x : Part)
    (hx : x ∉ [Part.glb, Part.clk, Part.hif, Part.now]) : (sampledPins straps smba ref0 ref1 s).get x = s.get x := by
  simp only [List.mem_cons, List.not_mem_nil, or_false, not_or] at hx
  unfold sampledPins; repeat' (first | (with_reducible rfl) | (simp [hx]; done) | split)

@[simp] theorem takeFuses_get (o : StartOutcome) (s : State) (x : Part)
    (hx : x ∉ [Part.glb, Part.clk, Part.otp, Part.sec, Part.flc, Part.mem, Part.fresh]) : (takeFuses o s).get x = s.get x := by
  simp only [List.mem_cons, List.not_mem_nil, or_false, not_or] at hx
  unfold takeFuses; repeat' (first | (with_reducible rfl) | (simp [hx]; done) | split)

@[simp] theorem endFuses_get (o : StartOutcome) (s : State) (x : Part)
    (hx : x ∉ [Part.glb, Part.clk, Part.otp, Part.sec, Part.flc, Part.mem, Part.fresh]) : (endFuses o s).get x = s.get x := by
  simp only [List.mem_cons, List.not_mem_nil, or_false, not_or] at hx
  unfold endFuses; repeat' (first | (with_reducible rfl) | (simp [hx]; done) | split)

@[simp] theorem testUnits_get (o : StartOutcome) (s : State) (x : Part)
    (hx : x ∉ [Part.pwr, Part.bsh, Part.sec, Part.idx, Part.flc]) : (testUnits o s).get x = s.get x := by
  simp only [List.mem_cons, List.not_mem_nil, or_false, not_or] at hx
  unfold testUnits; repeat' (first | (with_reducible rfl) | (simp [hx]; done) | split)

@[simp] theorem endScruple_get (o : StartOutcome) (s : State) (x : Part)
    (hx : x ∉ [Part.glb, Part.clk, Part.pwr, Part.bsh, Part.sec, Part.sch, Part.idx, Part.flc, Part.mem, Part.cch]) : (endScruple o s).get x = s.get x := by
  simp only [List.mem_cons, List.not_mem_nil, or_false, not_or] at hx
  unfold endScruple; repeat' (first | (with_reducible rfl) | (simp [hx]; done) | split)

@[simp] theorem trainSide_get (b : Bool) (mib : Nat) (ok : Bool) (s : State) (x : Part)
    (hx : x ∉ [Part.glb, Part.pwr, Part.bsh, Part.flc, Part.drc, Part.insts]) : (trainSide b mib ok s).get x = s.get x := by
  simp only [List.mem_cons, List.not_mem_nil, or_false, not_or] at hx
  unfold trainSide; repeat' (first | (with_reducible rfl) | (simp [hx]; done) | split)

@[simp] theorem trainChannel_get (t : Tbl Die) (f : FoundChannel) (s : State) (x : Part)
    (hx : x ∉ [Part.glb, Part.flc, Part.insts]) : (trainChannel t f s).get x = s.get x := by
  simp only [List.mem_cons, List.not_mem_nil, or_false, not_or] at hx
  unfold trainChannel; repeat' (first | (with_reducible rfl) | (simp [hx]; done) | split)

@[simp] theorem clearChannels_get (s : State) (x : Part)
    (hx : x ∉ [Part.flc]) : (clearChannels s).get x = s.get x := by
  simp only [List.mem_cons, List.not_mem_nil, or_false, not_or] at hx
  unfold clearChannels; repeat' (first | (with_reducible rfl) | (simp [hx]; done) | split)

@[simp] theorem endTraining_get (o : StartOutcome) (s : State) (x : Part)
    (hx : x ∉ [Part.glb, Part.pwr, Part.bsh, Part.flc, Part.drc, Part.insts]) : (endTraining o s).get x = s.get x := by
  simp only [List.mem_cons, List.not_mem_nil, or_false, not_or] at hx
  unfold endTraining; repeat' (first | (with_reducible rfl) | (simp [hx]; done) | split)

@[simp] theorem endConfig_get (o : StartOutcome) (s : State) (x : Part)
    (hx : x ∉ [Part.glb, Part.clk, Part.pwr, Part.mem, Part.cch, Part.drc]) : (endConfig o s).get x = s.get x := by
  simp only [List.mem_cons, List.not_mem_nil, or_false, not_or] at hx
  unfold endConfig; repeat' (first | (with_reducible rfl) | (simp [hx]; done) | split)

@[simp] theorem phaseEnds_get (o : StartOutcome) (s : State) (x : Part)
    (hx : x ∉ [Part.glb, Part.clk, Part.otp, Part.pwr, Part.bsh, Part.sec, Part.sch, Part.idx, Part.flc, Part.mem, Part.cch, Part.drc, Part.spn, Part.tags, Part.locks, Part.insts, Part.units, Part.fresh]) : (phaseEnds o s).get x = s.get x := by
  simp only [List.mem_cons, List.not_mem_nil, or_false, not_or] at hx
  unfold phaseEnds; repeat' (first | (with_reducible rfl) | (simp [hx]; done) | split)

@[simp] theorem smbusGives_get (bs : List Byte) (s : State) (x : Part)
    (hx : x ∉ [Part.hif]) : (smbusGives bs s).get x = s.get x := by
  simp only [List.mem_cons, List.not_mem_nil, or_false, not_or] at hx
  unfold smbusGives; repeat' (first | (with_reducible rfl) | (simp [hx]; done) | split)

@[simp] theorem endService_get (s : State) (x : Part)
    (hx : x ∉ [Part.glb]) : (endService s).get x = s.get x := by
  simp only [List.mem_cons, List.not_mem_nil, or_false, not_or] at hx
  unfold endService; repeat' (first | (with_reducible rfl) | (simp [hx]; done) | split)

@[simp] theorem jtag_get (ir : Nat) (driven : Bool) (float : Bool) (s : State) (x : Part)
    (hx : x ∉ [Part.hif]) : (jtag ir driven float s).get x = s.get x := by
  simp only [List.mem_cons, List.not_mem_nil, or_false, not_or] at hx
  unfold jtag; repeat' (first | (with_reducible rfl) | (simp [hx]; done) | split)

@[simp] theorem perstPort_get (p : Nat) (pin : Bool) (s : State) (x : Part)
    (hx : x ∉ [Part.hif]) : (perstPort p pin s).get x = s.get x := by
  simp only [List.mem_cons, List.not_mem_nil, or_false, not_or] at hx
  unfold perstPort; repeat' (first | (with_reducible rfl) | (simp [hx]; done) | split)

@[simp] theorem restartDevice_get (s : State) (x : Part)
    (hx : x ∉ [Part.glb, Part.clk, Part.hif, Part.mgr, Part.otp, Part.dbg, Part.pwr, Part.bsh, Part.sec, Part.sch, Part.dmz, Part.idx, Part.flc, Part.mem, Part.cch, Part.drc, Part.spn, Part.tags, Part.locks, Part.insts, Part.units, Part.acceptCount, Part.now]) : (restartDevice s).get x = s.get x := by
  simp only [List.mem_cons, List.not_mem_nil, or_false, not_or] at hx
  unfold restartDevice; repeat' (first | (with_reducible rfl) | (simp [hx]; done) | split)

@[simp] theorem settleDeviceReset_get (s : State) (x : Part)
    (hx : x ∉ [Part.glb, Part.clk, Part.hif, Part.mgr, Part.otp, Part.dbg, Part.pwr, Part.bsh, Part.sec, Part.sch, Part.dmz, Part.idx, Part.flc, Part.mem, Part.cch, Part.drc, Part.spn, Part.tags, Part.locks, Part.insts, Part.units, Part.acceptCount, Part.now]) : (settleDeviceReset s).get x = s.get x := by
  simp only [List.mem_cons, List.not_mem_nil, or_false, not_or] at hx
  unfold settleDeviceReset; repeat' (first | (with_reducible rfl) | (simp [hx]; done) | split)

@[simp] theorem settleInstances_get (s : State) (x : Part)
    (hx : x ∉ [Part.idx, Part.flc, Part.spn, Part.insts]) : (settleInstances s).get x = s.get x := by
  simp only [List.mem_cons, List.not_mem_nil, or_false, not_or] at hx
  unfold settleInstances; refine State.get_foldl _ _ _ _ (fun s p => ?_); repeat' (first | (with_reducible rfl) | (simp [hx]; done) | split)

@[simp] theorem flrInstances_get (p : Nat) (s : State) (x : Part)
    (hx : x ∉ [Part.bsh, Part.sec, Part.sch, Part.dmz, Part.idx, Part.spn, Part.tags, Part.locks, Part.insts, Part.units, Part.fresh]) : (flrInstances p s).get x = s.get x := by
  simp only [List.mem_cons, List.not_mem_nil, or_false, not_or] at hx
  unfold flrInstances; repeat' (first | (with_reducible rfl) | (simp [hx]; done) | split)

@[simp] theorem settleObjects_get (s : State) (x : Part)
    (hx : x ∉ [Part.bsh, Part.sec, Part.dmz, Part.idx, Part.tags, Part.locks, Part.units]) : (settleObjects s).get x = s.get x := by
  simp only [List.mem_cons, List.not_mem_nil, or_false, not_or] at hx
  unfold settleObjects; repeat' (first | (with_reducible rfl) | (simp [hx]; done) | split)

@[simp] theorem deviceReset_get (k : Nat) (s : State) (x : Part)
    (hx : x ∉ [Part.glb, Part.bsh, Part.sec, Part.sch, Part.dmz, Part.idx, Part.spn, Part.tags, Part.locks, Part.insts, Part.units, Part.fresh]) : (deviceReset k s).get x = s.get x := by
  simp only [List.mem_cons, List.not_mem_nil, or_false, not_or] at hx
  unfold deviceReset; repeat' (first | (with_reducible rfl) | (simp [hx]; done) | split)

@[simp] theorem endTags_get (n : Nat) (s : State) (x : Part)
    (hx : x ∉ [Part.glb, Part.bsh, Part.sec, Part.sch, Part.dmz, Part.flc, Part.spn, Part.tags, Part.locks, Part.insts, Part.units, Part.fresh]) : (endTags n s).get x = s.get x := by
  simp only [List.mem_cons, List.not_mem_nil, or_false, not_or] at hx
  unfold endTags; repeat' (first | (with_reducible rfl) | (simp [hx]; done) | split)

@[simp] theorem resetWindow0_get (s : State) (x : Part)
    (hx : x ∉ [Part.mgr, Part.bsh, Part.sec, Part.dmz, Part.idx, Part.tags, Part.locks, Part.insts, Part.units]) : (resetWindow0 s).get x = s.get x := by
  simp only [List.mem_cons, List.not_mem_nil, or_false, not_or] at hx
  unfold resetWindow0; repeat' (first | (with_reducible rfl) | (simp [hx]; done) | split)

@[simp] theorem perstInstance_get (n : Nat) (s : State) (x : Part)
    (hx : x ∉ [Part.glb, Part.mgr, Part.bsh, Part.sec, Part.sch, Part.dmz, Part.idx, Part.flc, Part.spn, Part.tags, Part.locks, Part.insts, Part.units, Part.fresh]) : (perstInstance n s).get x = s.get x := by
  simp only [List.mem_cons, List.not_mem_nil, or_false, not_or] at hx
  unfold perstInstance; repeat' (first | (with_reducible rfl) | (simp [hx]; done) | split)

@[simp] theorem flrFunction_get (p : Nat) (s : State) (x : Part)
    (hx : x ∉ [Part.hif]) : (flrFunction p s).get x = s.get x := by
  simp only [List.mem_cons, List.not_mem_nil, or_false, not_or] at hx
  unfold flrFunction; repeat' (first | (with_reducible rfl) | (simp [hx]; done) | split)

@[simp] theorem endVolume_get (t : Tag) (s : State) (x : Part)
    (hx : x ∉ [Part.flc, Part.insts]) : (endVolume t s).get x = s.get x := by
  simp only [List.mem_cons, List.not_mem_nil, or_false, not_or] at hx
  unfold endVolume; repeat' (first | (with_reducible rfl) | (simp [hx]; done) | split)

@[simp] theorem endNote_get (k : Nat) (t : Tag) (s : State) (x : Part)
    (hx : x ∉ [Part.insts]) : (endNote k t s).get x = s.get x := by
  simp only [List.mem_cons, List.not_mem_nil, or_false, not_or] at hx
  unfold endNote; repeat' (first | (with_reducible rfl) | (simp [hx]; done) | split)

@[simp] theorem startRespread_get (t : Tag) (s : State) (x : Part)
    (hx : x ∉ [Part.idx]) : (startRespread t s).get x = s.get x := by
  simp only [List.mem_cons, List.not_mem_nil, or_false, not_or] at hx
  unfold startRespread; repeat' (first | (with_reducible rfl) | (simp [hx]; done) | split)

@[simp] theorem endUse_get (s : State) (u : Use) (x : Part)
    (hx : x ∉ [Part.bsh, Part.sec, Part.dmz, Part.idx, Part.tags, Part.locks, Part.units]) : (endUse s u).get x = s.get x := by
  simp only [List.mem_cons, List.not_mem_nil, or_false, not_or] at hx
  unfold endUse; repeat' (first | (with_reducible rfl) | (simp [hx]; done) | split)

@[simp] theorem endReset_get (t : Tag) (s : State) (x : Part)
    (hx : x ∉ [Part.idx, Part.flc, Part.spn, Part.insts]) : (endReset t s).get x = s.get x := by
  simp only [List.mem_cons, List.not_mem_nil, or_false, not_or] at hx
  unfold endReset; repeat' (first | (with_reducible rfl) | (simp [hx]; done) | (simp (zetaDelta := true) [hx]; done) | extract_lets | split)

@[simp] theorem afterCommit_get (k : Nat) (t : Tag) (s : State) (x : Part)
    (hx : x ∉ [Part.glb, Part.clk, Part.hif, Part.mgr, Part.otp, Part.dbg, Part.pwr, Part.bsh, Part.sec, Part.sch, Part.dmz, Part.idx, Part.flc, Part.mem, Part.cch, Part.drc, Part.spn, Part.tags, Part.locks, Part.insts, Part.units, Part.acceptCount, Part.now]) : (afterCommit k t s).get x = s.get x := by
  simp only [List.mem_cons, List.not_mem_nil, or_false, not_or] at hx
  unfold afterCommit; repeat' (first | (with_reducible rfl) | (simp [hx]; done) | split)

@[simp] theorem writeReply_get (k : Nat) (t : Tag) (s : State) (x : Part)
    (hx : x ∉ [Part.glb, Part.hif, Part.mgr, Part.flc, Part.insts, Part.hostMem]) : (writeReply k t s).get x = s.get x := by
  simp only [List.mem_cons, List.not_mem_nil, or_false, not_or] at hx
  unfold writeReply; repeat' (first | (with_reducible rfl) | (simp [hx]; done) | split)

@[simp] theorem writeEvent_get (n : Nat) (e : Event) (s : State) (x : Part)
    (hx : x ∉ [Part.glb, Part.hif, Part.mgr, Part.flc, Part.insts, Part.hostMem]) : (writeEvent n e s).get x = s.get x := by
  simp only [List.mem_cons, List.not_mem_nil, or_false, not_or] at hx
  unfold writeEvent; repeat' (first | (with_reducible rfl) | (simp [hx]; done) | split)

@[simp] theorem freeTag_get (k : Nat) (s : State) (x : Part)
    (hx : x ∉ [Part.sch, Part.tags]) : (freeTag k s).get x = s.get x := by
  simp only [List.mem_cons, List.not_mem_nil, or_false, not_or] at hx
  unfold freeTag; repeat' (first | (with_reducible rfl) | (simp [hx]; done) | split)

@[simp] theorem commitReply_get (k : Nat) (t : Tag) (s : State) (x : Part)
    (hx : x ∉ [Part.glb, Part.clk, Part.hif, Part.mgr, Part.otp, Part.dbg, Part.pwr, Part.bsh, Part.sec, Part.sch, Part.dmz, Part.idx, Part.flc, Part.mem, Part.cch, Part.drc, Part.spn, Part.tags, Part.locks, Part.insts, Part.units, Part.acceptCount, Part.hostMem, Part.now]) : (commitReply k t s).get x = s.get x := by
  simp only [List.mem_cons, List.not_mem_nil, or_false, not_or] at hx
  unfold commitReply; repeat' (first | (with_reducible rfl) | (simp [hx]; done) | split)

@[simp] theorem tblResult_get (r : Nat) (s : State) (x : Part)
    (hx : x ∉ [Part.idx]) : (tblResult r s).get x = s.get x := by
  simp only [List.mem_cons, List.not_mem_nil, or_false, not_or] at hx
  unfold tblResult; repeat' (first | (with_reducible rfl) | (simp [hx]; done) | split)

@[simp] theorem requestTable_get (op : Nat) (tb : Nat) (s : State) (x : Part)
    (hx : x ∉ [Part.idx]) : (requestTable op tb s).get x = s.get x := by
  simp only [List.mem_cons, List.not_mem_nil, or_false, not_or] at hx
  unfold requestTable; repeat' (first | (with_reducible rfl) | (simp [hx]; done) | split)

@[simp] theorem noteMoved_get (k : Nat) (moved : Bool) (s : State) (x : Part)
    (hx : x ∉ [Part.tags]) : (noteMoved k moved s).get x = s.get x := by
  simp only [List.mem_cons, List.not_mem_nil, or_false, not_or] at hx
  unfold noteMoved; repeat' (first | (with_reducible rfl) | (simp [hx]; done) | split)

theorem place_get (tb : Nat) (t : ITable) (e : IEntry) (s : State) (i : Nat) (m : Bool) (s' : State) (x : Part)
    (hx : x ∉ [Part.idx]) (h : place tb t e s = some (i, m, s')) : s'.get x = s.get x := by
  simp only [List.mem_cons, List.not_mem_nil, or_false] at hx
  unfold place at h
  dsimp only at h
  split at h
  · simp only [Option.some.injEq, Prod.mk.injEq] at h
    obtain ⟨_, _, rfl⟩ := h
    simp [hx]
  · split at h
    · simp at h
    · simp only [Option.some.injEq, Prod.mk.injEq] at h
      obtain ⟨_, _, rfl⟩ := h
      simp [hx]

@[simp] theorem insertDone_get (tb : Nat) (t : ITable) (p : List Byte) (k : Nat) (s : State) (x : Part)
    (hx : x ∉ [Part.idx, Part.tags, Part.locks, Part.units]) : (insertDone tb t p k s).get x = s.get x := by
  simp only [List.mem_cons, List.not_mem_nil, or_false, not_or] at hx
  unfold insertDone
  dsimp only
  split
  · simp [hx]
  · split
    · simp [hx]
    · cases hp : place tb t _ s with
      | none => simp [hx]
      | some r =>
        obtain ⟨i, m, s'⟩ := r
        have hg := place_get _ _ _ _ _ _ _ x (by simp [hx]) hp
        simpa [hx] using hg

@[simp] theorem searchDone_get (n : Nat) (err : Bool) (tb : Nat) (t : ITable) (p : List Byte) (k : Nat) (s : State) (x : Part)
    (hx : x ∉ [Part.idx, Part.tags, Part.locks, Part.units]) : (searchDone n err tb t p k s).get x = s.get x := by
  simp only [List.mem_cons, List.not_mem_nil, or_false, not_or] at hx
  unfold searchDone; repeat' (first | (with_reducible rfl) | (simp [hx]; done) | (simp (zetaDelta := true) [hx]; done) | extract_lets | split)

@[simp] theorem deleteEntries_get (tb : Nat) (f : IEntry → Bool) (k : Nat) (s : State) (x : Part)
    (hx : x ∉ [Part.idx, Part.tags, Part.locks, Part.units]) : (deleteEntries tb f k s).get x = s.get x := by
  simp only [List.mem_cons, List.not_mem_nil, or_false, not_or] at hx
  unfold deleteEntries; repeat' (first | (with_reducible rfl) | (simp [hx]; done) | split)

@[simp] theorem stepCursor_get (c : Nat) (k : Nat) (next : Option (Nat × Nat)) (s : State) (x : Part)
    (hx : x ∉ [Part.idx]) : (stepCursor c k next s).get x = s.get x := by
  simp only [List.mem_cons, List.not_mem_nil, or_false, not_or] at hx
  unfold stepCursor; repeat' (first | (with_reducible rfl) | (simp [hx]; done) | split)

@[simp] theorem stepDone_get (n : Nat) (err : Bool) (tb : Nat) (t : ITable) (p : List Byte) (k : Nat) (s : State) (x : Part)
    (hx : x ∉ [Part.idx, Part.tags, Part.locks, Part.units]) : (stepDone n err tb t p k s).get x = s.get x := by
  simp only [List.mem_cons, List.not_mem_nil, or_false, not_or] at hx
  unfold stepDone; repeat' (first | (with_reducible rfl) | (simp [hx]; done) | (simp (zetaDelta := true) [hx]; done) | extract_lets | split)

@[simp] theorem respreadStep_get (tb : Nat) (t : ITable) (s : State) (x : Part)
    (hx : x ∉ [Part.idx]) : (respreadStep tb t s).get x = s.get x := by
  simp only [List.mem_cons, List.not_mem_nil, or_false, not_or] at hx
  unfold respreadStep; repeat' (first | (with_reducible rfl) | (simp [hx]; done) | (simp (zetaDelta := true) [hx]; done) | extract_lets | split)

@[simp] theorem createTable_get (s : State) (x : Part)
    (hx : x ∉ [Part.idx]) : (createTable s).get x = s.get x := by
  simp only [List.mem_cons, List.not_mem_nil, or_false, not_or] at hx
  unfold createTable; repeat' (first | (with_reducible rfl) | (simp [hx]; done) | split)

@[simp] theorem settleRecords_get (k : Nat) (a1 : Nat) (a2 : State) (x : Part)
    (hx : x ∉ [Part.dmz]) : (settleRecords k a1 a2).get x = a2.get x := by
  simp only [List.mem_cons, List.not_mem_nil, or_false, not_or] at hx
  induction a1 generalizing a2 with
  | zero => rfl
  | succ n ih =>
    unfold settleRecords; repeat' (first | (with_reducible rfl) | (simp [ih, hx]; done) | (simp (zetaDelta := true) [ih, hx]; done) | extract_lets | split)

@[simp] theorem stopWrite_get (n : Nat) (units : Nat) (p : List Byte) (k : Nat) (s : State) (x : Part)
    (hx : x ∉ [Part.bsh, Part.sec, Part.flc, Part.spn, Part.tags, Part.locks, Part.units, Part.fresh]) : (stopWrite n units p k s).get x = s.get x := by
  simp only [List.mem_cons, List.not_mem_nil, or_false, not_or] at hx
  unfold stopWrite; repeat' (first | (with_reducible rfl) | (simp [hx]; done) | split)

@[simp] theorem stopCommand_get (n : Nat) (k : Nat) (units : Nat) (t : Tag) (s : State) (x : Part)
    (hx : x ∉ [Part.bsh, Part.sec, Part.dmz, Part.flc, Part.spn, Part.tags, Part.locks, Part.insts, Part.units, Part.fresh]) : (stopCommand n k units t s).get x = s.get x := by
  simp only [List.mem_cons, List.not_mem_nil, or_false, not_or] at hx
  unfold stopCommand; repeat' (first | (with_reducible rfl) | (simp [hx]; done) | split)

@[simp] theorem beginWork_get (n : Nat) (k : Nat) (t : Tag) (s : State) (x : Part)
    (hx : x ∉ [Part.spn, Part.tags, Part.locks]) : (beginWork n k t s).get x = s.get x := by
  simp only [List.mem_cons, List.not_mem_nil, or_false, not_or] at hx
  unfold beginWork; repeat' (first | (with_reducible rfl) | (simp [hx]; done) | split)

@[simp] theorem startCommand_get (n : Nat) (k : Nat) (handle : Nat) (base : Nat) (i : Inst) (t : Tag) (s : State) (x : Part)
    (hx : x ∉ [Part.sch, Part.spn, Part.tags, Part.locks, Part.insts, Part.units]) : (startCommand n k handle base i t s).get x = s.get x := by
  simp only [List.mem_cons, List.not_mem_nil, or_false, not_or] at hx
  unfold startCommand
  dsimp only
  generalize failedCheck s n i t = f
  cases f <;> (simp [hx]; try (split <;> simp [hx]))

@[simp] theorem catchTarget_get (j : Nat) (u : Tag) (s : State) (x : Part)
    (hx : x ∉ [Part.bsh, Part.spn, Part.tags, Part.locks, Part.insts, Part.units]) : (catchTarget j u s).get x = s.get x := by
  simp only [List.mem_cons, List.not_mem_nil, or_false, not_or] at hx
  unfold catchTarget; repeat' (first | (with_reducible rfl) | (simp [hx]; done) | split)

@[simp] theorem examine_get (n : Nat) (k : Nat) (t : Tag) (s : State) (x : Part)
    (hx : x ∉ [Part.bsh, Part.spn, Part.tags, Part.locks, Part.insts, Part.units]) : (examine n k t s).get x = s.get x := by
  simp only [List.mem_cons, List.not_mem_nil, or_false, not_or] at hx
  unfold examine; repeat' (first | (with_reducible rfl) | (simp [hx]; done) | (simp (zetaDelta := true) [hx]; done) | extract_lets | split)

@[simp] theorem writeCch_get (off : Nat) (v : Nat) (s : State) (x : Part)
    (hx : x ∉ [Part.clk, Part.cch]) : (writeCch off v s).get x = s.get x := by
  simp only [List.mem_cons, List.not_mem_nil, or_false, not_or] at hx
  unfold writeCch; repeat' (first | (with_reducible rfl) | (simp [hx]; done) | split)

@[simp] theorem writeSch_get (off : Nat) (v : Nat) (s : State) (x : Part)
    (hx : x ∉ [Part.sch]) : (writeSch off v s).get x = s.get x := by
  simp only [List.mem_cons, List.not_mem_nil, or_false, not_or] at hx
  unfold writeSch; repeat' (first | (with_reducible rfl) | (simp [hx]; done) | split)

@[simp] theorem writeMem_get (off : Nat) (v : Nat) (s : State) (x : Part)
    (hx : x ∉ [Part.mem]) : (writeMem off v s).get x = s.get x := by
  simp only [List.mem_cons, List.not_mem_nil, or_false, not_or] at hx
  unfold writeMem; repeat' (first | (with_reducible rfl) | (simp [hx]; done) | split)

@[simp] theorem writeDbg_get (off : Nat) (v : Nat) (s : State) (x : Part)
    (hx : x ∉ [Part.dbg]) : (writeDbg off v s).get x = s.get x := by
  simp only [List.mem_cons, List.not_mem_nil, or_false, not_or] at hx
  unfold writeDbg; repeat' (first | (with_reducible rfl) | (simp [hx]; done) | split)

@[simp] theorem writeOtp_get (off : Nat) (v : Nat) (s : State) (x : Part)
    (hx : x ∉ [Part.otp]) : (writeOtp off v s).get x = s.get x := by
  simp only [List.mem_cons, List.not_mem_nil, or_false, not_or] at hx
  unfold writeOtp; repeat' (first | (with_reducible rfl) | (simp [hx]; done) | split)

@[simp] theorem writeMsix_get (fn : Nat) (off : Nat) (data : List Byte) (s : State) (x : Part)
    (hx : x ∉ [Part.hif]) : (writeMsix fn off data s).get x = s.get x := by
  simp only [List.mem_cons, List.not_mem_nil, or_false, not_or] at hx
  unfold writeMsix; repeat' (first | (with_reducible rfl) | (simp [hx]; done) | split)

@[simp] theorem writeGlb_get (off : Nat) (v : Nat) (s : State) (x : Part)
    (hx : x ∉ [Part.glb]) : (writeGlb off v s).get x = s.get x := by
  simp only [List.mem_cons, List.not_mem_nil, or_false, not_or] at hx
  unfold writeGlb; repeat' (first | (with_reducible rfl) | (simp [hx]; done) | split)

@[simp] theorem writeHif_get (off : Nat) (v : Nat) (s : State) (x : Part)
    (hx : x ∉ [Part.hif]) : (writeHif off v s).get x = s.get x := by
  simp only [List.mem_cons, List.not_mem_nil, or_false, not_or] at hx
  unfold writeHif; repeat' (first | (with_reducible rfl) | (simp [hx]; done) | split)

@[simp] theorem writeAccess_get (hi : Bool) (v : Nat) (s : State) (x : Part)
    (hx : x ∉ [Part.flc, Part.spn]) : (writeAccess hi v s).get x = s.get x := by
  simp only [List.mem_cons, List.not_mem_nil, or_false, not_or] at hx
  unfold writeAccess; repeat' (first | (with_reducible rfl) | (simp [hx]; done) | (simp (zetaDelta := true) [hx]; done) | extract_lets | split)

@[simp] theorem writeLogBase_get (k : Nat) (hi : Bool) (v : Nat) (s : State) (x : Part)
    (hx : x ∉ [Part.mgr]) : (writeLogBase k hi v s).get x = s.get x := by
  simp only [List.mem_cons, List.not_mem_nil, or_false, not_or] at hx
  unfold writeLogBase; repeat' (first | (with_reducible rfl) | (simp [hx]; done) | split)

@[simp] theorem writeMgr_get (off : Nat) (v : Nat) (s : State) (x : Part)
    (hx : x ∉ [Part.mgr, Part.flc, Part.spn, Part.insts]) : (writeMgr off v s).get x = s.get x := by
  simp only [List.mem_cons, List.not_mem_nil, or_false, not_or] at hx
  unfold writeMgr; repeat' (first | (with_reducible rfl) | (simp [hx]; done) | split)

@[simp] theorem writeBsh_get (off : Nat) (v : Nat) (s : State) (x : Part)
    (hx : x ∉ [Part.bsh]) : (writeBsh off v s).get x = s.get x := by
  simp only [List.mem_cons, List.not_mem_nil, or_false, not_or] at hx
  unfold writeBsh; repeat' (first | (with_reducible rfl) | (simp [hx]; done) | split)

@[simp] theorem writeSecCtl_get (v : Nat) (s : State) (x : Part)
    (hx : x ∉ [Part.hif, Part.sec]) : (writeSecCtl v s).get x = s.get x := by
  simp only [List.mem_cons, List.not_mem_nil, or_false, not_or] at hx
  unfold writeSecCtl; repeat' (first | (with_reducible rfl) | (simp [hx]; done) | split)

@[simp] theorem writeIdx_get (off : Nat) (v : Nat) (s : State) (x : Part)
    (hx : x ∉ [Part.idx]) : (writeIdx off v s).get x = s.get x := by
  simp only [List.mem_cons, List.not_mem_nil, or_false, not_or] at hx
  unfold writeIdx; repeat' (first | (with_reducible rfl) | (simp [hx]; done) | split)

@[simp] theorem writeFlc_get (n : Nat) (off : Nat) (v : Nat) (s : State) (x : Part)
    (hx : x ∉ [Part.flc]) : (writeFlc n off v s).get x = s.get x := by
  simp only [List.mem_cons, List.not_mem_nil, or_false, not_or] at hx
  unfold writeFlc; repeat' (first | (with_reducible rfl) | (simp [hx]; done) | split)

@[simp] theorem writeDrc_get (off : Nat) (v : Nat) (s : State) (x : Part)
    (hx : x ∉ [Part.drc]) : (writeDrc off v s).get x = s.get x := by
  simp only [List.mem_cons, List.not_mem_nil, or_false, not_or] at hx
  unfold writeDrc; repeat' (first | (with_reducible rfl) | (simp [hx]; done) | split)

@[simp] theorem writeSpn_get (off : Nat) (v : Nat) (s : State) (x : Part)
    (hx : x ∉ [Part.flc, Part.spn]) : (writeSpn off v s).get x = s.get x := by
  simp only [List.mem_cons, List.not_mem_nil, or_false, not_or] at hx
  unfold writeSpn; repeat' (first | (with_reducible rfl) | (simp [hx]; done) | split)

@[simp] theorem writeExtCfg_get (k : Nat) (v : Nat) (s : State) (x : Part)
    (hx : x ∉ [Part.pwr, Part.flc]) : (writeExtCfg k v s).get x = s.get x := by
  simp only [List.mem_cons, List.not_mem_nil, or_false, not_or] at hx
  unfold writeExtCfg; repeat' (first | (with_reducible rfl) | (simp [hx]; done) | split)

@[simp] theorem writePwr_get (off : Nat) (v : Nat) (s : State) (x : Part)
    (hx : x ∉ [Part.pwr, Part.flc, Part.insts]) : (writePwr off v s).get x = s.get x := by
  simp only [List.mem_cons, List.not_mem_nil, or_false, not_or] at hx
  unfold writePwr; repeat' (first | (with_reducible rfl) | (simp [hx]; done) | split)

@[simp] theorem writeReg_get (off : Nat) (v : Nat) (s : State) (x : Part)
    (hx : x ∉ [Part.glb, Part.clk, Part.hif, Part.mgr, Part.otp, Part.dbg, Part.pwr, Part.bsh, Part.sec, Part.sch, Part.idx, Part.flc, Part.mem, Part.cch, Part.drc, Part.spn, Part.insts]) : (writeReg off v s).get x = s.get x := by
  simp only [List.mem_cons, List.not_mem_nil, or_false, not_or] at hx
  unfold writeReg; repeat' (first | (with_reducible rfl) | (simp [hx]; done) | split)

@[simp] theorem writeBar0_get (fn : Nat) (off : Nat) (data : List Byte) (s : State) (x : Part)
    (hx : x ∉ [Part.glb, Part.clk, Part.hif, Part.mgr, Part.otp, Part.dbg, Part.pwr, Part.bsh, Part.sec, Part.sch, Part.idx, Part.flc, Part.mem, Part.cch, Part.drc, Part.spn, Part.insts]) : (writeBar0 fn off data s).get x = s.get x := by
  simp only [List.mem_cons, List.not_mem_nil, or_false, not_or] at hx
  unfold writeBar0; repeat' (first | (with_reducible rfl) | (simp [hx]; done) | split)

@[simp] theorem writeSlots_get (n : Nat) (off : Nat) (data : List Byte) (s : State) (x : Part)
    (hx : x ∉ [Part.insts]) : (writeSlots n off data s).get x = s.get x := by
  simp only [List.mem_cons, List.not_mem_nil, or_false, not_or] at hx
  unfold writeSlots; repeat' (first | (with_reducible rfl) | (simp [hx]; done) | split)

@[simp] theorem writeMail_get (n : Nat) (off : Nat) (data : List Byte) (s : State) (x : Part)
    (hx : x ∉ [Part.insts]) : (writeMail n off data s).get x = s.get x := by
  simp only [List.mem_cons, List.not_mem_nil, or_false, not_or] at hx
  unfold writeMail; repeat' (first | (with_reducible rfl) | (simp [hx]; done) | split)

@[simp] theorem writeIrq_get (n : Nat) (v : Nat) (s : State) (x : Part)
    (hx : x ∉ [Part.insts]) : (writeIrq n v s).get x = s.get x := by
  simp only [List.mem_cons, List.not_mem_nil, or_false, not_or] at hx
  unfold writeIrq; repeat' (first | (with_reducible rfl) | (simp [hx]; done) | split)

@[simp] theorem writeWindow_get (slice : Bool) (n : Nat) (off : Nat) (data : List Byte) (s : State) (x : Part)
    (hx : x ∉ [Part.hif, Part.insts]) : (writeWindow slice n off data s).get x = s.get x := by
  simp only [List.mem_cons, List.not_mem_nil, or_false, not_or] at hx
  unfold writeWindow; repeat' (first | (with_reducible rfl) | (simp [hx]; done) | split)

@[simp] theorem readEffect_get (src : Nat) (a : Nat) (s : State) (x : Part)
    (hx : x ∉ [Part.glb, Part.sch]) : (readEffect src a s).get x = s.get x := by
  simp only [List.mem_cons, List.not_mem_nil, or_false, not_or] at hx
  unfold readEffect; repeat' (first | (with_reducible rfl) | (simp [hx]; done) | split)

@[simp] theorem dbgStore_get (src : Nat) (target : Nat) (a : Nat) (v : Nat) (s : State) (x : Part)
    (hx : x ∉ [Part.glb, Part.clk, Part.hif, Part.mgr, Part.otp, Part.dbg, Part.pwr, Part.bsh, Part.sec, Part.sch, Part.idx, Part.flc, Part.mem, Part.cch, Part.drc, Part.spn, Part.insts]) : (dbgStore src target a v s).get x = s.get x := by
  simp only [List.mem_cons, List.not_mem_nil, or_false, not_or] at hx
  unfold dbgStore; repeat' (first | (with_reducible rfl) | (simp [hx]; done) | split)

end Sys2Proof.Machine
end

