-- ==== Sys2Proof/Laws/Exec.lean ====
section
/-! SUPPORT. Every command's meaning answers a next state, in which only the parts of the state named here may differ. One lemma for
each command. -/

set_option linter.all false

namespace Sys2Proof.Machine

theorem OnlyIn.of_get (ps : List Part) (s t : State) (h : ∀ x : Part, x ∉ ps → t.get x = s.get x) : OnlyIn ps s t := h
theorem execTwPost_next (fn : Fin 2) (inst : Fin 64) (off : Fin 8) (size : Nat) (value : Nat) (s : State) :
    ∃ t, execTwPost fn inst off size value s = .next t ∧ OnlyIn [.tags, .insts, .acceptCount] s t := by
  unfold execTwPost
  repeat' first | exact ⟨_, rfl, OnlyIn.of_get _ _ _ (fun x hx => by simp only [List.mem_cons, List.not_mem_nil, or_false, not_or] at hx; (repeat' (first | (with_reducible rfl) | (simp [hx]; done) | split | dsimp only)))⟩ | split | unfold act | unfold workEnds | unfold damzu | unfold indexWork | unfold codecWork | dsimp only

theorem execSlPost_next (fn : Fin 2) (win : Fin 16) (off : Fin 4) (size : Nat) (value : Nat) (s : State) :
    ∃ t, execSlPost fn win off size value s = .next t ∧ OnlyIn [.tags, .insts, .acceptCount] s t := by
  unfold execSlPost
  repeat' first | exact ⟨_, rfl, OnlyIn.of_get _ _ _ (fun x hx => by simp only [List.mem_cons, List.not_mem_nil, or_false, not_or] at hx; (repeat' (first | (with_reducible rfl) | (simp [hx]; done) | split | dsimp only)))⟩ | split | unfold act | unfold workEnds | unfold damzu | unfold indexWork | unfold codecWork | dsimp only

theorem execTwRingCfgWrite_next (fn : Fin 2) (slice : Bool) (win : Fin 64) (value : BitVec 32) (s : State) :
    ∃ t, execTwRingCfgWrite fn slice win value s = .next t ∧ OnlyIn [.hif, .insts] s t := by
  unfold execTwRingCfgWrite
  repeat' first | exact ⟨_, rfl, OnlyIn.of_get _ _ _ (fun x hx => by simp only [List.mem_cons, List.not_mem_nil, or_false, not_or] at hx; (repeat' (first | (with_reducible rfl) | (simp [hx]; done) | split | dsimp only)))⟩ | split | unfold act | unfold workEnds | unfold damzu | unfold indexWork | unfold codecWork | dsimp only

theorem execTwRingBaseWrite_next (fn : Fin 2) (slice : Bool) (win : Fin 64) (hi : Bool) (value : BitVec 32) (s : State) :
    ∃ t, execTwRingBaseWrite fn slice win hi value s = .next t ∧ OnlyIn [.hif, .insts] s t := by
  unfold execTwRingBaseWrite
  repeat' first | exact ⟨_, rfl, OnlyIn.of_get _ _ _ (fun x hx => by simp only [List.mem_cons, List.not_mem_nil, or_false, not_or] at hx; (repeat' (first | (with_reducible rfl) | (simp [hx]; done) | split | dsimp only)))⟩ | split | unfold act | unfold workEnds | unfold damzu | unfold indexWork | unfold codecWork | dsimp only

theorem execTwRingHeadWrite_next (fn : Fin 2) (target : Fin 3) (n : Fin 64) (value : BitVec 32) (s : State) :
    ∃ t, execTwRingHeadWrite fn target n value s = .next t ∧ OnlyIn [.hif, .mgr, .insts] s t := by
  unfold execTwRingHeadWrite
  repeat' first | exact ⟨_, rfl, OnlyIn.of_get _ _ _ (fun x hx => by simp only [List.mem_cons, List.not_mem_nil, or_false, not_or] at hx; (repeat' (first | (with_reducible rfl) | (simp [hx]; done) | split | dsimp only)))⟩ | split | unfold act | unfold workEnds | unfold damzu | unfold indexWork | unfold codecWork | dsimp only

theorem execTwIrqStsClear_next (fn : Fin 2) (inst : Fin 64) (s : State) :
    ∃ t, execTwIrqStsClear fn inst s = .next t ∧ OnlyIn [.insts] s t := by
  unfold execTwIrqStsClear
  repeat' first | exact ⟨_, rfl, OnlyIn.of_get _ _ _ (fun x hx => by simp only [List.mem_cons, List.not_mem_nil, or_false, not_or] at hx; (repeat' (first | (with_reducible rfl) | (simp [hx]; done) | split | dsimp only)))⟩ | split | unfold act | unfold workEnds | unfold damzu | unfold indexWork | unfold codecWork | dsimp only

theorem execCoalTimeExpiry_next (inst : Fin 64) (s : State) :
    ∃ t, execCoalTimeExpiry inst s = .next t ∧ OnlyIn [.hif, .insts] s t := by
  unfold execCoalTimeExpiry
  repeat' first | exact ⟨_, rfl, OnlyIn.of_get _ _ _ (fun x hx => by simp only [List.mem_cons, List.not_mem_nil, or_false, not_or] at hx; (repeat' (first | (with_reducible rfl) | (simp [hx]; done) | split | dsimp only)))⟩ | split | unfold act | unfold workEnds | unfold damzu | unfold indexWork | unfold codecWork | dsimp only

theorem execTwMboxDb_next (fn : Fin 2) (slice : Bool) (win : Fin 64) (word : BitVec 32) (s : State) :
    ∃ t, execTwMboxDb fn slice win word s = .next t ∧ OnlyIn [.hif, .insts] s t := by
  unfold execTwMboxDb
  repeat' first | exact ⟨_, rfl, OnlyIn.of_get _ _ _ (fun x hx => by simp only [List.mem_cons, List.not_mem_nil, or_false, not_or] at hx; (repeat' (first | (with_reducible rfl) | (simp [hx]; done) | split | dsimp only)))⟩ | split | unfold act | unfold workEnds | unfold damzu | unfold indexWork | unfold codecWork | dsimp only

theorem execRegisterWrite_next (fn : Fin 2) (bar : Fin 3) (off : Nat) (data : List Byte) (s : State) :
    ∃ t, execRegisterWrite fn bar off data s = .next t ∧ OnlyIn [.glb, .clk, .hif, .mgr, .otp, .dbg, .pwr, .bsh, .sec, .sch, .idx, .flc, .mem, .cch, .drc, .spn, .insts] s t := by
  unfold execRegisterWrite
  repeat' first | exact ⟨_, rfl, OnlyIn.of_get _ _ _ (fun x hx => by simp only [List.mem_cons, List.not_mem_nil, or_false, not_or] at hx; (repeat' (first | (with_reducible rfl) | (simp [hx]; done) | split | dsimp only)))⟩ | split | unfold act | unfold workEnds | unfold damzu | unfold indexWork | unfold codecWork | dsimp only

theorem execGlbSeqLoRead_next (fn : Fin 2) (s : State) :
    ∃ t, execGlbSeqLoRead fn s = .next t ∧ OnlyIn [.glb, .hif] s t := by
  unfold execGlbSeqLoRead
  repeat' first | exact ⟨_, rfl, OnlyIn.of_get _ _ _ (fun x hx => by simp only [List.mem_cons, List.not_mem_nil, or_false, not_or] at hx; (repeat' (first | (with_reducible rfl) | (simp [hx]; done) | split | dsimp only)))⟩ | split | unfold act | unfold workEnds | unfold damzu | unfold indexWork | unfold codecWork | dsimp only

theorem execGlbTimeLoRead_next (fn : Fin 2) (s : State) :
    ∃ t, execGlbTimeLoRead fn s = .next t ∧ OnlyIn [.glb, .hif] s t := by
  unfold execGlbTimeLoRead
  repeat' first | exact ⟨_, rfl, OnlyIn.of_get _ _ _ (fun x hx => by simp only [List.mem_cons, List.not_mem_nil, or_false, not_or] at hx; (repeat' (first | (with_reducible rfl) | (simp [hx]; done) | split | dsimp only)))⟩ | split | unfold act | unfold workEnds | unfold damzu | unfold indexWork | unfold codecWork | dsimp only

theorem execGlbRecovAddrLoRead_next (fn : Fin 2) (s : State) :
    ∃ t, execGlbRecovAddrLoRead fn s = .next t ∧ OnlyIn [.glb, .hif] s t := by
  unfold execGlbRecovAddrLoRead
  repeat' first | exact ⟨_, rfl, OnlyIn.of_get _ _ _ (fun x hx => by simp only [List.mem_cons, List.not_mem_nil, or_false, not_or] at hx; (repeat' (first | (with_reducible rfl) | (simp [hx]; done) | split | dsimp only)))⟩ | split | unfold act | unfold workEnds | unfold damzu | unfold indexWork | unfold codecWork | dsimp only

theorem execSchTraceData3Read_next (fn : Fin 2) (s : State) :
    ∃ t, execSchTraceData3Read fn s = .next t ∧ OnlyIn [.hif, .sch] s t := by
  unfold execSchTraceData3Read
  repeat' first | exact ⟨_, rfl, OnlyIn.of_get _ _ _ (fun x hx => by simp only [List.mem_cons, List.not_mem_nil, or_false, not_or] at hx; (repeat' (first | (with_reducible rfl) | (simp [hx]; done) | split | dsimp only)))⟩ | split | unfold act | unfold workEnds | unfold damzu | unfold indexWork | unfold codecWork | dsimp only

theorem execTraceClear_next (fn : Fin 2) (value : BitVec 32) (s : State) :
    ∃ t, execTraceClear fn value s = .next t ∧ OnlyIn [.sch] s t := by
  unfold execTraceClear
  repeat' first | exact ⟨_, rfl, OnlyIn.of_get _ _ _ (fun x hx => by simp only [List.mem_cons, List.not_mem_nil, or_false, not_or] at hx; (repeat' (first | (with_reducible rfl) | (simp [hx]; done) | split | dsimp only)))⟩ | split | unfold act | unfold workEnds | unfold damzu | unfold indexWork | unfold codecWork | dsimp only

theorem execCommandStart_next (inst : Fin 64) (tag : Fin 256) (handle : BitVec 20) (base : Fin 32) (s : State) :
    ∃ t, execCommandStart inst tag handle base s = .next t ∧ OnlyIn [.sch, .spn, .tags, .locks, .insts, .units] s t := by
  unfold execCommandStart
  repeat' first | exact ⟨_, rfl, OnlyIn.of_get _ _ _ (fun x hx => by simp only [List.mem_cons, List.not_mem_nil, or_false, not_or] at hx; (repeat' (first | (with_reducible rfl) | (simp [hx]; done) | split | dsimp only)))⟩ | split | unfold act | unfold workEnds | unfold damzu | unfold indexWork | unfold codecWork | dsimp only

theorem execRangeLockGrant_next (owner : Nat) (s : State) :
    ∃ t, execRangeLockGrant owner s = .next t ∧ OnlyIn [.locks] s t := by
  unfold execRangeLockGrant
  repeat' first | exact ⟨_, rfl, OnlyIn.of_get _ _ _ (fun x hx => by simp only [List.mem_cons, List.not_mem_nil, or_false, not_or] at hx; (repeat' (first | (with_reducible rfl) | (simp [hx]; done) | split | dsimp only)))⟩ | split | unfold act | unfold workEnds | unfold damzu | unfold indexWork | unfold codecWork | dsimp only

theorem execReplyCommit_next (inst : Fin 64) (tag : Fin 256) (s : State) :
    ∃ t, execReplyCommit inst tag s = .next t ∧ OnlyIn [.glb, .clk, .hif, .mgr, .otp, .dbg, .pwr, .bsh, .sec, .sch, .dmz, .idx, .flc, .mem, .cch, .drc, .spn, .tags, .locks, .insts, .units, .acceptCount, .hostMem, .now] s t := by
  unfold execReplyCommit
  repeat' first | exact ⟨_, rfl, OnlyIn.of_get _ _ _ (fun x hx => by simp only [List.mem_cons, List.not_mem_nil, or_false, not_or] at hx; (repeat' (first | (with_reducible rfl) | (simp [hx]; done) | split | dsimp only)))⟩ | split | unfold act | unfold workEnds | unfold damzu | unfold indexWork | unfold codecWork | dsimp only

theorem execEventWrite_next (inst : Fin 64) (s : State) :
    ∃ t, execEventWrite inst s = .next t ∧ OnlyIn [.glb, .hif, .mgr, .flc, .insts, .hostMem] s t := by
  unfold execEventWrite
  repeat' first | exact ⟨_, rfl, OnlyIn.of_get _ _ _ (fun x hx => by simp only [List.mem_cons, List.not_mem_nil, or_false, not_or] at hx; (repeat' (first | (with_reducible rfl) | (simp [hx]; done) | split | dsimp only)))⟩ | split | unfold act | unfold workEnds | unfold damzu | unfold indexWork | unfold codecWork | dsimp only

theorem execStopped_next (inst : Fin 64) (tag : Fin 256) (units : Nat) (s : State) :
    ∃ t, execStopped inst tag units s = .next t ∧ OnlyIn [.bsh, .sec, .dmz, .flc, .spn, .tags, .locks, .insts, .units, .fresh] s t := by
  unfold execStopped
  repeat' first | exact ⟨_, rfl, OnlyIn.of_get _ _ _ (fun x hx => by simp only [List.mem_cons, List.not_mem_nil, or_false, not_or] at hx; (repeat' (first | (with_reducible rfl) | (simp [hx]; done) | split | dsimp only)))⟩ | split | unfold act | unfold workEnds | unfold damzu | unfold indexWork | unfold codecWork | dsimp only

theorem execRead_next (inst : Fin 64) (tag : Fin 256) (lost : List Nat) (crcFail : List Nat) (s : State) :
    ∃ t, execRead inst tag lost crcFail s = .next t ∧ OnlyIn [.mgr, .flc, .tags, .locks, .units, .hostMem, .fresh] s t := by
  unfold execRead
  repeat' first | exact ⟨_, rfl, OnlyIn.of_get _ _ _ (fun x hx => by simp only [List.mem_cons, List.not_mem_nil, or_false, not_or] at hx; (repeat' (first | (with_reducible rfl) | (simp [hx]; done) | split | dsimp only)))⟩ | split | unfold act | unfold workEnds | unfold damzu | unfold indexWork | unfold codecWork | dsimp only

theorem execWrite_next (inst : Fin 64) (tag : Fin 256) (outcome : Fin 3) (units : Nat) (s : State) :
    ∃ t, execWrite inst tag outcome units s = .next t ∧ OnlyIn [.bsh, .flc, .spn, .tags, .locks, .units, .fresh] s t := by
  unfold execWrite
  repeat' first | exact ⟨_, rfl, OnlyIn.of_get _ _ _ (fun x hx => by simp only [List.mem_cons, List.not_mem_nil, or_false, not_or] at hx; (repeat' (first | (with_reducible rfl) | (simp [hx]; done) | split | dsimp only)))⟩ | split | unfold act | unfold workEnds | unfold damzu | unfold indexWork | unfold codecWork | dsimp only

theorem execReadAsset_next (inst : Fin 64) (tag : Fin 256) (lost : List Nat) (crcFail : List Nat) (again : List Nat) (s : State) :
    ∃ t, execReadAsset inst tag lost crcFail again s = .next t ∧ OnlyIn [.glb, .mgr, .bsh, .sec, .dmz, .idx, .flc, .tags, .locks, .units, .hostMem, .fresh] s t := by
  unfold execReadAsset
  repeat' first | exact ⟨_, rfl, OnlyIn.of_get _ _ _ (fun x hx => by simp only [List.mem_cons, List.not_mem_nil, or_false, not_or] at hx; (repeat' (first | (with_reducible rfl) | (simp [hx]; done) | split | dsimp only)))⟩ | split | unfold act | unfold workEnds | unfold damzu | unfold indexWork | unfold codecWork | dsimp only

theorem execInstallChunk_next (inst : Fin 64) (tag : Fin 256) (outcome : Fin 3) (units : Nat) (lost : List Nat) (s : State) :
    ∃ t, execInstallChunk inst tag outcome units lost s = .next t ∧ OnlyIn [.bsh, .sec, .flc, .spn, .tags, .locks, .units, .fresh] s t := by
  unfold execInstallChunk
  repeat' first | exact ⟨_, rfl, OnlyIn.of_get _ _ _ (fun x hx => by simp only [List.mem_cons, List.not_mem_nil, or_false, not_or] at hx; (repeat' (first | (with_reducible rfl) | (simp [hx]; done) | split | dsimp only)))⟩ | split | unfold act | unfold workEnds | unfold damzu | unfold indexWork | unfold codecWork | dsimp only

theorem execFlush_next (inst : Fin 64) (tag : Fin 256) (s : State) :
    ∃ t, execFlush inst tag s = .next t ∧ OnlyIn [.tags, .locks, .units] s t := by
  unfold execFlush
  repeat' first | exact ⟨_, rfl, OnlyIn.of_get _ _ _ (fun x hx => by simp only [List.mem_cons, List.not_mem_nil, or_false, not_or] at hx; (repeat' (first | (with_reducible rfl) | (simp [hx]; done) | split | dsimp only)))⟩ | split | unfold act | unfold workEnds | unfold damzu | unfold indexWork | unfold codecWork | dsimp only

theorem execTrim_next (inst : Fin 64) (tag : Fin 256) (fault : Bool) (units : Nat) (s : State) :
    ∃ t, execTrim inst tag fault units s = .next t ∧ OnlyIn [.bsh, .flc, .spn, .tags, .locks, .units, .fresh] s t := by
  unfold execTrim
  repeat' first | exact ⟨_, rfl, OnlyIn.of_get _ _ _ (fun x hx => by simp only [List.mem_cons, List.not_mem_nil, or_false, not_or] at hx; (repeat' (first | (with_reducible rfl) | (simp [hx]; done) | split | dsimp only)))⟩ | split | unfold act | unfold workEnds | unfold damzu | unfold indexWork | unfold codecWork | dsimp only

theorem execVerify_next (inst : Fin 64) (tag : Fin 256) (lost : List Nat) (crcFail : List Nat) (s : State) :
    ∃ t, execVerify inst tag lost crcFail s = .next t ∧ OnlyIn [.flc, .tags, .locks, .units] s t := by
  unfold execVerify
  repeat' first | exact ⟨_, rfl, OnlyIn.of_get _ _ _ (fun x hx => by simp only [List.mem_cons, List.not_mem_nil, or_false, not_or] at hx; (repeat' (first | (with_reducible rfl) | (simp [hx]; done) | split | dsimp only)))⟩ | split | unfold act | unfold workEnds | unfold damzu | unfold indexWork | unfold codecWork | dsimp only

theorem execScan_next (inst : Fin 64) (tag : Fin 256) (lost : List Nat) (crcFail : List Nat) (again : List Nat) (s : State) :
    ∃ t, execScan inst tag lost crcFail again s = .next t ∧ OnlyIn [.glb, .mgr, .bsh, .sec, .dmz, .idx, .flc, .tags, .locks, .units, .hostMem, .fresh] s t := by
  unfold execScan
  repeat' first | exact ⟨_, rfl, OnlyIn.of_get _ _ _ (fun x hx => by simp only [List.mem_cons, List.not_mem_nil, or_false, not_or] at hx; (repeat' (first | (with_reducible rfl) | (simp [hx]; done) | split | dsimp only)))⟩ | split | unfold act | unfold workEnds | unfold damzu | unfold indexWork | unfold codecWork | dsimp only

theorem execIndexSearch_next (inst : Fin 64) (tag : Fin 256) (err : Bool) (s : State) :
    ∃ t, execIndexSearch inst tag err s = .next t ∧ OnlyIn [.idx, .tags, .locks, .units] s t := by
  unfold execIndexSearch
  repeat' first | exact ⟨_, rfl, OnlyIn.of_get _ _ _ (fun x hx => by simp only [List.mem_cons, List.not_mem_nil, or_false, not_or] at hx; (repeat' (first | (with_reducible rfl) | (simp [hx]; done) | split | dsimp only)))⟩ | split | unfold act | unfold workEnds | unfold damzu | unfold indexWork | unfold codecWork | dsimp only

theorem execIndexInsert_next (inst : Fin 64) (tag : Fin 256) (s : State) :
    ∃ t, execIndexInsert inst tag s = .next t ∧ OnlyIn [.idx, .tags, .locks, .units] s t := by
  unfold execIndexInsert
  repeat' first | exact ⟨_, rfl, OnlyIn.of_get _ _ _ (fun x hx => by simp only [List.mem_cons, List.not_mem_nil, or_false, not_or] at hx; (repeat' (first | (with_reducible rfl) | (simp [hx]; done) | split | dsimp only)))⟩ | split | unfold act | unfold workEnds | unfold damzu | unfold indexWork | unfold codecWork | dsimp only

theorem execIndexDeleteEntry_next (inst : Fin 64) (tag : Fin 256) (s : State) :
    ∃ t, execIndexDeleteEntry inst tag s = .next t ∧ OnlyIn [.idx, .tags, .locks, .units] s t := by
  unfold execIndexDeleteEntry
  repeat' first | exact ⟨_, rfl, OnlyIn.of_get _ _ _ (fun x hx => by simp only [List.mem_cons, List.not_mem_nil, or_false, not_or] at hx; (repeat' (first | (with_reducible rfl) | (simp [hx]; done) | split | dsimp only)))⟩ | split | unfold act | unfold workEnds | unfold damzu | unfold indexWork | unfold codecWork | dsimp only

theorem execIndexDeleteKey_next (inst : Fin 64) (tag : Fin 256) (s : State) :
    ∃ t, execIndexDeleteKey inst tag s = .next t ∧ OnlyIn [.idx, .tags, .locks, .units] s t := by
  unfold execIndexDeleteKey
  repeat' first | exact ⟨_, rfl, OnlyIn.of_get _ _ _ (fun x hx => by simp only [List.mem_cons, List.not_mem_nil, or_false, not_or] at hx; (repeat' (first | (with_reducible rfl) | (simp [hx]; done) | split | dsimp only)))⟩ | split | unfold act | unfold workEnds | unfold damzu | unfold indexWork | unfold codecWork | dsimp only

theorem execIndexStep_next (inst : Fin 64) (tag : Fin 256) (err : Bool) (s : State) :
    ∃ t, execIndexStep inst tag err s = .next t ∧ OnlyIn [.idx, .tags, .locks, .units] s t := by
  unfold execIndexStep
  repeat' first | exact ⟨_, rfl, OnlyIn.of_get _ _ _ (fun x hx => by simp only [List.mem_cons, List.not_mem_nil, or_false, not_or] at hx; (repeat' (first | (with_reducible rfl) | (simp [hx]; done) | split | dsimp only)))⟩ | split | unfold act | unfold workEnds | unfold damzu | unfold indexWork | unfold codecWork | dsimp only

theorem execProgramLoad_next (inst : Fin 64) (tag : Fin 256) (s : State) :
    ∃ t, execProgramLoad inst tag s = .next t ∧ OnlyIn [.sec, .dmz, .tags, .locks, .units] s t := by
  unfold execProgramLoad
  repeat' first | exact ⟨_, rfl, OnlyIn.of_get _ _ _ (fun x hx => by simp only [List.mem_cons, List.not_mem_nil, or_false, not_or] at hx; (repeat' (first | (with_reducible rfl) | (simp [hx]; done) | split | dsimp only)))⟩ | split | unfold act | unfold workEnds | unfold damzu | unfold indexWork | unfold codecWork | dsimp only

theorem execProgramUnload_next (inst : Fin 64) (tag : Fin 256) (s : State) :
    ∃ t, execProgramUnload inst tag s = .next t ∧ OnlyIn [.dmz, .tags, .locks, .units] s t := by
  unfold execProgramUnload
  repeat' first | exact ⟨_, rfl, OnlyIn.of_get _ _ _ (fun x hx => by simp only [List.mem_cons, List.not_mem_nil, or_false, not_or] at hx; (repeat' (first | (with_reducible rfl) | (simp [hx]; done) | split | dsimp only)))⟩ | split | unfold act | unfold workEnds | unfold damzu | unfold indexWork | unfold codecWork | dsimp only

theorem execCodecDecompress_next (inst : Fin 64) (tag : Fin 256) (s : State) :
    ∃ t, execCodecDecompress inst tag s = .next t ∧ OnlyIn [.mgr, .bsh, .tags, .locks, .units, .hostMem, .fresh] s t := by
  unfold execCodecDecompress
  repeat' first | exact ⟨_, rfl, OnlyIn.of_get _ _ _ (fun x hx => by simp only [List.mem_cons, List.not_mem_nil, or_false, not_or] at hx; (repeat' (first | (with_reducible rfl) | (simp [hx]; done) | split | dsimp only)))⟩ | split | unfold act | unfold workEnds | unfold damzu | unfold indexWork | unfold codecWork | dsimp only

theorem execCodecCompress_next (inst : Fin 64) (tag : Fin 256) (s : State) :
    ∃ t, execCodecCompress inst tag s = .next t ∧ OnlyIn [.mgr, .bsh, .tags, .locks, .units, .hostMem, .fresh] s t := by
  unfold execCodecCompress
  repeat' first | exact ⟨_, rfl, OnlyIn.of_get _ _ _ (fun x hx => by simp only [List.mem_cons, List.not_mem_nil, or_false, not_or] at hx; (repeat' (first | (with_reducible rfl) | (simp [hx]; done) | split | dsimp only)))⟩ | split | unfold act | unfold workEnds | unfold damzu | unfold indexWork | unfold codecWork | dsimp only

theorem execCodecResume_next (inst : Fin 64) (tag : Fin 256) (s : State) :
    ∃ t, execCodecResume inst tag s = .next t ∧ OnlyIn [.mgr, .bsh, .tags, .locks, .units, .hostMem, .fresh] s t := by
  unfold execCodecResume
  repeat' first | exact ⟨_, rfl, OnlyIn.of_get _ _ _ (fun x hx => by simp only [List.mem_cons, List.not_mem_nil, or_false, not_or] at hx; (repeat' (first | (with_reducible rfl) | (simp [hx]; done) | split | dsimp only)))⟩ | split | unfold act | unfold workEnds | unfold damzu | unfold indexWork | unfold codecWork | dsimp only

theorem execCodecSave_next (inst : Fin 64) (tag : Fin 256) (s : State) :
    ∃ t, execCodecSave inst tag s = .next t ∧ OnlyIn [.mgr, .tags, .locks, .units, .hostMem] s t := by
  unfold execCodecSave
  repeat' first | exact ⟨_, rfl, OnlyIn.of_get _ _ _ (fun x hx => by simp only [List.mem_cons, List.not_mem_nil, or_false, not_or] at hx; (repeat' (first | (with_reducible rfl) | (simp [hx]; done) | split | dsimp only)))⟩ | split | unfold act | unfold workEnds | unfold damzu | unfold indexWork | unfold codecWork | dsimp only

theorem execCodecRestore_next (inst : Fin 64) (tag : Fin 256) (s : State) :
    ∃ t, execCodecRestore inst tag s = .next t ∧ OnlyIn [.bsh, .tags, .locks, .units] s t := by
  unfold execCodecRestore
  repeat' first | exact ⟨_, rfl, OnlyIn.of_get _ _ _ (fun x hx => by simp only [List.mem_cons, List.not_mem_nil, or_false, not_or] at hx; (repeat' (first | (with_reducible rfl) | (simp [hx]; done) | split | dsimp only)))⟩ | split | unfold act | unfold workEnds | unfold damzu | unfold indexWork | unfold codecWork | dsimp only

theorem execAbort_next (inst : Fin 64) (tag : Fin 256) (s : State) :
    ∃ t, execAbort inst tag s = .next t ∧ OnlyIn [.bsh, .spn, .tags, .locks, .insts, .units] s t := by
  unfold execAbort
  repeat' first | exact ⟨_, rfl, OnlyIn.of_get _ _ _ (fun x hx => by simp only [List.mem_cons, List.not_mem_nil, or_false, not_or] at hx; (repeat' (first | (with_reducible rfl) | (simp [hx]; done) | split | dsimp only)))⟩ | split | unfold act | unfold workEnds | unfold damzu | unfold indexWork | unfold codecWork | dsimp only

theorem execMailboxNote_next (inst : Fin 64) (tag : Fin 256) (s : State) :
    ∃ t, execMailboxNote inst tag s = .next t ∧ OnlyIn [.hif, .tags, .insts] s t := by
  unfold execMailboxNote
  repeat' first | exact ⟨_, rfl, OnlyIn.of_get _ _ _ (fun x hx => by simp only [List.mem_cons, List.not_mem_nil, or_false, not_or] at hx; (repeat' (first | (with_reducible rfl) | (simp [hx]; done) | split | dsimp only)))⟩ | split | unfold act | unfold workEnds | unfold damzu | unfold indexWork | unfold codecWork | dsimp only

theorem execLicenseLoad_next (inst : Fin 64) (tag : Fin 256) (s : State) :
    ∃ t, execLicenseLoad inst tag s = .next t ∧ OnlyIn [.sec, .spn, .tags, .locks, .units] s t := by
  unfold execLicenseLoad
  repeat' first | exact ⟨_, rfl, OnlyIn.of_get _ _ _ (fun x hx => by simp only [List.mem_cons, List.not_mem_nil, or_false, not_or] at hx; (repeat' (first | (with_reducible rfl) | (simp [hx]; done) | split | dsimp only)))⟩ | split | unfold act | unfold workEnds | unfold damzu | unfold indexWork | unfold codecWork | dsimp only

theorem execRevocationListLoad_next (inst : Fin 64) (tag : Fin 256) (s : State) :
    ∃ t, execRevocationListLoad inst tag s = .next t ∧ OnlyIn [.bsh, .sec, .tags, .locks, .units] s t := by
  unfold execRevocationListLoad
  repeat' first | exact ⟨_, rfl, OnlyIn.of_get _ _ _ (fun x hx => by simp only [List.mem_cons, List.not_mem_nil, or_false, not_or] at hx; (repeat' (first | (with_reducible rfl) | (simp [hx]; done) | split | dsimp only)))⟩ | split | unfold act | unfold workEnds | unfold damzu | unfold indexWork | unfold codecWork | dsimp only

theorem execLicenseDrop_next (inst : Fin 64) (tag : Fin 256) (s : State) :
    ∃ t, execLicenseDrop inst tag s = .next t ∧ OnlyIn [.bsh, .sec, .tags, .locks, .units] s t := by
  unfold execLicenseDrop
  repeat' first | exact ⟨_, rfl, OnlyIn.of_get _ _ _ (fun x hx => by simp only [List.mem_cons, List.not_mem_nil, or_false, not_or] at hx; (repeat' (first | (with_reducible rfl) | (simp [hx]; done) | split | dsimp only)))⟩ | split | unfold act | unfold workEnds | unfold damzu | unfold indexWork | unfold codecWork | dsimp only

theorem execSealOpen_next (inst : Fin 64) (tag : Fin 256) (s : State) :
    ∃ t, execSealOpen inst tag s = .next t ∧ OnlyIn [.mgr, .sec, .tags, .locks, .units, .hostMem, .fresh] s t := by
  unfold execSealOpen
  repeat' first | exact ⟨_, rfl, OnlyIn.of_get _ _ _ (fun x hx => by simp only [List.mem_cons, List.not_mem_nil, or_false, not_or] at hx; (repeat' (first | (with_reducible rfl) | (simp [hx]; done) | split | dsimp only)))⟩ | split | unfold act | unfold workEnds | unfold damzu | unfold indexWork | unfold codecWork | dsimp only

theorem execSealClose_next (inst : Fin 64) (tag : Fin 256) (s : State) :
    ∃ t, execSealClose inst tag s = .next t ∧ OnlyIn [.sec, .tags, .locks, .units] s t := by
  unfold execSealClose
  repeat' first | exact ⟨_, rfl, OnlyIn.of_get _ _ _ (fun x hx => by simp only [List.mem_cons, List.not_mem_nil, or_false, not_or] at hx; (repeat' (first | (with_reducible rfl) | (simp [hx]; done) | split | dsimp only)))⟩ | split | unfold act | unfold workEnds | unfold damzu | unfold indexWork | unfold codecWork | dsimp only

theorem execAttest_next (inst : Fin 64) (tag : Fin 256) (s : State) :
    ∃ t, execAttest inst tag s = .next t ∧ OnlyIn [.mgr, .tags, .locks, .units, .hostMem] s t := by
  unfold execAttest
  repeat' first | exact ⟨_, rfl, OnlyIn.of_get _ _ _ (fun x hx => by simp only [List.mem_cons, List.not_mem_nil, or_false, not_or] at hx; (repeat' (first | (with_reducible rfl) | (simp [hx]; done) | split | dsimp only)))⟩ | split | unfold act | unfold workEnds | unfold damzu | unfold indexWork | unfold codecWork | dsimp only

theorem execLogRead_next (inst : Fin 64) (tag : Fin 256) (s : State) :
    ∃ t, execLogRead inst tag s = .next t ∧ OnlyIn [.mgr, .tags, .locks, .units, .hostMem] s t := by
  unfold execLogRead
  repeat' first | exact ⟨_, rfl, OnlyIn.of_get _ _ _ (fun x hx => by simp only [List.mem_cons, List.not_mem_nil, or_false, not_or] at hx; (repeat' (first | (with_reducible rfl) | (simp [hx]; done) | split | dsimp only)))⟩ | split | unfold act | unfold workEnds | unfold damzu | unfold indexWork | unfold codecWork | dsimp only

theorem execFeatureSet_next (inst : Fin 64) (tag : Fin 256) (s : State) :
    ∃ t, execFeatureSet inst tag s = .next t ∧ OnlyIn [.bsh, .tags, .locks, .insts, .units] s t := by
  unfold execFeatureSet
  repeat' first | exact ⟨_, rfl, OnlyIn.of_get _ _ _ (fun x hx => by simp only [List.mem_cons, List.not_mem_nil, or_false, not_or] at hx; (repeat' (first | (with_reducible rfl) | (simp [hx]; done) | split | dsimp only)))⟩ | split | unfold act | unfold workEnds | unfold damzu | unfold indexWork | unfold codecWork | dsimp only

theorem execFeatureGet_next (inst : Fin 64) (tag : Fin 256) (s : State) :
    ∃ t, execFeatureGet inst tag s = .next t ∧ OnlyIn [.tags, .locks, .units, .fresh] s t := by
  unfold execFeatureGet
  repeat' first | exact ⟨_, rfl, OnlyIn.of_get _ _ _ (fun x hx => by simp only [List.mem_cons, List.not_mem_nil, or_false, not_or] at hx; (repeat' (first | (with_reducible rfl) | (simp [hx]; done) | split | dsimp only)))⟩ | split | unfold act | unfold workEnds | unfold damzu | unfold indexWork | unfold codecWork | dsimp only

theorem execFwStage_next (inst : Fin 64) (tag : Fin 256) (s : State) :
    ∃ t, execFwStage inst tag s = .next t ∧ OnlyIn [.glb, .sec, .tags, .locks, .units] s t := by
  unfold execFwStage
  repeat' first | exact ⟨_, rfl, OnlyIn.of_get _ _ _ (fun x hx => by simp only [List.mem_cons, List.not_mem_nil, or_false, not_or] at hx; (repeat' (first | (with_reducible rfl) | (simp [hx]; done) | split | dsimp only)))⟩ | split | unfold act | unfold workEnds | unfold damzu | unfold indexWork | unfold codecWork | dsimp only

theorem execFwActivate_next (inst : Fin 64) (tag : Fin 256) (accepts : Bool) (s : State) :
    ∃ t, execFwActivate inst tag accepts s = .next t ∧ OnlyIn [.sec, .tags, .locks, .units] s t := by
  unfold execFwActivate
  repeat' first | exact ⟨_, rfl, OnlyIn.of_get _ _ _ (fun x hx => by simp only [List.mem_cons, List.not_mem_nil, or_false, not_or] at hx; (repeat' (first | (with_reducible rfl) | (simp [hx]; done) | split | dsimp only)))⟩ | split | unfold act | unfold workEnds | unfold damzu | unfold indexWork | unfold codecWork | dsimp only

theorem execActivationSwitch_next (s : State) :
    ∃ t, execActivationSwitch s = .next t ∧ OnlyIn [.sch, .tags, .fresh] s t := by
  unfold execActivationSwitch
  repeat' first | exact ⟨_, rfl, OnlyIn.of_get _ _ _ (fun x hx => by simp only [List.mem_cons, List.not_mem_nil, or_false, not_or] at hx; (repeat' (first | (with_reducible rfl) | (simp [hx]; done) | split | dsimp only)))⟩ | split | unfold act | unfold workEnds | unfold damzu | unfold indexWork | unfold codecWork | dsimp only

theorem execActivationSwitchEnd_next (pause : Nat) (s : State) :
    ∃ t, execActivationSwitchEnd pause s = .next t ∧ OnlyIn [.glb, .sch, .flc, .tags, .locks, .insts, .units, .fresh] s t := by
  unfold execActivationSwitchEnd
  repeat' first | exact ⟨_, rfl, OnlyIn.of_get _ _ _ (fun x hx => by simp only [List.mem_cons, List.not_mem_nil, or_false, not_or] at hx; (repeat' (first | (with_reducible rfl) | (simp [hx]; done) | split | dsimp only)))⟩ | split | unfold act | unfold workEnds | unfold damzu | unfold indexWork | unfold codecWork | dsimp only

theorem execInstanceCreate_next (inst : Fin 64) (tag : Fin 256) (s : State) :
    ∃ t, execInstanceCreate inst tag s = .next t ∧ OnlyIn [.tags, .locks, .insts, .units] s t := by
  unfold execInstanceCreate
  repeat' first | exact ⟨_, rfl, OnlyIn.of_get _ _ _ (fun x hx => by simp only [List.mem_cons, List.not_mem_nil, or_false, not_or] at hx; (repeat' (first | (with_reducible rfl) | (simp [hx]; done) | split | dsimp only)))⟩ | split | unfold act | unfold workEnds | unfold damzu | unfold indexWork | unfold codecWork | dsimp only

theorem execInstanceDestroy_next (inst : Fin 64) (tag : Fin 256) (s : State) :
    ∃ t, execInstanceDestroy inst tag s = .next t ∧ OnlyIn [.bsh, .sec, .sch, .dmz, .idx, .spn, .tags, .locks, .insts, .units, .fresh] s t := by
  unfold execInstanceDestroy
  repeat' first | exact ⟨_, rfl, OnlyIn.of_get _ _ _ (fun x hx => by simp only [List.mem_cons, List.not_mem_nil, or_false, not_or] at hx; (repeat' (first | (with_reducible rfl) | (simp [hx]; done) | split | dsimp only)))⟩ | split | unfold act | unfold workEnds | unfold damzu | unfold indexWork | unfold codecWork | dsimp only

theorem execInstanceReset_next (inst : Fin 64) (tag : Fin 256) (s : State) :
    ∃ t, execInstanceReset inst tag s = .next t ∧ OnlyIn [.bsh, .sec, .sch, .dmz, .idx, .spn, .tags, .locks, .insts, .units, .fresh] s t := by
  unfold execInstanceReset
  repeat' first | exact ⟨_, rfl, OnlyIn.of_get _ _ _ (fun x hx => by simp only [List.mem_cons, List.not_mem_nil, or_false, not_or] at hx; (repeat' (first | (with_reducible rfl) | (simp [hx]; done) | split | dsimp only)))⟩ | split | unfold act | unfold workEnds | unfold damzu | unfold indexWork | unfold codecWork | dsimp only

theorem execVolumeCreate_next (inst : Fin 64) (tag : Fin 256) (s : State) :
    ∃ t, execVolumeCreate inst tag s = .next t ∧ OnlyIn [.sec, .flc, .tags, .locks, .units, .fresh] s t := by
  unfold execVolumeCreate
  repeat' first | exact ⟨_, rfl, OnlyIn.of_get _ _ _ (fun x hx => by simp only [List.mem_cons, List.not_mem_nil, or_false, not_or] at hx; (repeat' (first | (with_reducible rfl) | (simp [hx]; done) | split | dsimp only)))⟩ | split | unfold act | unfold workEnds | unfold damzu | unfold indexWork | unfold codecWork | dsimp only

theorem execVolumeDelete_next (inst : Fin 64) (tag : Fin 256) (s : State) :
    ∃ t, execVolumeDelete inst tag s = .next t ∧ OnlyIn [.bsh, .sec, .flc, .tags, .locks, .units] s t := by
  unfold execVolumeDelete
  repeat' first | exact ⟨_, rfl, OnlyIn.of_get _ _ _ (fun x hx => by simp only [List.mem_cons, List.not_mem_nil, or_false, not_or] at hx; (repeat' (first | (with_reducible rfl) | (simp [hx]; done) | split | dsimp only)))⟩ | split | unfold act | unfold workEnds | unfold damzu | unfold indexWork | unfold codecWork | dsimp only

theorem execSpanJoin_next (inst : Fin 64) (tag : Fin 256) (s : State) :
    ∃ t, execSpanJoin inst tag s = .next t ∧ OnlyIn [.spn, .tags, .locks, .insts, .units] s t := by
  unfold execSpanJoin
  repeat' first | exact ⟨_, rfl, OnlyIn.of_get _ _ _ (fun x hx => by simp only [List.mem_cons, List.not_mem_nil, or_false, not_or] at hx; (repeat' (first | (with_reducible rfl) | (simp [hx]; done) | split | dsimp only)))⟩ | split | unfold act | unfold workEnds | unfold damzu | unfold indexWork | unfold codecWork | dsimp only

theorem execSpanLeave_next (inst : Fin 64) (tag : Fin 256) (s : State) :
    ∃ t, execSpanLeave inst tag s = .next t ∧ OnlyIn [.bsh, .sec, .spn, .tags, .locks, .insts, .units] s t := by
  unfold execSpanLeave
  repeat' first | exact ⟨_, rfl, OnlyIn.of_get _ _ _ (fun x hx => by simp only [List.mem_cons, List.not_mem_nil, or_false, not_or] at hx; (repeat' (first | (with_reducible rfl) | (simp [hx]; done) | split | dsimp only)))⟩ | split | unfold act | unfold workEnds | unfold damzu | unfold indexWork | unfold codecWork | dsimp only

theorem execSpanMirrorSet_next (inst : Fin 64) (tag : Fin 256) (s : State) :
    ∃ t, execSpanMirrorSet inst tag s = .next t ∧ OnlyIn [.flc, .spn, .tags, .locks, .units] s t := by
  unfold execSpanMirrorSet
  repeat' first | exact ⟨_, rfl, OnlyIn.of_get _ _ _ (fun x hx => by simp only [List.mem_cons, List.not_mem_nil, or_false, not_or] at hx; (repeat' (first | (with_reducible rfl) | (simp [hx]; done) | split | dsimp only)))⟩ | split | unfold act | unfold workEnds | unfold damzu | unfold indexWork | unfold codecWork | dsimp only

theorem execSanitizeCryptographicErase_next (inst : Fin 64) (tag : Fin 256) (w : Nat) (s : State) :
    ∃ t, execSanitizeCryptographicErase inst tag w s = .next t ∧ OnlyIn [.bsh, .sec, .flc, .tags, .locks, .insts, .units, .fresh] s t := by
  unfold execSanitizeCryptographicErase
  repeat' first | exact ⟨_, rfl, OnlyIn.of_get _ _ _ (fun x hx => by simp only [List.mem_cons, List.not_mem_nil, or_false, not_or] at hx; (repeat' (first | (with_reducible rfl) | (simp [hx]; done) | split | dsimp only)))⟩ | split | unfold act | unfold workEnds | unfold damzu | unfold indexWork | unfold codecWork | dsimp only

theorem execSanitizeBlockErase_next (inst : Fin 64) (tag : Fin 256) (sbs : List Nat) (w : Nat) (s : State) :
    ∃ t, execSanitizeBlockErase inst tag sbs w s = .next t ∧ OnlyIn [.bsh, .sec, .flc, .tags, .locks, .insts, .units, .fresh] s t := by
  unfold execSanitizeBlockErase
  repeat' first | exact ⟨_, rfl, OnlyIn.of_get _ _ _ (fun x hx => by simp only [List.mem_cons, List.not_mem_nil, or_false, not_or] at hx; (repeat' (first | (with_reducible rfl) | (simp [hx]; done) | split | dsimp only)))⟩ | split | unfold act | unfold workEnds | unfold damzu | unfold indexWork | unfold codecWork | dsimp only

theorem execSanitizeOverwrite_next (inst : Fin 64) (tag : Fin 256) (sbs : List Nat) (w : Nat) (s : State) :
    ∃ t, execSanitizeOverwrite inst tag sbs w s = .next t ∧ OnlyIn [.bsh, .sec, .flc, .tags, .locks, .insts, .units, .fresh] s t := by
  unfold execSanitizeOverwrite
  repeat' first | exact ⟨_, rfl, OnlyIn.of_get _ _ _ (fun x hx => by simp only [List.mem_cons, List.not_mem_nil, or_false, not_or] at hx; (repeat' (first | (with_reducible rfl) | (simp [hx]; done) | split | dsimp only)))⟩ | split | unfold act | unfold workEnds | unfold damzu | unfold indexWork | unfold codecWork | dsimp only

theorem execDeviceReset_next (inst : Fin 64) (tag : Fin 256) (s : State) :
    ∃ t, execDeviceReset inst tag s = .next t ∧ OnlyIn [.glb, .bsh, .sec, .sch, .dmz, .idx, .spn, .tags, .locks, .insts, .units, .fresh] s t := by
  unfold execDeviceReset
  repeat' first | exact ⟨_, rfl, OnlyIn.of_get _ _ _ (fun x hx => by simp only [List.mem_cons, List.not_mem_nil, or_false, not_or] at hx; (repeat' (first | (with_reducible rfl) | (simp [hx]; done) | split | dsimp only)))⟩ | split | unfold act | unfold workEnds | unfold damzu | unfold indexWork | unfold codecWork | dsimp only

theorem execSpanDeadline_next (inst : Fin 64) (tag : Fin 256) (s : State) :
    ∃ t, execSpanDeadline inst tag s = .next t ∧ OnlyIn [.sec, .spn, .tags, .locks, .units] s t := by
  unfold execSpanDeadline
  repeat' first | exact ⟨_, rfl, OnlyIn.of_get _ _ _ (fun x hx => by simp only [List.mem_cons, List.not_mem_nil, or_false, not_or] at hx; (repeat' (first | (with_reducible rfl) | (simp [hx]; done) | split | dsimp only)))⟩ | split | unfold act | unfold workEnds | unfold damzu | unfold indexWork | unfold codecWork | dsimp only

theorem execHostReadError_next (inst : Fin 64) (tag : Fin 256) (what : Fin 4) (units : Nat) (s : State) :
    ∃ t, execHostReadError inst tag what units s = .next t ∧ OnlyIn [.hif, .mgr, .bsh, .sec, .flc, .spn, .tags, .locks, .units, .hostMem, .fresh] s t := by
  unfold execHostReadError
  repeat' first | exact ⟨_, rfl, OnlyIn.of_get _ _ _ (fun x hx => by simp only [List.mem_cons, List.not_mem_nil, or_false, not_or] at hx; (repeat' (first | (with_reducible rfl) | (simp [hx]; done) | split | dsimp only)))⟩ | split | unfold act | unfold workEnds | unfold damzu | unfold indexWork | unfold codecWork | dsimp only

theorem execStageUnitDone_next (inst : Fin 64) (tag : Fin 256) (i : Nat) (lane : Nat) (len : Nat) (outcome : Nat) (by_ : Nat) (ns : Nat) (s : State) :
    ∃ t, execStageUnitDone inst tag i lane len outcome by_ ns s = .next t ∧ OnlyIn [.glb, .pwr, .bsh, .sec, .flc, .insts, .units, .fresh] s t := by
  unfold execStageUnitDone
  repeat' first | exact ⟨_, rfl, OnlyIn.of_get _ _ _ (fun x hx => by simp only [List.mem_cons, List.not_mem_nil, or_false, not_or] at hx; (repeat' (first | (with_reducible rfl) | (simp [hx]; done) | split | dsimp only)))⟩ | split | unfold act | unfold workEnds | unfold damzu | unfold indexWork | unfold codecWork | dsimp only

theorem execLaneFault_next (pool : Fin 3) (lane : Nat) (by_ : Nat) (ns : Nat) (s : State) :
    ∃ t, execLaneFault pool lane by_ ns s = .next t ∧ OnlyIn [.glb, .pwr, .bsh, .sec, .flc, .insts] s t := by
  unfold execLaneFault
  repeat' first | exact ⟨_, rfl, OnlyIn.of_get _ _ _ (fun x hx => by simp only [List.mem_cons, List.not_mem_nil, or_false, not_or] at hx; (repeat' (first | (with_reducible rfl) | (simp [hx]; done) | split | dsimp only)))⟩ | split | unfold act | unfold workEnds | unfold damzu | unfold indexWork | unfold codecWork | dsimp only

theorem execShaLaneFault_next (lane : Fin 4) (by_ : Nat) (ns : Nat) (s : State) :
    ∃ t, execShaLaneFault lane by_ ns s = .next t ∧ OnlyIn [.glb, .pwr, .sec, .flc, .insts] s t := by
  unfold execShaLaneFault
  repeat' first | exact ⟨_, rfl, OnlyIn.of_get _ _ _ (fun x hx => by simp only [List.mem_cons, List.not_mem_nil, or_false, not_or] at hx; (repeat' (first | (with_reducible rfl) | (simp [hx]; done) | split | dsimp only)))⟩ | split | unfold act | unfold workEnds | unfold damzu | unfold indexWork | unfold codecWork | dsimp only

theorem execPkEngineFault_next (engine : Fin 2) (ns : Nat) (s : State) :
    ∃ t, execPkEngineFault engine ns s = .next t ∧ OnlyIn [.glb, .pwr, .sec, .flc, .insts] s t := by
  unfold execPkEngineFault
  repeat' first | exact ⟨_, rfl, OnlyIn.of_get _ _ _ (fun x hx => by simp only [List.mem_cons, List.not_mem_nil, or_false, not_or] at hx; (repeat' (first | (with_reducible rfl) | (simp [hx]; done) | split | dsimp only)))⟩ | split | unfold act | unfold workEnds | unfold damzu | unfold indexWork | unfold codecWork | dsimp only

theorem execSoftDecoderFault_next (decoder : Fin 5) (by_ : Nat) (ns : Nat) (s : State) :
    ∃ t, execSoftDecoderFault decoder by_ ns s = .next t ∧ OnlyIn [.glb, .pwr, .flc, .insts] s t := by
  unfold execSoftDecoderFault
  repeat' first | exact ⟨_, rfl, OnlyIn.of_get _ _ _ (fun x hx => by simp only [List.mem_cons, List.not_mem_nil, or_false, not_or] at hx; (repeat' (first | (with_reducible rfl) | (simp [hx]; done) | split | dsimp only)))⟩ | split | unfold act | unfold workEnds | unfold damzu | unfold indexWork | unfold codecWork | dsimp only

theorem execPost_next (source : Fin 38) (handle : BitVec 20) (inst : Option (Fin 64)) (tag : Fin 256) (flag : Fin 32) (s : State) :
    ∃ t, execPost source handle inst tag flag s = .next t ∧ OnlyIn [.sch, .fresh] s t := by
  unfold execPost
  repeat' first | exact ⟨_, rfl, OnlyIn.of_get _ _ _ (fun x hx => by simp only [List.mem_cons, List.not_mem_nil, or_false, not_or] at hx; (repeat' (first | (with_reducible rfl) | (simp [hx]; done) | split | dsimp only)))⟩ | split | unfold act | unfold workEnds | unfold damzu | unfold indexWork | unfold codecWork | dsimp only

theorem execEventQueueStall_next (source : Fin 38) (handle : BitVec 20) (inst : Option (Fin 64)) (tag : Fin 256) (flag : Fin 32) (cycles : Fin 11) (s : State) :
    ∃ t, execEventQueueStall source handle inst tag flag cycles s = .next t ∧ OnlyIn [.sch, .fresh] s t := by
  unfold execEventQueueStall
  repeat' first | exact ⟨_, rfl, OnlyIn.of_get _ _ _ (fun x hx => by simp only [List.mem_cons, List.not_mem_nil, or_false, not_or] at hx; (repeat' (first | (with_reducible rfl) | (simp [hx]; done) | split | dsimp only)))⟩ | split | unfold act | unfold workEnds | unfold damzu | unfold indexWork | unfold codecWork | dsimp only

theorem execSpawn_next (ctx : Fin 4096) (prio : Fin 8) (owner : Fin 65) (damzu : Bool) (program : Nat) (wait : Option (BitVec 32 × Bool)) (spawner : BitVec 20) (s : State) :
    ∃ t, execSpawn ctx prio owner damzu program wait spawner s = .next t ∧ OnlyIn [.sch, .fresh] s t := by
  unfold execSpawn
  repeat' first | exact ⟨_, rfl, OnlyIn.of_get _ _ _ (fun x hx => by simp only [List.mem_cons, List.not_mem_nil, or_false, not_or] at hx; (repeat' (first | (with_reducible rfl) | (simp [hx]; done) | split | dsimp only)))⟩ | split | unfold act | unfold workEnds | unfold damzu | unfold indexWork | unfold codecWork | dsimp only

theorem execDispatch_next (engine : Fin 36) (s : State) :
    ∃ t, execDispatch engine s = .next t ∧ OnlyIn [.sch, .fresh] s t := by
  unfold execDispatch
  repeat' first | exact ⟨_, rfl, OnlyIn.of_get _ _ _ (fun x hx => by simp only [List.mem_cons, List.not_mem_nil, or_false, not_or] at hx; (repeat' (first | (with_reducible rfl) | (simp [hx]; done) | split | dsimp only)))⟩ | split | unfold act | unfold workEnds | unfold damzu | unfold indexWork | unfold codecWork | dsimp only

theorem execPreemption_next (engine : Fin 36) (lines : Nat) (effects : List (Fin 5 × Nat × Nat)) (s : State) :
    ∃ t, execPreemption engine lines effects s = .next t ∧ OnlyIn [.glb, .clk, .pwr, .sch, .flc, .mem, .cch, .drc, .insts, .fresh] s t := by
  unfold execPreemption
  repeat' first | exact ⟨_, rfl, OnlyIn.of_get _ _ _ (fun x hx => by simp only [List.mem_cons, List.not_mem_nil, or_false, not_or] at hx; (repeat' (first | (with_reducible rfl) | (simp [hx]; done) | split | dsimp only)))⟩ | split | unfold act | unfold workEnds | unfold damzu | unfold indexWork | unfold codecWork | dsimp only

theorem execSliceExpiry_next (engine : Fin 36) (lines : Nat) (effects : List (Fin 5 × Nat × Nat)) (s : State) :
    ∃ t, execSliceExpiry engine lines effects s = .next t ∧ OnlyIn [.glb, .clk, .pwr, .sch, .flc, .mem, .cch, .drc, .insts, .fresh] s t := by
  unfold execSliceExpiry
  repeat' first | exact ⟨_, rfl, OnlyIn.of_get _ _ _ (fun x hx => by simp only [List.mem_cons, List.not_mem_nil, or_false, not_or] at hx; (repeat' (first | (with_reducible rfl) | (simp [hx]; done) | split | dsimp only)))⟩ | split | unfold act | unfold workEnds | unfold damzu | unfold indexWork | unfold codecWork | dsimp only

theorem execWait_next (engine : Fin 36) (mask : BitVec 32) (all : Bool) (lines : Nat) (effects : List (Fin 5 × Nat × Nat)) (s : State) :
    ∃ t, execWait engine mask all lines effects s = .next t ∧ OnlyIn [.glb, .clk, .pwr, .sch, .flc, .mem, .cch, .drc, .insts, .fresh] s t := by
  unfold execWait
  repeat' first | exact ⟨_, rfl, OnlyIn.of_get _ _ _ (fun x hx => by simp only [List.mem_cons, List.not_mem_nil, or_false, not_or] at hx; (repeat' (first | (with_reducible rfl) | (simp [hx]; done) | split | dsimp only)))⟩ | split | unfold act | unfold workEnds | unfold damzu | unfold indexWork | unfold codecWork | dsimp only

theorem execYield_next (engine : Fin 36) (lines : Nat) (effects : List (Fin 5 × Nat × Nat)) (s : State) :
    ∃ t, execYield engine lines effects s = .next t ∧ OnlyIn [.glb, .clk, .pwr, .sch, .flc, .mem, .cch, .drc, .insts, .fresh] s t := by
  unfold execYield
  repeat' first | exact ⟨_, rfl, OnlyIn.of_get _ _ _ (fun x hx => by simp only [List.mem_cons, List.not_mem_nil, or_false, not_or] at hx; (repeat' (first | (with_reducible rfl) | (simp [hx]; done) | split | dsimp only)))⟩ | split | unfold act | unfold workEnds | unfold damzu | unfold indexWork | unfold codecWork | dsimp only

theorem execExit_next (engine : Fin 36) (code : BitVec 32) (lines : Nat) (effects : List (Fin 5 × Nat × Nat)) (s : State) :
    ∃ t, execExit engine code lines effects s = .next t ∧ OnlyIn [.glb, .clk, .pwr, .sch, .flc, .mem, .cch, .drc, .insts, .fresh] s t := by
  unfold execExit
  repeat' first | exact ⟨_, rfl, OnlyIn.of_get _ _ _ (fun x hx => by simp only [List.mem_cons, List.not_mem_nil, or_false, not_or] at hx; (repeat' (first | (with_reducible rfl) | (simp [hx]; done) | split | dsimp only)))⟩ | split | unfold act | unfold workEnds | unfold damzu | unfold indexWork | unfold codecWork | dsimp only

theorem execCancel_next (handle : BitVec 20) (owner : Option (Fin 65)) (s : State) :
    ∃ t, execCancel handle owner s = .next t ∧ OnlyIn [.sch, .fresh] s t := by
  unfold execCancel
  repeat' first | exact ⟨_, rfl, OnlyIn.of_get _ _ _ (fun x hx => by simp only [List.mem_cons, List.not_mem_nil, or_false, not_or] at hx; (repeat' (first | (with_reducible rfl) | (simp [hx]; done) | split | dsimp only)))⟩ | split | unfold act | unfold workEnds | unfold damzu | unfold indexWork | unfold codecWork | dsimp only

theorem execEngineStopped_next (engine : Fin 36) (s : State) :
    ∃ t, execEngineStopped engine s = .next t ∧ OnlyIn [.sch] s t := by
  unfold execEngineStopped
  repeat' first | exact ⟨_, rfl, OnlyIn.of_get _ _ _ (fun x hx => by simp only [List.mem_cons, List.not_mem_nil, or_false, not_or] at hx; (repeat' (first | (with_reducible rfl) | (simp [hx]; done) | split | dsimp only)))⟩ | split | unfold act | unfold workEnds | unfold damzu | unfold indexWork | unfold codecWork | dsimp only

theorem execCheckpointInterval_next (engine : Fin 36) (lines : Nat) (effects : List (Fin 5 × Nat × Nat)) (s : State) :
    ∃ t, execCheckpointInterval engine lines effects s = .next t ∧ OnlyIn [.glb, .clk, .pwr, .sch, .flc, .mem, .cch, .drc, .insts, .fresh] s t := by
  unfold execCheckpointInterval
  repeat' first | exact ⟨_, rfl, OnlyIn.of_get _ _ _ (fun x hx => by simp only [List.mem_cons, List.not_mem_nil, or_false, not_or] at hx; (repeat' (first | (with_reducible rfl) | (simp [hx]; done) | split | dsimp only)))⟩ | split | unfold act | unfold workEnds | unfold damzu | unfold indexWork | unfold codecWork | dsimp only

theorem execCheckpointApplyDone_next (engine : Fin 36) (s : State) :
    ∃ t, execCheckpointApplyDone engine s = .next t ∧ OnlyIn [.sch, .mem, .cch, .drc, .fresh] s t := by
  unfold execCheckpointApplyDone
  repeat' first | exact ⟨_, rfl, OnlyIn.of_get _ _ _ (fun x hx => by simp only [List.mem_cons, List.not_mem_nil, or_false, not_or] at hx; (repeat' (first | (with_reducible rfl) | (simp [hx]; done) | split | dsimp only)))⟩ | split | unfold act | unfold workEnds | unfold damzu | unfold indexWork | unfold codecWork | dsimp only

theorem execEngineFault_next (engine : Fin 36) (ns : Nat) (s : State) :
    ∃ t, execEngineFault engine ns s = .next t ∧ OnlyIn [.glb, .clk, .pwr, .sch, .flc, .mem, .cch, .drc, .insts, .fresh] s t := by
  unfold execEngineFault
  repeat' first | exact ⟨_, rfl, OnlyIn.of_get _ _ _ (fun x hx => by simp only [List.mem_cons, List.not_mem_nil, or_false, not_or] at hx; (repeat' (first | (with_reducible rfl) | (simp [hx]; done) | split | dsimp only)))⟩ | split | unfold act | unfold workEnds | unfold damzu | unfold indexWork | unfold codecWork | dsimp only

theorem execEpoch_next (uses : List (Fin 64 × Fin 1001 × Fin 1001)) (s : State) :
    ∃ t, execEpoch uses s = .next t ∧ OnlyIn [.sch, .insts, .fresh] s t := by
  unfold execEpoch
  repeat' first | exact ⟨_, rfl, OnlyIn.of_get _ _ _ (fun x hx => by simp only [List.mem_cons, List.not_mem_nil, or_false, not_or] at hx; (repeat' (first | (with_reducible rfl) | (simp [hx]; done) | split | dsimp only)))⟩ | split | unfold act | unfold workEnds | unfold damzu | unfold indexWork | unfold codecWork | dsimp only

theorem execRecordEntry_next (worker : Nat) (inst : Fin 64) (tag : Fin 256) (n : Nat) (s : State) :
    ∃ t, execRecordEntry worker inst tag n s = .next t ∧ OnlyIn [.dmz] s t := by
  unfold execRecordEntry
  repeat' first | exact ⟨_, rfl, OnlyIn.of_get _ _ _ (fun x hx => by simp only [List.mem_cons, List.not_mem_nil, or_false, not_or] at hx; (repeat' (first | (with_reducible rfl) | (simp [hx]; done) | split | dsimp only)))⟩ | split | unfold act | unfold workEnds | unfold damzu | unfold indexWork | unfold codecWork | dsimp only

theorem execAdd_next (worker : Nat) (d : Fin 16) (a : Fin 16) (b : Fin 16) (s : State) :
    ∃ t, execAdd worker d a b s = .next t ∧ OnlyIn [.dmz, .idx] s t := by
  unfold execAdd
  repeat' first | exact ⟨_, rfl, OnlyIn.of_get _ _ _ (fun x hx => by simp only [List.mem_cons, List.not_mem_nil, or_false, not_or] at hx; (repeat' (first | (with_reducible rfl) | (simp [hx]; done) | split | dsimp only)))⟩ | split | unfold act | unfold workEnds | unfold damzu | unfold indexWork | unfold codecWork | dsimp only

theorem execSub_next (worker : Nat) (d : Fin 16) (a : Fin 16) (b : Fin 16) (s : State) :
    ∃ t, execSub worker d a b s = .next t ∧ OnlyIn [.dmz, .idx] s t := by
  unfold execSub
  repeat' first | exact ⟨_, rfl, OnlyIn.of_get _ _ _ (fun x hx => by simp only [List.mem_cons, List.not_mem_nil, or_false, not_or] at hx; (repeat' (first | (with_reducible rfl) | (simp [hx]; done) | split | dsimp only)))⟩ | split | unfold act | unfold workEnds | unfold damzu | unfold indexWork | unfold codecWork | dsimp only

theorem execMul_next (worker : Nat) (d : Fin 16) (a : Fin 16) (b : Fin 16) (s : State) :
    ∃ t, execMul worker d a b s = .next t ∧ OnlyIn [.dmz, .idx] s t := by
  unfold execMul
  repeat' first | exact ⟨_, rfl, OnlyIn.of_get _ _ _ (fun x hx => by simp only [List.mem_cons, List.not_mem_nil, or_false, not_or] at hx; (repeat' (first | (with_reducible rfl) | (simp [hx]; done) | split | dsimp only)))⟩ | split | unfold act | unfold workEnds | unfold damzu | unfold indexWork | unfold codecWork | dsimp only

theorem execAnd_next (worker : Nat) (d : Fin 16) (a : Fin 16) (b : Fin 16) (s : State) :
    ∃ t, execAnd worker d a b s = .next t ∧ OnlyIn [.dmz, .idx] s t := by
  unfold execAnd
  repeat' first | exact ⟨_, rfl, OnlyIn.of_get _ _ _ (fun x hx => by simp only [List.mem_cons, List.not_mem_nil, or_false, not_or] at hx; (repeat' (first | (with_reducible rfl) | (simp [hx]; done) | split | dsimp only)))⟩ | split | unfold act | unfold workEnds | unfold damzu | unfold indexWork | unfold codecWork | dsimp only

theorem execOr_next (worker : Nat) (d : Fin 16) (a : Fin 16) (b : Fin 16) (s : State) :
    ∃ t, execOr worker d a b s = .next t ∧ OnlyIn [.dmz, .idx] s t := by
  unfold execOr
  repeat' first | exact ⟨_, rfl, OnlyIn.of_get _ _ _ (fun x hx => by simp only [List.mem_cons, List.not_mem_nil, or_false, not_or] at hx; (repeat' (first | (with_reducible rfl) | (simp [hx]; done) | split | dsimp only)))⟩ | split | unfold act | unfold workEnds | unfold damzu | unfold indexWork | unfold codecWork | dsimp only

theorem execXor_next (worker : Nat) (d : Fin 16) (a : Fin 16) (b : Fin 16) (s : State) :
    ∃ t, execXor worker d a b s = .next t ∧ OnlyIn [.dmz, .idx] s t := by
  unfold execXor
  repeat' first | exact ⟨_, rfl, OnlyIn.of_get _ _ _ (fun x hx => by simp only [List.mem_cons, List.not_mem_nil, or_false, not_or] at hx; (repeat' (first | (with_reducible rfl) | (simp [hx]; done) | split | dsimp only)))⟩ | split | unfold act | unfold workEnds | unfold damzu | unfold indexWork | unfold codecWork | dsimp only

theorem execShl_next (worker : Nat) (d : Fin 16) (a : Fin 16) (b : Fin 16) (s : State) :
    ∃ t, execShl worker d a b s = .next t ∧ OnlyIn [.dmz, .idx] s t := by
  unfold execShl
  repeat' first | exact ⟨_, rfl, OnlyIn.of_get _ _ _ (fun x hx => by simp only [List.mem_cons, List.not_mem_nil, or_false, not_or] at hx; (repeat' (first | (with_reducible rfl) | (simp [hx]; done) | split | dsimp only)))⟩ | split | unfold act | unfold workEnds | unfold damzu | unfold indexWork | unfold codecWork | dsimp only

theorem execShr_next (worker : Nat) (d : Fin 16) (a : Fin 16) (b : Fin 16) (s : State) :
    ∃ t, execShr worker d a b s = .next t ∧ OnlyIn [.dmz, .idx] s t := by
  unfold execShr
  repeat' first | exact ⟨_, rfl, OnlyIn.of_get _ _ _ (fun x hx => by simp only [List.mem_cons, List.not_mem_nil, or_false, not_or] at hx; (repeat' (first | (with_reducible rfl) | (simp [hx]; done) | split | dsimp only)))⟩ | split | unfold act | unfold workEnds | unfold damzu | unfold indexWork | unfold codecWork | dsimp only

theorem execSltu_next (worker : Nat) (d : Fin 16) (a : Fin 16) (b : Fin 16) (s : State) :
    ∃ t, execSltu worker d a b s = .next t ∧ OnlyIn [.dmz, .idx] s t := by
  unfold execSltu
  repeat' first | exact ⟨_, rfl, OnlyIn.of_get _ _ _ (fun x hx => by simp only [List.mem_cons, List.not_mem_nil, or_false, not_or] at hx; (repeat' (first | (with_reducible rfl) | (simp [hx]; done) | split | dsimp only)))⟩ | split | unfold act | unfold workEnds | unfold damzu | unfold indexWork | unfold codecWork | dsimp only

theorem execSeq_next (worker : Nat) (d : Fin 16) (a : Fin 16) (b : Fin 16) (s : State) :
    ∃ t, execSeq worker d a b s = .next t ∧ OnlyIn [.dmz, .idx] s t := by
  unfold execSeq
  repeat' first | exact ⟨_, rfl, OnlyIn.of_get _ _ _ (fun x hx => by simp only [List.mem_cons, List.not_mem_nil, or_false, not_or] at hx; (repeat' (first | (with_reducible rfl) | (simp [hx]; done) | split | dsimp only)))⟩ | split | unfold act | unfold workEnds | unfold damzu | unfold indexWork | unfold codecWork | dsimp only

theorem execCtz_next (worker : Nat) (d : Fin 16) (a : Fin 16) (s : State) :
    ∃ t, execCtz worker d a s = .next t ∧ OnlyIn [.dmz, .idx] s t := by
  unfold execCtz
  repeat' first | exact ⟨_, rfl, OnlyIn.of_get _ _ _ (fun x hx => by simp only [List.mem_cons, List.not_mem_nil, or_false, not_or] at hx; (repeat' (first | (with_reducible rfl) | (simp [hx]; done) | split | dsimp only)))⟩ | split | unfold act | unfold workEnds | unfold damzu | unfold indexWork | unfold codecWork | dsimp only

theorem execPopc_next (worker : Nat) (d : Fin 16) (a : Fin 16) (s : State) :
    ∃ t, execPopc worker d a s = .next t ∧ OnlyIn [.dmz, .idx] s t := by
  unfold execPopc
  repeat' first | exact ⟨_, rfl, OnlyIn.of_get _ _ _ (fun x hx => by simp only [List.mem_cons, List.not_mem_nil, or_false, not_or] at hx; (repeat' (first | (with_reducible rfl) | (simp [hx]; done) | split | dsimp only)))⟩ | split | unfold act | unfold workEnds | unfold damzu | unfold indexWork | unfold codecWork | dsimp only

theorem execAddi_next (worker : Nat) (d : Fin 16) (a : Fin 16) (imm : BitVec 18) (s : State) :
    ∃ t, execAddi worker d a imm s = .next t ∧ OnlyIn [.dmz, .idx] s t := by
  unfold execAddi
  repeat' first | exact ⟨_, rfl, OnlyIn.of_get _ _ _ (fun x hx => by simp only [List.mem_cons, List.not_mem_nil, or_false, not_or] at hx; (repeat' (first | (with_reducible rfl) | (simp [hx]; done) | split | dsimp only)))⟩ | split | unfold act | unfold workEnds | unfold damzu | unfold indexWork | unfold codecWork | dsimp only

theorem execAndi_next (worker : Nat) (d : Fin 16) (a : Fin 16) (imm : BitVec 18) (s : State) :
    ∃ t, execAndi worker d a imm s = .next t ∧ OnlyIn [.dmz, .idx] s t := by
  unfold execAndi
  repeat' first | exact ⟨_, rfl, OnlyIn.of_get _ _ _ (fun x hx => by simp only [List.mem_cons, List.not_mem_nil, or_false, not_or] at hx; (repeat' (first | (with_reducible rfl) | (simp [hx]; done) | split | dsimp only)))⟩ | split | unfold act | unfold workEnds | unfold damzu | unfold indexWork | unfold codecWork | dsimp only

theorem execOri_next (worker : Nat) (d : Fin 16) (a : Fin 16) (imm : BitVec 18) (s : State) :
    ∃ t, execOri worker d a imm s = .next t ∧ OnlyIn [.dmz, .idx] s t := by
  unfold execOri
  repeat' first | exact ⟨_, rfl, OnlyIn.of_get _ _ _ (fun x hx => by simp only [List.mem_cons, List.not_mem_nil, or_false, not_or] at hx; (repeat' (first | (with_reducible rfl) | (simp [hx]; done) | split | dsimp only)))⟩ | split | unfold act | unfold workEnds | unfold damzu | unfold indexWork | unfold codecWork | dsimp only

theorem execShli_next (worker : Nat) (d : Fin 16) (a : Fin 16) (imm : Fin 64) (s : State) :
    ∃ t, execShli worker d a imm s = .next t ∧ OnlyIn [.dmz, .idx] s t := by
  unfold execShli
  repeat' first | exact ⟨_, rfl, OnlyIn.of_get _ _ _ (fun x hx => by simp only [List.mem_cons, List.not_mem_nil, or_false, not_or] at hx; (repeat' (first | (with_reducible rfl) | (simp [hx]; done) | split | dsimp only)))⟩ | split | unfold act | unfold workEnds | unfold damzu | unfold indexWork | unfold codecWork | dsimp only

theorem execShri_next (worker : Nat) (d : Fin 16) (a : Fin 16) (imm : Fin 64) (s : State) :
    ∃ t, execShri worker d a imm s = .next t ∧ OnlyIn [.dmz, .idx] s t := by
  unfold execShri
  repeat' first | exact ⟨_, rfl, OnlyIn.of_get _ _ _ (fun x hx => by simp only [List.mem_cons, List.not_mem_nil, or_false, not_or] at hx; (repeat' (first | (with_reducible rfl) | (simp [hx]; done) | split | dsimp only)))⟩ | split | unfold act | unfold workEnds | unfold damzu | unfold indexWork | unfold codecWork | dsimp only

theorem execSltui_next (worker : Nat) (d : Fin 16) (a : Fin 16) (imm : BitVec 18) (s : State) :
    ∃ t, execSltui worker d a imm s = .next t ∧ OnlyIn [.dmz, .idx] s t := by
  unfold execSltui
  repeat' first | exact ⟨_, rfl, OnlyIn.of_get _ _ _ (fun x hx => by simp only [List.mem_cons, List.not_mem_nil, or_false, not_or] at hx; (repeat' (first | (with_reducible rfl) | (simp [hx]; done) | split | dsimp only)))⟩ | split | unfold act | unfold workEnds | unfold damzu | unfold indexWork | unfold codecWork | dsimp only

theorem execSeqi_next (worker : Nat) (d : Fin 16) (a : Fin 16) (imm : BitVec 18) (s : State) :
    ∃ t, execSeqi worker d a imm s = .next t ∧ OnlyIn [.dmz, .idx] s t := by
  unfold execSeqi
  repeat' first | exact ⟨_, rfl, OnlyIn.of_get _ _ _ (fun x hx => by simp only [List.mem_cons, List.not_mem_nil, or_false, not_or] at hx; (repeat' (first | (with_reducible rfl) | (simp [hx]; done) | split | dsimp only)))⟩ | split | unfold act | unfold workEnds | unfold damzu | unfold indexWork | unfold codecWork | dsimp only

theorem execMovh_next (worker : Nat) (d : Fin 16) (imm : BitVec 18) (s : State) :
    ∃ t, execMovh worker d imm s = .next t ∧ OnlyIn [.dmz, .idx] s t := by
  unfold execMovh
  repeat' first | exact ⟨_, rfl, OnlyIn.of_get _ _ _ (fun x hx => by simp only [List.mem_cons, List.not_mem_nil, or_false, not_or] at hx; (repeat' (first | (with_reducible rfl) | (simp [hx]; done) | split | dsimp only)))⟩ | split | unfold act | unfold workEnds | unfold damzu | unfold indexWork | unfold codecWork | dsimp only

theorem execBswap_next (worker : Nat) (d : Fin 16) (a : Fin 16) (n : Fin 4) (s : State) :
    ∃ t, execBswap worker d a n s = .next t ∧ OnlyIn [.dmz, .idx] s t := by
  unfold execBswap
  repeat' first | exact ⟨_, rfl, OnlyIn.of_get _ _ _ (fun x hx => by simp only [List.mem_cons, List.not_mem_nil, or_false, not_or] at hx; (repeat' (first | (with_reducible rfl) | (simp [hx]; done) | split | dsimp only)))⟩ | split | unfold act | unfold workEnds | unfold damzu | unfold indexWork | unfold codecWork | dsimp only

theorem execLdr_next (worker : Nat) (d : Fin 16) (a : Fin 16) (sz : Fin 4) (off : BitVec 16) (s : State) :
    ∃ t, execLdr worker d a sz off s = .next t ∧ OnlyIn [.dmz, .idx] s t := by
  unfold execLdr
  repeat' first | exact ⟨_, rfl, OnlyIn.of_get _ _ _ (fun x hx => by simp only [List.mem_cons, List.not_mem_nil, or_false, not_or] at hx; (repeat' (first | (with_reducible rfl) | (simp [hx]; done) | split | dsimp only)))⟩ | split | unfold act | unfold workEnds | unfold damzu | unfold indexWork | unfold codecWork | dsimp only

theorem execLdk_next (worker : Nat) (d : Fin 16) (a : Fin 16) (sz : Fin 4) (off : BitVec 16) (s : State) :
    ∃ t, execLdk worker d a sz off s = .next t ∧ OnlyIn [.dmz, .idx] s t := by
  unfold execLdk
  repeat' first | exact ⟨_, rfl, OnlyIn.of_get _ _ _ (fun x hx => by simp only [List.mem_cons, List.not_mem_nil, or_false, not_or] at hx; (repeat' (first | (with_reducible rfl) | (simp [hx]; done) | split | dsimp only)))⟩ | split | unfold act | unfold workEnds | unfold damzu | unfold indexWork | unfold codecWork | dsimp only

theorem execLds_next (worker : Nat) (d : Fin 16) (a : Fin 16) (sz : Fin 4) (off : BitVec 16) (s : State) :
    ∃ t, execLds worker d a sz off s = .next t ∧ OnlyIn [.dmz, .idx] s t := by
  unfold execLds
  repeat' first | exact ⟨_, rfl, OnlyIn.of_get _ _ _ (fun x hx => by simp only [List.mem_cons, List.not_mem_nil, or_false, not_or] at hx; (repeat' (first | (with_reducible rfl) | (simp [hx]; done) | split | dsimp only)))⟩ | split | unfold act | unfold workEnds | unfold damzu | unfold indexWork | unfold codecWork | dsimp only

theorem execSts_next (worker : Nat) (d : Fin 16) (a : Fin 16) (sz : Fin 4) (off : BitVec 16) (s : State) :
    ∃ t, execSts worker d a sz off s = .next t ∧ OnlyIn [.dmz, .idx] s t := by
  unfold execSts
  repeat' first | exact ⟨_, rfl, OnlyIn.of_get _ _ _ (fun x hx => by simp only [List.mem_cons, List.not_mem_nil, or_false, not_or] at hx; (repeat' (first | (with_reducible rfl) | (simp [hx]; done) | split | dsimp only)))⟩ | split | unfold act | unfold workEnds | unfold damzu | unfold indexWork | unfold codecWork | dsimp only

theorem execVldr_next (worker : Nat) (vd : Fin 4) (a : Fin 16) (off : BitVec 16) (s : State) :
    ∃ t, execVldr worker vd a off s = .next t ∧ OnlyIn [.dmz, .idx] s t := by
  unfold execVldr
  repeat' first | exact ⟨_, rfl, OnlyIn.of_get _ _ _ (fun x hx => by simp only [List.mem_cons, List.not_mem_nil, or_false, not_or] at hx; (repeat' (first | (with_reducible rfl) | (simp [hx]; done) | split | dsimp only)))⟩ | split | unfold act | unfold workEnds | unfold damzu | unfold indexWork | unfold codecWork | dsimp only

theorem execVldk_next (worker : Nat) (vd : Fin 4) (a : Fin 16) (off : BitVec 16) (s : State) :
    ∃ t, execVldk worker vd a off s = .next t ∧ OnlyIn [.dmz, .idx] s t := by
  unfold execVldk
  repeat' first | exact ⟨_, rfl, OnlyIn.of_get _ _ _ (fun x hx => by simp only [List.mem_cons, List.not_mem_nil, or_false, not_or] at hx; (repeat' (first | (with_reducible rfl) | (simp [hx]; done) | split | dsimp only)))⟩ | split | unfold act | unfold workEnds | unfold damzu | unfold indexWork | unfold codecWork | dsimp only

theorem execVlds_next (worker : Nat) (vd : Fin 4) (a : Fin 16) (off : BitVec 16) (s : State) :
    ∃ t, execVlds worker vd a off s = .next t ∧ OnlyIn [.dmz, .idx] s t := by
  unfold execVlds
  repeat' first | exact ⟨_, rfl, OnlyIn.of_get _ _ _ (fun x hx => by simp only [List.mem_cons, List.not_mem_nil, or_false, not_or] at hx; (repeat' (first | (with_reducible rfl) | (simp [hx]; done) | split | dsimp only)))⟩ | split | unfold act | unfold workEnds | unfold damzu | unfold indexWork | unfold codecWork | dsimp only

theorem execVsts_next (worker : Nat) (vd : Fin 4) (a : Fin 16) (off : BitVec 16) (s : State) :
    ∃ t, execVsts worker vd a off s = .next t ∧ OnlyIn [.dmz, .idx] s t := by
  unfold execVsts
  repeat' first | exact ⟨_, rfl, OnlyIn.of_get _ _ _ (fun x hx => by simp only [List.mem_cons, List.not_mem_nil, or_false, not_or] at hx; (repeat' (first | (with_reducible rfl) | (simp [hx]; done) | split | dsimp only)))⟩ | split | unfold act | unfold workEnds | unfold damzu | unfold indexWork | unfold codecWork | dsimp only

theorem execVcmpeq_next (worker : Nat) (vd : Fin 4) (va : Fin 4) (vb : Fin 4) (s : State) :
    ∃ t, execVcmpeq worker vd va vb s = .next t ∧ OnlyIn [.dmz, .idx] s t := by
  unfold execVcmpeq
  repeat' first | exact ⟨_, rfl, OnlyIn.of_get _ _ _ (fun x hx => by simp only [List.mem_cons, List.not_mem_nil, or_false, not_or] at hx; (repeat' (first | (with_reducible rfl) | (simp [hx]; done) | split | dsimp only)))⟩ | split | unfold act | unfold workEnds | unfold damzu | unfold indexWork | unfold codecWork | dsimp only

theorem execVcmpgtu_next (worker : Nat) (vd : Fin 4) (va : Fin 4) (vb : Fin 4) (s : State) :
    ∃ t, execVcmpgtu worker vd va vb s = .next t ∧ OnlyIn [.dmz, .idx] s t := by
  unfold execVcmpgtu
  repeat' first | exact ⟨_, rfl, OnlyIn.of_get _ _ _ (fun x hx => by simp only [List.mem_cons, List.not_mem_nil, or_false, not_or] at hx; (repeat' (first | (with_reducible rfl) | (simp [hx]; done) | split | dsimp only)))⟩ | split | unfold act | unfold workEnds | unfold damzu | unfold indexWork | unfold codecWork | dsimp only

theorem execVand_next (worker : Nat) (vd : Fin 4) (va : Fin 4) (vb : Fin 4) (s : State) :
    ∃ t, execVand worker vd va vb s = .next t ∧ OnlyIn [.dmz, .idx] s t := by
  unfold execVand
  repeat' first | exact ⟨_, rfl, OnlyIn.of_get _ _ _ (fun x hx => by simp only [List.mem_cons, List.not_mem_nil, or_false, not_or] at hx; (repeat' (first | (with_reducible rfl) | (simp [hx]; done) | split | dsimp only)))⟩ | split | unfold act | unfold workEnds | unfold damzu | unfold indexWork | unfold codecWork | dsimp only

theorem execVor_next (worker : Nat) (vd : Fin 4) (va : Fin 4) (vb : Fin 4) (s : State) :
    ∃ t, execVor worker vd va vb s = .next t ∧ OnlyIn [.dmz, .idx] s t := by
  unfold execVor
  repeat' first | exact ⟨_, rfl, OnlyIn.of_get _ _ _ (fun x hx => by simp only [List.mem_cons, List.not_mem_nil, or_false, not_or] at hx; (repeat' (first | (with_reducible rfl) | (simp [hx]; done) | split | dsimp only)))⟩ | split | unfold act | unfold workEnds | unfold damzu | unfold indexWork | unfold codecWork | dsimp only

theorem execVxor_next (worker : Nat) (vd : Fin 4) (va : Fin 4) (vb : Fin 4) (s : State) :
    ∃ t, execVxor worker vd va vb s = .next t ∧ OnlyIn [.dmz, .idx] s t := by
  unfold execVxor
  repeat' first | exact ⟨_, rfl, OnlyIn.of_get _ _ _ (fun x hx => by simp only [List.mem_cons, List.not_mem_nil, or_false, not_or] at hx; (repeat' (first | (with_reducible rfl) | (simp [hx]; done) | split | dsimp only)))⟩ | split | unfold act | unfold workEnds | unfold damzu | unfold indexWork | unfold codecWork | dsimp only

theorem execVsplat_next (worker : Nat) (vd : Fin 4) (a : Fin 16) (s : State) :
    ∃ t, execVsplat worker vd a s = .next t ∧ OnlyIn [.dmz, .idx] s t := by
  unfold execVsplat
  repeat' first | exact ⟨_, rfl, OnlyIn.of_get _ _ _ (fun x hx => by simp only [List.mem_cons, List.not_mem_nil, or_false, not_or] at hx; (repeat' (first | (with_reducible rfl) | (simp [hx]; done) | split | dsimp only)))⟩ | split | unfold act | unfold workEnds | unfold damzu | unfold indexWork | unfold codecWork | dsimp only

theorem execVmask_next (worker : Nat) (d : Fin 16) (va : Fin 4) (s : State) :
    ∃ t, execVmask worker d va s = .next t ∧ OnlyIn [.dmz, .idx] s t := by
  unfold execVmask
  repeat' first | exact ⟨_, rfl, OnlyIn.of_get _ _ _ (fun x hx => by simp only [List.mem_cons, List.not_mem_nil, or_false, not_or] at hx; (repeat' (first | (with_reducible rfl) | (simp [hx]; done) | split | dsimp only)))⟩ | split | unfold act | unfold workEnds | unfold damzu | unfold indexWork | unfold codecWork | dsimp only

theorem execBeq_next (worker : Nat) (a : Fin 16) (b : Fin 16) (off : BitVec 18) (s : State) :
    ∃ t, execBeq worker a b off s = .next t ∧ OnlyIn [.dmz, .idx] s t := by
  unfold execBeq
  repeat' first | exact ⟨_, rfl, OnlyIn.of_get _ _ _ (fun x hx => by simp only [List.mem_cons, List.not_mem_nil, or_false, not_or] at hx; (repeat' (first | (with_reducible rfl) | (simp [hx]; done) | split | dsimp only)))⟩ | split | unfold act | unfold workEnds | unfold damzu | unfold indexWork | unfold codecWork | dsimp only

theorem execBne_next (worker : Nat) (a : Fin 16) (b : Fin 16) (off : BitVec 18) (s : State) :
    ∃ t, execBne worker a b off s = .next t ∧ OnlyIn [.dmz, .idx] s t := by
  unfold execBne
  repeat' first | exact ⟨_, rfl, OnlyIn.of_get _ _ _ (fun x hx => by simp only [List.mem_cons, List.not_mem_nil, or_false, not_or] at hx; (repeat' (first | (with_reducible rfl) | (simp [hx]; done) | split | dsimp only)))⟩ | split | unfold act | unfold workEnds | unfold damzu | unfold indexWork | unfold codecWork | dsimp only

theorem execBltu_next (worker : Nat) (a : Fin 16) (b : Fin 16) (off : BitVec 18) (s : State) :
    ∃ t, execBltu worker a b off s = .next t ∧ OnlyIn [.dmz, .idx] s t := by
  unfold execBltu
  repeat' first | exact ⟨_, rfl, OnlyIn.of_get _ _ _ (fun x hx => by simp only [List.mem_cons, List.not_mem_nil, or_false, not_or] at hx; (repeat' (first | (with_reducible rfl) | (simp [hx]; done) | split | dsimp only)))⟩ | split | unfold act | unfold workEnds | unfold damzu | unfold indexWork | unfold codecWork | dsimp only

theorem execBgeu_next (worker : Nat) (a : Fin 16) (b : Fin 16) (off : BitVec 18) (s : State) :
    ∃ t, execBgeu worker a b off s = .next t ∧ OnlyIn [.dmz, .idx] s t := by
  unfold execBgeu
  repeat' first | exact ⟨_, rfl, OnlyIn.of_get _ _ _ (fun x hx => by simp only [List.mem_cons, List.not_mem_nil, or_false, not_or] at hx; (repeat' (first | (with_reducible rfl) | (simp [hx]; done) | split | dsimp only)))⟩ | split | unfold act | unfold workEnds | unfold damzu | unfold indexWork | unfold codecWork | dsimp only

theorem execLoop_next (worker : Nat) (c : Fin 16) (body : Fin 1024) (mx : Fin 4096) (s : State) :
    ∃ t, execLoop worker c body mx s = .next t ∧ OnlyIn [.dmz, .idx] s t := by
  unfold execLoop
  repeat' first | exact ⟨_, rfl, OnlyIn.of_get _ _ _ (fun x hx => by simp only [List.mem_cons, List.not_mem_nil, or_false, not_or] at hx; (repeat' (first | (with_reducible rfl) | (simp [hx]; done) | split | dsimp only)))⟩ | split | unfold act | unfold workEnds | unfold damzu | unfold indexWork | unfold codecWork | dsimp only

theorem execLidx_next (worker : Nat) (d : Fin 16) (level : Fin 4) (s : State) :
    ∃ t, execLidx worker d level s = .next t ∧ OnlyIn [.dmz, .idx] s t := by
  unfold execLidx
  repeat' first | exact ⟨_, rfl, OnlyIn.of_get _ _ _ (fun x hx => by simp only [List.mem_cons, List.not_mem_nil, or_false, not_or] at hx; (repeat' (first | (with_reducible rfl) | (simp [hx]; done) | split | dsimp only)))⟩ | split | unfold act | unfold workEnds | unfold damzu | unfold indexWork | unfold codecWork | dsimp only

theorem execEmitr_next (worker : Nat) (a : Fin 16) (b : Fin 16) (s : State) :
    ∃ t, execEmitr worker a b s = .next t ∧ OnlyIn [.dmz, .idx] s t := by
  unfold execEmitr
  repeat' first | exact ⟨_, rfl, OnlyIn.of_get _ _ _ (fun x hx => by simp only [List.mem_cons, List.not_mem_nil, or_false, not_or] at hx; (repeat' (first | (with_reducible rfl) | (simp [hx]; done) | split | dsimp only)))⟩ | split | unfold act | unfold workEnds | unfold damzu | unfold indexWork | unfold codecWork | dsimp only

theorem execEmits_next (worker : Nat) (a : Fin 16) (b : Fin 16) (s : State) :
    ∃ t, execEmits worker a b s = .next t ∧ OnlyIn [.dmz, .idx] s t := by
  unfold execEmits
  repeat' first | exact ⟨_, rfl, OnlyIn.of_get _ _ _ (fun x hx => by simp only [List.mem_cons, List.not_mem_nil, or_false, not_or] at hx; (repeat' (first | (with_reducible rfl) | (simp [hx]; done) | split | dsimp only)))⟩ | split | unfold act | unfold workEnds | unfold damzu | unfold indexWork | unfold codecWork | dsimp only

theorem execEmitg_next (worker : Nat) (a : Fin 16) (sz : Fin 4) (s : State) :
    ∃ t, execEmitg worker a sz s = .next t ∧ OnlyIn [.dmz, .idx] s t := by
  unfold execEmitg
  repeat' first | exact ⟨_, rfl, OnlyIn.of_get _ _ _ (fun x hx => by simp only [List.mem_cons, List.not_mem_nil, or_false, not_or] at hx; (repeat' (first | (with_reducible rfl) | (simp [hx]; done) | split | dsimp only)))⟩ | split | unfold act | unfold workEnds | unfold damzu | unfold indexWork | unfold codecWork | dsimp only

theorem execCnt_next (worker : Nat) (a : Fin 16) (k : Fin 8) (s : State) :
    ∃ t, execCnt worker a k s = .next t ∧ OnlyIn [.dmz, .idx] s t := by
  unfold execCnt
  repeat' first | exact ⟨_, rfl, OnlyIn.of_get _ _ _ (fun x hx => by simp only [List.mem_cons, List.not_mem_nil, or_false, not_or] at hx; (repeat' (first | (with_reducible rfl) | (simp [hx]; done) | split | dsimp only)))⟩ | split | unfold act | unfold workEnds | unfold damzu | unfold indexWork | unfold codecWork | dsimp only

theorem execIdxs_next (worker : Nat) (d : Fin 16) (va : Fin 4) (slot : Fin 4) (s : State) :
    ∃ t, execIdxs worker d va slot s = .next t ∧ OnlyIn [.dmz, .idx] s t := by
  unfold execIdxs
  repeat' first | exact ⟨_, rfl, OnlyIn.of_get _ _ _ (fun x hx => by simp only [List.mem_cons, List.not_mem_nil, or_false, not_or] at hx; (repeat' (first | (with_reducible rfl) | (simp [hx]; done) | split | dsimp only)))⟩ | split | unfold act | unfold workEnds | unfold damzu | unfold indexWork | unfold codecWork | dsimp only

theorem execTrap_next (worker : Nat) (code : BitVec 8) (s : State) :
    ∃ t, execTrap worker code s = .next t ∧ OnlyIn [.dmz, .idx] s t := by
  unfold execTrap
  repeat' first | exact ⟨_, rfl, OnlyIn.of_get _ _ _ (fun x hx => by simp only [List.mem_cons, List.not_mem_nil, or_false, not_or] at hx; (repeat' (first | (with_reducible rfl) | (simp [hx]; done) | split | dsimp only)))⟩ | split | unfold act | unfold workEnds | unfold damzu | unfold indexWork | unfold codecWork | dsimp only

theorem execEnd_next (worker : Nat) (s : State) :
    ∃ t, execEnd worker s = .next t ∧ OnlyIn [.dmz, .idx] s t := by
  unfold execEnd
  repeat' first | exact ⟨_, rfl, OnlyIn.of_get _ _ _ (fun x hx => by simp only [List.mem_cons, List.not_mem_nil, or_false, not_or] at hx; (repeat' (first | (with_reducible rfl) | (simp [hx]; done) | split | dsimp only)))⟩ | split | unfold act | unfold workEnds | unfold damzu | unfold indexWork | unfold codecWork | dsimp only

theorem execCursorIdleExpiry_next (cursor : Fin 4096) (s : State) :
    ∃ t, execCursorIdleExpiry cursor s = .next t ∧ OnlyIn [.idx] s t := by
  unfold execCursorIdleExpiry
  repeat' first | exact ⟨_, rfl, OnlyIn.of_get _ _ _ (fun x hx => by simp only [List.mem_cons, List.not_mem_nil, or_false, not_or] at hx; (repeat' (first | (with_reducible rfl) | (simp [hx]; done) | split | dsimp only)))⟩ | split | unfold act | unfold workEnds | unfold damzu | unfold indexWork | unfold codecWork | dsimp only

theorem execRespreadMove_next (table : Fin 256) (s : State) :
    ∃ t, execRespreadMove table s = .next t ∧ OnlyIn [.idx] s t := by
  unfold execRespreadMove
  repeat' first | exact ⟨_, rfl, OnlyIn.of_get _ _ _ (fun x hx => by simp only [List.mem_cons, List.not_mem_nil, or_false, not_or] at hx; (repeat' (first | (with_reducible rfl) | (simp [hx]; done) | split | dsimp only)))⟩ | split | unfold act | unfold workEnds | unfold damzu | unfold indexWork | unfold codecWork | dsimp only

theorem execIdxTableCreate_next (fn : Fin 2) (s : State) :
    ∃ t, execIdxTableCreate fn s = .next t ∧ OnlyIn [.idx] s t := by
  unfold execIdxTableCreate
  repeat' first | exact ⟨_, rfl, OnlyIn.of_get _ _ _ (fun x hx => by simp only [List.mem_cons, List.not_mem_nil, or_false, not_or] at hx; (repeat' (first | (with_reducible rfl) | (simp [hx]; done) | split | dsimp only)))⟩ | split | unfold act | unfold workEnds | unfold damzu | unfold indexWork | unfold codecWork | dsimp only

theorem execIdxTableDelete_next (fn : Fin 2) (table : Fin 256) (s : State) :
    ∃ t, execIdxTableDelete fn table s = .next t ∧ OnlyIn [.idx] s t := by
  unfold execIdxTableDelete
  repeat' first | exact ⟨_, rfl, OnlyIn.of_get _ _ _ (fun x hx => by simp only [List.mem_cons, List.not_mem_nil, or_false, not_or] at hx; (repeat' (first | (with_reducible rfl) | (simp [hx]; done) | split | dsimp only)))⟩ | split | unfold act | unfold workEnds | unfold damzu | unfold indexWork | unfold codecWork | dsimp only

theorem execIdxTableEmpty_next (fn : Fin 2) (table : Fin 256) (s : State) :
    ∃ t, execIdxTableEmpty fn table s = .next t ∧ OnlyIn [.idx] s t := by
  unfold execIdxTableEmpty
  repeat' first | exact ⟨_, rfl, OnlyIn.of_get _ _ _ (fun x hx => by simp only [List.mem_cons, List.not_mem_nil, or_false, not_or] at hx; (repeat' (first | (with_reducible rfl) | (simp [hx]; done) | split | dsimp only)))⟩ | split | unfold act | unfold workEnds | unfold damzu | unfold indexWork | unfold codecWork | dsimp only

theorem execIdxScrub_next (found : Nat) (s : State) :
    ∃ t, execIdxScrub found s = .next t ∧ OnlyIn [.idx] s t := by
  unfold execIdxScrub
  repeat' first | exact ⟨_, rfl, OnlyIn.of_get _ _ _ (fun x hx => by simp only [List.mem_cons, List.not_mem_nil, or_false, not_or] at hx; (repeat' (first | (with_reducible rfl) | (simp [hx]; done) | split | dsimp only)))⟩ | split | unfold act | unfold workEnds | unfold damzu | unfold indexWork | unfold codecWork | dsimp only

theorem execIndexBankFault_next (bank : Fin 17) (ns : Nat) (s : State) :
    ∃ t, execIndexBankFault bank ns s = .next t ∧ OnlyIn [.glb, .pwr, .idx, .flc, .insts] s t := by
  unfold execIndexBankFault
  repeat' first | exact ⟨_, rfl, OnlyIn.of_get _ _ _ (fun x hx => by simp only [List.mem_cons, List.not_mem_nil, or_false, not_or] at hx; (repeat' (first | (with_reducible rfl) | (simp [hx]; done) | split | dsimp only)))⟩ | split | unfold act | unfold workEnds | unfold damzu | unfold indexWork | unfold codecWork | dsimp only

theorem execPageReadDone_next (die : Nat) (block : Nat) (cws : List (Fin 7)) (weak : Bool) (offset : Nat) (lost : List (Nat × Nat)) (gc : Option (Nat × Nat × Nat)) (s : State) :
    ∃ t, execPageReadDone die block cws weak offset lost gc s = .next t ∧ OnlyIn [.glb, .pwr, .flc, .insts] s t := by
  unfold execPageReadDone
  repeat' first | exact ⟨_, rfl, OnlyIn.of_get _ _ _ (fun x hx => by simp only [List.mem_cons, List.not_mem_nil, or_false, not_or] at hx; (repeat' (first | (with_reducible rfl) | (simp [hx]; done) | split | dsimp only)))⟩ | split | unfold act | unfold workEnds | unfold damzu | unfold indexWork | unfold codecWork | dsimp only

theorem execProgramDone_next (sb : Nat) (die : Nat) (block : Nat) (slc : Bool) (closes : Bool) (pass : Bool) (src : Option Nat) (wbFree : Fin 101) (denseFree : Fin 101) (s : State) :
    ∃ t, execProgramDone sb die block slc closes pass src wbFree denseFree s = .next t ∧ OnlyIn [.glb, .pwr, .flc, .insts] s t := by
  unfold execProgramDone
  repeat' first | exact ⟨_, rfl, OnlyIn.of_get _ _ _ (fun x hx => by simp only [List.mem_cons, List.not_mem_nil, or_false, not_or] at hx; (repeat' (first | (with_reducible rfl) | (simp [hx]; done) | split | dsimp only)))⟩ | split | unfold act | unfold workEnds | unfold damzu | unfold indexWork | unfold codecWork | dsimp only

theorem execEraseDone_next (sb : Nat) (die : Nat) (block : Nat) (pass : Bool) (wbFree : Fin 101) (denseFree : Fin 101) (s : State) :
    ∃ t, execEraseDone sb die block pass wbFree denseFree s = .next t ∧ OnlyIn [.glb, .pwr, .flc, .insts] s t := by
  unfold execEraseDone
  repeat' first | exact ⟨_, rfl, OnlyIn.of_get _ _ _ (fun x hx => by simp only [List.mem_cons, List.not_mem_nil, or_false, not_or] at hx; (repeat' (first | (with_reducible rfl) | (simp [hx]; done) | split | dsimp only)))⟩ | split | unfold act | unfold workEnds | unfold damzu | unfold indexWork | unfold codecWork | dsimp only

theorem execJournalPageDurable_next (n : Nat) (s : State) :
    ∃ t, execJournalPageDurable n s = .next t ∧ OnlyIn [.glb, .flc, .spn, .tags, .locks, .units] s t := by
  unfold execJournalPageDurable
  repeat' first | exact ⟨_, rfl, OnlyIn.of_get _ _ _ (fun x hx => by simp only [List.mem_cons, List.not_mem_nil, or_false, not_or] at hx; (repeat' (first | (with_reducible rfl) | (simp [hx]; done) | split | dsimp only)))⟩ | split | unfold act | unfold workEnds | unfold damzu | unfold indexWork | unfold codecWork | dsimp only

theorem execGcSelect_next (sb : Nat) (s : State) :
    ∃ t, execGcSelect sb s = .next t ∧ OnlyIn [.flc] s t := by
  unfold execGcSelect
  repeat' first | exact ⟨_, rfl, OnlyIn.of_get _ _ _ (fun x hx => by simp only [List.mem_cons, List.not_mem_nil, or_false, not_or] at hx; (repeat' (first | (with_reducible rfl) | (simp [hx]; done) | split | dsimp only)))⟩ | split | unfold act | unfold workEnds | unfold damzu | unfold indexWork | unfold codecWork | dsimp only

theorem execGcCopyVerified_next (sb : Nat) (vol : Nat) (allot : Nat) (dst : Nat) (s : State) :
    ∃ t, execGcCopyVerified sb vol allot dst s = .next t ∧ OnlyIn [.flc, .fresh] s t := by
  unfold execGcCopyVerified
  repeat' first | exact ⟨_, rfl, OnlyIn.of_get _ _ _ (fun x hx => by simp only [List.mem_cons, List.not_mem_nil, or_false, not_or] at hx; (repeat' (first | (with_reducible rfl) | (simp [hx]; done) | split | dsimp only)))⟩ | split | unfold act | unfold workEnds | unfold damzu | unfold indexWork | unfold codecWork | dsimp only

theorem execGcEraseSource_next (sb : Nat) (s : State) :
    ∃ t, execGcEraseSource sb s = .next t ∧ OnlyIn [.flc] s t := by
  unfold execGcEraseSource
  repeat' first | exact ⟨_, rfl, OnlyIn.of_get _ _ _ (fun x hx => by simp only [List.mem_cons, List.not_mem_nil, or_false, not_or] at hx; (repeat' (first | (with_reducible rfl) | (simp [hx]; done) | split | dsimp only)))⟩ | split | unfold act | unfold workEnds | unfold damzu | unfold indexWork | unfold codecWork | dsimp only

theorem execMapSegmentWrite_next (seg : Nat) (s : State) :
    ∃ t, execMapSegmentWrite seg s = .next t ∧ OnlyIn [.flc] s t := by
  unfold execMapSegmentWrite
  repeat' first | exact ⟨_, rfl, OnlyIn.of_get _ _ _ (fun x hx => by simp only [List.mem_cons, List.not_mem_nil, or_false, not_or] at hx; (repeat' (first | (with_reducible rfl) | (simp [hx]; done) | split | dsimp only)))⟩ | split | unfold act | unfold workEnds | unfold damzu | unfold indexWork | unfold codecWork | dsimp only

theorem execPatrolRead_next (die : Nat) (block : Nat) (cws : List (Fin 7)) (weak : Bool) (offset : Nat) (lost : List (Nat × Nat)) (parity : Bool) (last : Bool) (s : State) :
    ∃ t, execPatrolRead die block cws weak offset lost parity last s = .next t ∧ OnlyIn [.glb, .pwr, .flc, .insts] s t := by
  unfold execPatrolRead
  repeat' first | exact ⟨_, rfl, OnlyIn.of_get _ _ _ (fun x hx => by simp only [List.mem_cons, List.not_mem_nil, or_false, not_or] at hx; (repeat' (first | (with_reducible rfl) | (simp [hx]; done) | split | dsimp only)))⟩ | split | unfold act | unfold workEnds | unfold damzu | unfold indexWork | unfold codecWork | dsimp only

theorem execRefresh_next (sb : Nat) (die : Nat) (block : Nat) (dst : Nat) (allots : List (Nat × Nat)) (s : State) :
    ∃ t, execRefresh sb die block dst allots s = .next t ∧ OnlyIn [.flc, .fresh] s t := by
  unfold execRefresh
  repeat' first | exact ⟨_, rfl, OnlyIn.of_get _ _ _ (fun x hx => by simp only [List.mem_cons, List.not_mem_nil, or_false, not_or] at hx; (repeat' (first | (with_reducible rfl) | (simp [hx]; done) | split | dsimp only)))⟩ | split | unfold act | unfold workEnds | unfold damzu | unfold indexWork | unfold codecWork | dsimp only

theorem execWearLevelMove_next (sb : Nat) (s : State) :
    ∃ t, execWearLevelMove sb s = .next t ∧ OnlyIn [.flc] s t := by
  unfold execWearLevelMove
  repeat' first | exact ⟨_, rfl, OnlyIn.of_get _ _ _ (fun x hx => by simp only [List.mem_cons, List.not_mem_nil, or_false, not_or] at hx; (repeat' (first | (with_reducible rfl) | (simp [hx]; done) | split | dsimp only)))⟩ | split | unfold act | unfold workEnds | unfold damzu | unfold indexWork | unfold codecWork | dsimp only

theorem execDieTimeout_next (die : Nat) (ns : Nat) (s : State) :
    ∃ t, execDieTimeout die ns s = .next t ∧ OnlyIn [.glb, .pwr, .flc, .insts] s t := by
  unfold execDieTimeout
  repeat' first | exact ⟨_, rfl, OnlyIn.of_get _ _ _ (fun x hx => by simp only [List.mem_cons, List.not_mem_nil, or_false, not_or] at hx; (repeat' (first | (with_reducible rfl) | (simp [hx]; done) | split | dsimp only)))⟩ | split | unfold act | unfold workEnds | unfold damzu | unfold indexWork | unfold codecWork | dsimp only

theorem execRebuildDone_next (die : Nat) (s : State) :
    ∃ t, execRebuildDone die s = .next t ∧ OnlyIn [.flc, .insts] s t := by
  unfold execRebuildDone
  repeat' first | exact ⟨_, rfl, OnlyIn.of_get _ _ _ (fun x hx => by simp only [List.mem_cons, List.not_mem_nil, or_false, not_or] at hx; (repeat' (first | (with_reducible rfl) | (simp [hx]; done) | split | dsimp only)))⟩ | split | unfold act | unfold workEnds | unfold damzu | unfold indexWork | unfold codecWork | dsimp only

theorem execChannelLost_next (ch : Fin 16) (ns : Nat) (s : State) :
    ∃ t, execChannelLost ch ns s = .next t ∧ OnlyIn [.glb, .pwr, .flc, .insts] s t := by
  unfold execChannelLost
  repeat' first | exact ⟨_, rfl, OnlyIn.of_get _ _ _ (fun x hx => by simp only [List.mem_cons, List.not_mem_nil, or_false, not_or] at hx; (repeat' (first | (with_reducible rfl) | (simp [hx]; done) | split | dsimp only)))⟩ | split | unfold act | unfold workEnds | unfold damzu | unfold indexWork | unfold codecWork | dsimp only

theorem execEvacuate_next (fn : Fin 2) (ch : Fin 16) (ends : Bool) (s : State) :
    ∃ t, execEvacuate fn ch ends s = .next t ∧ OnlyIn [.glb, .flc, .insts] s t := by
  unfold execEvacuate
  repeat' first | exact ⟨_, rfl, OnlyIn.of_get _ _ _ (fun x hx => by simp only [List.mem_cons, List.not_mem_nil, or_false, not_or] at hx; (repeat' (first | (with_reducible rfl) | (simp [hx]; done) | split | dsimp only)))⟩ | split | unfold act | unfold workEnds | unfold damzu | unfold indexWork | unfold codecWork | dsimp only

theorem execRelease_next (fn : Fin 2) (ch : Fin 16) (s : State) :
    ∃ t, execRelease fn ch s = .next t ∧ OnlyIn [.glb, .flc] s t := by
  unfold execRelease
  repeat' first | exact ⟨_, rfl, OnlyIn.of_get _ _ _ (fun x hx => by simp only [List.mem_cons, List.not_mem_nil, or_false, not_or] at hx; (repeat' (first | (with_reducible rfl) | (simp [hx]; done) | split | dsimp only)))⟩ | split | unfold act | unfold workEnds | unfold damzu | unfold indexWork | unfold codecWork | dsimp only

theorem execInserted_next (fn : Fin 2) (ch : Fin 16) (ends : Bool) (trained : Bool) (rate : Nat) (dies : List (Fin 16 × Nat × Nat × Nat × Nat × Nat)) (refused : List (Fin 16)) (s : State) :
    ∃ t, execInserted fn ch ends trained rate dies refused s = .next t ∧ OnlyIn [.glb, .flc, .insts, .fresh] s t := by
  unfold execInserted
  repeat' first | exact ⟨_, rfl, OnlyIn.of_get _ _ _ (fun x hx => by simp only [List.mem_cons, List.not_mem_nil, or_false, not_or] at hx; (repeat' (first | (with_reducible rfl) | (simp [hx]; done) | split | dsimp only)))⟩ | split | unfold act | unfold workEnds | unfold damzu | unfold indexWork | unfold codecWork | dsimp only

theorem execSramScrub_next (target : Fin 4) (first : Nat) (len : Nat) (nature : List (Nat × List Nat)) (hard : List Nat) (pass : Bool) (s : State) :
    ∃ t, execSramScrub target first len nature hard pass s = .next t ∧ OnlyIn [.sch, .mem] s t := by
  unfold execSramScrub
  repeat' first | exact ⟨_, rfl, OnlyIn.of_get _ _ _ (fun x hx => by simp only [List.mem_cons, List.not_mem_nil, or_false, not_or] at hx; (repeat' (first | (with_reducible rfl) | (simp [hx]; done) | split | dsimp only)))⟩ | split | unfold act | unfold workEnds | unfold damzu | unfold indexWork | unfold codecWork | dsimp only

theorem execDramScrub_next (sideB : Bool) (first : Nat) (count : Nat) (nature : List (Nat × List Nat)) (pass : Bool) (s : State) :
    ∃ t, execDramScrub sideB first count nature pass s = .next t ∧ OnlyIn [.mem, .drc] s t := by
  unfold execDramScrub
  repeat' first | exact ⟨_, rfl, OnlyIn.of_get _ _ _ (fun x hx => by simp only [List.mem_cons, List.not_mem_nil, or_false, not_or] at hx; (repeat' (first | (with_reducible rfl) | (simp [hx]; done) | split | dsimp only)))⟩ | split | unfold act | unfold workEnds | unfold damzu | unfold indexWork | unfold codecWork | dsimp only

theorem execHogsheadBankReplace_next (unit : Fin 34) (reason : Fin 4) (unreadable : List (Fin 4096)) (ns : Nat) (s : State) :
    ∃ t, execHogsheadBankReplace unit reason unreadable ns s = .next t ∧ OnlyIn [.glb, .pwr, .flc, .mem, .insts] s t := by
  unfold execHogsheadBankReplace act
  split
  · refine ⟨_, rfl, OnlyIn.of_get _ _ _ fun x hx => ?_⟩
    simp only [List.mem_cons, List.not_mem_nil, or_false, not_or] at hx
    split
    · have fold : ∀ (b : Nat) (l : List (Fin 4096)) (s : State), (l.foldl (fun s g =>
          (List.range 256).foldl (fun s i => restoreTwin ((g.val * 32 + b) * 256 + i) s) s) s).get x = s.get x := by
        intro b l
        induction l with
        | nil => intro s; rfl
        | cons g l ih => intro s; rw [List.foldl_cons, ih]; simp [hx]
      dsimp only
      rw [takeover_get _ _ _ _ _ _ (by simp [hx]), fold]
      simp [hx]
    · rfl
  · exact ⟨_, rfl, OnlyIn.of_get _ _ _ fun _ _ => rfl⟩

theorem execFirkinLineRemap_next (engine : Fin 36) (line : Fin 8192) (ns : Nat) (s : State) :
    ∃ t, execFirkinLineRemap engine line ns s = .next t ∧ OnlyIn [.glb, .clk, .pwr, .sch, .flc, .mem, .cch, .drc, .insts, .fresh] s t := by
  unfold execFirkinLineRemap
  repeat' first | exact ⟨_, rfl, OnlyIn.of_get _ _ _ (fun x hx => by simp only [List.mem_cons, List.not_mem_nil, or_false, not_or] at hx; (repeat' (first | (with_reducible rfl) | (simp [hx]; done) | split | dsimp only)))⟩ | split | unfold act | unfold workEnds | unfold damzu | unfold indexWork | unfold codecWork | dsimp only

theorem execDramSideFail_next (sideB : Bool) (reason : Fin 3) (dropped : List (Nat × Nat)) (ns : Nat) (s : State) :
    ∃ t, execDramSideFail sideB reason dropped ns s = .next t ∧ OnlyIn [.glb, .pwr, .bsh, .flc, .drc, .insts] s t := by
  unfold execDramSideFail
  repeat' first | exact ⟨_, rfl, OnlyIn.of_get _ _ _ (fun x hx => by simp only [List.mem_cons, List.not_mem_nil, or_false, not_or] at hx; (repeat' (first | (with_reducible rfl) | (simp [hx]; done) | split | dsimp only)))⟩ | split | unfold act | unfold workEnds | unfold damzu | unfold indexWork | unfold codecWork | dsimp only

theorem execCacheFill_next (reads : List (Fin 4 × Nat)) (line : Nat) (nature : List (Bool × Nat × List Nat)) (s : State) :
    ∃ t, execCacheFill reads line nature s = .next t ∧ OnlyIn [.mem, .cch, .drc] s t := by
  unfold execCacheFill
  repeat' first | exact ⟨_, rfl, OnlyIn.of_get _ _ _ (fun x hx => by simp only [List.mem_cons, List.not_mem_nil, or_false, not_or] at hx; (repeat' (first | (with_reducible rfl) | (simp [hx]; done) | split | dsimp only)))⟩ | split | unfold act | unfold workEnds | unfold damzu | unfold indexWork | unfold codecWork | dsimp only

theorem execPrefetch_next (cls : Fin 4) (line : Nat) (nature : List (Bool × Nat × List Nat)) (s : State) :
    ∃ t, execPrefetch cls line nature s = .next t ∧ OnlyIn [.mem, .cch, .drc] s t := by
  unfold execPrefetch
  repeat' first | exact ⟨_, rfl, OnlyIn.of_get _ _ _ (fun x hx => by simp only [List.mem_cons, List.not_mem_nil, or_false, not_or] at hx; (repeat' (first | (with_reducible rfl) | (simp [hx]; done) | split | dsimp only)))⟩ | split | unfold act | unfold workEnds | unfold damzu | unfold indexWork | unfold codecWork | dsimp only

theorem execWriteBufferDrain_next (nature : List (Bool × Nat × List Nat)) (s : State) :
    ∃ t, execWriteBufferDrain nature s = .next t ∧ OnlyIn [.clk, .mem, .cch, .drc] s t := by
  unfold execWriteBufferDrain
  repeat' first | exact ⟨_, rfl, OnlyIn.of_get _ _ _ (fun x hx => by simp only [List.mem_cons, List.not_mem_nil, or_false, not_or] at hx; (repeat' (first | (with_reducible rfl) | (simp [hx]; done) | split | dsimp only)))⟩ | split | unfold act | unfold workEnds | unfold damzu | unfold indexWork | unfold codecWork | dsimp only

theorem execCacheDisable_next (fn : Fin 2) (value : BitVec 32) (s : State) :
    ∃ t, execCacheDisable fn value s = .next t ∧ OnlyIn [.clk, .cch] s t := by
  unfold execCacheDisable
  repeat' first | exact ⟨_, rfl, OnlyIn.of_get _ _ _ (fun x hx => by simp only [List.mem_cons, List.not_mem_nil, or_false, not_or] at hx; (repeat' (first | (with_reducible rfl) | (simp [hx]; done) | split | dsimp only)))⟩ | split | unfold act | unfold workEnds | unfold damzu | unfold indexWork | unfold codecWork | dsimp only

theorem execCacheEnable_next (fn : Fin 2) (value : BitVec 32) (s : State) :
    ∃ t, execCacheEnable fn value s = .next t ∧ OnlyIn [.clk, .cch] s t := by
  unfold execCacheEnable
  repeat' first | exact ⟨_, rfl, OnlyIn.of_get _ _ _ (fun x hx => by simp only [List.mem_cons, List.not_mem_nil, or_false, not_or] at hx; (repeat' (first | (with_reducible rfl) | (simp [hx]; done) | split | dsimp only)))⟩ | split | unfold act | unfold workEnds | unfold damzu | unfold indexWork | unfold codecWork | dsimp only

theorem execCchWayPwrWrite_next (fn : Fin 2) (value : BitVec 32) (s : State) :
    ∃ t, execCchWayPwrWrite fn value s = .next t ∧ OnlyIn [.clk, .cch] s t := by
  unfold execCchWayPwrWrite
  repeat' first | exact ⟨_, rfl, OnlyIn.of_get _ _ _ (fun x hx => by simp only [List.mem_cons, List.not_mem_nil, or_false, not_or] at hx; (repeat' (first | (with_reducible rfl) | (simp [hx]; done) | split | dsimp only)))⟩ | split | unfold act | unfold workEnds | unfold damzu | unfold indexWork | unfold codecWork | dsimp only

theorem execCacheWayFault_next (way : Fin 16) (ns : Nat) (s : State) :
    ∃ t, execCacheWayFault way ns s = .next t ∧ OnlyIn [.glb, .clk, .pwr, .flc, .cch, .insts] s t := by
  unfold execCacheWayFault
  repeat' first | exact ⟨_, rfl, OnlyIn.of_get _ _ _ (fun x hx => by simp only [List.mem_cons, List.not_mem_nil, or_false, not_or] at hx; (repeat' (first | (with_reducible rfl) | (simp [hx]; done) | split | dsimp only)))⟩ | split | unfold act | unfold workEnds | unfold damzu | unfold indexWork | unfold codecWork | dsimp only

theorem execMemInjArm_next (fn : Fin 2) (value : BitVec 32) (s : State) :
    ∃ t, execMemInjArm fn value s = .next t ∧ OnlyIn [.mem] s t := by
  unfold execMemInjArm
  repeat' first | exact ⟨_, rfl, OnlyIn.of_get _ _ _ (fun x hx => by simp only [List.mem_cons, List.not_mem_nil, or_false, not_or] at hx; (repeat' (first | (with_reducible rfl) | (simp [hx]; done) | split | dsimp only)))⟩ | split | unfold act | unfold workEnds | unfold damzu | unfold indexWork | unfold codecWork | dsimp only

theorem execDrainSet_next (fn : Fin 2) (value : BitVec 32) (s : State) :
    ∃ t, execDrainSet fn value s = .next t ∧ OnlyIn [.insts] s t := by
  unfold execDrainSet
  repeat' first | exact ⟨_, rfl, OnlyIn.of_get _ _ _ (fun x hx => by simp only [List.mem_cons, List.not_mem_nil, or_false, not_or] at hx; (repeat' (first | (with_reducible rfl) | (simp [hx]; done) | split | dsimp only)))⟩ | split | unfold act | unfold workEnds | unfold damzu | unfold indexWork | unfold codecWork | dsimp only

theorem execDrainCleared_next (fn : Fin 2) (value : BitVec 32) (s : State) :
    ∃ t, execDrainCleared fn value s = .next t ∧ OnlyIn [.insts] s t := by
  unfold execDrainCleared
  repeat' first | exact ⟨_, rfl, OnlyIn.of_get _ _ _ (fun x hx => by simp only [List.mem_cons, List.not_mem_nil, or_false, not_or] at hx; (repeat' (first | (with_reducible rfl) | (simp [hx]; done) | split | dsimp only)))⟩ | split | unfold act | unfold workEnds | unfold damzu | unfold indexWork | unfold codecWork | dsimp only

theorem execMgrInstCtlPortWrite_next (fn : Fin 2) (value : BitVec 32) (s : State) :
    ∃ t, execMgrInstCtlPortWrite fn value s = .next t ∧ OnlyIn [.insts] s t := by
  unfold execMgrInstCtlPortWrite
  repeat' first | exact ⟨_, rfl, OnlyIn.of_get _ _ _ (fun x hx => by simp only [List.mem_cons, List.not_mem_nil, or_false, not_or] at hx; (repeat' (first | (with_reducible rfl) | (simp [hx]; done) | split | dsimp only)))⟩ | split | unfold act | unfold workEnds | unfold damzu | unfold indexWork | unfold codecWork | dsimp only

theorem execAck_next (fn : Fin 2) (s : State) :
    ∃ t, execAck fn s = .next t ∧ OnlyIn [.tags, .locks, .insts, .units] s t := by
  unfold execAck
  repeat' first | exact ⟨_, rfl, OnlyIn.of_get _ _ _ (fun x hx => by simp only [List.mem_cons, List.not_mem_nil, or_false, not_or] at hx; (repeat' (first | (with_reducible rfl) | (simp [hx]; done) | split | dsimp only)))⟩ | split | unfold act | unfold workEnds | unfold damzu | unfold indexWork | unfold codecWork | dsimp only

theorem execSend_next (fn : Fin 2) (len : Fin 512) (s : State) :
    ∃ t, execSend fn len s = .next t ∧ OnlyIn [.hif, .insts] s t := by
  unfold execSend
  repeat' first | exact ⟨_, rfl, OnlyIn.of_get _ _ _ (fun x hx => by simp only [List.mem_cons, List.not_mem_nil, or_false, not_or] at hx; (repeat' (first | (with_reducible rfl) | (simp [hx]; done) | split | dsimp only)))⟩ | split | unfold act | unfold workEnds | unfold damzu | unfold indexWork | unfold codecWork | dsimp only

theorem execExport_next (fn : Fin 2) (hostError : Bool) (s : State) :
    ∃ t, execExport fn hostError s = .next t ∧ OnlyIn [.mgr, .hostMem] s t := by
  unfold execExport
  repeat' first | exact ⟨_, rfl, OnlyIn.of_get _ _ _ (fun x hx => by simp only [List.mem_cons, List.not_mem_nil, or_false, not_or] at hx; (repeat' (first | (with_reducible rfl) | (simp [hx]; done) | split | dsimp only)))⟩ | split | unfold act | unfold workEnds | unfold damzu | unfold indexWork | unfold codecWork | dsimp only

theorem execImport_next (fn : Fin 2) (hostError : Bool) (s : State) :
    ∃ t, execImport fn hostError s = .next t ∧ OnlyIn [.mgr, .insts] s t := by
  unfold execImport
  repeat' first | exact ⟨_, rfl, OnlyIn.of_get _ _ _ (fun x hx => by simp only [List.mem_cons, List.not_mem_nil, or_false, not_or] at hx; (repeat' (first | (with_reducible rfl) | (simp [hx]; done) | split | dsimp only)))⟩ | split | unfold act | unfold workEnds | unfold damzu | unfold indexWork | unfold codecWork | dsimp only

theorem execMgrLogCtlWrite_next (fn : Fin 2) (k : Fin 4) (value : BitVec 32) (s : State) :
    ∃ t, execMgrLogCtlWrite fn k value s = .next t ∧ OnlyIn [.mgr] s t := by
  unfold execMgrLogCtlWrite
  repeat' first | exact ⟨_, rfl, OnlyIn.of_get _ _ _ (fun x hx => by simp only [List.mem_cons, List.not_mem_nil, or_false, not_or] at hx; (repeat' (first | (with_reducible rfl) | (simp [hx]; done) | split | dsimp only)))⟩ | split | unfold act | unfold workEnds | unfold damzu | unfold indexWork | unfold codecWork | dsimp only

theorem execPageLogEntry_next (k : Fin 4) (s : State) :
    ∃ t, execPageLogEntry k s = .next t ∧ OnlyIn [.mgr, .hostMem] s t := by
  unfold execPageLogEntry
  repeat' first | exact ⟨_, rfl, OnlyIn.of_get _ _ _ (fun x hx => by simp only [List.mem_cons, List.not_mem_nil, or_false, not_or] at hx; (repeat' (first | (with_reducible rfl) | (simp [hx]; done) | split | dsimp only)))⟩ | split | unfold act | unfold workEnds | unfold damzu | unfold indexWork | unfold codecWork | dsimp only

theorem execSync_next (fn : Fin 2) (k : Fin 4) (s : State) :
    ∃ t, execSync fn k s = .next t ∧ OnlyIn [.mgr] s t := by
  unfold execSync
  repeat' first | exact ⟨_, rfl, OnlyIn.of_get _ _ _ (fun x hx => by simp only [List.mem_cons, List.not_mem_nil, or_false, not_or] at hx; (repeat' (first | (with_reducible rfl) | (simp [hx]; done) | split | dsimp only)))⟩ | split | unfold act | unfold workEnds | unfold damzu | unfold indexWork | unfold codecWork | dsimp only

theorem execLogMarker_next (k : Fin 4) (s : State) :
    ∃ t, execLogMarker k s = .next t ∧ OnlyIn [.mgr, .hostMem] s t := by
  unfold execLogMarker
  repeat' first | exact ⟨_, rfl, OnlyIn.of_get _ _ _ (fun x hx => by simp only [List.mem_cons, List.not_mem_nil, or_false, not_or] at hx; (repeat' (first | (with_reducible rfl) | (simp [hx]; done) | split | dsimp only)))⟩ | split | unfold act | unfold workEnds | unfold damzu | unfold indexWork | unfold codecWork | dsimp only

theorem execFlitReceived_next (port : Fin 3) (bytes : List Byte) (s : State) :
    ∃ t, execFlitReceived port bytes s = .next t ∧ OnlyIn [.spn] s t := by
  unfold execFlitReceived
  repeat' first | exact ⟨_, rfl, OnlyIn.of_get _ _ _ (fun x hx => by simp only [List.mem_cons, List.not_mem_nil, or_false, not_or] at hx; (repeat' (first | (with_reducible rfl) | (simp [hx]; done) | split | dsimp only)))⟩ | split | unfold act | unfold workEnds | unfold damzu | unfold indexWork | unfold codecWork | dsimp only

theorem execNak_next (port : Fin 3) (s : State) :
    ∃ t, execNak port s = .next t ∧ OnlyIn [.spn] s t := by
  unfold execNak
  repeat' first | exact ⟨_, rfl, OnlyIn.of_get _ _ _ (fun x hx => by simp only [List.mem_cons, List.not_mem_nil, or_false, not_or] at hx; (repeat' (first | (with_reducible rfl) | (simp [hx]; done) | split | dsimp only)))⟩ | split | unfold act | unfold workEnds | unfold damzu | unfold indexWork | unfold codecWork | dsimp only

theorem execLanesTrained_next (port : Fin 3) (s : State) :
    ∃ t, execLanesTrained port s = .next t ∧ OnlyIn [.spn, .insts] s t := by
  unfold execLanesTrained
  repeat' first | exact ⟨_, rfl, OnlyIn.of_get _ _ _ (fun x hx => by simp only [List.mem_cons, List.not_mem_nil, or_false, not_or] at hx; (repeat' (first | (with_reducible rfl) | (simp [hx]; done) | split | dsimp only)))⟩ | split | unfold act | unfold workEnds | unfold damzu | unfold indexWork | unfold codecWork | dsimp only

theorem execTrainingTimeout_next (port : Fin 3) (s : State) :
    ∃ t, execTrainingTimeout port s = .next t ∧ OnlyIn [.spn, .insts] s t := by
  unfold execTrainingTimeout
  repeat' first | exact ⟨_, rfl, OnlyIn.of_get _ _ _ (fun x hx => by simp only [List.mem_cons, List.not_mem_nil, or_false, not_or] at hx; (repeat' (first | (with_reducible rfl) | (simp [hx]; done) | split | dsimp only)))⟩ | split | unfold act | unfold workEnds | unfold damzu | unfold indexWork | unfold codecWork | dsimp only

theorem execHello_next (port : Fin 3) (s : State) :
    ∃ t, execHello port s = .next t ∧ OnlyIn [.glb, .flc, .spn, .tags, .locks, .insts, .units, .fresh] s t := by
  unfold execHello
  repeat' first | exact ⟨_, rfl, OnlyIn.of_get _ _ _ (fun x hx => by simp only [List.mem_cons, List.not_mem_nil, or_false, not_or] at hx; (repeat' (first | (with_reducible rfl) | (simp [hx]; done) | split | dsimp only)))⟩ | split | unfold act | unfold workEnds | unfold damzu | unfold indexWork | unfold codecWork | dsimp only

theorem execHelloTimeout_next (port : Fin 3) (s : State) :
    ∃ t, execHelloTimeout port s = .next t ∧ OnlyIn [.spn, .insts] s t := by
  unfold execHelloTimeout
  repeat' first | exact ⟨_, rfl, OnlyIn.of_get _ _ _ (fun x hx => by simp only [List.mem_cons, List.not_mem_nil, or_false, not_or] at hx; (repeat' (first | (with_reducible rfl) | (simp [hx]; done) | split | dsimp only)))⟩ | split | unfold act | unfold workEnds | unfold damzu | unfold indexWork | unfold codecWork | dsimp only

theorem execExletPortFail_next (port : Fin 3) (ns : Nat) (s : State) :
    ∃ t, execExletPortFail port ns s = .next t ∧ OnlyIn [.glb, .pwr, .flc, .spn, .insts] s t := by
  unfold execExletPortFail
  repeat' first | exact ⟨_, rfl, OnlyIn.of_get _ _ _ (fun x hx => by simp only [List.mem_cons, List.not_mem_nil, or_false, not_or] at hx; (repeat' (first | (with_reducible rfl) | (simp [hx]; done) | split | dsimp only)))⟩ | split | unfold act | unfold workEnds | unfold damzu | unfold indexWork | unfold codecWork | dsimp only

theorem execPortRetryTimer_next (port : Fin 3) (s : State) :
    ∃ t, execPortRetryTimer port s = .next t ∧ OnlyIn [.spn, .insts] s t := by
  unfold execPortRetryTimer
  repeat' first | exact ⟨_, rfl, OnlyIn.of_get _ _ _ (fun x hx => by simp only [List.mem_cons, List.not_mem_nil, or_false, not_or] at hx; (repeat' (first | (with_reducible rfl) | (simp [hx]; done) | split | dsimp only)))⟩ | split | unfold act | unfold workEnds | unfold damzu | unfold indexWork | unfold codecWork | dsimp only

theorem execAnnounceTimer_next (s : State) :
    ∃ t, execAnnounceTimer s = .next t ∧ OnlyIn [.spn] s t := by
  unfold execAnnounceTimer
  repeat' first | exact ⟨_, rfl, OnlyIn.of_get _ _ _ (fun x hx => by simp only [List.mem_cons, List.not_mem_nil, or_false, not_or] at hx; (repeat' (first | (with_reducible rfl) | (simp [hx]; done) | split | dsimp only)))⟩ | split | unfold act | unfold workEnds | unfold damzu | unfold indexWork | unfold codecWork | dsimp only

theorem execAnnounce_next (port : Fin 3) (s : State) :
    ∃ t, execAnnounce port s = .next t ∧ OnlyIn [.flc, .spn, .tags, .locks, .insts, .units] s t := by
  unfold execAnnounce
  repeat' first | exact ⟨_, rfl, OnlyIn.of_get _ _ _ (fun x hx => by simp only [List.mem_cons, List.not_mem_nil, or_false, not_or] at hx; (repeat' (first | (with_reducible rfl) | (simp [hx]; done) | split | dsimp only)))⟩ | split | unfold act | unfold workEnds | unfold damzu | unfold indexWork | unfold codecWork | dsimp only

theorem execMembershipExpiry_next (id : Fin 65536) (s : State) :
    ∃ t, execMembershipExpiry id s = .next t ∧ OnlyIn [.flc, .spn, .tags, .insts] s t := by
  unfold execMembershipExpiry
  repeat' first | exact ⟨_, rfl, OnlyIn.of_get _ _ _ (fun x hx => by simp only [List.mem_cons, List.not_mem_nil, or_false, not_or] at hx; (repeat' (first | (with_reducible rfl) | (simp [hx]; done) | split | dsimp only)))⟩ | split | unfold act | unfold workEnds | unfold damzu | unfold indexWork | unfold codecWork | dsimp only

theorem execReq_next (origin : Nat) (xid : Nat) (lost : List Nat) (crcFail : List Nat) (outcome : Fin 3) (units : Nat) (s : State) :
    ∃ t, execReq origin xid lost crcFail outcome units s = .next t ∧ OnlyIn [.bsh, .flc, .spn, .locks, .acceptCount, .fresh] s t := by
  unfold execReq
  repeat' first | exact ⟨_, rfl, OnlyIn.of_get _ _ _ (fun x hx => by simp only [List.mem_cons, List.not_mem_nil, or_false, not_or] at hx; (repeat' (first | (with_reducible rfl) | (simp [hx]; done) | split | dsimp only)))⟩ | split | unfold act | unfold workEnds | unfold damzu | unfold indexWork | unfold codecWork | dsimp only

theorem execPairSeqGapExpiry_next (origin : Fin 65536) (s : State) :
    ∃ t, execPairSeqGapExpiry origin s = .next t ∧ OnlyIn [.spn] s t := by
  unfold execPairSeqGapExpiry
  repeat' first | exact ⟨_, rfl, OnlyIn.of_get _ _ _ (fun x hx => by simp only [List.mem_cons, List.not_mem_nil, or_false, not_or] at hx; (repeat' (first | (with_reducible rfl) | (simp [hx]; done) | split | dsimp only)))⟩ | split | unfold act | unfold workEnds | unfold damzu | unfold indexWork | unfold codecWork | dsimp only

theorem execResp_next (home : Nat) (xid : Nat) (crcFail : List Nat) (again : List Nat) (s : State) :
    ∃ t, execResp home xid crcFail again s = .next t ∧ OnlyIn [.glb, .mgr, .bsh, .sec, .dmz, .idx, .flc, .spn, .tags, .locks, .units, .hostMem, .fresh] s t := by
  unfold execResp
  repeat' first | exact ⟨_, rfl, OnlyIn.of_get _ _ _ (fun x hx => by simp only [List.mem_cons, List.not_mem_nil, or_false, not_or] at hx; (repeat' (first | (with_reducible rfl) | (simp [hx]; done) | split | dsimp only)))⟩ | split | unfold act | unfold workEnds | unfold damzu | unfold indexWork | unfold codecWork | dsimp only

theorem execCancelFlit_next (origin : Nat) (xid : Nat) (s : State) :
    ∃ t, execCancelFlit origin xid s = .next t ∧ OnlyIn [.spn, .locks] s t := by
  unfold execCancelFlit
  repeat' first | exact ⟨_, rfl, OnlyIn.of_get _ _ _ (fun x hx => by simp only [List.mem_cons, List.not_mem_nil, or_false, not_or] at hx; (repeat' (first | (with_reducible rfl) | (simp [hx]; done) | split | dsimp only)))⟩ | split | unfold act | unfold workEnds | unfold damzu | unfold indexWork | unfold codecWork | dsimp only

theorem execSpanResendExpiry_next (xid : Nat) (s : State) :
    ∃ t, execSpanResendExpiry xid s = .next t ∧ OnlyIn [.spn] s t := by
  unfold execSpanResendExpiry
  repeat' first | exact ⟨_, rfl, OnlyIn.of_get _ _ _ (fun x hx => by simp only [List.mem_cons, List.not_mem_nil, or_false, not_or] at hx; (repeat' (first | (with_reducible rfl) | (simp [hx]; done) | split | dsimp only)))⟩ | split | unfold act | unfold workEnds | unfold damzu | unfold indexWork | unfold codecWork | dsimp only

theorem execAbortRespTimeout_next (inst : Fin 64) (tag : Fin 256) (s : State) :
    ∃ t, execAbortRespTimeout inst tag s = .next t ∧ OnlyIn [.spn, .tags, .locks, .units] s t := by
  unfold execAbortRespTimeout
  repeat' first | exact ⟨_, rfl, OnlyIn.of_get _ _ _ (fun x hx => by simp only [List.mem_cons, List.not_mem_nil, or_false, not_or] at hx; (repeat' (first | (with_reducible rfl) | (simp [hx]; done) | split | dsimp only)))⟩ | split | unfold act | unfold workEnds | unfold damzu | unfold indexWork | unfold codecWork | dsimp only

theorem execMirrorWrite_next (origin : Nat) (xid : Nat) (s : State) :
    ∃ t, execMirrorWrite origin xid s = .next t ∧ OnlyIn [.bsh, .flc, .spn, .locks, .fresh] s t := by
  unfold execMirrorWrite
  repeat' first | exact ⟨_, rfl, OnlyIn.of_get _ _ _ (fun x hx => by simp only [List.mem_cons, List.not_mem_nil, or_false, not_or] at hx; (repeat' (first | (with_reducible rfl) | (simp [hx]; done) | split | dsimp only)))⟩ | split | unfold act | unfold workEnds | unfold damzu | unfold indexWork | unfold codecWork | dsimp only

theorem execMirrorAck_next (copy : Nat) (xid : Nat) (s : State) :
    ∃ t, execMirrorAck copy xid s = .next t ∧ OnlyIn [.flc, .spn, .tags, .locks, .units] s t := by
  unfold execMirrorAck
  repeat' first | exact ⟨_, rfl, OnlyIn.of_get _ _ _ (fun x hx => by simp only [List.mem_cons, List.not_mem_nil, or_false, not_or] at hx; (repeat' (first | (with_reducible rfl) | (simp [hx]; done) | split | dsimp only)))⟩ | split | unfold act | unfold workEnds | unfold damzu | unfold indexWork | unfold codecWork | dsimp only

theorem execMirrorGraceExpiry_next (copy : Nat) (xid : Nat) (s : State) :
    ∃ t, execMirrorGraceExpiry copy xid s = .next t ∧ OnlyIn [.flc, .spn, .tags, .locks, .insts, .units] s t := by
  unfold execMirrorGraceExpiry
  repeat' first | exact ⟨_, rfl, OnlyIn.of_get _ _ _ (fun x hx => by simp only [List.mem_cons, List.not_mem_nil, or_false, not_or] at hx; (repeat' (first | (with_reducible rfl) | (simp [hx]; done) | split | dsimp only)))⟩ | split | unfold act | unfold workEnds | unfold damzu | unfold indexWork | unfold codecWork | dsimp only

theorem execResyncPassEnd_next (v : Nat) (second : Bool) (s : State) :
    ∃ t, execResyncPassEnd v second s = .next t ∧ OnlyIn [.flc, .spn, .insts] s t := by
  unfold execResyncPassEnd
  repeat' first | exact ⟨_, rfl, OnlyIn.of_get _ _ _ (fun x hx => by simp only [List.mem_cons, List.not_mem_nil, or_false, not_or] at hx; (repeat' (first | (with_reducible rfl) | (simp [hx]; done) | split | dsimp only)))⟩ | split | unfold act | unfold workEnds | unfold damzu | unfold indexWork | unfold codecWork | dsimp only

theorem execPrimarySuperseded_next (origin : Nat) (xid : Nat) (s : State) :
    ∃ t, execPrimarySuperseded origin xid s = .next t ∧ OnlyIn [.flc, .spn, .insts] s t := by
  unfold execPrimarySuperseded
  repeat' first | exact ⟨_, rfl, OnlyIn.of_get _ _ _ (fun x hx => by simp only [List.mem_cons, List.not_mem_nil, or_false, not_or] at hx; (repeat' (first | (with_reducible rfl) | (simp [hx]; done) | split | dsimp only)))⟩ | split | unfold act | unfold workEnds | unfold damzu | unfold indexWork | unfold codecWork | dsimp only

theorem execProbe_next (origin : Nat) (xid : Nat) (s : State) :
    ∃ t, execProbe origin xid s = .next t ∧ OnlyIn [.spn] s t := by
  unfold execProbe
  repeat' first | exact ⟨_, rfl, OnlyIn.of_get _ _ _ (fun x hx => by simp only [List.mem_cons, List.not_mem_nil, or_false, not_or] at hx; (repeat' (first | (with_reducible rfl) | (simp [hx]; done) | split | dsimp only)))⟩ | split | unfold act | unfold workEnds | unfold damzu | unfold indexWork | unfold codecWork | dsimp only

theorem execProbeResp_next (home : Nat) (xid : Nat) (s : State) :
    ∃ t, execProbeResp home xid s = .next t ∧ OnlyIn [.spn] s t := by
  unfold execProbeResp
  repeat' first | exact ⟨_, rfl, OnlyIn.of_get _ _ _ (fun x hx => by simp only [List.mem_cons, List.not_mem_nil, or_false, not_or] at hx; (repeat' (first | (with_reducible rfl) | (simp [hx]; done) | split | dsimp only)))⟩ | split | unfold act | unfold workEnds | unfold damzu | unfold indexWork | unfold codecWork | dsimp only

theorem execBind_next (fn : Fin 2) (homeVol : Fin 256) (homeId : Fin 65536) (s : State) :
    ∃ t, execBind fn homeVol homeId s = .next t ∧ OnlyIn [.spn] s t := by
  unfold execBind
  repeat' first | exact ⟨_, rfl, OnlyIn.of_get _ _ _ (fun x hx => by simp only [List.mem_cons, List.not_mem_nil, or_false, not_or] at hx; (repeat' (first | (with_reducible rfl) | (simp [hx]; done) | split | dsimp only)))⟩ | split | unfold act | unfold workEnds | unfold damzu | unfold indexWork | unfold codecWork | dsimp only

theorem execUnbind_next (fn : Fin 2) (homeVol : Fin 256) (homeId : Fin 65536) (s : State) :
    ∃ t, execUnbind fn homeVol homeId s = .next t ∧ OnlyIn [.bsh, .spn] s t := by
  unfold execUnbind
  repeat' first | exact ⟨_, rfl, OnlyIn.of_get _ _ _ (fun x hx => by simp only [List.mem_cons, List.not_mem_nil, or_false, not_or] at hx; (repeat' (first | (with_reducible rfl) | (simp [hx]; done) | split | dsimp only)))⟩ | split | unfold act | unfold workEnds | unfold damzu | unfold indexWork | unfold codecWork | dsimp only

theorem execKeyReq_next (origin : Nat) (xid : Nat) (s : State) :
    ∃ t, execKeyReq origin xid s = .next t ∧ OnlyIn [.sec, .spn, .fresh] s t := by
  unfold execKeyReq
  repeat' first | exact ⟨_, rfl, OnlyIn.of_get _ _ _ (fun x hx => by simp only [List.mem_cons, List.not_mem_nil, or_false, not_or] at hx; (repeat' (first | (with_reducible rfl) | (simp [hx]; done) | split | dsimp only)))⟩ | split | unfold act | unfold workEnds | unfold damzu | unfold indexWork | unfold codecWork | dsimp only

theorem execKeyGrant_next (anchorId : Nat) (xid : Nat) (s : State) :
    ∃ t, execKeyGrant anchorId xid s = .next t ∧ OnlyIn [.sec, .spn, .tags, .locks, .units] s t := by
  unfold execKeyGrant
  repeat' first | exact ⟨_, rfl, OnlyIn.of_get _ _ _ (fun x hx => by simp only [List.mem_cons, List.not_mem_nil, or_false, not_or] at hx; (repeat' (first | (with_reducible rfl) | (simp [hx]; done) | split | dsimp only)))⟩ | split | unfold act | unfold workEnds | unfold damzu | unfold indexWork | unfold codecWork | dsimp only

theorem execPairMiscompare_next (pair : Fin 22) (pass : Bool) (ns : Nat) (s : State) :
    ∃ t, execPairMiscompare pair pass ns s = .next t ∧ OnlyIn [.glb, .clk, .hif, .mgr, .otp, .dbg, .pwr, .bsh, .sec, .sch, .dmz, .idx, .flc, .mem, .cch, .drc, .spn, .tags, .locks, .insts, .units, .acceptCount, .now] s t := by
  unfold execPairMiscompare
  repeat' first | exact ⟨_, rfl, OnlyIn.of_get _ _ _ (fun x hx => by simp only [List.mem_cons, List.not_mem_nil, or_false, not_or] at hx; (repeat' (first | (with_reducible rfl) | (simp [hx]; done) | split | dsimp only)))⟩ | split | unfold act | unfold workEnds | unfold damzu | unfold indexWork | unfold codecWork | dsimp only

theorem execRefclkLoss_next (ref : Fin 2) (ns : Nat) (s : State) :
    ∃ t, execRefclkLoss ref ns s = .next t ∧ OnlyIn [.glb, .clk, .hif, .mgr, .otp, .dbg, .pwr, .bsh, .sec, .sch, .dmz, .idx, .flc, .mem, .cch, .drc, .spn, .tags, .locks, .insts, .units, .acceptCount, .now] s t := by
  unfold execRefclkLoss
  repeat' first | exact ⟨_, rfl, OnlyIn.of_get _ _ _ (fun x hx => by simp only [List.mem_cons, List.not_mem_nil, or_false, not_or] at hx; (repeat' (first | (with_reducible rfl) | (simp [hx]; done) | split | dsimp only)))⟩ | split | unfold act | unfold workEnds | unfold damzu | unfold indexWork | unfold codecWork | dsimp only

theorem execPllRelock_next (ref : Fin 2) (s : State) :
    ∃ t, execPllRelock ref s = .next t ∧ OnlyIn [.glb, .clk, .flc] s t := by
  unfold execPllRelock
  repeat' first | exact ⟨_, rfl, OnlyIn.of_get _ _ _ (fun x hx => by simp only [List.mem_cons, List.not_mem_nil, or_false, not_or] at hx; (repeat' (first | (with_reducible rfl) | (simp [hx]; done) | split | dsimp only)))⟩ | split | unfold act | unfold workEnds | unfold damzu | unfold indexWork | unfold codecWork | dsimp only

theorem execRootReqChange_next (fn : Fin 2) (value : BitVec 32) (s : State) :
    ∃ t, execRootReqChange fn value s = .next t ∧ OnlyIn [.glb, .clk, .pwr, .flc] s t := by
  unfold execRootReqChange
  repeat' first | exact ⟨_, rfl, OnlyIn.of_get _ _ _ (fun x hx => by simp only [List.mem_cons, List.not_mem_nil, or_false, not_or] at hx; (repeat' (first | (with_reducible rfl) | (simp [hx]; done) | split | dsimp only)))⟩ | split | unfold act | unfold workEnds | unfold damzu | unfold indexWork | unfold codecWork | dsimp only

theorem execHostPortFail_next (port : Fin 2) (vectors : List Nat) (ns : Nat) (s : State) :
    ∃ t, execHostPortFail port vectors ns s = .next t ∧ OnlyIn [.glb, .hif, .pwr, .flc, .insts] s t := by
  unfold execHostPortFail
  repeat' first | exact ⟨_, rfl, OnlyIn.of_get _ _ _ (fun x hx => by simp only [List.mem_cons, List.not_mem_nil, or_false, not_or] at hx; (repeat' (first | (with_reducible rfl) | (simp [hx]; done) | split | dsimp only)))⟩ | split | unfold act | unfold workEnds | unfold damzu | unfold indexWork | unfold codecWork | dsimp only

theorem execLinkReturn_next (port : Fin 2) (width : Nat) (speed : Fin 6) (reversed : Bool) (polarity : Nat) (s : State) :
    ∃ t, execLinkReturn port width speed reversed polarity s = .next t ∧ OnlyIn [.hif, .pwr] s t := by
  unfold execLinkReturn
  repeat' first | exact ⟨_, rfl, OnlyIn.of_get _ _ _ (fun x hx => by simp only [List.mem_cons, List.not_mem_nil, or_false, not_or] at hx; (repeat' (first | (with_reducible rfl) | (simp [hx]; done) | split | dsimp only)))⟩ | split | unfold act | unfold workEnds | unfold damzu | unfold indexWork | unfold codecWork | dsimp only

theorem execSpareCheck_next (failing : List (Fin 8 × Nat)) (s : State) :
    ∃ t, execSpareCheck failing s = .next t ∧ OnlyIn [.pwr, .bsh, .sec, .sch, .idx, .flc, .mem] s t := by
  unfold execSpareCheck
  repeat' first | exact ⟨_, rfl, OnlyIn.of_get _ _ _ (fun x hx => by simp only [List.mem_cons, List.not_mem_nil, or_false, not_or] at hx; (repeat' (first | (with_reducible rfl) | (simp [hx]; done) | split | dsimp only)))⟩ | split | unfold act | unfold workEnds | unfold damzu | unfold indexWork | unfold codecWork | dsimp only

theorem execRailBelowWarning_next (rail : Fin 8) (mv : Nat) (s : State) :
    ∃ t, execRailBelowWarning rail mv s = .next t ∧ OnlyIn [.pwr, .insts] s t := by
  unfold execRailBelowWarning
  repeat' first | exact ⟨_, rfl, OnlyIn.of_get _ _ _ (fun x hx => by simp only [List.mem_cons, List.not_mem_nil, or_false, not_or] at hx; (repeat' (first | (with_reducible rfl) | (simp [hx]; done) | split | dsimp only)))⟩ | split | unfold act | unfold workEnds | unfold damzu | unfold indexWork | unfold codecWork | dsimp only

theorem execRailsAboveWarning_next (mvs : List Nat) (s : State) :
    ∃ t, execRailsAboveWarning mvs s = .next t ∧ OnlyIn [.pwr] s t := by
  unfold execRailsAboveWarning
  repeat' first | exact ⟨_, rfl, OnlyIn.of_get _ _ _ (fun x hx => by simp only [List.mem_cons, List.not_mem_nil, or_false, not_or] at hx; (repeat' (first | (with_reducible rfl) | (simp [hx]; done) | split | dsimp only)))⟩ | split | unfold act | unfold workEnds | unfold damzu | unfold indexWork | unfold codecWork | dsimp only

theorem execDwellEnd_next (s : State) :
    ∃ t, execDwellEnd s = .next t ∧ OnlyIn [.glb, .pwr, .flc, .insts] s t := by
  unfold execDwellEnd
  repeat' first | exact ⟨_, rfl, OnlyIn.of_get _ _ _ (fun x hx => by simp only [List.mem_cons, List.not_mem_nil, or_false, not_or] at hx; (repeat' (first | (with_reducible rfl) | (simp [hx]; done) | split | dsimp only)))⟩ | split | unfold act | unfold workEnds | unfold damzu | unfold indexWork | unfold codecWork | dsimp only

theorem execDipLong_next (s : State) :
    ∃ t, execDipLong s = .next t ∧ OnlyIn [.pwr, .insts] s t := by
  unfold execDipLong
  repeat' first | exact ⟨_, rfl, OnlyIn.of_get _ _ _ (fun x hx => by simp only [List.mem_cons, List.not_mem_nil, or_false, not_or] at hx; (repeat' (first | (with_reducible rfl) | (simp [hx]; done) | split | dsimp only)))⟩ | split | unfold act | unfold workEnds | unfold damzu | unfold indexWork | unfold codecWork | dsimp only

theorem execRailOverVoltage_next (rail : Fin 8) (mv : Nat) (us : Nat) (s : State) :
    ∃ t, execRailOverVoltage rail mv us s = .next t ∧ OnlyIn [.glb, .pwr, .flc, .insts] s t := by
  unfold execRailOverVoltage
  repeat' first | exact ⟨_, rfl, OnlyIn.of_get _ _ _ (fun x hx => by simp only [List.mem_cons, List.not_mem_nil, or_false, not_or] at hx; (repeat' (first | (with_reducible rfl) | (simp [hx]; done) | split | dsimp only)))⟩ | split | unfold act | unfold workEnds | unfold damzu | unfold indexWork | unfold codecWork | dsimp only

theorem execRailBelowReset_next (rail : Fin 8) (mv : Nat) (s : State) :
    ∃ t, execRailBelowReset rail mv s = .next t ∧ OnlyIn [.glb, .clk, .hif, .mgr, .otp, .dbg, .pwr, .bsh, .sec, .sch, .dmz, .idx, .flc, .mem, .cch, .drc, .spn, .tags, .locks, .insts, .units, .acceptCount, .now] s t := by
  unfold execRailBelowReset
  repeat' first | exact ⟨_, rfl, OnlyIn.of_get _ _ _ (fun x hx => by simp only [List.mem_cons, List.not_mem_nil, or_false, not_or] at hx; (repeat' (first | (with_reducible rfl) | (simp [hx]; done) | split | dsimp only)))⟩ | split | unfold act | unfold workEnds | unfold damzu | unfold indexWork | unfold codecWork | dsimp only

theorem execPwrFailAssert_next (s : State) :
    ∃ t, execPwrFailAssert s = .next t ∧ OnlyIn [.clk, .pwr, .insts] s t := by
  unfold execPwrFailAssert
  repeat' first | exact ⟨_, rfl, OnlyIn.of_get _ _ _ (fun x hx => by simp only [List.mem_cons, List.not_mem_nil, or_false, not_or] at hx; (repeat' (first | (with_reducible rfl) | (simp [hx]; done) | split | dsimp only)))⟩ | split | unfold act | unfold workEnds | unfold damzu | unfold indexWork | unfold codecWork | dsimp only

theorem execFlushDone_next (s : State) :
    ∃ t, execFlushDone s = .next t ∧ OnlyIn [.glb, .clk, .pwr, .flc, .mem, .drc, .spn, .tags, .locks, .units] s t := by
  unfold execFlushDone
  repeat' first | exact ⟨_, rfl, OnlyIn.of_get _ _ _ (fun x hx => by simp only [List.mem_cons, List.not_mem_nil, or_false, not_or] at hx; (repeat' (first | (with_reducible rfl) | (simp [hx]; done) | split | dsimp only)))⟩ | split | unfold act | unfold workEnds | unfold damzu | unfold indexWork | unfold codecWork | dsimp only

theorem execPwrFailDeassert_next (s : State) :
    ∃ t, execPwrFailDeassert s = .next t ∧ OnlyIn [.clk, .pwr, .drc] s t := by
  unfold execPwrFailDeassert
  repeat' first | exact ⟨_, rfl, OnlyIn.of_get _ _ _ (fun x hx => by simp only [List.mem_cons, List.not_mem_nil, or_false, not_or] at hx; (repeat' (first | (with_reducible rfl) | (simp [hx]; done) | split | dsimp only)))⟩ | split | unfold act | unfold workEnds | unfold damzu | unfold indexWork | unfold codecWork | dsimp only

theorem execHoldupRdyChange_next (asserted : Bool) (s : State) :
    ∃ t, execHoldupRdyChange asserted s = .next t ∧ OnlyIn [.pwr, .insts] s t := by
  unfold execHoldupRdyChange
  repeat' first | exact ⟨_, rfl, OnlyIn.of_get _ _ _ (fun x hx => by simp only [List.mem_cons, List.not_mem_nil, or_false, not_or] at hx; (repeat' (first | (with_reducible rfl) | (simp [hx]; done) | split | dsimp only)))⟩ | split | unfold act | unfold workEnds | unfold damzu | unfold indexWork | unfold codecWork | dsimp only

theorem execSensorSample_next (sensor : Fin 20) (reading : Option Int) (s : State) :
    ∃ t, execSensorSample sensor reading s = .next t ∧ OnlyIn [.glb, .clk, .hif, .mgr, .otp, .dbg, .pwr, .bsh, .sec, .sch, .dmz, .idx, .flc, .mem, .cch, .drc, .spn, .tags, .locks, .insts, .units, .acceptCount, .now, .fresh] s t := by
  unfold execSensorSample
  repeat' first | exact ⟨_, rfl, OnlyIn.of_get _ _ _ (fun x hx => by simp only [List.mem_cons, List.not_mem_nil, or_false, not_or] at hx; (repeat' (first | (with_reducible rfl) | (simp [hx]; done) | split | dsimp only)))⟩ | split | unfold act | unfold workEnds | unfold damzu | unfold indexWork | unfold codecWork | dsimp only

theorem execThermalTrip_next (sensor : Fin 12) (temp : Int) (s : State) :
    ∃ t, execThermalTrip sensor temp s = .next t ∧ OnlyIn [.glb, .clk, .hif, .mgr, .otp, .dbg, .pwr, .bsh, .sec, .sch, .dmz, .idx, .flc, .mem, .cch, .drc, .spn, .tags, .locks, .insts, .units, .acceptCount, .now] s t := by
  unfold execThermalTrip
  repeat' first | exact ⟨_, rfl, OnlyIn.of_get _ _ _ (fun x hx => by simp only [List.mem_cons, List.not_mem_nil, or_false, not_or] at hx; (repeat' (first | (with_reducible rfl) | (simp [hx]; done) | split | dsimp only)))⟩ | split | unfold act | unfold workEnds | unfold damzu | unfold indexWork | unfold codecWork | dsimp only

theorem execPowerCapEstimate_next (mw : Nat) (s : State) :
    ∃ t, execPowerCapEstimate mw s = .next t ∧ OnlyIn [.pwr] s t := by
  unfold execPowerCapEstimate
  repeat' first | exact ⟨_, rfl, OnlyIn.of_get _ _ _ (fun x hx => by simp only [List.mem_cons, List.not_mem_nil, or_false, not_or] at hx; (repeat' (first | (with_reducible rfl) | (simp [hx]; done) | split | dsimp only)))⟩ | split | unfold act | unfold workEnds | unfold damzu | unfold indexWork | unfold codecWork | dsimp only

theorem execRetrainStart_next (iface : Fin 18) (trigger : Fin 3) (s : State) :
    ∃ t, execRetrainStart iface trigger s = .next t ∧ OnlyIn [.flc, .drc] s t := by
  unfold execRetrainStart
  repeat' first | exact ⟨_, rfl, OnlyIn.of_get _ _ _ (fun x hx => by simp only [List.mem_cons, List.not_mem_nil, or_false, not_or] at hx; (repeat' (first | (with_reducible rfl) | (simp [hx]; done) | split | dsimp only)))⟩ | split | unfold act | unfold workEnds | unfold damzu | unfold indexWork | unfold codecWork | dsimp only

theorem execRetrainDone_next (iface : Fin 18) (pass : Bool) (dropped : List (Nat × Nat)) (ns : Nat) (s : State) :
    ∃ t, execRetrainDone iface pass dropped ns s = .next t ∧ OnlyIn [.glb, .pwr, .bsh, .flc, .drc, .insts] s t := by
  unfold execRetrainDone
  repeat' first | exact ⟨_, rfl, OnlyIn.of_get _ _ _ (fun x hx => by simp only [List.mem_cons, List.not_mem_nil, or_false, not_or] at hx; (repeat' (first | (with_reducible rfl) | (simp [hx]; done) | split | dsimp only)))⟩ | split | unfold act | unfold workEnds | unfold damzu | unfold indexWork | unfold codecWork | dsimp only

theorem execEntropyHealthFail_next (s : State) :
    ∃ t, execEntropyHealthFail s = .next t ∧ OnlyIn [.glb, .sec, .flc] s t := by
  unfold execEntropyHealthFail
  repeat' first | exact ⟨_, rfl, OnlyIn.of_get _ _ _ (fun x hx => by simp only [List.mem_cons, List.not_mem_nil, or_false, not_or] at hx; (repeat' (first | (with_reducible rfl) | (simp [hx]; done) | split | dsimp only)))⟩ | split | unfold act | unfold workEnds | unfold damzu | unfold indexWork | unfold codecWork | dsimp only

theorem execEntropyRetest_next (pass : Bool) (s : State) :
    ∃ t, execEntropyRetest pass s = .next t ∧ OnlyIn [.glb, .sec, .flc] s t := by
  unfold execEntropyRetest
  repeat' first | exact ⟨_, rfl, OnlyIn.of_get _ _ _ (fun x hx => by simp only [List.mem_cons, List.not_mem_nil, or_false, not_or] at hx; (repeat' (first | (with_reducible rfl) | (simp [hx]; done) | split | dsimp only)))⟩ | split | unfold act | unfold workEnds | unfold damzu | unfold indexWork | unfold codecWork | dsimp only

theorem execDrbgReseed_next (s : State) :
    ∃ t, execDrbgReseed s = .next t ∧ OnlyIn [.sec] s t := by
  unfold execDrbgReseed
  repeat' first | exact ⟨_, rfl, OnlyIn.of_get _ _ _ (fun x hx => by simp only [List.mem_cons, List.not_mem_nil, or_false, not_or] at hx; (repeat' (first | (with_reducible rfl) | (simp [hx]; done) | split | dsimp only)))⟩ | split | unfold act | unfold workEnds | unfold damzu | unfold indexWork | unfold codecWork | dsimp only

theorem execCommit_next (fn : Fin 2) (made : List Nat) (s : State) :
    ∃ t, execCommit fn made s = .next t ∧ OnlyIn [.otp, .sec] s t := by
  unfold execCommit
  repeat' first | exact ⟨_, rfl, OnlyIn.of_get _ _ _ (fun x hx => by simp only [List.mem_cons, List.not_mem_nil, or_false, not_or] at hx; (repeat' (first | (with_reducible rfl) | (simp [hx]; done) | split | dsimp only)))⟩ | split | unfold act | unfold workEnds | unfold damzu | unfold indexWork | unfold codecWork | dsimp only

theorem execSecUnlockDataWrite_next (src : Fin 3) (word : BitVec 32) (s : State) :
    ∃ t, execSecUnlockDataWrite src word s = .next t ∧ OnlyIn [.sec] s t := by
  unfold execSecUnlockDataWrite
  repeat' first | exact ⟨_, rfl, OnlyIn.of_get _ _ _ (fun x hx => by simp only [List.mem_cons, List.not_mem_nil, or_false, not_or] at hx; (repeat' (first | (with_reducible rfl) | (simp [hx]; done) | split | dsimp only)))⟩ | split | unfold act | unfold workEnds | unfold damzu | unfold indexWork | unfold codecWork | dsimp only

theorem execSubmit_next (src : Fin 3) (s : State) :
    ∃ t, execSubmit src s = .next t ∧ OnlyIn [.bsh, .sec, .fresh] s t := by
  unfold execSubmit
  repeat' first | exact ⟨_, rfl, OnlyIn.of_get _ _ _ (fun x hx => by simp only [List.mem_cons, List.not_mem_nil, or_false, not_or] at hx; (repeat' (first | (with_reducible rfl) | (simp [hx]; done) | split | dsimp only)))⟩ | split | unfold act | unfold workEnds | unfold damzu | unfold indexWork | unfold codecWork | dsimp only

theorem execRestart_next (src : Fin 3) (s : State) :
    ∃ t, execRestart src s = .next t ∧ OnlyIn [.sec] s t := by
  unfold execRestart
  repeat' first | exact ⟨_, rfl, OnlyIn.of_get _ _ _ (fun x hx => by simp only [List.mem_cons, List.not_mem_nil, or_false, not_or] at hx; (repeat' (first | (with_reducible rfl) | (simp [hx]; done) | split | dsimp only)))⟩ | split | unfold act | unfold workEnds | unfold damzu | unfold indexWork | unfold codecWork | dsimp only

theorem execOtpProgDataWrite_next (fn : Fin 2) (word : BitVec 32) (s : State) :
    ∃ t, execOtpProgDataWrite fn word s = .next t ∧ OnlyIn [.otp] s t := by
  unfold execOtpProgDataWrite
  repeat' first | exact ⟨_, rfl, OnlyIn.of_get _ _ _ (fun x hx => by simp only [List.mem_cons, List.not_mem_nil, or_false, not_or] at hx; (repeat' (first | (with_reducible rfl) | (simp [hx]; done) | split | dsimp only)))⟩ | split | unfold act | unfold workEnds | unfold damzu | unfold indexWork | unfold codecWork | dsimp only

theorem execOtpGo_next (fn : Fin 2) (misses : List (Nat × Nat)) (s : State) :
    ∃ t, execOtpGo fn misses s = .next t ∧ OnlyIn [.glb, .otp, .bsh, .sec, .flc, .fresh] s t := by
  unfold execOtpGo
  repeat' first | exact ⟨_, rfl, OnlyIn.of_get _ _ _ (fun x hx => by simp only [List.mem_cons, List.not_mem_nil, or_false, not_or] at hx; (repeat' (first | (with_reducible rfl) | (simp [hx]; done) | split | dsimp only)))⟩ | split | unfold act | unfold workEnds | unfold damzu | unfold indexWork | unfold codecWork | dsimp only

theorem execOtpRestart_next (fn : Fin 2) (s : State) :
    ∃ t, execOtpRestart fn s = .next t ∧ OnlyIn [.otp] s t := by
  unfold execOtpRestart
  repeat' first | exact ⟨_, rfl, OnlyIn.of_get _ _ _ (fun x hx => by simp only [List.mem_cons, List.not_mem_nil, or_false, not_or] at hx; (repeat' (first | (with_reducible rfl) | (simp [hx]; done) | split | dsimp only)))⟩ | split | unfold act | unfold workEnds | unfold damzu | unfold indexWork | unfold codecWork | dsimp only

theorem execGo_next (fn : Fin 2) (hostError : Bool) (s : State) :
    ∃ t, execGo fn hostError s = .next t ∧ OnlyIn [.glb] s t := by
  unfold execGo
  repeat' first | exact ⟨_, rfl, OnlyIn.of_get _ _ _ (fun x hx => by simp only [List.mem_cons, List.not_mem_nil, or_false, not_or] at hx; (repeat' (first | (with_reducible rfl) | (simp [hx]; done) | split | dsimp only)))⟩ | split | unfold act | unfold workEnds | unfold damzu | unfold indexWork | unfold codecWork | dsimp only

theorem execShutdown_next (fn : Fin 2) (ends : Bool) (s : State) :
    ∃ t, execShutdown fn ends s = .next t ∧ OnlyIn [.glb, .flc, .mem, .spn, .tags, .locks, .units] s t := by
  unfold execShutdown
  repeat' first | exact ⟨_, rfl, OnlyIn.of_get _ _ _ (fun x hx => by simp only [List.mem_cons, List.not_mem_nil, or_false, not_or] at hx; (repeat' (first | (with_reducible rfl) | (simp [hx]; done) | split | dsimp only)))⟩ | split | unfold act | unfold workEnds | unfold damzu | unfold indexWork | unfold codecWork | dsimp only

theorem execResume_next (fn : Fin 2) (s : State) :
    ∃ t, execResume fn s = .next t ∧ OnlyIn [.glb, .flc] s t := by
  unfold execResume
  repeat' first | exact ⟨_, rfl, OnlyIn.of_get _ _ _ (fun x hx => by simp only [List.mem_cons, List.not_mem_nil, or_false, not_or] at hx; (repeat' (first | (with_reducible rfl) | (simp [hx]; done) | split | dsimp only)))⟩ | split | unfold act | unfold workEnds | unfold damzu | unfold indexWork | unfold codecWork | dsimp only

theorem execDbgRead_next (src : Fin 3) (target : Fin 8) (s : State) :
    ∃ t, execDbgRead src target s = .next t ∧ OnlyIn [.glb, .dbg, .sch, .fresh] s t := by
  unfold execDbgRead
  repeat' first | exact ⟨_, rfl, OnlyIn.of_get _ _ _ (fun x hx => by simp only [List.mem_cons, List.not_mem_nil, or_false, not_or] at hx; (repeat' (first | (with_reducible rfl) | (simp [hx]; done) | split | dsimp only)))⟩ | split | unfold act | unfold workEnds | unfold damzu | unfold indexWork | unfold codecWork | dsimp only

theorem execDbgWrite_next (src : Fin 3) (target : Fin 8) (s : State) :
    ∃ t, execDbgWrite src target s = .next t ∧ OnlyIn [.glb, .clk, .hif, .mgr, .otp, .dbg, .pwr, .bsh, .sec, .sch, .idx, .flc, .mem, .cch, .drc, .spn, .insts] s t := by
  unfold execDbgWrite
  repeat' first | exact ⟨_, rfl, OnlyIn.of_get _ _ _ (fun x hx => by simp only [List.mem_cons, List.not_mem_nil, or_false, not_or] at hx; (repeat' (first | (with_reducible rfl) | (simp [hx]; done) | split | dsimp only)))⟩ | split | unfold act | unfold workEnds | unfold damzu | unfold indexWork | unfold codecWork | dsimp only

theorem execPowerOnReset_next (straps : Fin 16) (smba : Fin 4) (ref0 : Bool) (ref1 : Bool) (off : Bool) (s : State) :
    ∃ t, execPowerOnReset straps smba ref0 ref1 off s = .next t ∧ OnlyIn [.glb, .clk, .hif, .mgr, .otp, .dbg, .pwr, .bsh, .sec, .sch, .dmz, .idx, .flc, .mem, .cch, .drc, .spn, .tags, .locks, .insts, .units, .acceptCount, .now] s t := by
  unfold execPowerOnReset
  repeat' first | exact ⟨_, rfl, OnlyIn.of_get _ _ _ (fun x hx => by simp only [List.mem_cons, List.not_mem_nil, or_false, not_or] at hx; (repeat' (first | (with_reducible rfl) | (simp [hx]; done) | split | dsimp only)))⟩ | split | unfold act | unfold workEnds | unfold damzu | unfold indexWork | unfold codecWork | dsimp only

theorem execStartupPhaseEnd_next (o : StartOutcome) (s : State) :
    ∃ t, execStartupPhaseEnd o s = .next t ∧ OnlyIn [.glb, .clk, .otp, .pwr, .bsh, .sec, .sch, .idx, .flc, .mem, .cch, .drc, .spn, .tags, .locks, .insts, .units, .fresh] s t := by
  unfold execStartupPhaseEnd
  repeat' first | exact ⟨_, rfl, OnlyIn.of_get _ _ _ (fun x hx => by simp only [List.mem_cons, List.not_mem_nil, or_false, not_or] at hx; (repeat' (first | (with_reducible rfl) | (simp [hx]; done) | split | dsimp only)))⟩ | split | unfold act | unfold workEnds | unfold damzu | unfold indexWork | unfold codecWork | dsimp only

theorem execPerstNAssert_next (port : Fin 2) (pin : Bool) (s : State) :
    ∃ t, execPerstNAssert port pin s = .next t ∧ OnlyIn [.glb, .clk, .hif, .mgr, .otp, .dbg, .pwr, .bsh, .sec, .sch, .dmz, .idx, .flc, .mem, .cch, .drc, .spn, .tags, .locks, .insts, .units, .acceptCount, .now, .fresh] s t := by
  unfold execPerstNAssert
  repeat' first | exact ⟨_, rfl, OnlyIn.of_get _ _ _ (fun x hx => by simp only [List.mem_cons, List.not_mem_nil, or_false, not_or] at hx; (repeat' (first | (with_reducible rfl) | (simp [hx]; done) | split | dsimp only)))⟩ | split | unfold act | unfold workEnds | unfold damzu | unfold indexWork | unfold codecWork | dsimp only

theorem execPerstNRelease_next (port : Fin 2) (width : Nat) (speed : Fin 6) (reversed : Bool) (polarity : Nat) (s : State) :
    ∃ t, execPerstNRelease port width speed reversed polarity s = .next t ∧ OnlyIn [.hif, .pwr] s t := by
  unfold execPerstNRelease
  repeat' first | exact ⟨_, rfl, OnlyIn.of_get _ _ _ (fun x hx => by simp only [List.mem_cons, List.not_mem_nil, or_false, not_or] at hx; (repeat' (first | (with_reducible rfl) | (simp [hx]; done) | split | dsimp only)))⟩ | split | unfold act | unfold workEnds | unfold damzu | unfold indexWork | unfold codecWork | dsimp only

theorem execFunctionLevelReset_next (port : Fin 2) (ends : Bool) (s : State) :
    ∃ t, execFunctionLevelReset port ends s = .next t ∧ OnlyIn [.glb, .hif, .bsh, .sec, .sch, .dmz, .idx, .flc, .spn, .tags, .locks, .insts, .units, .fresh] s t := by
  unfold execFunctionLevelReset
  repeat' first | exact ⟨_, rfl, OnlyIn.of_get _ _ _ (fun x hx => by simp only [List.mem_cons, List.not_mem_nil, or_false, not_or] at hx; (repeat' (first | (with_reducible rfl) | (simp [hx]; done) | split | dsimp only)))⟩ | split | unfold act | unfold workEnds | unfold damzu | unfold indexWork | unfold codecWork | dsimp only

theorem execD3HotEntry_next (port : Fin 2) (s : State) :
    ∃ t, execD3HotEntry port s = .next t ∧ OnlyIn [.hif] s t := by
  unfold execD3HotEntry
  repeat' first | exact ⟨_, rfl, OnlyIn.of_get _ _ _ (fun x hx => by simp only [List.mem_cons, List.not_mem_nil, or_false, not_or] at hx; (repeat' (first | (with_reducible rfl) | (simp [hx]; done) | split | dsimp only)))⟩ | split | unfold act | unfold workEnds | unfold damzu | unfold indexWork | unfold codecWork | dsimp only

theorem execD3HotExit_next (port : Fin 2) (s : State) :
    ∃ t, execD3HotExit port s = .next t ∧ OnlyIn [.hif] s t := by
  unfold execD3HotExit
  repeat' first | exact ⟨_, rfl, OnlyIn.of_get _ _ _ (fun x hx => by simp only [List.mem_cons, List.not_mem_nil, or_false, not_or] at hx; (repeat' (first | (with_reducible rfl) | (simp [hx]; done) | split | dsimp only)))⟩ | split | unfold act | unfold workEnds | unfold damzu | unfold indexWork | unfold codecWork | dsimp only

theorem execStatus_next (s : State) :
    ∃ t, execStatus s = .next t ∧ OnlyIn [.hif] s t := by
  unfold execStatus
  repeat' first | exact ⟨_, rfl, OnlyIn.of_get _ _ _ (fun x hx => by simp only [List.mem_cons, List.not_mem_nil, or_false, not_or] at hx; (repeat' (first | (with_reducible rfl) | (simp [hx]; done) | split | dsimp only)))⟩ | split | unfold act | unfold workEnds | unfold damzu | unfold indexWork | unfold codecWork | dsimp only

theorem execTempMax_next (s : State) :
    ∃ t, execTempMax s = .next t ∧ OnlyIn [.hif] s t := by
  unfold execTempMax
  repeat' first | exact ⟨_, rfl, OnlyIn.of_get _ _ _ (fun x hx => by simp only [List.mem_cons, List.not_mem_nil, or_false, not_or] at hx; (repeat' (first | (with_reducible rfl) | (simp [hx]; done) | split | dsimp only)))⟩ | split | unfold act | unfold workEnds | unfold damzu | unfold indexWork | unfold codecWork | dsimp only

theorem execThermState_next (s : State) :
    ∃ t, execThermState s = .next t ∧ OnlyIn [.hif] s t := by
  unfold execThermState
  repeat' first | exact ⟨_, rfl, OnlyIn.of_get _ _ _ (fun x hx => by simp only [List.mem_cons, List.not_mem_nil, or_false, not_or] at hx; (repeat' (first | (with_reducible rfl) | (simp [hx]; done) | split | dsimp only)))⟩ | split | unfold act | unfold workEnds | unfold damzu | unfold indexWork | unfold codecWork | dsimp only

theorem execWear_next (s : State) :
    ∃ t, execWear s = .next t ∧ OnlyIn [.hif] s t := by
  unfold execWear
  repeat' first | exact ⟨_, rfl, OnlyIn.of_get _ _ _ (fun x hx => by simp only [List.mem_cons, List.not_mem_nil, or_false, not_or] at hx; (repeat' (first | (with_reducible rfl) | (simp [hx]; done) | split | dsimp only)))⟩ | split | unfold act | unfold workEnds | unfold damzu | unfold indexWork | unfold codecWork | dsimp only

theorem execSpare_next (s : State) :
    ∃ t, execSpare s = .next t ∧ OnlyIn [.hif] s t := by
  unfold execSpare
  repeat' first | exact ⟨_, rfl, OnlyIn.of_get _ _ _ (fun x hx => by simp only [List.mem_cons, List.not_mem_nil, or_false, not_or] at hx; (repeat' (first | (with_reducible rfl) | (simp [hx]; done) | split | dsimp only)))⟩ | split | unfold act | unfold workEnds | unfold damzu | unfold indexWork | unfold codecWork | dsimp only

theorem execId_next (s : State) :
    ∃ t, execId s = .next t ∧ OnlyIn [.hif] s t := by
  unfold execId
  repeat' first | exact ⟨_, rfl, OnlyIn.of_get _ _ _ (fun x hx => by simp only [List.mem_cons, List.not_mem_nil, or_false, not_or] at hx; (repeat' (first | (with_reducible rfl) | (simp [hx]; done) | split | dsimp only)))⟩ | split | unfold act | unfold workEnds | unfold damzu | unfold indexWork | unfold codecWork | dsimp only

theorem execTemps_next (s : State) :
    ∃ t, execTemps s = .next t ∧ OnlyIn [.hif] s t := by
  unfold execTemps
  repeat' first | exact ⟨_, rfl, OnlyIn.of_get _ _ _ (fun x hx => by simp only [List.mem_cons, List.not_mem_nil, or_false, not_or] at hx; (repeat' (first | (with_reducible rfl) | (simp [hx]; done) | split | dsimp only)))⟩ | split | unfold act | unfold workEnds | unfold damzu | unfold indexWork | unfold codecWork | dsimp only

theorem execRails_next (s : State) :
    ∃ t, execRails s = .next t ∧ OnlyIn [.hif] s t := by
  unfold execRails
  repeat' first | exact ⟨_, rfl, OnlyIn.of_get _ _ _ (fun x hx => by simp only [List.mem_cons, List.not_mem_nil, or_false, not_or] at hx; (repeat' (first | (with_reducible rfl) | (simp [hx]; done) | split | dsimp only)))⟩ | split | unfold act | unfold workEnds | unfold damzu | unfold indexWork | unfold codecWork | dsimp only

theorem execHealth_next (s : State) :
    ∃ t, execHealth s = .next t ∧ OnlyIn [.hif] s t := by
  unfold execHealth
  repeat' first | exact ⟨_, rfl, OnlyIn.of_get _ _ _ (fun x hx => by simp only [List.mem_cons, List.not_mem_nil, or_false, not_or] at hx; (repeat' (first | (with_reducible rfl) | (simp [hx]; done) | split | dsimp only)))⟩ | split | unfold act | unfold workEnds | unfold damzu | unfold indexWork | unfold codecWork | dsimp only

theorem execSmbusWrite_next (write : Bool) (code : BitVec 8) (s : State) :
    ∃ t, execSmbusWrite write code s = .next t ∧ OnlyIn [.hif] s t := by
  unfold execSmbusWrite
  repeat' first | exact ⟨_, rfl, OnlyIn.of_get _ _ _ (fun x hx => by simp only [List.mem_cons, List.not_mem_nil, or_false, not_or] at hx; (repeat' (first | (with_reducible rfl) | (simp [hx]; done) | split | dsimp only)))⟩ | split | unfold act | unfold workEnds | unfold damzu | unfold indexWork | unfold codecWork | dsimp only

theorem execExtest_next (s : State) :
    ∃ t, execExtest s = .next t ∧ OnlyIn [.glb, .hif] s t := by
  unfold execExtest
  repeat' first | exact ⟨_, rfl, OnlyIn.of_get _ _ _ (fun x hx => by simp only [List.mem_cons, List.not_mem_nil, or_false, not_or] at hx; (repeat' (first | (with_reducible rfl) | (simp [hx]; done) | split | dsimp only)))⟩ | split | unfold act | unfold workEnds | unfold damzu | unfold indexWork | unfold codecWork | dsimp only

theorem execIdcode_next (s : State) :
    ∃ t, execIdcode s = .next t ∧ OnlyIn [.hif] s t := by
  unfold execIdcode
  repeat' first | exact ⟨_, rfl, OnlyIn.of_get _ _ _ (fun x hx => by simp only [List.mem_cons, List.not_mem_nil, or_false, not_or] at hx; (repeat' (first | (with_reducible rfl) | (simp [hx]; done) | split | dsimp only)))⟩ | split | unfold act | unfold workEnds | unfold damzu | unfold indexWork | unfold codecWork | dsimp only

theorem execSamplePreload_next (pins : List Byte) (shifted : List Byte) (s : State) :
    ∃ t, execSamplePreload pins shifted s = .next t ∧ OnlyIn [.hif] s t := by
  unfold execSamplePreload
  repeat' first | exact ⟨_, rfl, OnlyIn.of_get _ _ _ (fun x hx => by simp only [List.mem_cons, List.not_mem_nil, or_false, not_or] at hx; (repeat' (first | (with_reducible rfl) | (simp [hx]; done) | split | dsimp only)))⟩ | split | unfold act | unfold workEnds | unfold damzu | unfold indexWork | unfold codecWork | dsimp only

theorem execClamp_next (s : State) :
    ∃ t, execClamp s = .next t ∧ OnlyIn [.glb, .hif] s t := by
  unfold execClamp
  repeat' first | exact ⟨_, rfl, OnlyIn.of_get _ _ _ (fun x hx => by simp only [List.mem_cons, List.not_mem_nil, or_false, not_or] at hx; (repeat' (first | (with_reducible rfl) | (simp [hx]; done) | split | dsimp only)))⟩ | split | unfold act | unfold workEnds | unfold damzu | unfold indexWork | unfold codecWork | dsimp only

theorem execHighz_next (s : State) :
    ∃ t, execHighz s = .next t ∧ OnlyIn [.glb, .hif] s t := by
  unfold execHighz
  repeat' first | exact ⟨_, rfl, OnlyIn.of_get _ _ _ (fun x hx => by simp only [List.mem_cons, List.not_mem_nil, or_false, not_or] at hx; (repeat' (first | (with_reducible rfl) | (simp [hx]; done) | split | dsimp only)))⟩ | split | unfold act | unfold workEnds | unfold damzu | unfold indexWork | unfold codecWork | dsimp only

theorem execDap_next (write : Bool) (off : Nat) (value : BitVec 32) (s : State) :
    ∃ t, execDap write off value s = .next t ∧ OnlyIn [.hif, .dbg] s t := by
  unfold execDap
  repeat' first | exact ⟨_, rfl, OnlyIn.of_get _ _ _ (fun x hx => by simp only [List.mem_cons, List.not_mem_nil, or_false, not_or] at hx; (repeat' (first | (with_reducible rfl) | (simp [hx]; done) | split | dsimp only)))⟩ | split | unfold act | unfold workEnds | unfold damzu | unfold indexWork | unfold codecWork | dsimp only

theorem execBypass_next (s : State) :
    ∃ t, execBypass s = .next t ∧ OnlyIn [.hif] s t := by
  unfold execBypass
  repeat' first | exact ⟨_, rfl, OnlyIn.of_get _ _ _ (fun x hx => by simp only [List.mem_cons, List.not_mem_nil, or_false, not_or] at hx; (repeat' (first | (with_reducible rfl) | (simp [hx]; done) | split | dsimp only)))⟩ | split | unfold act | unfold workEnds | unfold damzu | unfold indexWork | unfold codecWork | dsimp only

theorem execHealthLogWrite_next (s : State) :
    ∃ t, execHealthLogWrite s = .next t ∧ OnlyIn [.flc] s t := by
  unfold execHealthLogWrite
  repeat' first | exact ⟨_, rfl, OnlyIn.of_get _ _ _ (fun x hx => by simp only [List.mem_cons, List.not_mem_nil, or_false, not_or] at hx; (repeat' (first | (with_reducible rfl) | (simp [hx]; done) | split | dsimp only)))⟩ | split | unfold act | unfold workEnds | unfold damzu | unfold indexWork | unfold codecWork | dsimp only

theorem execLearnedRepairWrite_next (s : State) :
    ∃ t, execLearnedRepairWrite s = .next t ∧ OnlyIn [.mem] s t := by
  unfold execLearnedRepairWrite
  repeat' first | exact ⟨_, rfl, OnlyIn.of_get _ _ _ (fun x hx => by simp only [List.mem_cons, List.not_mem_nil, or_false, not_or] at hx; (repeat' (first | (with_reducible rfl) | (simp [hx]; done) | split | dsimp only)))⟩ | split | unfold act | unfold workEnds | unfold damzu | unfold indexWork | unfold codecWork | dsimp only

theorem execHomeBudgetExpiry_next (origin : Nat) (xid : Nat) (s : State) :
    ∃ t, execHomeBudgetExpiry origin xid s = .next t ∧ OnlyIn [.spn, .locks] s t := by
  unfold execHomeBudgetExpiry
  repeat' first | exact ⟨_, rfl, OnlyIn.of_get _ _ _ (fun x hx => by simp only [List.mem_cons, List.not_mem_nil, or_false, not_or] at hx; (repeat' (first | (with_reducible rfl) | (simp [hx]; done) | split | dsimp only)))⟩ | split | unfold act | unfold workEnds | unfold damzu | unfold indexWork | unfold codecWork | dsimp only

theorem execJoinSettleExpiry_next (s : State) :
    ∃ t, execJoinSettleExpiry s = .next t ∧ OnlyIn [.spn, .tags, .locks, .units] s t := by
  unfold execJoinSettleExpiry
  repeat' first | exact ⟨_, rfl, OnlyIn.of_get _ _ _ (fun x hx => by simp only [List.mem_cons, List.not_mem_nil, or_false, not_or] at hx; (repeat' (first | (with_reducible rfl) | (simp [hx]; done) | split | dsimp only)))⟩ | split | unfold act | unfold workEnds | unfold damzu | unfold indexWork | unfold codecWork | dsimp only

theorem execActivityToggle_next (s : State) :
    ∃ t, execActivityToggle s = .next t ∧ OnlyIn [.hif] s t := by
  unfold execActivityToggle
  repeat' first | exact ⟨_, rfl, OnlyIn.of_get _ _ _ (fun x hx => by simp only [List.mem_cons, List.not_mem_nil, or_false, not_or] at hx; (repeat' (first | (with_reducible rfl) | (simp [hx]; done) | split | dsimp only)))⟩ | split | unfold act | unfold workEnds | unfold damzu | unfold indexWork | unfold codecWork | dsimp only

end Sys2Proof.Machine
end

