-- ==== Sys2Proof/Laws/Fields.lean ====
section
/-! SUPPORT. What the shared updates of the state leave as it is, field by field. -/

namespace Sys2Proof.Machine

theorem modTag_glb (k : Nat) (f : Tag → Tag) (s : State) : (modTag k f s).glb = s.glb := rfl
theorem modTag_clk (k : Nat) (f : Tag → Tag) (s : State) : (modTag k f s).clk = s.clk := rfl
theorem modTag_hif (k : Nat) (f : Tag → Tag) (s : State) : (modTag k f s).hif = s.hif := rfl
theorem modTag_mgr (k : Nat) (f : Tag → Tag) (s : State) : (modTag k f s).mgr = s.mgr := rfl
theorem modTag_otp (k : Nat) (f : Tag → Tag) (s : State) : (modTag k f s).otp = s.otp := by cases s; rfl
theorem modTag_dbg (k : Nat) (f : Tag → Tag) (s : State) : (modTag k f s).dbg = s.dbg := rfl
theorem modTag_pwr (k : Nat) (f : Tag → Tag) (s : State) : (modTag k f s).pwr = s.pwr := rfl
theorem modTag_bsh (k : Nat) (f : Tag → Tag) (s : State) : (modTag k f s).bsh = s.bsh := rfl
theorem modTag_sec (k : Nat) (f : Tag → Tag) (s : State) : (modTag k f s).sec = s.sec := rfl
theorem modTag_sch (k : Nat) (f : Tag → Tag) (s : State) : (modTag k f s).sch = s.sch := rfl
theorem modTag_dmz (k : Nat) (f : Tag → Tag) (s : State) : (modTag k f s).dmz = s.dmz := rfl
theorem modTag_idx (k : Nat) (f : Tag → Tag) (s : State) : (modTag k f s).idx = s.idx := rfl
theorem modTag_flc (k : Nat) (f : Tag → Tag) (s : State) : (modTag k f s).flc = s.flc := rfl
theorem modTag_mem (k : Nat) (f : Tag → Tag) (s : State) : (modTag k f s).mem = s.mem := rfl
theorem modTag_cch (k : Nat) (f : Tag → Tag) (s : State) : (modTag k f s).cch = s.cch := rfl
theorem modTag_drc (k : Nat) (f : Tag → Tag) (s : State) : (modTag k f s).drc = s.drc := rfl
theorem modTag_spn (k : Nat) (f : Tag → Tag) (s : State) : (modTag k f s).spn = s.spn := rfl
theorem modTag_locks (k : Nat) (f : Tag → Tag) (s : State) : (modTag k f s).locks = s.locks := rfl
theorem modTag_insts (k : Nat) (f : Tag → Tag) (s : State) : (modTag k f s).insts = s.insts := rfl
theorem modTag_units (k : Nat) (f : Tag → Tag) (s : State) : (modTag k f s).units = s.units := rfl
theorem modTag_acceptCount (k : Nat) (f : Tag → Tag) (s : State) : (modTag k f s).acceptCount = s.acceptCount := rfl
theorem modTag_hostMem (k : Nat) (f : Tag → Tag) (s : State) : (modTag k f s).hostMem = s.hostMem := rfl
theorem modTag_now (k : Nat) (f : Tag → Tag) (s : State) : (modTag k f s).now = s.now := rfl
theorem modTag_fresh (k : Nat) (f : Tag → Tag) (s : State) : (modTag k f s).fresh = s.fresh := rfl
theorem modTag_pending (k : Nat) (f : Tag → Tag) (s : State) : (modTag k f s).pending = s.pending := by cases s; rfl

theorem modInst_glb (n : Nat) (f : Inst → Inst) (s : State) : (modInst n f s).glb = s.glb := rfl
theorem modInst_clk (n : Nat) (f : Inst → Inst) (s : State) : (modInst n f s).clk = s.clk := rfl
theorem modInst_hif (n : Nat) (f : Inst → Inst) (s : State) : (modInst n f s).hif = s.hif := rfl
theorem modInst_mgr (n : Nat) (f : Inst → Inst) (s : State) : (modInst n f s).mgr = s.mgr := rfl
theorem modInst_otp (n : Nat) (f : Inst → Inst) (s : State) : (modInst n f s).otp = s.otp := by cases s; rfl
theorem modInst_dbg (n : Nat) (f : Inst → Inst) (s : State) : (modInst n f s).dbg = s.dbg := rfl
theorem modInst_pwr (n : Nat) (f : Inst → Inst) (s : State) : (modInst n f s).pwr = s.pwr := rfl
theorem modInst_bsh (n : Nat) (f : Inst → Inst) (s : State) : (modInst n f s).bsh = s.bsh := rfl
theorem modInst_sec (n : Nat) (f : Inst → Inst) (s : State) : (modInst n f s).sec = s.sec := rfl
theorem modInst_sch (n : Nat) (f : Inst → Inst) (s : State) : (modInst n f s).sch = s.sch := rfl
theorem modInst_dmz (n : Nat) (f : Inst → Inst) (s : State) : (modInst n f s).dmz = s.dmz := rfl
theorem modInst_idx (n : Nat) (f : Inst → Inst) (s : State) : (modInst n f s).idx = s.idx := rfl
theorem modInst_flc (n : Nat) (f : Inst → Inst) (s : State) : (modInst n f s).flc = s.flc := rfl
theorem modInst_mem (n : Nat) (f : Inst → Inst) (s : State) : (modInst n f s).mem = s.mem := rfl
theorem modInst_cch (n : Nat) (f : Inst → Inst) (s : State) : (modInst n f s).cch = s.cch := rfl
theorem modInst_drc (n : Nat) (f : Inst → Inst) (s : State) : (modInst n f s).drc = s.drc := rfl
theorem modInst_spn (n : Nat) (f : Inst → Inst) (s : State) : (modInst n f s).spn = s.spn := rfl
theorem modInst_tags (n : Nat) (f : Inst → Inst) (s : State) : (modInst n f s).tags = s.tags := rfl
theorem modInst_locks (n : Nat) (f : Inst → Inst) (s : State) : (modInst n f s).locks = s.locks := rfl
theorem modInst_units (n : Nat) (f : Inst → Inst) (s : State) : (modInst n f s).units = s.units := rfl
theorem modInst_acceptCount (n : Nat) (f : Inst → Inst) (s : State) : (modInst n f s).acceptCount = s.acceptCount := rfl
theorem modInst_hostMem (n : Nat) (f : Inst → Inst) (s : State) : (modInst n f s).hostMem = s.hostMem := rfl
theorem modInst_now (n : Nat) (f : Inst → Inst) (s : State) : (modInst n f s).now = s.now := rfl
theorem modInst_fresh (n : Nat) (f : Inst → Inst) (s : State) : (modInst n f s).fresh = s.fresh := rfl
theorem modInst_pending (n : Nat) (f : Inst → Inst) (s : State) : (modInst n f s).pending = s.pending := by cases s; rfl

theorem modRing_glb (n : Nat) (f : Ring → Ring) (s : State) : (modRing n f s).glb = s.glb := rfl
theorem modRing_clk (n : Nat) (f : Ring → Ring) (s : State) : (modRing n f s).clk = s.clk := rfl
theorem modRing_hif (n : Nat) (f : Ring → Ring) (s : State) : (modRing n f s).hif = s.hif := rfl
theorem modRing_mgr (n : Nat) (f : Ring → Ring) (s : State) : (modRing n f s).mgr = s.mgr := rfl
theorem modRing_otp (n : Nat) (f : Ring → Ring) (s : State) : (modRing n f s).otp = s.otp := by cases s; rfl
theorem modRing_dbg (n : Nat) (f : Ring → Ring) (s : State) : (modRing n f s).dbg = s.dbg := rfl
theorem modRing_pwr (n : Nat) (f : Ring → Ring) (s : State) : (modRing n f s).pwr = s.pwr := rfl
theorem modRing_bsh (n : Nat) (f : Ring → Ring) (s : State) : (modRing n f s).bsh = s.bsh := rfl
theorem modRing_sec (n : Nat) (f : Ring → Ring) (s : State) : (modRing n f s).sec = s.sec := rfl
theorem modRing_sch (n : Nat) (f : Ring → Ring) (s : State) : (modRing n f s).sch = s.sch := rfl
theorem modRing_dmz (n : Nat) (f : Ring → Ring) (s : State) : (modRing n f s).dmz = s.dmz := rfl
theorem modRing_idx (n : Nat) (f : Ring → Ring) (s : State) : (modRing n f s).idx = s.idx := rfl
theorem modRing_flc (n : Nat) (f : Ring → Ring) (s : State) : (modRing n f s).flc = s.flc := rfl
theorem modRing_mem (n : Nat) (f : Ring → Ring) (s : State) : (modRing n f s).mem = s.mem := rfl
theorem modRing_cch (n : Nat) (f : Ring → Ring) (s : State) : (modRing n f s).cch = s.cch := rfl
theorem modRing_drc (n : Nat) (f : Ring → Ring) (s : State) : (modRing n f s).drc = s.drc := rfl
theorem modRing_spn (n : Nat) (f : Ring → Ring) (s : State) : (modRing n f s).spn = s.spn := rfl
theorem modRing_tags (n : Nat) (f : Ring → Ring) (s : State) : (modRing n f s).tags = s.tags := rfl
theorem modRing_locks (n : Nat) (f : Ring → Ring) (s : State) : (modRing n f s).locks = s.locks := rfl
theorem modRing_units (n : Nat) (f : Ring → Ring) (s : State) : (modRing n f s).units = s.units := rfl
theorem modRing_acceptCount (n : Nat) (f : Ring → Ring) (s : State) : (modRing n f s).acceptCount = s.acceptCount := rfl
theorem modRing_hostMem (n : Nat) (f : Ring → Ring) (s : State) : (modRing n f s).hostMem = s.hostMem := rfl
theorem modRing_now (n : Nat) (f : Ring → Ring) (s : State) : (modRing n f s).now = s.now := rfl
theorem modRing_fresh (n : Nat) (f : Ring → Ring) (s : State) : (modRing n f s).fresh = s.fresh := rfl
theorem modRing_pending (n : Nat) (f : Ring → Ring) (s : State) : (modRing n f s).pending = s.pending := by cases s; rfl

theorem modVol_glb (v : Nat) (f : Vol → Vol) (s : State) : (modVol v f s).glb = s.glb := rfl
theorem modVol_clk (v : Nat) (f : Vol → Vol) (s : State) : (modVol v f s).clk = s.clk := rfl
theorem modVol_hif (v : Nat) (f : Vol → Vol) (s : State) : (modVol v f s).hif = s.hif := rfl
theorem modVol_mgr (v : Nat) (f : Vol → Vol) (s : State) : (modVol v f s).mgr = s.mgr := rfl
theorem modVol_otp (v : Nat) (f : Vol → Vol) (s : State) : (modVol v f s).otp = s.otp := by cases s; rfl
theorem modVol_dbg (v : Nat) (f : Vol → Vol) (s : State) : (modVol v f s).dbg = s.dbg := rfl
theorem modVol_pwr (v : Nat) (f : Vol → Vol) (s : State) : (modVol v f s).pwr = s.pwr := rfl
theorem modVol_bsh (v : Nat) (f : Vol → Vol) (s : State) : (modVol v f s).bsh = s.bsh := rfl
theorem modVol_sec (v : Nat) (f : Vol → Vol) (s : State) : (modVol v f s).sec = s.sec := rfl
theorem modVol_sch (v : Nat) (f : Vol → Vol) (s : State) : (modVol v f s).sch = s.sch := rfl
theorem modVol_dmz (v : Nat) (f : Vol → Vol) (s : State) : (modVol v f s).dmz = s.dmz := rfl
theorem modVol_idx (v : Nat) (f : Vol → Vol) (s : State) : (modVol v f s).idx = s.idx := rfl
theorem modVol_mem (v : Nat) (f : Vol → Vol) (s : State) : (modVol v f s).mem = s.mem := rfl
theorem modVol_cch (v : Nat) (f : Vol → Vol) (s : State) : (modVol v f s).cch = s.cch := rfl
theorem modVol_drc (v : Nat) (f : Vol → Vol) (s : State) : (modVol v f s).drc = s.drc := rfl
theorem modVol_spn (v : Nat) (f : Vol → Vol) (s : State) : (modVol v f s).spn = s.spn := rfl
theorem modVol_tags (v : Nat) (f : Vol → Vol) (s : State) : (modVol v f s).tags = s.tags := rfl
theorem modVol_locks (v : Nat) (f : Vol → Vol) (s : State) : (modVol v f s).locks = s.locks := rfl
theorem modVol_insts (v : Nat) (f : Vol → Vol) (s : State) : (modVol v f s).insts = s.insts := rfl
theorem modVol_units (v : Nat) (f : Vol → Vol) (s : State) : (modVol v f s).units = s.units := rfl
theorem modVol_acceptCount (v : Nat) (f : Vol → Vol) (s : State) : (modVol v f s).acceptCount = s.acceptCount := rfl
theorem modVol_hostMem (v : Nat) (f : Vol → Vol) (s : State) : (modVol v f s).hostMem = s.hostMem := rfl
theorem modVol_now (v : Nat) (f : Vol → Vol) (s : State) : (modVol v f s).now = s.now := rfl
theorem modVol_fresh (v : Nat) (f : Vol → Vol) (s : State) : (modVol v f s).fresh = s.fresh := rfl
theorem modVol_pending (v : Nat) (f : Vol → Vol) (s : State) : (modVol v f s).pending = s.pending := by cases s; rfl

theorem bumpFresh_glb (s : State) : (bumpFresh s).glb = s.glb := rfl
theorem bumpFresh_clk (s : State) : (bumpFresh s).clk = s.clk := rfl
theorem bumpFresh_hif (s : State) : (bumpFresh s).hif = s.hif := rfl
theorem bumpFresh_mgr (s : State) : (bumpFresh s).mgr = s.mgr := rfl
theorem bumpFresh_otp (s : State) : (bumpFresh s).otp = s.otp := by cases s; rfl
theorem bumpFresh_dbg (s : State) : (bumpFresh s).dbg = s.dbg := rfl
theorem bumpFresh_pwr (s : State) : (bumpFresh s).pwr = s.pwr := rfl
theorem bumpFresh_bsh (s : State) : (bumpFresh s).bsh = s.bsh := rfl
theorem bumpFresh_sec (s : State) : (bumpFresh s).sec = s.sec := rfl
theorem bumpFresh_sch (s : State) : (bumpFresh s).sch = s.sch := rfl
theorem bumpFresh_dmz (s : State) : (bumpFresh s).dmz = s.dmz := rfl
theorem bumpFresh_idx (s : State) : (bumpFresh s).idx = s.idx := rfl
theorem bumpFresh_flc (s : State) : (bumpFresh s).flc = s.flc := rfl
theorem bumpFresh_mem (s : State) : (bumpFresh s).mem = s.mem := rfl
theorem bumpFresh_cch (s : State) : (bumpFresh s).cch = s.cch := rfl
theorem bumpFresh_drc (s : State) : (bumpFresh s).drc = s.drc := rfl
theorem bumpFresh_spn (s : State) : (bumpFresh s).spn = s.spn := rfl
theorem bumpFresh_tags (s : State) : (bumpFresh s).tags = s.tags := rfl
theorem bumpFresh_locks (s : State) : (bumpFresh s).locks = s.locks := rfl
theorem bumpFresh_insts (s : State) : (bumpFresh s).insts = s.insts := rfl
theorem bumpFresh_units (s : State) : (bumpFresh s).units = s.units := rfl
theorem bumpFresh_acceptCount (s : State) : (bumpFresh s).acceptCount = s.acceptCount := rfl
theorem bumpFresh_hostMem (s : State) : (bumpFresh s).hostMem = s.hostMem := rfl
theorem bumpFresh_now (s : State) : (bumpFresh s).now = s.now := rfl
theorem bumpFresh_pending (s : State) : (bumpFresh s).pending = s.pending := by cases s; rfl

theorem tick_glb (s : State) : (tick s).glb = s.glb := rfl
theorem tick_clk (s : State) : (tick s).clk = s.clk := rfl
theorem tick_hif (s : State) : (tick s).hif = s.hif := rfl
theorem tick_mgr (s : State) : (tick s).mgr = s.mgr := rfl
theorem tick_otp (s : State) : (tick s).otp = s.otp := by cases s; rfl
theorem tick_dbg (s : State) : (tick s).dbg = s.dbg := rfl
theorem tick_pwr (s : State) : (tick s).pwr = s.pwr := rfl
theorem tick_bsh (s : State) : (tick s).bsh = s.bsh := rfl
theorem tick_sec (s : State) : (tick s).sec = s.sec := rfl
theorem tick_sch (s : State) : (tick s).sch = s.sch := rfl
theorem tick_dmz (s : State) : (tick s).dmz = s.dmz := rfl
theorem tick_idx (s : State) : (tick s).idx = s.idx := rfl
theorem tick_flc (s : State) : (tick s).flc = s.flc := rfl
theorem tick_mem (s : State) : (tick s).mem = s.mem := rfl
theorem tick_cch (s : State) : (tick s).cch = s.cch := rfl
theorem tick_drc (s : State) : (tick s).drc = s.drc := rfl
theorem tick_spn (s : State) : (tick s).spn = s.spn := rfl
theorem tick_tags (s : State) : (tick s).tags = s.tags := rfl
theorem tick_locks (s : State) : (tick s).locks = s.locks := rfl
theorem tick_insts (s : State) : (tick s).insts = s.insts := rfl
theorem tick_units (s : State) : (tick s).units = s.units := rfl
theorem tick_acceptCount (s : State) : (tick s).acceptCount = s.acceptCount := rfl
theorem tick_hostMem (s : State) : (tick s).hostMem = s.hostMem := rfl
theorem tick_fresh (s : State) : (tick s).fresh = s.fresh := rfl
theorem tick_pending (s : State) : (tick s).pending = s.pending := by cases s; rfl

theorem releaseLock_glb (k : Nat) (s : State) : (releaseLock k s).glb = s.glb := rfl
theorem releaseLock_clk (k : Nat) (s : State) : (releaseLock k s).clk = s.clk := rfl
theorem releaseLock_hif (k : Nat) (s : State) : (releaseLock k s).hif = s.hif := rfl
theorem releaseLock_mgr (k : Nat) (s : State) : (releaseLock k s).mgr = s.mgr := rfl
theorem releaseLock_otp (k : Nat) (s : State) : (releaseLock k s).otp = s.otp := by cases s; rfl
theorem releaseLock_dbg (k : Nat) (s : State) : (releaseLock k s).dbg = s.dbg := rfl
theorem releaseLock_pwr (k : Nat) (s : State) : (releaseLock k s).pwr = s.pwr := rfl
theorem releaseLock_bsh (k : Nat) (s : State) : (releaseLock k s).bsh = s.bsh := rfl
theorem releaseLock_sec (k : Nat) (s : State) : (releaseLock k s).sec = s.sec := rfl
theorem releaseLock_sch (k : Nat) (s : State) : (releaseLock k s).sch = s.sch := rfl
theorem releaseLock_dmz (k : Nat) (s : State) : (releaseLock k s).dmz = s.dmz := rfl
theorem releaseLock_idx (k : Nat) (s : State) : (releaseLock k s).idx = s.idx := rfl
theorem releaseLock_flc (k : Nat) (s : State) : (releaseLock k s).flc = s.flc := rfl
theorem releaseLock_mem (k : Nat) (s : State) : (releaseLock k s).mem = s.mem := rfl
theorem releaseLock_cch (k : Nat) (s : State) : (releaseLock k s).cch = s.cch := rfl
theorem releaseLock_drc (k : Nat) (s : State) : (releaseLock k s).drc = s.drc := rfl
theorem releaseLock_spn (k : Nat) (s : State) : (releaseLock k s).spn = s.spn := rfl
theorem releaseLock_tags (k : Nat) (s : State) : (releaseLock k s).tags = s.tags := rfl
theorem releaseLock_insts (k : Nat) (s : State) : (releaseLock k s).insts = s.insts := rfl
theorem releaseLock_units (k : Nat) (s : State) : (releaseLock k s).units = s.units := rfl
theorem releaseLock_acceptCount (k : Nat) (s : State) : (releaseLock k s).acceptCount = s.acceptCount := rfl
theorem releaseLock_hostMem (k : Nat) (s : State) : (releaseLock k s).hostMem = s.hostMem := rfl
theorem releaseLock_now (k : Nat) (s : State) : (releaseLock k s).now = s.now := rfl
theorem releaseLock_fresh (k : Nat) (s : State) : (releaseLock k s).fresh = s.fresh := rfl
theorem releaseLock_pending (k : Nat) (s : State) : (releaseLock k s).pending = s.pending := by cases s; rfl

theorem dropUnits_glb (k : Nat) (s : State) : (dropUnits k s).glb = s.glb := rfl
theorem dropUnits_clk (k : Nat) (s : State) : (dropUnits k s).clk = s.clk := rfl
theorem dropUnits_hif (k : Nat) (s : State) : (dropUnits k s).hif = s.hif := rfl
theorem dropUnits_mgr (k : Nat) (s : State) : (dropUnits k s).mgr = s.mgr := rfl
theorem dropUnits_otp (k : Nat) (s : State) : (dropUnits k s).otp = s.otp := by cases s; rfl
theorem dropUnits_dbg (k : Nat) (s : State) : (dropUnits k s).dbg = s.dbg := rfl
theorem dropUnits_pwr (k : Nat) (s : State) : (dropUnits k s).pwr = s.pwr := rfl
theorem dropUnits_bsh (k : Nat) (s : State) : (dropUnits k s).bsh = s.bsh := rfl
theorem dropUnits_sec (k : Nat) (s : State) : (dropUnits k s).sec = s.sec := rfl
theorem dropUnits_sch (k : Nat) (s : State) : (dropUnits k s).sch = s.sch := rfl
theorem dropUnits_dmz (k : Nat) (s : State) : (dropUnits k s).dmz = s.dmz := rfl
theorem dropUnits_idx (k : Nat) (s : State) : (dropUnits k s).idx = s.idx := rfl
theorem dropUnits_flc (k : Nat) (s : State) : (dropUnits k s).flc = s.flc := rfl
theorem dropUnits_mem (k : Nat) (s : State) : (dropUnits k s).mem = s.mem := rfl
theorem dropUnits_cch (k : Nat) (s : State) : (dropUnits k s).cch = s.cch := rfl
theorem dropUnits_drc (k : Nat) (s : State) : (dropUnits k s).drc = s.drc := rfl
theorem dropUnits_spn (k : Nat) (s : State) : (dropUnits k s).spn = s.spn := rfl
theorem dropUnits_tags (k : Nat) (s : State) : (dropUnits k s).tags = s.tags := rfl
theorem dropUnits_locks (k : Nat) (s : State) : (dropUnits k s).locks = s.locks := rfl
theorem dropUnits_insts (k : Nat) (s : State) : (dropUnits k s).insts = s.insts := rfl
theorem dropUnits_acceptCount (k : Nat) (s : State) : (dropUnits k s).acceptCount = s.acceptCount := rfl
theorem dropUnits_hostMem (k : Nat) (s : State) : (dropUnits k s).hostMem = s.hostMem := rfl
theorem dropUnits_now (k : Nat) (s : State) : (dropUnits k s).now = s.now := rfl
theorem dropUnits_fresh (k : Nat) (s : State) : (dropUnits k s).fresh = s.fresh := rfl
theorem dropUnits_pending (k : Nat) (s : State) : (dropUnits k s).pending = s.pending := by cases s; rfl

theorem appendGroup_glb (h : Bool) (es : List JEnt) (s : State) : (appendGroup h es s).glb = s.glb := rfl
theorem appendGroup_clk (h : Bool) (es : List JEnt) (s : State) : (appendGroup h es s).clk = s.clk := rfl
theorem appendGroup_hif (h : Bool) (es : List JEnt) (s : State) : (appendGroup h es s).hif = s.hif := rfl
theorem appendGroup_mgr (h : Bool) (es : List JEnt) (s : State) : (appendGroup h es s).mgr = s.mgr := rfl
theorem appendGroup_otp (h : Bool) (es : List JEnt) (s : State) : (appendGroup h es s).otp = s.otp := by cases s; rfl
theorem appendGroup_dbg (h : Bool) (es : List JEnt) (s : State) : (appendGroup h es s).dbg = s.dbg := rfl
theorem appendGroup_pwr (h : Bool) (es : List JEnt) (s : State) : (appendGroup h es s).pwr = s.pwr := rfl
theorem appendGroup_bsh (h : Bool) (es : List JEnt) (s : State) : (appendGroup h es s).bsh = s.bsh := rfl
theorem appendGroup_sec (h : Bool) (es : List JEnt) (s : State) : (appendGroup h es s).sec = s.sec := rfl
theorem appendGroup_sch (h : Bool) (es : List JEnt) (s : State) : (appendGroup h es s).sch = s.sch := rfl
theorem appendGroup_dmz (h : Bool) (es : List JEnt) (s : State) : (appendGroup h es s).dmz = s.dmz := rfl
theorem appendGroup_idx (h : Bool) (es : List JEnt) (s : State) : (appendGroup h es s).idx = s.idx := rfl
theorem appendGroup_mem (h : Bool) (es : List JEnt) (s : State) : (appendGroup h es s).mem = s.mem := rfl
theorem appendGroup_cch (h : Bool) (es : List JEnt) (s : State) : (appendGroup h es s).cch = s.cch := rfl
theorem appendGroup_drc (h : Bool) (es : List JEnt) (s : State) : (appendGroup h es s).drc = s.drc := rfl
theorem appendGroup_spn (h : Bool) (es : List JEnt) (s : State) : (appendGroup h es s).spn = s.spn := rfl
theorem appendGroup_tags (h : Bool) (es : List JEnt) (s : State) : (appendGroup h es s).tags = s.tags := rfl
theorem appendGroup_locks (h : Bool) (es : List JEnt) (s : State) : (appendGroup h es s).locks = s.locks := rfl
theorem appendGroup_insts (h : Bool) (es : List JEnt) (s : State) : (appendGroup h es s).insts = s.insts := rfl
theorem appendGroup_units (h : Bool) (es : List JEnt) (s : State) : (appendGroup h es s).units = s.units := rfl
theorem appendGroup_acceptCount (h : Bool) (es : List JEnt) (s : State) : (appendGroup h es s).acceptCount = s.acceptCount := rfl
theorem appendGroup_hostMem (h : Bool) (es : List JEnt) (s : State) : (appendGroup h es s).hostMem = s.hostMem := rfl
theorem appendGroup_now (h : Bool) (es : List JEnt) (s : State) : (appendGroup h es s).now = s.now := rfl
theorem appendGroup_fresh (h : Bool) (es : List JEnt) (s : State) : (appendGroup h es s).fresh = s.fresh := rfl
theorem appendGroup_pending (h : Bool) (es : List JEnt) (s : State) : (appendGroup h es s).pending = s.pending := by cases s; rfl

theorem hostStore_glb (p a : Nat) (bs : List Byte) (s : State) : (hostStore p a bs s).glb = s.glb := rfl
theorem hostStore_clk (p a : Nat) (bs : List Byte) (s : State) : (hostStore p a bs s).clk = s.clk := rfl
theorem hostStore_hif (p a : Nat) (bs : List Byte) (s : State) : (hostStore p a bs s).hif = s.hif := rfl
theorem hostStore_mgr (p a : Nat) (bs : List Byte) (s : State) : (hostStore p a bs s).mgr = s.mgr := rfl
theorem hostStore_otp (p a : Nat) (bs : List Byte) (s : State) : (hostStore p a bs s).otp = s.otp := by cases s; rfl
theorem hostStore_dbg (p a : Nat) (bs : List Byte) (s : State) : (hostStore p a bs s).dbg = s.dbg := rfl
theorem hostStore_pwr (p a : Nat) (bs : List Byte) (s : State) : (hostStore p a bs s).pwr = s.pwr := rfl
theorem hostStore_bsh (p a : Nat) (bs : List Byte) (s : State) : (hostStore p a bs s).bsh = s.bsh := rfl
theorem hostStore_sec (p a : Nat) (bs : List Byte) (s : State) : (hostStore p a bs s).sec = s.sec := rfl
theorem hostStore_sch (p a : Nat) (bs : List Byte) (s : State) : (hostStore p a bs s).sch = s.sch := rfl
theorem hostStore_dmz (p a : Nat) (bs : List Byte) (s : State) : (hostStore p a bs s).dmz = s.dmz := rfl
theorem hostStore_idx (p a : Nat) (bs : List Byte) (s : State) : (hostStore p a bs s).idx = s.idx := rfl
theorem hostStore_flc (p a : Nat) (bs : List Byte) (s : State) : (hostStore p a bs s).flc = s.flc := rfl
theorem hostStore_mem (p a : Nat) (bs : List Byte) (s : State) : (hostStore p a bs s).mem = s.mem := rfl
theorem hostStore_cch (p a : Nat) (bs : List Byte) (s : State) : (hostStore p a bs s).cch = s.cch := rfl
theorem hostStore_drc (p a : Nat) (bs : List Byte) (s : State) : (hostStore p a bs s).drc = s.drc := rfl
theorem hostStore_spn (p a : Nat) (bs : List Byte) (s : State) : (hostStore p a bs s).spn = s.spn := rfl
theorem hostStore_tags (p a : Nat) (bs : List Byte) (s : State) : (hostStore p a bs s).tags = s.tags := rfl
theorem hostStore_locks (p a : Nat) (bs : List Byte) (s : State) : (hostStore p a bs s).locks = s.locks := rfl
theorem hostStore_insts (p a : Nat) (bs : List Byte) (s : State) : (hostStore p a bs s).insts = s.insts := rfl
theorem hostStore_units (p a : Nat) (bs : List Byte) (s : State) : (hostStore p a bs s).units = s.units := rfl
theorem hostStore_acceptCount (p a : Nat) (bs : List Byte) (s : State) : (hostStore p a bs s).acceptCount = s.acceptCount := rfl
theorem hostStore_now (p a : Nat) (bs : List Byte) (s : State) : (hostStore p a bs s).now = s.now := rfl
theorem hostStore_fresh (p a : Nat) (bs : List Byte) (s : State) : (hostStore p a bs s).fresh = s.fresh := rfl
theorem hostStore_pending (p a : Nat) (bs : List Byte) (s : State) : (hostStore p a bs s).pending = s.pending := by cases s; rfl

theorem modTask_glb (c : Nat) (f : Task → Task) (s : State) : (modTask c f s).glb = s.glb := rfl
theorem modTask_clk (c : Nat) (f : Task → Task) (s : State) : (modTask c f s).clk = s.clk := rfl
theorem modTask_hif (c : Nat) (f : Task → Task) (s : State) : (modTask c f s).hif = s.hif := rfl
theorem modTask_mgr (c : Nat) (f : Task → Task) (s : State) : (modTask c f s).mgr = s.mgr := rfl
theorem modTask_otp (c : Nat) (f : Task → Task) (s : State) : (modTask c f s).otp = s.otp := by cases s; rfl
theorem modTask_dbg (c : Nat) (f : Task → Task) (s : State) : (modTask c f s).dbg = s.dbg := rfl
theorem modTask_pwr (c : Nat) (f : Task → Task) (s : State) : (modTask c f s).pwr = s.pwr := rfl
theorem modTask_bsh (c : Nat) (f : Task → Task) (s : State) : (modTask c f s).bsh = s.bsh := rfl
theorem modTask_sec (c : Nat) (f : Task → Task) (s : State) : (modTask c f s).sec = s.sec := rfl
theorem modTask_dmz (c : Nat) (f : Task → Task) (s : State) : (modTask c f s).dmz = s.dmz := rfl
theorem modTask_idx (c : Nat) (f : Task → Task) (s : State) : (modTask c f s).idx = s.idx := rfl
theorem modTask_flc (c : Nat) (f : Task → Task) (s : State) : (modTask c f s).flc = s.flc := rfl
theorem modTask_mem (c : Nat) (f : Task → Task) (s : State) : (modTask c f s).mem = s.mem := rfl
theorem modTask_cch (c : Nat) (f : Task → Task) (s : State) : (modTask c f s).cch = s.cch := rfl
theorem modTask_drc (c : Nat) (f : Task → Task) (s : State) : (modTask c f s).drc = s.drc := rfl
theorem modTask_spn (c : Nat) (f : Task → Task) (s : State) : (modTask c f s).spn = s.spn := rfl
theorem modTask_tags (c : Nat) (f : Task → Task) (s : State) : (modTask c f s).tags = s.tags := rfl
theorem modTask_locks (c : Nat) (f : Task → Task) (s : State) : (modTask c f s).locks = s.locks := rfl
theorem modTask_insts (c : Nat) (f : Task → Task) (s : State) : (modTask c f s).insts = s.insts := rfl
theorem modTask_units (c : Nat) (f : Task → Task) (s : State) : (modTask c f s).units = s.units := rfl
theorem modTask_acceptCount (c : Nat) (f : Task → Task) (s : State) : (modTask c f s).acceptCount = s.acceptCount := rfl
theorem modTask_hostMem (c : Nat) (f : Task → Task) (s : State) : (modTask c f s).hostMem = s.hostMem := rfl
theorem modTask_now (c : Nat) (f : Task → Task) (s : State) : (modTask c f s).now = s.now := rfl
theorem modTask_fresh (c : Nat) (f : Task → Task) (s : State) : (modTask c f s).fresh = s.fresh := rfl
theorem modTask_pending (c : Nat) (f : Task → Task) (s : State) : (modTask c f s).pending = s.pending := by cases s; rfl

theorem modEngine_glb (e : Nat) (f : Engine → Engine) (s : State) : (modEngine e f s).glb = s.glb := rfl
theorem modEngine_clk (e : Nat) (f : Engine → Engine) (s : State) : (modEngine e f s).clk = s.clk := rfl
theorem modEngine_hif (e : Nat) (f : Engine → Engine) (s : State) : (modEngine e f s).hif = s.hif := rfl
theorem modEngine_mgr (e : Nat) (f : Engine → Engine) (s : State) : (modEngine e f s).mgr = s.mgr := rfl
theorem modEngine_otp (e : Nat) (f : Engine → Engine) (s : State) : (modEngine e f s).otp = s.otp := by cases s; rfl
theorem modEngine_dbg (e : Nat) (f : Engine → Engine) (s : State) : (modEngine e f s).dbg = s.dbg := rfl
theorem modEngine_pwr (e : Nat) (f : Engine → Engine) (s : State) : (modEngine e f s).pwr = s.pwr := rfl
theorem modEngine_bsh (e : Nat) (f : Engine → Engine) (s : State) : (modEngine e f s).bsh = s.bsh := rfl
theorem modEngine_sec (e : Nat) (f : Engine → Engine) (s : State) : (modEngine e f s).sec = s.sec := rfl
theorem modEngine_dmz (e : Nat) (f : Engine → Engine) (s : State) : (modEngine e f s).dmz = s.dmz := rfl
theorem modEngine_idx (e : Nat) (f : Engine → Engine) (s : State) : (modEngine e f s).idx = s.idx := rfl
theorem modEngine_flc (e : Nat) (f : Engine → Engine) (s : State) : (modEngine e f s).flc = s.flc := rfl
theorem modEngine_mem (e : Nat) (f : Engine → Engine) (s : State) : (modEngine e f s).mem = s.mem := rfl
theorem modEngine_cch (e : Nat) (f : Engine → Engine) (s : State) : (modEngine e f s).cch = s.cch := rfl
theorem modEngine_drc (e : Nat) (f : Engine → Engine) (s : State) : (modEngine e f s).drc = s.drc := rfl
theorem modEngine_spn (e : Nat) (f : Engine → Engine) (s : State) : (modEngine e f s).spn = s.spn := rfl
theorem modEngine_tags (e : Nat) (f : Engine → Engine) (s : State) : (modEngine e f s).tags = s.tags := rfl
theorem modEngine_locks (e : Nat) (f : Engine → Engine) (s : State) : (modEngine e f s).locks = s.locks := rfl
theorem modEngine_insts (e : Nat) (f : Engine → Engine) (s : State) : (modEngine e f s).insts = s.insts := rfl
theorem modEngine_units (e : Nat) (f : Engine → Engine) (s : State) : (modEngine e f s).units = s.units := rfl
theorem modEngine_acceptCount (e : Nat) (f : Engine → Engine) (s : State) : (modEngine e f s).acceptCount = s.acceptCount := rfl
theorem modEngine_hostMem (e : Nat) (f : Engine → Engine) (s : State) : (modEngine e f s).hostMem = s.hostMem := rfl
theorem modEngine_now (e : Nat) (f : Engine → Engine) (s : State) : (modEngine e f s).now = s.now := rfl
theorem modEngine_fresh (e : Nat) (f : Engine → Engine) (s : State) : (modEngine e f s).fresh = s.fresh := rfl
theorem modEngine_pending (e : Nat) (f : Engine → Engine) (s : State) : (modEngine e f s).pending = s.pending := by cases s; rfl

theorem modEPort_glb (p : Nat) (f : EPort → EPort) (s : State) : (modEPort p f s).glb = s.glb := rfl
theorem modEPort_clk (p : Nat) (f : EPort → EPort) (s : State) : (modEPort p f s).clk = s.clk := rfl
theorem modEPort_hif (p : Nat) (f : EPort → EPort) (s : State) : (modEPort p f s).hif = s.hif := rfl
theorem modEPort_mgr (p : Nat) (f : EPort → EPort) (s : State) : (modEPort p f s).mgr = s.mgr := rfl
theorem modEPort_otp (p : Nat) (f : EPort → EPort) (s : State) : (modEPort p f s).otp = s.otp := by cases s; rfl
theorem modEPort_dbg (p : Nat) (f : EPort → EPort) (s : State) : (modEPort p f s).dbg = s.dbg := rfl
theorem modEPort_pwr (p : Nat) (f : EPort → EPort) (s : State) : (modEPort p f s).pwr = s.pwr := rfl
theorem modEPort_bsh (p : Nat) (f : EPort → EPort) (s : State) : (modEPort p f s).bsh = s.bsh := rfl
theorem modEPort_sec (p : Nat) (f : EPort → EPort) (s : State) : (modEPort p f s).sec = s.sec := rfl
theorem modEPort_sch (p : Nat) (f : EPort → EPort) (s : State) : (modEPort p f s).sch = s.sch := rfl
theorem modEPort_dmz (p : Nat) (f : EPort → EPort) (s : State) : (modEPort p f s).dmz = s.dmz := rfl
theorem modEPort_idx (p : Nat) (f : EPort → EPort) (s : State) : (modEPort p f s).idx = s.idx := rfl
theorem modEPort_flc (p : Nat) (f : EPort → EPort) (s : State) : (modEPort p f s).flc = s.flc := rfl
theorem modEPort_mem (p : Nat) (f : EPort → EPort) (s : State) : (modEPort p f s).mem = s.mem := rfl
theorem modEPort_cch (p : Nat) (f : EPort → EPort) (s : State) : (modEPort p f s).cch = s.cch := rfl
theorem modEPort_drc (p : Nat) (f : EPort → EPort) (s : State) : (modEPort p f s).drc = s.drc := rfl
theorem modEPort_tags (p : Nat) (f : EPort → EPort) (s : State) : (modEPort p f s).tags = s.tags := rfl
theorem modEPort_locks (p : Nat) (f : EPort → EPort) (s : State) : (modEPort p f s).locks = s.locks := rfl
theorem modEPort_insts (p : Nat) (f : EPort → EPort) (s : State) : (modEPort p f s).insts = s.insts := rfl
theorem modEPort_units (p : Nat) (f : EPort → EPort) (s : State) : (modEPort p f s).units = s.units := rfl
theorem modEPort_acceptCount (p : Nat) (f : EPort → EPort) (s : State) : (modEPort p f s).acceptCount = s.acceptCount := rfl
theorem modEPort_hostMem (p : Nat) (f : EPort → EPort) (s : State) : (modEPort p f s).hostMem = s.hostMem := rfl
theorem modEPort_now (p : Nat) (f : EPort → EPort) (s : State) : (modEPort p f s).now = s.now := rfl
theorem modEPort_fresh (p : Nat) (f : EPort → EPort) (s : State) : (modEPort p f s).fresh = s.fresh := rfl
theorem modEPort_pending (p : Nat) (f : EPort → EPort) (s : State) : (modEPort p f s).pending = s.pending := by cases s; rfl

theorem modDie_glb (d : Nat) (f : Die → Die) (s : State) : (modDie d f s).glb = s.glb := rfl
theorem modDie_clk (d : Nat) (f : Die → Die) (s : State) : (modDie d f s).clk = s.clk := rfl
theorem modDie_hif (d : Nat) (f : Die → Die) (s : State) : (modDie d f s).hif = s.hif := rfl
theorem modDie_mgr (d : Nat) (f : Die → Die) (s : State) : (modDie d f s).mgr = s.mgr := rfl
theorem modDie_otp (d : Nat) (f : Die → Die) (s : State) : (modDie d f s).otp = s.otp := by cases s; rfl
theorem modDie_dbg (d : Nat) (f : Die → Die) (s : State) : (modDie d f s).dbg = s.dbg := rfl
theorem modDie_pwr (d : Nat) (f : Die → Die) (s : State) : (modDie d f s).pwr = s.pwr := rfl
theorem modDie_bsh (d : Nat) (f : Die → Die) (s : State) : (modDie d f s).bsh = s.bsh := rfl
theorem modDie_sec (d : Nat) (f : Die → Die) (s : State) : (modDie d f s).sec = s.sec := rfl
theorem modDie_sch (d : Nat) (f : Die → Die) (s : State) : (modDie d f s).sch = s.sch := rfl
theorem modDie_dmz (d : Nat) (f : Die → Die) (s : State) : (modDie d f s).dmz = s.dmz := rfl
theorem modDie_idx (d : Nat) (f : Die → Die) (s : State) : (modDie d f s).idx = s.idx := rfl
theorem modDie_mem (d : Nat) (f : Die → Die) (s : State) : (modDie d f s).mem = s.mem := rfl
theorem modDie_cch (d : Nat) (f : Die → Die) (s : State) : (modDie d f s).cch = s.cch := rfl
theorem modDie_drc (d : Nat) (f : Die → Die) (s : State) : (modDie d f s).drc = s.drc := rfl
theorem modDie_spn (d : Nat) (f : Die → Die) (s : State) : (modDie d f s).spn = s.spn := rfl
theorem modDie_tags (d : Nat) (f : Die → Die) (s : State) : (modDie d f s).tags = s.tags := rfl
theorem modDie_locks (d : Nat) (f : Die → Die) (s : State) : (modDie d f s).locks = s.locks := rfl
theorem modDie_insts (d : Nat) (f : Die → Die) (s : State) : (modDie d f s).insts = s.insts := rfl
theorem modDie_units (d : Nat) (f : Die → Die) (s : State) : (modDie d f s).units = s.units := rfl
theorem modDie_acceptCount (d : Nat) (f : Die → Die) (s : State) : (modDie d f s).acceptCount = s.acceptCount := rfl
theorem modDie_hostMem (d : Nat) (f : Die → Die) (s : State) : (modDie d f s).hostMem = s.hostMem := rfl
theorem modDie_now (d : Nat) (f : Die → Die) (s : State) : (modDie d f s).now = s.now := rfl
theorem modDie_fresh (d : Nat) (f : Die → Die) (s : State) : (modDie d f s).fresh = s.fresh := rfl
theorem modDie_pending (d : Nat) (f : Die → Die) (s : State) : (modDie d f s).pending = s.pending := by cases s; rfl

theorem modChan_glb (c : Nat) (f : Chan → Chan) (s : State) : (modChan c f s).glb = s.glb := rfl
theorem modChan_clk (c : Nat) (f : Chan → Chan) (s : State) : (modChan c f s).clk = s.clk := rfl
theorem modChan_hif (c : Nat) (f : Chan → Chan) (s : State) : (modChan c f s).hif = s.hif := rfl
theorem modChan_mgr (c : Nat) (f : Chan → Chan) (s : State) : (modChan c f s).mgr = s.mgr := rfl
theorem modChan_otp (c : Nat) (f : Chan → Chan) (s : State) : (modChan c f s).otp = s.otp := by cases s; rfl
theorem modChan_dbg (c : Nat) (f : Chan → Chan) (s : State) : (modChan c f s).dbg = s.dbg := rfl
theorem modChan_pwr (c : Nat) (f : Chan → Chan) (s : State) : (modChan c f s).pwr = s.pwr := rfl
theorem modChan_bsh (c : Nat) (f : Chan → Chan) (s : State) : (modChan c f s).bsh = s.bsh := rfl
theorem modChan_sec (c : Nat) (f : Chan → Chan) (s : State) : (modChan c f s).sec = s.sec := rfl
theorem modChan_sch (c : Nat) (f : Chan → Chan) (s : State) : (modChan c f s).sch = s.sch := rfl
theorem modChan_dmz (c : Nat) (f : Chan → Chan) (s : State) : (modChan c f s).dmz = s.dmz := rfl
theorem modChan_idx (c : Nat) (f : Chan → Chan) (s : State) : (modChan c f s).idx = s.idx := rfl
theorem modChan_mem (c : Nat) (f : Chan → Chan) (s : State) : (modChan c f s).mem = s.mem := rfl
theorem modChan_cch (c : Nat) (f : Chan → Chan) (s : State) : (modChan c f s).cch = s.cch := rfl
theorem modChan_drc (c : Nat) (f : Chan → Chan) (s : State) : (modChan c f s).drc = s.drc := rfl
theorem modChan_spn (c : Nat) (f : Chan → Chan) (s : State) : (modChan c f s).spn = s.spn := rfl
theorem modChan_tags (c : Nat) (f : Chan → Chan) (s : State) : (modChan c f s).tags = s.tags := rfl
theorem modChan_locks (c : Nat) (f : Chan → Chan) (s : State) : (modChan c f s).locks = s.locks := rfl
theorem modChan_insts (c : Nat) (f : Chan → Chan) (s : State) : (modChan c f s).insts = s.insts := rfl
theorem modChan_units (c : Nat) (f : Chan → Chan) (s : State) : (modChan c f s).units = s.units := rfl
theorem modChan_acceptCount (c : Nat) (f : Chan → Chan) (s : State) : (modChan c f s).acceptCount = s.acceptCount := rfl
theorem modChan_hostMem (c : Nat) (f : Chan → Chan) (s : State) : (modChan c f s).hostMem = s.hostMem := rfl
theorem modChan_now (c : Nat) (f : Chan → Chan) (s : State) : (modChan c f s).now = s.now := rfl
theorem modChan_fresh (c : Nat) (f : Chan → Chan) (s : State) : (modChan c f s).fresh = s.fresh := rfl
theorem modChan_pending (c : Nat) (f : Chan → Chan) (s : State) : (modChan c f s).pending = s.pending := by cases s; rfl

theorem modLog_glb (k : Nat) (f : PLog → PLog) (s : State) : (modLog k f s).glb = s.glb := rfl
theorem modLog_clk (k : Nat) (f : PLog → PLog) (s : State) : (modLog k f s).clk = s.clk := rfl
theorem modLog_hif (k : Nat) (f : PLog → PLog) (s : State) : (modLog k f s).hif = s.hif := rfl
theorem modLog_otp (k : Nat) (f : PLog → PLog) (s : State) : (modLog k f s).otp = s.otp := by cases s; rfl
theorem modLog_dbg (k : Nat) (f : PLog → PLog) (s : State) : (modLog k f s).dbg = s.dbg := rfl
theorem modLog_pwr (k : Nat) (f : PLog → PLog) (s : State) : (modLog k f s).pwr = s.pwr := rfl
theorem modLog_bsh (k : Nat) (f : PLog → PLog) (s : State) : (modLog k f s).bsh = s.bsh := rfl
theorem modLog_sec (k : Nat) (f : PLog → PLog) (s : State) : (modLog k f s).sec = s.sec := rfl
theorem modLog_sch (k : Nat) (f : PLog → PLog) (s : State) : (modLog k f s).sch = s.sch := rfl
theorem modLog_dmz (k : Nat) (f : PLog → PLog) (s : State) : (modLog k f s).dmz = s.dmz := rfl
theorem modLog_idx (k : Nat) (f : PLog → PLog) (s : State) : (modLog k f s).idx = s.idx := rfl
theorem modLog_flc (k : Nat) (f : PLog → PLog) (s : State) : (modLog k f s).flc = s.flc := rfl
theorem modLog_mem (k : Nat) (f : PLog → PLog) (s : State) : (modLog k f s).mem = s.mem := rfl
theorem modLog_cch (k : Nat) (f : PLog → PLog) (s : State) : (modLog k f s).cch = s.cch := rfl
theorem modLog_drc (k : Nat) (f : PLog → PLog) (s : State) : (modLog k f s).drc = s.drc := rfl
theorem modLog_spn (k : Nat) (f : PLog → PLog) (s : State) : (modLog k f s).spn = s.spn := rfl
theorem modLog_tags (k : Nat) (f : PLog → PLog) (s : State) : (modLog k f s).tags = s.tags := rfl
theorem modLog_locks (k : Nat) (f : PLog → PLog) (s : State) : (modLog k f s).locks = s.locks := rfl
theorem modLog_insts (k : Nat) (f : PLog → PLog) (s : State) : (modLog k f s).insts = s.insts := rfl
theorem modLog_units (k : Nat) (f : PLog → PLog) (s : State) : (modLog k f s).units = s.units := rfl
theorem modLog_acceptCount (k : Nat) (f : PLog → PLog) (s : State) : (modLog k f s).acceptCount = s.acceptCount := rfl
theorem modLog_hostMem (k : Nat) (f : PLog → PLog) (s : State) : (modLog k f s).hostMem = s.hostMem := rfl
theorem modLog_now (k : Nat) (f : PLog → PLog) (s : State) : (modLog k f s).now = s.now := rfl
theorem modLog_fresh (k : Nat) (f : PLog → PLog) (s : State) : (modLog k f s).fresh = s.fresh := rfl
theorem modLog_pending (k : Nat) (f : PLog → PLog) (s : State) : (modLog k f s).pending = s.pending := by cases s; rfl

theorem modTag_tags (k : Nat) (f : Tag → Tag) (s : State) : (modTag k f s).tags = Tbl.modify s.tags k f := rfl

theorem modInst_insts (n : Nat) (f : Inst → Inst) (s : State) : (modInst n f s).insts = Tbl.modify s.insts n f := rfl

theorem releaseLock_locks (k : Nat) (s : State) :
    (releaseLock k s).locks = s.locks.filter (fun l => !(l.tag == k)) := rfl

theorem bumpFresh_fresh (s : State) : (bumpFresh s).fresh = s.fresh + 1 := rfl

theorem tick_now (s : State) : (tick s).now = s.now + 1 := rfl

end Sys2Proof.Machine
end

