-- ==== Sys2Proof/Laws/Memory.lean ====
section
/-! SUPPORT. Reading the sparse tables and byte memories after each operation, and the canonical form that every
operation keeps. -/

namespace Sys2Proof

/-! ### Tables -/

@[simp] theorem Tbl.get?_nil {α : Type} (k : Nat) : Tbl.get? ([] : Tbl α) k = none := rfl

theorem Tbl.get?_set {α : Type} (t : Tbl α) (k j : Nat) (v : α) :
    Tbl.get? (Tbl.set t k v) j = if j = k then some v else Tbl.get? t j := by
  induction t with
  | nil => simp [Tbl.set, Tbl.get?]
  | cons p t ih =>
    obtain ⟨k', v'⟩ := p
    simp only [Tbl.set]
    split
    · simp [Tbl.get?]
    · split
      · next h => subst h; by_cases hj : j = k <;> simp [Tbl.get?, hj]
      · next h1 h2 =>
        simp only [Tbl.get?, ih]
        by_cases hj : j = k'
        · simp [hj, Ne.symm h2]
        · simp [hj]

theorem Tbl.get?_erase {α : Type} (t : Tbl α) (k j : Nat) :
    Tbl.get? (Tbl.erase t k) j = if j = k then none else Tbl.get? t j := by
  induction t with
  | nil => simp [Tbl.erase]
  | cons p t ih =>
    obtain ⟨k', v'⟩ := p
    simp only [Tbl.erase] at ih ⊢
    by_cases hk : k' = k
    · subst hk
      simp only [List.filter_cons, BEq.rfl, Bool.not_true, Bool.false_eq_true, if_false, ih, Tbl.get?]
      by_cases hj : j = k' <;> simp [hj]
    · have hb : (!(k' == k)) = true := by simp [hk]
      simp only [List.filter_cons, hb, if_true, Tbl.get?, ih]
      by_cases hj : j = k'
      · simp [hj, hk]
      · simp [hj]

theorem Tbl.get?_modify {α : Type} (t : Tbl α) (k j : Nat) (f : α → α) :
    Tbl.get? (Tbl.modify t k f) j = if j = k then (Tbl.get? t k).map f else Tbl.get? t j := by
  induction t with
  | nil => simp [Tbl.modify]
  | cons p t ih =>
    obtain ⟨k', v'⟩ := p
    simp only [Tbl.modify, List.map_cons] at ih ⊢
    by_cases hk : k' = k
    · subst hk
      simp only [if_true, Tbl.get?, ih]
      by_cases hj : j = k' <;> simp [hj]
    · simp only [hk, if_false, Tbl.get?, ih]
      by_cases hj : j = k'
      · subst hj; simp [hk]
      · by_cases hj' : j = k
        · subst hj'; simp [hj]
        · simp [hj, hj']

theorem Tbl.get?_modify_self {α : Type} (t : Tbl α) (k : Nat) (f : α → α) :
    Tbl.get? (Tbl.modify t k f) k = (Tbl.get? t k).map f := by simp [Tbl.get?_modify]

theorem Tbl.get?_modify_ne {α : Type} (t : Tbl α) (k j : Nat) (f : α → α) (h : j ≠ k) :
    Tbl.get? (Tbl.modify t k f) j = Tbl.get? t j := by simp [Tbl.get?_modify, h]

/-! ### Keys strictly rising -/

/-- Every key of a table is above `k`. -/
theorem Tbl.sorted_cons {α : Type} (k : Nat) (v : α) (t : Tbl α) :
    Tbl.sorted ((k, v) :: t) = true ↔ (∀ p ∈ t.head?, k < p.1) ∧ Tbl.sorted t = true := by
  cases t with
  | nil => simp [Tbl.sorted]
  | cons p t => obtain ⟨k', v'⟩ := p; simp [Tbl.sorted]

theorem Tbl.sorted_above {α : Type} (k : Nat) (v : α) (t : Tbl α) (h : Tbl.sorted ((k, v) :: t) = true) :
    ∀ p ∈ t, k < p.1 := by
  induction t generalizing k v with
  | nil => simp
  | cons q t ih =>
    obtain ⟨k', v'⟩ := q
    rw [Tbl.sorted_cons] at h
    obtain ⟨h1, h2⟩ := h
    have hk : k < k' := h1 (k', v') (by simp)
    intro p hp
    rcases List.mem_cons.mp hp with rfl | hp
    · exact hk
    · exact Nat.lt_trans hk (ih k' v' h2 p hp)

theorem Tbl.sorted_tail {α : Type} (p : Nat × α) (t : Tbl α) (h : Tbl.sorted (p :: t) = true) :
    Tbl.sorted t = true := ((Tbl.sorted_cons p.1 p.2 t).mp h).2

theorem Tbl.sorted_of_above {α : Type} (k : Nat) (v : α) (t : Tbl α) (h : Tbl.sorted t = true)
    (ha : ∀ p ∈ t, k < p.1) : Tbl.sorted ((k, v) :: t) = true :=
  (Tbl.sorted_cons k v t).mpr ⟨fun p hp => ha p (List.mem_of_mem_head? hp), h⟩

theorem Tbl.mem_set {α : Type} (t : Tbl α) (k : Nat) (v : α) (p : Nat × α) (h : p ∈ Tbl.set t k v) :
    p = (k, v) ∨ p ∈ t := by
  induction t with
  | nil => simpa [Tbl.set] using h
  | cons q t ih =>
    obtain ⟨k', v'⟩ := q
    simp only [Tbl.set] at h
    split at h
    · simpa using h
    · split at h
      · rcases List.mem_cons.mp h with h | h
        · exact .inl h
        · exact .inr (List.mem_cons_of_mem _ h)
      · rcases List.mem_cons.mp h with h | h
        · exact .inr (by simp [h])
        · rcases ih h with h | h
          · exact .inl h
          · exact .inr (List.mem_cons_of_mem _ h)

theorem Tbl.sorted_set {α : Type} (t : Tbl α) (k : Nat) (v : α) (h : Tbl.sorted t = true) :
    Tbl.sorted (Tbl.set t k v) = true := by
  induction t with
  | nil => rfl
  | cons q t ih =>
    obtain ⟨k', v'⟩ := q
    have hab := Tbl.sorted_above k' v' t h
    have ht := Tbl.sorted_tail _ t h
    simp only [Tbl.set]
    split
    · next hlt =>
      refine Tbl.sorted_of_above k v _ h (fun p hp => ?_)
      rcases List.mem_cons.mp hp with rfl | hp
      · exact hlt
      · exact Nat.lt_trans hlt (hab p hp)
    · split
      · next heq => subst heq; exact Tbl.sorted_of_above k v t ht hab
      · next h1 h2 =>
        refine Tbl.sorted_of_above k' v' _ (ih ht) (fun p hp => ?_)
        rcases Tbl.mem_set t k v p hp with rfl | hp
        · simp only; omega
        · exact hab p hp

theorem Tbl.sorted_filter {α : Type} (t : Tbl α) (f : Nat × α → Bool) (h : Tbl.sorted t = true) :
    Tbl.sorted (t.filter f) = true := by
  induction t with
  | nil => rfl
  | cons q t ih =>
    obtain ⟨k, v⟩ := q
    have ht := Tbl.sorted_tail _ t h
    simp only [List.filter_cons]
    split
    · exact Tbl.sorted_of_above k v _ (ih ht)
        (fun p hp => Tbl.sorted_above k v t h p (List.mem_of_mem_filter hp))
    · exact ih ht

/-! ### Byte memories -/

theorem Cells.read_write (m : Cells) (a x : Nat) (b : Byte) :
    Cells.read (Cells.write m a b) x = if x = a then b else Cells.read m x := by
  unfold Cells.write
  split
  · next h => simp only [Cells.read, Tbl.get?_erase]; split <;> simp [h]
  · simp only [Cells.read, Tbl.get?_set]; split <;> simp

theorem Cells.read_write_ne (m : Cells) (a x : Nat) (b : Byte) (h : x ≠ a) :
    Cells.read (Cells.write m a b) x = Cells.read m x := by simp [Cells.read_write, h]

theorem Cells.read_writeN (m : Cells) (a x : Nat) (bs : List Byte) :
    Cells.read (Cells.writeN m a bs) x
      = if a ≤ x ∧ x < a + bs.length then bs.getD (x - a) 0 else Cells.read m x := by
  induction bs generalizing m a with
  | nil => simp [Cells.writeN]
  | cons b bs ih =>
    simp only [Cells.writeN, ih, Cells.read_write, List.length_cons]
    by_cases h1 : x = a
    · subst h1
      have : ¬(x + 1 ≤ x ∧ x < x + 1 + bs.length) := by omega
      simp
    · by_cases h2 : a ≤ x ∧ x < a + (bs.length + 1)
      · have h3 : a + 1 ≤ x ∧ x < a + 1 + bs.length := by omega
        have h4 : x - a = x - (a + 1) + 1 := by omega
        simp [h2, h3, h4]
      · have h3 : ¬(a + 1 ≤ x ∧ x < a + 1 + bs.length) := by omega
        simp only [h3, h2, h1, if_false]

/-- Every store keeps the canonical form. -/
theorem Cells.wf_write (m : Cells) (a : Nat) (b : Byte) (h : Cells.wf m = true) :
    Cells.wf (Cells.write m a b) = true := by
  simp only [Cells.wf, Bool.and_eq_true, List.all_eq_true] at h ⊢
  obtain ⟨hs, hz⟩ := h
  unfold Cells.write
  split
  · exact ⟨Tbl.sorted_filter m _ hs, fun p hp => hz p (List.mem_of_mem_filter hp)⟩
  · next hb =>
    refine ⟨Tbl.sorted_set m a b hs, fun p hp => ?_⟩
    rcases Tbl.mem_set m a b p hp with rfl | hp
    · simpa using hb
    · exact hz p hp

theorem Cells.wf_writeN (m : Cells) (a : Nat) (bs : List Byte) (h : Cells.wf m = true) :
    Cells.wf (Cells.writeN m a bs) = true := by
  induction bs generalizing m a with
  | nil => exact h
  | cons b bs ih => exact ih _ _ (Cells.wf_write m a b h)

theorem Cells.wf_filter (m : Cells) (f : Nat × Byte → Bool) (h : Cells.wf m = true) :
    Cells.wf (m.filter f) = true := by
  simp only [Cells.wf, Bool.and_eq_true, List.all_eq_true] at h ⊢
  exact ⟨Tbl.sorted_filter m f h.1, fun p hp => h.2 p (List.mem_of_mem_filter hp)⟩

theorem Cells.wf_clear (m : Cells) (base len : Nat) (h : Cells.wf m = true) :
    Cells.wf (Cells.clear m base len) = true := Cells.wf_filter m _ h

theorem Cells.wf_foldl_write {α : Type} (l : List α) (a : α → Nat) (b : α → Byte) (m : Cells)
    (h : Cells.wf m = true) : Cells.wf (l.foldl (fun m p => Cells.write m (a p) (b p)) m) = true := by
  induction l generalizing m with
  | nil => exact h
  | cons p l ih => exact ih _ (Cells.wf_write m _ _ h)

theorem Cells.wf_paste (m : Cells) (base len : Nat) (src : Cells) (h : Cells.wf m = true) :
    Cells.wf (Cells.paste m base len src) = true :=
  Cells.wf_foldl_write _ (fun p : Nat × Byte => base + p.1) (fun p => p.2) _ (Cells.wf_clear m base len h)

theorem Cells.wf_ofList (bs : List Byte) : Cells.wf (Cells.ofList bs) = true := Cells.wf_writeN [] 0 bs rfl

theorem Cells.wf_slice (m : Cells) (base len : Nat) (h : Cells.wf m = true) :
    Cells.wf (Cells.slice m base len) = true := by
  have hf := Cells.wf_filter m (fun p => decide (base ≤ p.1 ∧ p.1 < base + len)) h
  have hb : ∀ p ∈ m.filter (fun p => decide (base ≤ p.1 ∧ p.1 < base + len)), base ≤ p.1 := by
    intro p hp
    have := List.of_mem_filter hp
    simp only [decide_eq_true_eq] at this
    exact this.1
  unfold Cells.slice
  generalize m.filter (fun p => decide (base ≤ p.1 ∧ p.1 < base + len)) = l at hf hb
  induction l with
  | nil => rfl
  | cons p l ih =>
    obtain ⟨k, v⟩ := p
    simp only [Cells.wf, Bool.and_eq_true, List.all_eq_true] at hf ih ⊢
    obtain ⟨hs, hz⟩ := hf
    have hab := Tbl.sorted_above k v l hs
    have ih := ih ⟨Tbl.sorted_tail _ l hs, fun p hp => hz p (List.mem_cons_of_mem _ hp)⟩
      (fun p hp => hb p (List.mem_cons_of_mem _ hp))
    refine ⟨?_, ?_⟩
    · refine Tbl.sorted_of_above (k - base) v _ ih.1 (fun q hq => ?_)
      obtain ⟨r, hr, rfl⟩ := List.mem_map.mp hq
      have h1 := hab r hr
      have h2 := hb (k, v) (by simp)
      simp only at h2 ⊢
      omega
    · intro q hq
      rcases List.mem_cons.mp hq with rfl | hq
      · exact hz (k, v) (by simp)
      · exact ih.2 q hq

end Sys2Proof
end

