-- ==== Sys2Proof/Laws/Kept.lean ====
section
/-! SUPPORT. What the operations that reach the fuse array and host memory keep: no fuse bit is ever cleared, and both memories stay in
their canonical form. -/

set_option linter.all false

namespace Sys2Proof.Machine

/-! ### The fuse array -/

@[simp] theorem State.fuses_foldl {α : Type} (l : List α) (g : State → α → State) (s : State)
    (h : ∀ a y, Otp.fuses ((g a y).get .otp) = Otp.fuses (a.get .otp)) : Otp.fuses ((l.foldl g s).get .otp) = Otp.fuses (s.get .otp) := by
  induction l generalizing s with
  | nil => rfl
  | cons y ys ih => simp [ih, h]
theorem State.fuses_ite (c : Prop) [Decidable c] (a b : State) :
    Otp.fuses ((if c then a else b).get .otp) = if c then Otp.fuses (a.get .otp) else Otp.fuses (b.get .otp) := by split <;> rfl
@[simp] theorem State.fuses_with (s : State) (o : Otp) : Otp.fuses (State.get { s with otp := o } .otp) = o.fuses := rfl
@[simp] theorem powerReset_fuses (cause : Nat) (held : Bool) (straps : Nat) (smba : Nat) (s : State) :
    Otp.fuses ((powerReset cause held straps smba s).get .otp) = Otp.fuses (s.get .otp) := by
  rfl

@[simp] theorem internalReset_fuses (causeBit : Nat) (held : Bool) (s : State) :
    Otp.fuses ((internalReset causeBit held s).get .otp) = Otp.fuses (s.get .otp) := by
  rfl

@[simp] theorem restartDevice_fuses (s : State) :
    Otp.fuses ((restartDevice s).get .otp) = Otp.fuses (s.get .otp) := by
  rfl

@[simp] theorem settleDeviceReset_fuses (s : State) :
    Otp.fuses ((settleDeviceReset s).get .otp) = Otp.fuses (s.get .otp) := by
  unfold settleDeviceReset; repeat' (first | (with_reducible rfl) | (simp; done) | split | dsimp only | rfl)

@[simp] theorem afterCommit_fuses (k : Nat) (t : Tag) (s : State) :
    Otp.fuses ((afterCommit k t s).get .otp) = Otp.fuses (s.get .otp) := by
  unfold afterCommit; repeat' (first | (with_reducible rfl) | (simp; done) | split | dsimp only | rfl)

@[simp] theorem progResult_fuses (r : Nat) (s : State) :
    Otp.fuses ((progResult r s).get .otp) = Otp.fuses (s.get .otp) := by
  unfold progResult; repeat' (first | (with_reducible rfl) | (simp; done) | split | dsimp only | rfl)

@[simp] theorem writeOtp_fuses (off : Nat) (v : Nat) (s : State) :
    Otp.fuses ((writeOtp off v s).get .otp) = Otp.fuses (s.get .otp) := by
  unfold writeOtp; repeat' (first | (with_reducible rfl) | (simp; done) | split | dsimp only | rfl)

@[simp] theorem writeReg_fuses (off : Nat) (v : Nat) (s : State) :
    Otp.fuses ((writeReg off v s).get .otp) = Otp.fuses (s.get .otp) := by
  unfold writeReg; simp [-State.get_ite, State.fuses_ite]

@[simp] theorem writeBar0_fuses (fn : Nat) (off : Nat) (data : List Byte) (s : State) :
    Otp.fuses ((writeBar0 fn off data s).get .otp) = Otp.fuses (s.get .otp) := by
  unfold writeBar0; split
  · refine State.fuses_foldl _ _ _ fun a y => ?_
    simp [-State.get_ite, State.fuses_ite]
  · split <;> rfl

@[simp] theorem commitReply_fuses (k : Nat) (t : Tag) (s : State) :
    Otp.fuses ((commitReply k t s).get .otp) = Otp.fuses (s.get .otp) := by
  unfold commitReply; repeat' (first | (with_reducible rfl) | (simp; done) | split | dsimp only | rfl)

@[simp] theorem zeroiseKeys_fuses (s : State) :
    Otp.fuses ((zeroiseKeys s).get .otp) = Otp.fuses (s.get .otp) := by
  unfold zeroiseKeys; repeat' (first | (with_reducible rfl) | (simp; done) | split | dsimp only | rfl)

@[simp] theorem dbgStore_fuses (src : Nat) (target : Nat) (a : Nat) (v : Nat) (s : State) :
    Otp.fuses ((dbgStore src target a v s).get .otp) = Otp.fuses (s.get .otp) := by
  unfold dbgStore; repeat' (first | (with_reducible rfl) | (simp; done) | split | dsimp only | rfl)

@[simp] theorem takeFuses_fuses (o : StartOutcome) (s : State) :
    Otp.fuses ((takeFuses o s).get .otp) = Otp.fuses (s.get .otp) := by
  unfold takeFuses; dsimp only
  generalize hq : (if o.entropyOk = true then _ else _ : State) = q
  have hf : Otp.fuses (q.get .otp) = Otp.fuses (s.get .otp) := by
    rw [← hq]; split <;> simp <;> rfl
  split
  · exact hf
  · simpa using hf

@[simp] theorem endFuses_fuses (o : StartOutcome) (s : State) :
    Otp.fuses ((endFuses o s).get .otp) = Otp.fuses (s.get .otp) := by
  unfold endFuses; repeat' (first | (with_reducible rfl) | (simp; done) | split | dsimp only | rfl)

@[simp] theorem phaseEnds_fuses (o : StartOutcome) (s : State) :
    Otp.fuses ((phaseEnds o s).get .otp) = Otp.fuses (s.get .otp) := by
  unfold phaseEnds; repeat' (first | (with_reducible rfl) | (simp; done) | split | dsimp only | rfl)

/-- `n` is `m` with more bits set: every bit set in `m` is set in `n`, and the canonical form is kept. -/
def Cells.Raised (m n : Cells) : Prop :=
  (∀ a i, (Cells.read m a).getLsbD i = true → (Cells.read n a).getLsbD i = true) ∧ (Cells.wf m = true → Cells.wf n = true)

theorem Cells.Raised.refl (m : Cells) : Cells.Raised m m := ⟨fun _ _ h => h, fun h => h⟩
theorem Cells.Raised.trans {m n p : Cells} (h : Cells.Raised m n) (h' : Cells.Raised n p) : Cells.Raised m p :=
  ⟨fun a i hm => h'.1 a i (h.1 a i hm), fun hm => h'.2 (h.2 hm)⟩

theorem setFuse_raised (addr i : Nat) (o : Otp) : Cells.Raised o.fuses (setFuse addr i o).fuses := by
  refine ⟨fun a j h => ?_, fun h => Cells.wf_write _ _ _ h⟩
  unfold setFuse
  simp only [Cells.read_write]
  split
  · rename_i e; subst e; simp [h]
  · exact h

theorem setFuses_raised (l : List (Nat × Nat)) (o : Otp) :
    Cells.Raised o.fuses (l.foldl (fun o x => setFuse x.1 x.2 o) o).fuses := by
  induction l generalizing o with
  | nil => exact Cells.Raised.refl _
  | cons x l ih => exact (setFuse_raised x.1 x.2 o).trans (ih _)

theorem program_raised (addr : Nat) (bs : List Byte) (misses : List (Nat × Nat)) (s : State) :
    Cells.Raised s.otp.fuses (program addr bs misses s).2.otp.fuses := setFuses_raised _ _

theorem commit_raised (made : List Nat) (s : State) : Cells.Raised s.otp.fuses (commit made s).otp.fuses := by
  unfold commit; dsimp only
  generalize (List.take _ _) = l
  generalize s.otp = o
  induction l generalizing o with
  | nil => exact Cells.Raised.refl _
  | cons x l ih => exact (setFuse_raised _ _ o).trans (ih _)

theorem transition_raised (goal : Nat) (misses : List (Nat × Nat)) (s : State) :
    Cells.Raised s.otp.fuses (transition goal misses s).2.otp.fuses := by
  have hz : (zeroiseKeys s).otp.fuses = s.otp.fuses := zeroiseKeys_fuses s
  unfold transition; dsimp only
  split
  · exact hz ▸ (program_raised _ _ _ _).trans (program_raised _ _ _ _)
  · exact hz ▸ program_raised _ _ _ _

theorem otpGo_raised (misses : List (Nat × Nat)) (s : State) : Cells.Raised s.otp.fuses (otpGo misses s).otp.fuses := by
  have hl : (logHealth 0x000E 0xFF 0xFFFF 0 0 0 [] s).otp.fuses = s.otp.fuses :=
    congrArg Otp.fuses (show (logHealth 0x000E 0xFF 0xFFFF 0 0 0 [] s).get .otp = s.get .otp by simp)
  have hd : (drbgUsed s).otp.fuses = s.otp.fuses := congrArg Otp.fuses (show (drbgUsed s).get .otp = s.get .otp by simp)
  have hp : ∀ r u, (progResult r u).otp.fuses = u.otp.fuses := fun _ _ => rfl
  have h1 : ∀ r, Cells.Raised s.otp.fuses (progResult r s).otp.fuses := fun r => hp r s ▸ Cells.Raised.refl _
  unfold otpGo; dsimp only
  generalize targetWords _ = tw
  generalize progPlan s _ = plan
  generalize hu : drbgUsed s = u at hd
  split; · exact h1 2
  split; · exact h1 3
  split; · exact h1 4
  split
  · split
    · rw [hp, hl]; exact Cells.Raised.refl _
    · rw [hp]; exact transition_raised _ _ _
  · split; · exact h1 6
    rw [hp]
    split
    · exact hd ▸ program_raised _ _ _ u
    · exact program_raised _ _ _ s


/-! ### Host memory -/

theorem State.hostWf_foldl {α : Type} (l : List α) (g : State → α → State) (s : State) (hs : Cells.wf (s.get .hostMem) = true)
    (h : ∀ a y, Cells.wf (a.get .hostMem) = true → Cells.wf ((g a y).get .hostMem) = true) :
    Cells.wf ((l.foldl g s).get .hostMem) = true := by
  induction l generalizing s with
  | nil => exact hs
  | cons y ys ih => exact ih _ (h s y hs)
@[simp] theorem hostStore_hostWf (pasid : Nat) (a : Nat) (bs : List Byte) (s : State) (h : Cells.wf (s.get .hostMem) = true) :
    Cells.wf ((hostStore pasid a bs s).get .hostMem) = true := by
  unfold hostStore
  exact Cells.wf_foldl_write _ _ _ _ h

@[simp] theorem hostWrite_hostWf (n : Nat) (a : Nat) (bs : List Byte) (s : State) (h : Cells.wf (s.get .hostMem) = true) :
    Cells.wf ((hostWrite n a bs s).get .hostMem) = true := by
  unfold hostWrite; repeat' (first | assumption | (simp [h]; done) | split | dsimp only)

@[simp] theorem runsWrite_hostWf (n : Nat) (a1 : List (Nat × Nat)) (a2 : List Byte) (a3 : State) (h : Cells.wf (a3.get .hostMem) = true) :
    Cells.wf ((runsWrite n a1 a2 a3).get .hostMem) = true := by
  induction a1 generalizing a2 a3 with
  | nil => exact h
  | cons r rs ih => unfold runsWrite; exact ih _ _ (hostWrite_hostWf _ _ _ _ h)

@[simp] theorem deliver_hostWf (n : Nat) (p : List Byte) (off : Nat) (bs : List Byte) (s : State) (h : Cells.wf (s.get .hostMem) = true) :
    Cells.wf ((deliver n p off bs s).get .hostMem) = true := by
  unfold deliver; repeat' (first | assumption | (simp [h]; done) | split | dsimp only)

@[simp] theorem saveDone_hostWf (n : Nat) (p : List Byte) (k : Nat) (s : State) (h : Cells.wf (s.get .hostMem) = true) :
    Cells.wf ((saveDone n p k s).get .hostMem) = true := by
  unfold saveDone; repeat' (first | assumption | (simp [h]; done) | split | dsimp only)

@[simp] theorem deliverBlocks_hostWf (n : Nat) (p : List Byte) (u : Vol) (lba : Nat) (len : Nat) (bad : List Nat) (s : State) (h : Cells.wf (s.get .hostMem) = true) :
    Cells.wf ((deliverBlocks n p u lba len bad s).get .hostMem) = true := by
  unfold deliverBlocks; repeat' (first | assumption | (simp [h]; done) | split | dsimp only)

@[simp] theorem endScan_hostWf (n : Nat) (p : List Byte) (k : Nat) (c : ScanSet) (i : ScanIn) (sess : Option (Nat × Seal)) (s : State) (h : Cells.wf (s.get .hostMem) = true) :
    Cells.wf ((endScan n p k c i sess s).get .hostMem) = true := by
  unfold endScan; repeat' (first | assumption | (simp [h]; done) | split | dsimp only)

@[simp] theorem scanDone.packageScan_hostWf (rd : Reader) (n : Nat) (p : List Byte) (k : Nat) (c : ScanSet) (o : Opened) (sess : Option (Nat × Seal)) (slot : Nat) (first : Nat) (count : Nat) (crcFail : List Nat) (again : List Nat) (s : State) (h : Cells.wf (s.get .hostMem) = true) :
    Cells.wf ((scanDone.packageScan rd n p k c o sess slot first count crcFail again s).get .hostMem) = true := by
  unfold scanDone.packageScan; split
  refine endScan_hostWf _ _ _ _ _ _ _ ?_
  rw [countHostRead_get _ _ _ (by decide), logRereads_get _ _ _ _ _ _ _ _ (by decide)]; exact h

@[simp] theorem scanDone_hostWf (rd : Reader) (n : Nat) (crcFail : List Nat) (again : List Nat) (p : List Byte) (k : Nat) (s : State) (h : Cells.wf (s.get .hostMem) = true) :
    Cells.wf ((scanDone rd n crcFail again p k s).get .hostMem) = true := by
  unfold scanDone; dsimp only
  split
  · rw [badField_get _ _ _ _ (by decide)]; exact h
  split
  · rw [badField_get _ _ _ _ (by decide)]; exact h
  split
  · split
    · rw [badField_get _ _ _ _ (by decide)]; exact h
    split
    · rw [badField_get _ _ _ _ (by decide)]; exact h
    refine endScan_hostWf _ _ _ _ _ _ _ ?_
    rw [countHostRead_get _ _ _ (by decide)]; exact h
  · split
    · rw [endAsset_get _ _ _ _ (by decide)]; exact h
    split
    · rw [badField_get _ _ _ _ (by decide), keepPackage_get _ _ _ _ _ _ _ _ (by decide)]; exact h
    · exact scanDone.packageScan_hostWf _ _ _ _ _ _ _ _ _ _ _ _ _ (by rw [keepPackage_get _ _ _ _ _ _ _ _ (by decide)]; exact h)

@[simp] theorem deliverChunks_hostWf (rd : Reader) (n : Nat) (p : List Byte) (k : Nat) (slot : Nat) (first : Nat) (count : Nat) (o : Opened) (sess : Option (Nat × Seal)) (crcFail : List Nat) (again : List Nat) (s : State) (h : Cells.wf (s.get .hostMem) = true) :
    Cells.wf ((deliverChunks rd n p k slot first count o sess crcFail again s).get .hostMem) = true := by
  unfold deliverChunks
  extract_lets f tb skip r full us out done s1 q s2 s3 s4 rest s5
  have h1 : Cells.wf (s1.get .hostMem) = true := by simp [s1, h]
  clear_value s1
  have h2 : Cells.wf (s2.get .hostMem) = true := by simp only [s2]; split <;> exact h1
  clear_value s2
  have h3 : Cells.wf (s3.get .hostMem) = true := by simp [s3, h2]
  clear_value s3
  have h4 : Cells.wf (s4.get .hostMem) = true := by simp only [s4]; split <;> simp [h3]
  clear_value s4
  have h5 : Cells.wf (s5.get .hostMem) = true := by
    have := deliver_hostWf n p 0 (out ++ rest) s4 h4
    simp [s5, this]
  clear_value s5
  generalize hu : (if r.status = stOk then s5 else countUnit r.status s5) = u
  have hw : Cells.wf (u.get .hostMem) = true := by rw [← hu]; split <;> simp [h5]
  simp [hw]

@[simp] theorem assetDone_hostWf (rd : Reader) (n : Nat) (crcFail : List Nat) (again : List Nat) (p : List Byte) (k : Nat) (s : State) (h : Cells.wf (s.get .hostMem) = true) :
    Cells.wf ((assetDone rd n crcFail again p k s).get .hostMem) = true := by
  have hk : ∀ a b c d e f, Cells.wf ((keepPackage a b c d e f s).get .hostMem) = true := fun a b c d e f => by
    rw [keepPackage_get _ _ _ _ _ _ _ _ (by decide)]; exact h
  unfold assetDone
  extract_lets slot first count prog lost
  generalize lost = lost
  generalize prog = prog
  generalize packageChecks s rd n k slot first count _ _ p _ = chk
  split
  · rw [endAsset_get _ _ _ _ (by decide)]; exact h
  · split
    · exact scanDone.packageScan_hostWf _ _ _ _ _ _ _ _ _ _ _ _ _ (hk _ _ _ _ _ _)
    · split
      · rw [finishWith_get _ _ _ _ _ _ (by decide)]; exact hk _ _ _ _ _ _
      · exact deliverChunks_hostWf _ _ _ _ _ _ _ _ _ _ _ _ (hk _ _ _ _ _ _)

@[simp] theorem ringWrite_hostWf (n : Nat) (bytes : Ring → List Byte) (s : State) (h : Cells.wf (s.get .hostMem) = true) :
    Cells.wf ((ringWrite n bytes s).get .hostMem) = true := by
  unfold ringWrite; repeat' (first | assumption | (simp [h]; done) | split | dsimp only)

@[simp] theorem writeReply_hostWf (k : Nat) (t : Tag) (s : State) (h : Cells.wf (s.get .hostMem) = true) :
    Cells.wf ((writeReply k t s).get .hostMem) = true := by
  unfold writeReply; repeat' (first | assumption | (simp [h]; done) | split | dsimp only)

@[simp] theorem attest_hostWf (n : Nat) (p : List Byte) (k : Nat) (s : State) (h : Cells.wf (s.get .hostMem) = true) :
    Cells.wf ((attest n p k s).get .hostMem) = true := by
  have hb : ∀ o, Cells.wf ((badField k o s).get .hostMem) = true := fun o => by simp [h]
  have hf : ∀ a b c u, Cells.wf (State.get u .hostMem) = true → Cells.wf ((finishWith k a b c u).get .hostMem) = true :=
    fun a b c u hu => by simp [hu]
  unfold attest
  extract_lets sel r
  clear_value r
  split; · exact hf _ _ _ _ h
  split; · exact hb _
  split; · exact hb _
  exact hf _ _ _ _ (deliver_hostWf n p 0 r s h)

@[simp] theorem writeEvent_hostWf (n : Nat) (e : Event) (s : State) (h : Cells.wf (s.get .hostMem) = true) :
    Cells.wf ((writeEvent n e s).get .hostMem) = true := by
  unfold writeEvent; repeat' (first | assumption | (simp [h]; done) | split | dsimp only)

@[simp] theorem codecOutput_hostWf (n : Nat) (addr : Nat) (outLen : Nat) (out : List Byte) (rest : Bool) (s : State) (h : Cells.wf (s.get .hostMem) = true) :
    Cells.wf ((codecOutput n addr outLen out rest s).get .hostMem) = true := by
  unfold codecOutput; repeat' (first | assumption | (simp [h]; done) | split | dsimp only)

@[simp] theorem readErrorEnds_hostWf (n : Nat) (what : Fin 4) (units : Nat) (p : List Byte) (k : Nat) (s : State) (h : Cells.wf (s.get .hostMem) = true) :
    Cells.wf ((readErrorEnds n what units p k s).get .hostMem) = true := by
  unfold readErrorEnds; repeat' (first | assumption | (simp [h]; done) | split | dsimp only)

@[simp] theorem appendLog_hostWf (k : Nat) (y : Nat) (f : PLog → PLog) (s : State) (h : Cells.wf (s.get .hostMem) = true) :
    Cells.wf ((appendLog k y f s).get .hostMem) = true := by
  unfold appendLog; repeat' (first | assumption | (simp [h]; done) | split | dsimp only)

@[simp] theorem respDone_hostWf (n : Nat) (k : Nat) (y : Xact) (crcFail : List Nat) (again : List Nat) (t : Tag) (data : List Byte) (r : Reply) (s : State) (h : Cells.wf (s.get .hostMem) = true) :
    Cells.wf ((respDone n k y crcFail again t data r s).get .hostMem) = true := by
  unfold respDone; repeat' (first | assumption | (simp [h]; done) | split | dsimp only)

@[simp] theorem commitReply_hostWf (k : Nat) (t : Tag) (s : State) (h : Cells.wf (s.get .hostMem) = true) :
    Cells.wf ((commitReply k t s).get .hostMem) = true := by
  unfold commitReply; repeat' (first | assumption | (simp [h]; done) | split | dsimp only)

@[simp] theorem readDone_hostWf (n : Nat) (lost : List Nat) (crcFail : List Nat) (p : List Byte) (k : Nat) (s : State) (h : Cells.wf (s.get .hostMem) = true) :
    Cells.wf ((readDone n lost crcFail p k s).get .hostMem) = true := by
  unfold readDone; repeat' (first | assumption | (simp [h]; done) | split | dsimp only)

@[simp] theorem codecRun_hostWf (n : Nat) (ends : Bool) (y : Ctx) (p : List Byte) (k : Nat) (s : State) (h : Cells.wf (s.get .hostMem) = true) :
    Cells.wf ((codecRun n ends y p k s).get .hostMem) = true := by
  unfold codecRun
  extract_lets c addr outLen len dict r bound st out x1 consumed s1 x2
  have ho : ∀ out rest, Cells.wf ((codecOutput n addr outLen out rest s).get .hostMem) = true :=
    fun out rest => codecOutput_hostWf n addr outLen out rest s h
  have hf : ∀ a b r0 r1 u, Cells.wf (State.get u .hostMem) = true → Cells.wf ((codecFails a c k b r0 r1 u).get .hostMem) = true :=
    fun a b r0 r1 u hu => by simp [hu]
  have hg : ∀ a r0 r1 u, Cells.wf (State.get u .hostMem) = true → Cells.wf ((finishWith k a r0 r1 u).get .hostMem) = true :=
    fun a r0 r1 u hu => by simp [hu]
  have hp : ∀ x' u, Cells.wf (State.get u .hostMem) = true → Cells.wf ((putCtx n c x' u).get .hostMem) = true :=
    fun x' u hu => by simp [hu]
  have hc : ∀ a u, Cells.wf (State.get u .hostMem) = true → Cells.wf ((codecCount a u).get .hostMem) = true :=
    fun a u hu => by simp [hu]
  have h1 : Cells.wf (s1.get .hostMem) = true := ho _ _
  clear_value x2 s1 x1 st
  clear_value out r dict
  split; · exact hf _ _ _ _ _ (ho _ _)
  split; · exact hf _ _ _ _ _ (ho _ _)
  split
  · split
    · exact hg _ _ _ _ (ho _ _)
    · exact hg _ _ _ _ (hc _ _ (ho _ _))
  · split
    · exact hg _ _ _ _ (hp _ _ (ho _ _))
    · split
      · split
        · exact hg _ _ _ _ (hp _ _ h1)
        · exact hf _ _ _ _ _ h1
      · exact hf _ _ _ _ _ (ho _ _)

@[simp] theorem codecDone_hostWf (n : Nat) (p : List Byte) (k : Nat) (s : State) (h : Cells.wf (s.get .hostMem) = true) :
    Cells.wf ((codecDone n p k s).get .hostMem) = true := by
  unfold codecDone; repeat' (first | assumption | (simp [h]; done) | split | dsimp only)

@[simp] theorem resumeDone_hostWf (n : Nat) (p : List Byte) (k : Nat) (s : State) (h : Cells.wf (s.get .hostMem) = true) :
    Cells.wf ((resumeDone n p k s).get .hostMem) = true := by
  unfold resumeDone; repeat' (first | assumption | (simp [h]; done) | split | dsimp only)

@[simp] theorem openSeal_hostWf (n : Nat) (k : Nat) (no : Nat) (out : Nat) (b : List Byte) (s : State) (h : Cells.wf (s.get .hostMem) = true) :
    Cells.wf ((openSeal n k no out b s).get .hostMem) = true := by
  unfold openSeal
  extract_lets gen handle d eph z okm bs x' r q s1
  have h1 : Cells.wf (s1.get .hostMem) = true := by simp [s1, h]
  clear_value s1
  simp [hostWrite_hostWf n out r s1 h1]

@[simp] theorem sealOpen_hostWf (n : Nat) (p : List Byte) (k : Nat) (s : State) (h : Cells.wf (s.get .hostMem) = true) :
    Cells.wf ((sealOpen n p k s).get .hostMem) = true := by
  have hb : ∀ o, Cells.wf ((badField k o s).get .hostMem) = true := fun o => by rw [badField_get _ _ _ _ (by decide)]; exact h
  have hf : ∀ a b c, Cells.wf ((finishWith k a b c s).get .hostMem) = true := fun a b c => by
    rw [finishWith_get _ _ _ _ _ _ (by decide)]; exact h
  unfold sealOpen; dsimp only
  split; · exact hb 32
  split; · exact hb 44
  split; · exact hb 24
  split; · exact hf _ _ _
  split; · exact hf _ _ _
  split; · rw [authFailed_get _ _ _ (by decide)]; exact h
  split; · exact hf _ _ _
  exact openSeal_hostWf _ _ _ _ _ _ h

@[simp] theorem logRead_hostWf (n : Nat) (p : List Byte) (k : Nat) (s : State) (h : Cells.wf (s.get .hostMem) = true) :
    Cells.wf ((logRead n p k s).get .hostMem) = true := by
  unfold logRead; repeat' (first | assumption | (simp [h]; done) | split | dsimp only)

end Sys2Proof.Machine
end

