-- ==== Sys2Proof/Laws/Shared.lean ====
section
/-! SUPPORT. What the shared operations do, said once each: tables, windows, replies and tags, host memory, instances and their resets,
codec contexts, volumes, Exlet ports, workers of Damzu. -/

set_option linter.all false

namespace Sys2Proof.Machine

theorem nativeAt_slice {s : State} {fn n : Nat} {i : Inst} (h : nativeAt s fn n = some i) : i.slice = false := by
  unfold nativeAt at h; split at h
  · split at h
    · rename_i hc; simp only [Option.some.injEq] at h; subst h; simp at hc; exact hc.1.2
    · simp at h
  · simp at h
theorem sliceAt_slice {s : State} {fn w n : Nat} {i : Inst} (h : sliceAt s fn w = some (n, i)) : i.slice = true := by
  unfold sliceAt at h; split at h
  · have := List.find?_some h; simp at this; exact this.1.1
  · simp at h
theorem Tbl.modify_modify {α : Type} (t : Tbl α) (k : Nat) (f g : α → α) : Tbl.modify (Tbl.modify t k f) k g = Tbl.modify t k (fun x => g (f x)) := by
  simp only [Tbl.modify, List.map_map]; congr 1; funext p; by_cases h : p.1 = k <;> simp [h]
theorem bit_toNat {w : Nat} (v : BitVec w) (i : Nat) : bit v.toNat i = v.getLsbD i := by
  rw [bit, BitVec.getLsbD, Nat.testBit_eq_decide_div_mod_eq]
  by_cases h : v.toNat / 2 ^ i % 2 = 1 <;> simp [h]
theorem windowAt_slice {s : State} {fn w n : Nat} {b : Bool} {i : Inst} (h : windowAt s fn b w = some (n, i)) : i.slice = b := by
  unfold windowAt at h; split at h
  · rename_i hb; rw [sliceAt_slice h, hb]
  · rename_i hb; split at h
    · rename_i hn; simp only [Option.some.injEq, Prod.mk.injEq] at h; obtain ⟨_, rfl⟩ := h; rw [nativeAt_slice hn]; simp at hb; exact hb.symm
    · simp at h
@[simp] theorem signalInst_insts (n k : Nat) (s : State) : (signalInst n k s).insts = s.insts := signalInst_get n k s .insts (by decide)
theorem mailboxEvent_insts (n dir m len word : Nat) (s : State) : (mailboxEvent n dir m len word s).insts = Tbl.modify s.insts n (queueEvent ⟨0x0040, stOk, 2 ^ 16 * dir + 2 ^ 24 * m + len % 512 * 2 ^ 32, word⟩) := by
  unfold mailboxEvent; extract_lets e on t
  have : t.insts = Tbl.modify s.insts n (queueEvent e) := rfl
  clear_value t on
  split <;> simp [this, e]
theorem finish_tags (k : Nat) (r : Reply) (s : State) : (finish k r s).tags = Tbl.modify s.tags k (fun t =>
    { t with st := .done, groups := [], reply := if t.st == .stopping then caughtReply (pkOpcode t.packet) r else r }) := rfl
theorem modTag_get? (k j : Nat) (f : Tag → Tag) (s : State) : Tbl.get? (modTag k f s).tags j = if j = k then (Tbl.get? s.tags k).map f else Tbl.get? s.tags j := Tbl.get?_modify _ _ _ _
theorem finish_get? (k j : Nat) (r : Reply) (s : State) : Tbl.get? (finish k r s).tags j = if j = k then (Tbl.get? s.tags k).map (fun t =>
    { t with st := .done, groups := [], reply := if t.st == .stopping then caughtReply (pkOpcode t.packet) r else r }) else Tbl.get? s.tags j := by
  rw [finish_tags, Tbl.get?_modify]
theorem finishWith_get? (k j a b c : Nat) (s : State) : Tbl.get? (finishWith k a b c s).tags j = if j = k then (Tbl.get? s.tags k).map (fun t =>
    { t with st := .done, groups := [], reply := if t.st == .stopping then caughtReply (pkOpcode t.packet) { status := a, r0 := b, r1 := c } else { status := a, r0 := b, r1 := c } }) else Tbl.get? s.tags j := finish_get? _ _ _ _
theorem finish_ended (k : Nat) (r : Reply) (s : State) (g : Tag) (h : Tbl.get? s.tags k = some g) (hs : g.st ≠ .stopping) : Ended (finish k r s) k r.status r.r0 r.r1 := by
  exact ⟨_, by rw [finish_get?]; simp [h]; rfl, rfl, by simp [hs]⟩
theorem finish_others (k : Nat) (r : Reply) (s : State) : OtherTags k s (finish k r s) := fun j hj => by rw [finish_get?]; simp [hj]
theorem tags_of_get {f : State} {s : State} (h : f.get .tags = s.get .tags) : f.tags = s.tags := h
@[simp] theorem requestLock_tags (k : Nat) (ls : List Lock) (s : State) : (requestLock k ls s).tags = s.tags := requestLock_get k ls s .tags (by decide)
theorem store_read_ne (key : Nat → Nat) (bs : List Byte) (k x : Nat) (m : Cells) (h : ∀ j, j < bs.length → x ≠ key (k + j)) :
    Cells.read ((bs.zipIdx k).foldl (fun m p => Cells.write m (key p.2) p.1) m) x = Cells.read m x := by
  induction bs generalizing k m with
  | nil => rfl
  | cons b bs ih =>
    simp only [List.zipIdx_cons, List.foldl_cons]
    rw [ih (k + 1) _ (fun j hj => by have := h (j + 1) (by simp; omega); rwa [show k + (j + 1) = k + 1 + j by omega] at this)]
    exact Cells.read_write_ne _ _ _ _ (by simpa using h 0 (by simp))
theorem store_read_at (key : Nat → Nat) (bs : List Byte) (k j : Nat) (m : Cells) (hj : j < bs.length)
    (inj : ∀ i i', i < bs.length → i' < bs.length → key (k + i) = key (k + i') → i = i') :
    Cells.read ((bs.zipIdx k).foldl (fun m p => Cells.write m (key p.2) p.1) m) (key (k + j)) = bs.getD j 0 := by
  induction bs generalizing k j m with
  | nil => simp at hj
  | cons b bs ih =>
    simp only [List.zipIdx_cons, List.foldl_cons]
    cases j with
    | zero =>
      rw [store_read_ne]
      · simp [Cells.read_write]
      · intro i hi heq
        have := inj 0 (i + 1) (by simp) (by simp; omega) (by rw [heq]; congr 1; omega)
        omega
    | succ j =>
      have := ih (k + 1) j (Cells.write m (key k) b) (by simpa using hj) (fun i i' hi hi' he => by
        have := inj (i + 1) (i' + 1) (by simp; omega) (by simp; omega) (by rw [show k + (i + 1) = k + 1 + i by omega, show k + (i' + 1) = k + 1 + i' by omega]; exact he)
        omega)
      rw [show k + (j + 1) = k + 1 + j by omega]
      simpa using this
theorem hostKey_inj (p a i i' : Nat) (hi : i < 2 ^ 64) (hi' : i' < 2 ^ 64) (h : hostKey p (a + i) = hostKey p (a + i')) : i = i' := by
  unfold hostKey at h; omega
theorem hostStore_ne (p a : Nat) (bs : List Byte) (s : State) (x : Nat) (h : ∀ j, j < bs.length → x ≠ hostKey p (a + j)) :
    Cells.read (hostStore p a bs s).hostMem x = Cells.read s.hostMem x :=
  store_read_ne (fun i => hostKey p (a + i)) bs 0 x s.hostMem (by simpa using h)
theorem hostStore_at (p a : Nat) (bs : List Byte) (s : State) (j : Nat) (hj : j < bs.length) (hl : bs.length ≤ 2 ^ 64) :
    Cells.read (hostStore p a bs s).hostMem (hostKey p (a + j)) = bs.getD j 0 := by
  have := store_read_at (fun i => hostKey p (a + i)) bs 0 j s.hostMem hj (fun i i' h1 h2 he => by
    simp only [Nat.zero_add] at he; exact hostKey_inj p a i i' (by omega) (by omega) he)
  simp only [Nat.zero_add] at this; exact this
theorem leBytes_length (n x : Nat) : (leBytes n x).length = n := by induction n generalizing x <;> simp [leBytes, *]
theorem replyBytes_length (a b c d : Nat) (e : Bool) (f g h i j : Nat) : (replyBytes a b c d e f g h i j).length = 32 := by
  simp [replyBytes, leBytes_length]
theorem ringWrite_hostMem (n : Nat) (f : Ring → List Byte) (s : State) (i : Inst) (h : Tbl.get? s.insts n = some i) :
    (ringWrite n f s).hostMem = (hostStore i.pasid (i.ring.base + i.ring.tail * 32) (f i.ring) s).hostMem := by
  unfold ringWrite; rw [h]; simp only
  show State.get _ .hostMem = _
  rw [noteEntry_get _ _ _ (by decide)]
  show State.get (modRing _ _ _) .hostMem = _
  rw [modRing_get _ _ _ _ (by decide)]
  unfold hostWrite pasidOf; rw [h]; rfl
theorem takeSeq_seq (s : State) : (takeSeq s).glb.seq = (s.glb.seq + 1) % 2 ^ 48 := by
  unfold takeSeq; simp only; split <;> rfl
theorem takeSeq_insts (s : State) : (takeSeq s).insts = s.insts := takeSeq_get s .insts (by decide)
theorem takeSeq_hostMem (s : State) : (takeSeq s).hostMem = s.hostMem := takeSeq_get s .hostMem (by decide)
theorem endUse_absent (k : Nat) (s : State) (u : Use) (h : Tbl.get? s.tags k = none) : Tbl.get? (endUse s u).tags k = none := by
  have ff : ∀ (j a b c : Nat) (u : State), u.tags = s.tags → Tbl.get? (finishWith j a b c u).tags k = none := by
    intro j a b c u hu; rw [finishWith_get?, hu]; split
    · next hk => subst hk; rw [h]; rfl
    · exact h
  cases u with
  | licence x =>
    simp only [endUse, settleLicence]; split
    · split
      · split
        · exact ff _ _ _ _ _ (freeLicence_get _ _ .tags (by decide))
        · rw [show (freeLicence x s).tags = s.tags from freeLicence_get _ _ .tags (by decide)]; exact h
      · exact h
    · exact h
  | session x =>
    simp only [endUse, settleSeal]; split
    · split
      · split
        · exact ff _ _ _ _ _ (freeSeal_get _ _ .tags (by decide))
        · rw [show (freeSeal x s).tags = s.tags from freeSeal_get _ _ .tags (by decide)]; exact h
      · exact h
    · exact h
  | program x =>
    simp only [endUse, settleProgram]; split
    · split
      · split
        · exact ff _ _ _ _ _ (freeProgram_get _ _ .tags (by decide))
        · rw [show (freeProgram x s).tags = s.tags from freeProgram_get _ _ .tags (by decide)]; exact h
      · exact h
    · exact h
  | table x => simp only [endUse]; rw [show (settleTable s).tags = s.tags from settleTable_get _ .tags (by decide)]; exact h
  | context x => exact h
theorem endUses_absent (k : Nat) (us : List Use) (s : State) (h : Tbl.get? s.tags k = none) : Tbl.get? (us.foldl endUse s).tags k = none := by
  induction us generalizing s with
  | nil => exact h
  | cons u us ih => exact ih _ (endUse_absent k s u h)
theorem afterCommit_absent (k : Nat) (t : Tag) (s : State) (h : Tbl.get? s.tags k = none) (hr : s.glb.resetTag = none) :
    Tbl.get? (afterCommit k t s).tags k = none := by
  unfold afterCommit; extract_lets s1 s2 s3
  have h2 : Tbl.get? s2.tags k = none := by
    have : s2.tags = s.tags := by show s2.get .tags = s.get .tags; simp [s2, s1]
    rw [this]; exact h
  have h3 : Tbl.get? s3.tags k = none := endUses_absent k _ _ h2
  have hg : s3.glb = s.glb := by show s3.get .glb = s.get .glb; simp [s3, s2, s1]
  clear_value s3
  have h4 : (settleInstances (settleDrain (keyInst k) (endReset t s3))).tags = s3.tags := by
    show State.get _ .tags = State.get s3 .tags; simp
  have h5 : (settleInstances (settleDrain (keyInst k) (endReset t s3))).glb = s3.glb := by
    show State.get _ .glb = State.get s3 .glb; simp
  unfold settleDeviceReset; rw [h5, hg, hr]; simp [h4, h3]
theorem Tbl.get?_mapVals {α : Type} (t : Tbl α) (f : Nat → α → α) (k : Nat) : Tbl.get? (Tbl.mapVals t f) k = (Tbl.get? t k).map (f k) := by
  induction t with
  | nil => rfl
  | cons p t ih => obtain ⟨j, v⟩ := p; simp only [Tbl.mapVals, List.map_cons, Tbl.get?] at ih ⊢; by_cases h : k = j <;> simp [h, ih]
theorem noteEntry_inst (n : Nat) (s : State) (i : Inst) (h : Tbl.get? s.insts n = some i) :
    ∃ u p c, Tbl.get? (noteEntry n s).insts n = some { i with ring := { i.ring with unsignalled := u, pending := p, coalStart := c } } := by
  unfold noteEntry; rw [h]; simp only; split
  · exact ⟨_, _, _, h⟩
  · split
    · rw [signalInst_insts]; simp only [modRing, modInst, Tbl.get?_modify, h, clearUnsignalled]; exact ⟨_, _, _, rfl⟩
    · simp only [modRing, modInst, Tbl.get?_modify, h]; exact ⟨_, _, _, rfl⟩
theorem settleDrain_ring (n : Nat) (s : State) (i : Inst) (h : Tbl.get? s.insts n = some i) :
    ∃ st, Tbl.get? (settleDrain n s).insts n = some { i with st := st } := by
  simp only [settleDrain, modInst, Tbl.get?_modify, h, if_true, Option.map_some]
  split
  · exact ⟨_, rfl⟩
  · exact ⟨i.st, rfl⟩
theorem Working.next {op inst tag : Nat} {s : State} {g : Tag} {c : Bool} {f : List Byte → Nat → State → State}
    (h : Working op s (tagKey inst tag) g) (hc : c = true) :
    workEnds op inst tag c s f = .next (f g.packet (tagKey inst tag) s) := by
  obtain ⟨h1, h2, h3⟩ := h; simp [workEnds, h1, act, h2, h3, hc]
theorem Working.running {op k : Nat} {s : State} {g : Tag} (h : Working op s k g) : g.st = .running := by
  obtain ⟨h1, h2, _⟩ := h; simp [atWork, h1] at h2; exact h2.1.1.1
theorem Working.tag {op k : Nat} {s : State} {g : Tag} (h : Working op s k g) : Tbl.get? s.tags k = some g := h.1
theorem Working.packet {op k : Nat} {s : State} {g : Tag} (h : Working op s k g) : pkOpcode g.packet = op := by
  obtain ⟨h1, h2, _⟩ := h; simp [atWork, h1] at h2; exact h2.1.1.2
/-- A command at work ends. -/
theorem Working.finish_ended {op k : Nat} {s u : State} {g : Tag} (h : Working op s k g) (hu : u.tags = s.tags) (r : Reply) :
    Ended (finish k r u) k r.status r.r0 r.r1 :=
  Sys2Proof.Machine.finish_ended k r u g (by rw [hu]; exact h.1) (by rw [h.running]; simp)
theorem finish_others_of {k : Nat} {s u : State} (hu : u.tags = s.tags) (r : Reply) : OtherTags k s (finish k r u) := by
  intro j hj; rw [finish_others k r u j hj, hu]
theorem runsWrite_fresh (n : Nat) (rs : List (Nat × Nat)) (bs : List Byte) (s : State) (f : Nat) :
    runsWrite n rs bs { s with fresh := f } = { runsWrite n rs bs s with fresh := f } := by
  induction rs generalizing bs s with
  | nil => rfl
  | cons r rs ih => obtain ⟨a, l⟩ := r; simp only [runsWrite]; rw [← ih]; rfl
theorem sglWalk_fresh (s : State) (pasid f : Nat) (fuel ptr : Nat) (left : Option Nat) (data chains : Nat) (acc : List (Nat × Nat)) :
    sglWalk { s with fresh := f } pasid fuel ptr left data chains acc = sglWalk s pasid fuel ptr left data chains acc := by
  induction fuel generalizing ptr left data chains acc with
  | zero => rfl
  | succ n ih => simp only [sglWalk, ih]; rfl
theorem deliver_fresh (n : Nat) (p : List Byte) (off : Nat) (bs : List Byte) (s : State) (f : Nat) :
    deliver n p off bs { s with fresh := f } = { deliver n p off bs s with fresh := f } := by
  have : bufferOf { s with fresh := f } n p = bufferOf s n p := by
    unfold bufferOf; rw [sglWalk_fresh]; rfl
  unfold deliver; rw [this]; split
  · rfl
  · exact runsWrite_fresh _ _ _ _ _
theorem Cells.readN_append (m : Cells) (a i j : Nat) : Cells.readN m a (i + j) = Cells.readN m a i ++ Cells.readN m (a + i) j := by
  induction i generalizing a with
  | zero => simp [Cells.readN]
  | succ i ih => rw [show i + 1 + j = (i + j) + 1 by omega]; simp only [Cells.readN, List.cons_append, ih]; rw [show a + 1 + i = a + (i + 1) by omega]
theorem blocksOf_flatten (u : Vol) (lba n : Nat) : ((List.range n).map (fun i => blocksOf u (lba + i) 1)).flatten = blocksOf u lba n := by
  induction n with
  | zero => rfl
  | succ n ih =>
    rw [List.range_succ, List.map_append, List.flatten_append, ih]
    simp only [List.map_cons, List.map_nil, List.flatten_cons, List.flatten_nil, List.append_nil, blocksOf]
    rw [show blockBytes * (n + 1) = blockBytes * n + blockBytes * 1 by ring, Cells.readN_append]
    rw [show blockBytes * (lba + n) = blockBytes * lba + blockBytes * n by ring]
theorem leNat_lt (bs : List Byte) : leNat bs < 256 ^ bs.length := by
  induction bs with
  | nil => simp [leNat]
  | cons b bs ih => simp only [leNat, List.length_cons, pow_succ]; have := b.isLt; omega
theorem field_lt (p : List Byte) (o n : Nat) : field p o n < 256 ^ n := by
  have := leNat_lt (bytesAt p o n)
  have hl : (bytesAt p o n).length = n := by simp [bytesAt]
  rwa [hl] at this
theorem zipIdx_map_forall₂ {α β : Type} (f : α → Nat → β) (R : α → β → Prop) (h : ∀ a i, R a (f a i)) (l : List α) (k : Nat) :
    List.Forall₂ R l ((l.zipIdx k).map (fun q => f q.1 q.2)) := by
  induction l generalizing k with
  | nil => exact .nil
  | cons a l ih => simp only [List.zipIdx_cons, List.map_cons]; exact .cons (h a k) (ih (k + 1))
theorem unitGroup_of (s : State) (v : Nat) (u : Vol) (compress : Bool) (margin lba lo n : Nat) (bs : List Byte) (id : Nat) :
    UnitOf v lba bs (lo, n) { id := id, held := false, entries := unitGroup s v u compress margin lo n (bs.drop (blockBytes * (lo - lba))) } := by
  refine ⟨rfl, ?_⟩
  exact zipIdx_map_forall₂ (fun (q : Nat × Nat × Nat) i => setBlocks s v u compress margin q.1 q.2.1 q.2.2 i
      (((bs.drop (blockBytes * (lo - lba))).drop (blockBytes * (q.1 * 8 + q.2.1 - lo))).take (blockBytes * q.2.2))) _
      (fun a i => ⟨_, rfl⟩) _ 0
theorem writeBlocks_fold (compress : Bool) (margin v lba : Nat) (bs : List Byte) (u : Vol) (ps : List (Nat × Nat)) (acc : State × List Nat)
    (h : vol? acc.1 v = some u) :
    ∃ gs : List Group,
      let r := ps.foldl (fun acc p => match vol? acc.1 v with
        | none => acc
        | some u => addGroup false (unitGroup acc.1 v u compress margin p.1 p.2 (bs.drop (blockBytes * (p.1 - lba)))) acc) acc
      r.1.flc.groups = acc.1.flc.groups ++ gs ∧ r.2 = acc.2 ++ gs.map (fun j => j.id) ∧ r.1.flc.vols = acc.1.flc.vols ∧
      r.1.flc.life = acc.1.flc.life ∧ List.Forall₂ (UnitOf v lba bs) ps gs := by
  induction ps generalizing acc with
  | nil => exact ⟨[], by simp⟩
  | cons p ps ih =>
    obtain ⟨gs, h1, h2, h3, h4, h5⟩ := ih (addGroup false (unitGroup acc.1 v u compress margin p.1 p.2 (bs.drop (blockBytes * (p.1 - lba)))) acc) h
    refine ⟨{ id := acc.1.flc.nextGroup, held := false, entries := unitGroup acc.1 v u compress margin p.1 p.2 (bs.drop (blockBytes * (p.1 - lba))) } :: gs, ?_⟩
    simp only [List.foldl_cons, h]
    refine ⟨?_, ?_, h3, h4, .cons (unitGroup_of _ _ _ _ _ _ _ _ _ _) h5⟩
    · rw [h1]; simp [addGroup, appendGroup, bumpFresh]
    · rw [h2]; simp [addGroup]
theorem unitPieces_ne (lba n : Nat) (h : 0 < n) : unitPieces lba n ≠ [] := by
  unfold unitPieces; rw [if_neg (by omega)]; simp
/-- A write that is not held appends one group for each atomic unit. -/
theorem writeBlocks_groups (compress : Bool) (margin v lba n : Nat) (bs : List Byte) (u : Vol) (s : State) (h : vol? s v = some u) :
    ∃ gs : List Group, (writeBlocks false compress margin v lba n bs s).1.flc.groups = s.flc.groups ++ gs ∧
      (writeBlocks false compress margin v lba n bs s).2 = gs.map (fun j => j.id) ∧
      (writeBlocks false compress margin v lba n bs s).1.flc.vols = s.flc.vols ∧
      (writeBlocks false compress margin v lba n bs s).1.flc.life = s.flc.life ∧ List.Forall₂ (UnitOf v lba bs) (unitPieces lba n) gs := by
  obtain ⟨gs, h1, h2, h3, h4, h5⟩ := writeBlocks_fold compress margin v lba bs u (unitPieces lba n) (s, []) h
  exact ⟨gs, h1, by rw [List.nil_append] at h2; exact h2, h3, h4, h5⟩
theorem forall₂_ne {α β : Type} {R : α → β → Prop} {l : List α} {m : List β} (h : List.Forall₂ R l m) (hl : l ≠ []) : m ≠ [] := by
  cases h with
  | nil => exact absurd rfl hl
  | cons _ _ => simp
theorem mirrorSend_none (k v n : Nat) (p : List Byte) (u : Vol) (lba len : Nat) (bs : List Byte) (s : State) (h : u.mirror = none) :
    mirrorSend k v n p u lba len bs s = s := by
  unfold mirrorSend liveCopies; rw [h]; simp
/-- A tag whose groups are not yet durable waits. -/
theorem settleDurable_waits (k : Nat) (f : Tag → Tag) (s : State) (g : Tag) (h : Tbl.get? s.tags k = some g) (hg : (f g).groups ≠ []) :
    settleDurable k (modTag k f s) = modTag k f s := by
  unfold settleDurable; rw [modTag_get?]; simp [h, hg]
theorem addGroup_ids (held : Bool) (es : List JEnt) (acc : State × List Nat) : (addGroup held es acc).2 = acc.2 ++ [acc.1.flc.nextGroup] := rfl
theorem addGroup_vols (es : List JEnt) (acc : State × List Nat) : (addGroup false es acc).1.flc.vols = acc.1.flc.vols := rfl
theorem trimBlocks_ids (v lba n : Nat) (u : Vol) (s : State) (hn : 0 < n) (h : vol? s v = some u) :
    (trimBlocks false v lba n s).2 ≠ [] ∧ (trimBlocks false v lba n s).1.flc.vols = s.flc.vols := by
  have hv : ∀ (es : List JEnt) (acc : State × List Nat), vol? (addGroup false es acc).1 v = vol? acc.1 v := fun _ _ => rfl
  unfold trimBlocks; simp only
  have hz : ¬ n = 0 := by omega
  split
  · next hle =>
    by_cases h1 : (lba + 63) / 64 * 64 - lba = 0 <;> by_cases h2 : (lba + 63) / 64 * 64 < (lba + n) / 64 * 64 <;>
      by_cases h3 : lba + n - (lba + n) / 64 * 64 = 0 <;> simp [h1, h2, h3, hv, h, addGroup_ids, addGroup_vols]
    omega
  · simp [hz, h, addGroup_ids, addGroup_vols]
theorem foldl_write_read (l : List (Nat × Byte)) (base : Nat) (m : Cells) (x : Nat) (hs : Tbl.sorted l = true) (hx : base ≤ x) :
    Cells.read (l.foldl (fun acc p => Cells.write acc (base + p.1) p.2) m) x =
      match Tbl.get? l (x - base) with
      | some b => b
      | none => Cells.read m x := by
  induction l generalizing m with
  | nil => rfl
  | cons p l ih =>
    obtain ⟨k, b⟩ := p
    simp only [List.foldl_cons]
    rw [ih _ (Tbl.sorted_tail _ _ hs)]
    simp only [Tbl.get?]
    by_cases h : x - base = k
    · rw [if_pos h]
      have hn : Tbl.get? l (x - base) = none := by
        have := Tbl.sorted_above k b l hs
        cases hq : Tbl.get? l (x - base) with
        | none => rfl
        | some v =>
          exfalso
          have hm : ∀ (t : Tbl Byte), (∀ p ∈ t, k < p.1) → Tbl.get? t (x - base) = none := by
            intro t ht; induction t with
            | nil => rfl
            | cons q t iht =>
              obtain ⟨j, w⟩ := q
              have := ht (j, w) (by simp)
              simp only [Tbl.get?]; rw [if_neg (by simp at this; omega)]; exact iht (fun p hp => ht p (by simp [hp]))
          rw [hm l this] at hq; cases hq
      rw [hn]; simp [Cells.read_write]; intro h'; omega
    · rw [if_neg h]
      split
      · rfl
      · exact Cells.read_write_ne _ _ _ _ (by omega)
theorem foldl_write_read_below (l : List (Nat × Byte)) (base : Nat) (m : Cells) (x : Nat) (h : ∀ p ∈ l, x ≠ base + p.1) :
    Cells.read (l.foldl (fun acc p => Cells.write acc (base + p.1) p.2) m) x = Cells.read m x := by
  induction l generalizing m with
  | nil => rfl
  | cons p l ih =>
    simp only [List.foldl_cons]
    rw [ih _ (fun q hq => h q (by simp [hq])), Cells.read_write_ne _ _ _ _ (h p (by simp))]
theorem Tbl.get?_filter {α : Type} (t : Tbl α) (f : Nat → Bool) (k : Nat) :
    Tbl.get? (t.filter (fun p => f p.1)) k = if f k = true then Tbl.get? t k else none := by
  induction t with
  | nil => simp [Tbl.get?]
  | cons p t ih =>
    obtain ⟨j, v⟩ := p
    by_cases hj : f j = true
    · simp only [List.filter_cons, hj, if_true, Tbl.get?, ih]
      by_cases hk : k = j <;> simp [hk, hj]
    · simp only [List.filter_cons, hj, Tbl.get?, ih]
      by_cases hk : k = j
      · subst hk; simp [hj, ih]
      · simp [hk, ih]
/-- What a paste leaves at each address. -/
theorem Cells.read_paste (m : Cells) (base len : Nat) (src : Cells) (hs : Cells.wf src = true) (x : Nat) :
    Cells.read (Cells.paste m base len src) x = if base ≤ x ∧ x < base + len then Cells.read src (x - base) else Cells.read m x := by
  have hsort : Tbl.sorted src = true := by simp [Cells.wf] at hs; exact hs.1
  unfold Cells.paste
  have hc : Cells.read (Cells.clear m base len) x = if base ≤ x ∧ x < base + len then 0 else Cells.read m x := by
    unfold Cells.clear Cells.read
    rw [Tbl.get?_filter m (fun a => !decide (base ≤ a ∧ a < base + len))]
    by_cases h : base ≤ x ∧ x < base + len <;> simp [h]
  by_cases hb : base ≤ x
  · rw [foldl_write_read _ _ _ _ (Tbl.sorted_filter _ _ hsort) hb, Tbl.get?_filter src (fun a => decide (a < len))]
    by_cases h : x < base + len
    · have : x - base < len := by omega
      simp only [this, decide_true, if_true, hb, h, and_self]
      unfold Cells.read; cases Tbl.get? src (x - base) with
      | some b => rfl
      | none => simp only [Option.getD_none]; unfold Cells.read at hc; rw [hc]; simp [hb, h]
    · have : ¬ x - base < len := by omega
      simp [this, h, hc]
  · rw [foldl_write_read_below _ _ _ _ (fun p _ => by omega), hc]; simp [hb]
theorem Cells.read_ofList (bs : List Byte) (x : Nat) : Cells.read (Cells.ofList bs) x = bs.getD x 0 := by
  unfold Cells.ofList; rw [Cells.read_writeN]
  by_cases h : x < bs.length
  · simp [h]
  · simp [h, Cells.read]
theorem allotPieces_ge (lo n : Nat) (q : Nat × Nat × Nat) (h : q ∈ allotPieces lo n) : lo ≤ q.1 * 8 + q.2.1 := by
  unfold allotPieces at h; split at h
  · simp at h
  · simp only [List.mem_map, List.mem_range] at h; obtain ⟨i, _, rfl⟩ := h; simp only; omega
theorem allotPieces_cover (lo n x : Nat) : (∃ q ∈ allotPieces lo n, 4096 * (q.1 * 8 + q.2.1) ≤ x ∧ x < 4096 * (q.1 * 8 + q.2.1) + 4096 * q.2.2) ↔
    4096 * lo ≤ x ∧ x < 4096 * lo + 4096 * n := by
  unfold allotPieces; split
  · simp; omega
  · simp only [List.mem_map, List.mem_range]
    constructor
    · rintro ⟨q, ⟨i, hi, rfl⟩, h1, h2⟩; simp only at h1 h2; omega
    · rintro ⟨h1, h2⟩
      refine ⟨_, ⟨x / 32768 - lo / 8, by omega, rfl⟩, ?_⟩
      simp only; omega
theorem unitPieces_ge (lo n : Nat) (q : Nat × Nat) (h : q ∈ unitPieces lo n) : lo ≤ q.1 := by
  unfold unitPieces at h; split at h
  · simp at h
  · simp only [List.mem_map, List.mem_range] at h; obtain ⟨i, _, rfl⟩ := h; simp only; omega
theorem unitPieces_cover (lo n x : Nat) : (∃ q ∈ unitPieces lo n, 4096 * q.1 ≤ x ∧ x < 4096 * q.1 + 4096 * q.2) ↔
    4096 * lo ≤ x ∧ x < 4096 * lo + 4096 * n := by
  unfold unitPieces; split
  · simp; omega
  · simp only [List.mem_map, List.mem_range]
    constructor
    · rintro ⟨q, ⟨i, hi, rfl⟩, h1, h2⟩; simp only at h1 h2; omega
    · rintro ⟨h1, h2⟩
      refine ⟨_, ⟨x / 262144 - lo / 64, by omega, rfl⟩, ?_⟩
      simp only; omega
theorem getD_drop_take (bs : List Byte) (d c i : Nat) (h : i < c) : ((bs.drop d).take c).getD i 0 = bs.getD (d + i) 0 := by
  simp [List.getD, List.getElem?_take, h]
/-- The bytes that the entries of a unit's group leave. -/
theorem unit_data (v lba lo n : Nat) (bs : List Byte) (es : List JEnt) (d : Cells) (x : Nat) (hl : lba ≤ lo)
    (h : List.Forall₂ (fun (a : Nat × Nat × Nat) (e : JEnt) => ∃ ent, e = .mapSet v a.1 a.2.1 a.2.2
      (Cells.ofList (((bs.drop (blockBytes * (lo - lba))).drop (blockBytes * (a.1 * 8 + a.2.1 - lo))).take
        (blockBytes * a.2.2))) ent) (allotPieces lo n) es) :
    Cells.read (es.foldl dataApply d) x = if 4096 * lo ≤ x ∧ x < 4096 * lo + 4096 * n then bs.getD (x - 4096 * lba) 0 else Cells.read d x := by
  have key : ∀ (ps : List (Nat × Nat × Nat)) (es : List JEnt) (d : Cells), (∀ q ∈ ps, lo ≤ q.1 * 8 + q.2.1) →
      List.Forall₂ (fun (a : Nat × Nat × Nat) (e : JEnt) => ∃ ent, e = .mapSet v a.1 a.2.1 a.2.2
      (Cells.ofList (((bs.drop (blockBytes * (lo - lba))).drop (blockBytes * (a.1 * 8 + a.2.1 - lo))).take
        (blockBytes * a.2.2))) ent) ps es →
      Cells.read (es.foldl dataApply d) x = if ∃ q ∈ ps, 4096 * (q.1 * 8 + q.2.1) ≤ x ∧ x < 4096 * (q.1 * 8 + q.2.1) + 4096 * q.2.2
        then bs.getD (x - 4096 * lba) 0 else Cells.read d x := by
    intro ps es d hp hf
    induction hf generalizing d with
    | nil => simp
    | cons he _ ih =>
      next q e ps es _ =>
      obtain ⟨ent, rfl⟩ := he
      simp only [List.foldl_cons]
      rw [ih _ (fun q hq => hp q (by simp [hq]))]
      have hq := hp q (by simp)
      simp only [List.mem_cons, exists_eq_or_imp]
      by_cases h1 : ∃ q ∈ ps, 4096 * (q.1 * 8 + q.2.1) ≤ x ∧ x < 4096 * (q.1 * 8 + q.2.1) + 4096 * q.2.2
      · rw [if_pos h1, if_pos (Or.inr h1)]
      · rw [if_neg h1]
        simp only [dataApply]
        rw [Cells.read_paste _ _ _ _ (Cells.wf_ofList _)]
        by_cases h2 : 4096 * (q.1 * 8 + q.2.1) ≤ x ∧ x < 4096 * (q.1 * 8 + q.2.1) + 4096 * q.2.2
        · rw [if_pos h2, if_pos (Or.inl h2), Cells.read_ofList, getD_drop_take _ _ _ _ (by simp only [blockBytes]; omega)]
          rw [List.getD_eq_getElem?_getD, List.getElem?_drop, List.getD_eq_getElem?_getD]; congr 2; simp only [blockBytes]; omega
        · rw [if_neg h2, if_neg (by rintro (h | h); exact h2 h; exact h1 h)]
  rw [key _ _ _ (allotPieces_ge lo n) h]
  simp only [allotPieces_cover]
theorem mapSet_visible (v a f c : Nat) (cs : Cells) (ent : MapEnt) (s : State) (u : Vol) (h : vol? s v = some u) :
    ∃ m, vol? (applyVisible (.mapSet v a f c cs ent) s) v = some { u with map := m, data := dataApply u.data (.mapSet v a f c cs ent) } := by
  have h1 : ∀ t : State, vol? (markDirty v a t) v = vol? t v := by intro t; unfold markDirty; simp only; split <;> rfl
  have h2 : ∀ t : State, vol? (clearRuns v (a * 8 + f) c t) v = vol? t v := fun t => rfl
  refine ⟨mapApply u.map (.mapSet v a f c cs ent), ?_⟩
  simp only [applyVisible, entryVol]
  split
  · show vol? (moveRef _ _ _ _) v = _
    show vol? (markDirty v a _) v = _
    rw [h1, h2]; simp only [vol?, modVol, Tbl.get?_modify]; simp only [vol?] at h; rw [h]; rfl
  · show vol? (markDirty v a _) v = _
    rw [h1, h2]; simp only [vol?, modVol, Tbl.get?_modify]; simp only [vol?] at h; rw [h]; rfl
theorem mapSets_visible (v : Nat) (es : List JEnt) (s : State) (u : Vol) (h : vol? s v = some u)
    (hs : ∀ e ∈ es, ∃ a f c cs ent, e = JEnt.mapSet v a f c cs ent) :
    ∃ m, vol? (es.foldl (fun s e => applyVisible e s) s) v = some { u with map := m, data := es.foldl dataApply u.data } := by
  induction es generalizing s u with
  | nil => exact ⟨u.map, h⟩
  | cons e es ih =>
    obtain ⟨a, f, c, cs, ent, rfl⟩ := hs e (by simp)
    obtain ⟨m, hm⟩ := mapSet_visible v a f c cs ent s u h
    exact ih _ _ hm (fun e he => hs e (by simp [he]))
theorem forall₂_left {α β : Type} {R : α → β → Prop} {l : List α} {m : List β} (h : List.Forall₂ R l m) : ∀ b ∈ m, ∃ a ∈ l, R a b := by
  induction h with
  | nil => simp
  | cons h _ ih =>
    intro b hb; rcases List.mem_cons.mp hb with rfl | hb
    · exact ⟨_, by simp, h⟩
    · obtain ⟨a, ha, hr⟩ := ih b hb; exact ⟨a, by simp [ha], hr⟩
/-- What a held write leaves in its volume. -/
theorem writeBlocks_held (compress : Bool) (margin v lba n : Nat) (bs : List Byte) (u : Vol) (s : State) (h : vol? s v = some u) :
    ∃ m d, vol? (writeBlocks true compress margin v lba n bs s).1 v = some { u with map := m, data := d } ∧
      ∀ x, Cells.read d x = if 4096 * lba ≤ x ∧ x < 4096 * lba + 4096 * n then bs.getD (x - 4096 * lba) 0 else Cells.read u.data x := by
  have key : ∀ (ps : List (Nat × Nat)) (acc : State × List Nat) (u : Vol), (∀ q ∈ ps, lba ≤ q.1) → vol? acc.1 v = some u →
      ∃ m d, vol? (ps.foldl (fun acc p => match vol? acc.1 v with
        | none => acc
        | some u => addGroup true (unitGroup acc.1 v u compress margin p.1 p.2 (bs.drop (blockBytes * (p.1 - lba)))) acc) acc).1 v
          = some { u with map := m, data := d } ∧
      ∀ x, Cells.read d x = if ∃ q ∈ ps, 4096 * q.1 ≤ x ∧ x < 4096 * q.1 + 4096 * q.2 then bs.getD (x - 4096 * lba) 0 else Cells.read u.data x := by
    intro ps
    induction ps with
    | nil => intro acc u _ hu; exact ⟨u.map, u.data, hu, by simp⟩
    | cons p ps ih =>
      intro acc u hp hu
      simp only [List.foldl_cons, hu]
      have hg := unitGroup_of acc.1 v u compress margin lba p.1 p.2 bs 0
      generalize unitGroup acc.1 v u compress margin p.1 p.2 (bs.drop (blockBytes * (p.1 - lba))) = es at hg ⊢
      obtain ⟨_, hg⟩ := hg
      simp only at hg
      obtain ⟨m, hm⟩ := mapSets_visible v es acc.1 u hu (fun e he => by
        obtain ⟨a, _, ent, h⟩ := forall₂_left hg e he; exact ⟨_, _, _, _, _, h⟩)
      obtain ⟨m', d', h1, h2⟩ := ih (addGroup true es acc) { u with map := m, data := es.foldl dataApply u.data }
        (fun q hq => hp q (by simp [hq])) hm
      refine ⟨m', d', h1, fun x => ?_⟩
      rw [h2]; simp only [List.mem_cons, exists_eq_or_imp]
      by_cases h3 : ∃ q ∈ ps, 4096 * q.1 ≤ x ∧ x < 4096 * q.1 + 4096 * q.2
      · rw [if_pos h3, if_pos (Or.inr h3)]
      · rw [if_neg h3, unit_data v lba p.1 p.2 bs es _ x (hp p (by simp)) hg]
        by_cases h4 : 4096 * p.1 ≤ x ∧ x < 4096 * p.1 + 4096 * p.2
        · rw [if_pos h4, if_pos (Or.inl h4)]
        · rw [if_neg h4, if_neg (by rintro (h | h); exact h4 h; exact h3 h)]
  obtain ⟨m, d, h1, h2⟩ := key (unitPieces lba n) (s, []) u (unitPieces_ge lba n) h
  exact ⟨m, d, h1, fun x => by rw [h2]; simp only [unitPieces_cover]⟩
theorem applyVisible_held (e : JEnt) (s : State) : (applyVisible e s).flc.heldBytes = s.flc.heldBytes ∧ (applyVisible e s).flc.life = s.flc.life := by
  have h1 : ∀ v a (t : State), (markDirty v a t).flc.heldBytes = t.flc.heldBytes ∧ (markDirty v a t).flc.life = t.flc.life := by
    intro v a t; unfold markDirty; simp only; split <;> exact ⟨rfl, rfl⟩
  unfold applyVisible
  split
  · exact ⟨rfl, rfl⟩
  · next v hv =>
    cases e <;> simp only
    all_goals repeat' (first | exact h1 _ _ _ | exact ⟨rfl, rfl⟩ | split)
theorem appendVisible_held (es : List JEnt) (s : State) : (appendVisible es s).flc.heldBytes = s.flc.heldBytes ∧ (appendVisible es s).flc.life = s.flc.life := by
  show (es.foldl (fun s e => applyVisible e s) s).flc.heldBytes = _ ∧ (es.foldl (fun s e => applyVisible e s) s).flc.life = _
  induction es generalizing s with
  | nil => exact ⟨rfl, rfl⟩
  | cons e es ih => simp only [List.foldl_cons]; rw [(ih _).1, (ih _).2]; exact applyVisible_held e s
theorem writeBlocks_heldBytes (held compress : Bool) (margin v lba n : Nat) (bs : List Byte) (s : State) :
    (writeBlocks held compress margin v lba n bs s).1.flc.heldBytes = s.flc.heldBytes := by
  unfold writeBlocks
  generalize unitPieces lba n = ps
  suffices ∀ acc : State × List Nat, (ps.foldl (fun acc p => match vol? acc.1 v with
        | none => acc
        | some u => addGroup held (unitGroup acc.1 v u compress margin p.1 p.2 (bs.drop (blockBytes * (p.1 - lba)))) acc) acc).1.flc.heldBytes = acc.1.flc.heldBytes from this (s, [])
  intro acc
  induction ps generalizing acc with
  | nil => rfl
  | cons p ps ih =>
    simp only [List.foldl_cons]; rw [ih]; split
    · rfl
    · cases held
      · rfl
      · exact (appendVisible_held _ _).1
theorem runsWrite_congr (n : Nat) (rs : List (Nat × Nat)) (bs : List Byte) (s u : State) (h1 : s.insts = u.insts) (h2 : s.hostMem = u.hostMem) :
    (runsWrite n rs bs s).hostMem = (runsWrite n rs bs u).hostMem := by
  induction rs generalizing bs s u with
  | nil => exact h2
  | cons r rs ih =>
    obtain ⟨a, l⟩ := r
    simp only [runsWrite]
    refine ih _ _ _ ?_ ?_
    · exact h1
    · simp only [hostWrite, hostStore, pasidOf, h1, h2]
theorem sglWalk_congr (s u : State) (h : s.hostMem = u.hostMem) (pasid fuel ptr : Nat) (left : Option Nat) (data chains : Nat) (acc : List (Nat × Nat)) :
    sglWalk s pasid fuel ptr left data chains acc = sglWalk u pasid fuel ptr left data chains acc := by
  have hr : ∀ a n, hostRead s pasid a n = hostRead u pasid a n := by intro a n; simp only [hostRead, h]
  induction fuel generalizing ptr left data chains acc with
  | zero => rfl
  | succ n ih => simp only [sglWalk, ih, hr]
/-- What a delivery leaves in host memory depends on the instances and on host memory alone. -/
theorem deliver_congr (n : Nat) (p : List Byte) (off : Nat) (bs : List Byte) (s u : State) (h1 : s.insts = u.insts) (h2 : s.hostMem = u.hostMem) :
    (deliver n p off bs s).hostMem = (deliver n p off bs u).hostMem := by
  have : bufferOf s n p = bufferOf u n p := by
    unfold bufferOf pasidOf; rw [h1, sglWalk_congr s u h2]
  unfold deliver; rw [this]; split
  · exact h2
  · exact runsWrite_congr _ _ _ _ _ h1 h2
/-- The result of `endAsset`. -/
theorem Working.endAsset {op k : Nat} {s u : State} {g : Tag} (h : Working op s k g) (hu : u.tags = s.tags) (r : Reply) :
    Ended (endAsset k r u) k r.status r.r0 r.r1 ∧ OtherTags k s (endAsset k r u) := by
  unfold Sys2Proof.Machine.endAsset
  have ht : (if r.status = stAuthFail then countUnit stAuthFail u else u).tags = s.tags := by
    split
    · exact (countUnit_get _ _ .tags (by decide)).trans hu
    · exact hu
  exact ⟨h.finish_ended ht r, finish_others_of ht r⟩
theorem endAsset_only (k : Nat) (r : Reply) (s : State) : OnlyIn [.sec, .tags, .locks, .units] s (endAsset k r s) := by
  intro x hx; simp at hx
  unfold endAsset
  rw [finish_get _ _ _ _ (by simp [hx])]
  split
  · simp [countUnit, stCodecData, stCodecLimit, hx]
  · rfl
theorem advanceSeal_hostMem (no n : Nat) (s : State) : (advanceSeal no n s).hostMem = s.hostMem := rfl
theorem Working.replies {op k : Nat} {s u : State} {g : Tag} {c : Instr} {r : Reply} {ps : List Part} {P : State → Prop}
    (h : Working op s k g) (e : exec c s = .next (finish k r u)) (hu : OnlyIn ps s u) (ht : Part.tags ∉ ps)
    (hp : P (finish k r u)) : Replies c s k r.status r.r0 r.r1 ps P := by
  have hut : u.tags = s.tags := hu .tags ht
  refine ⟨_, e, h.finish_ended hut r, finish_others_of hut r, fun x hx => ?_, hp⟩
  simp only [List.mem_cons, not_or] at hx
  rw [finish_get _ _ _ _ (by simp [hx]), hu x hx.2.2.2]
theorem IndexWorking.next {op : Nat} {inst : Fin 64} {tag : Fin 256} {s : State} {g : Tag} {tb : Nat} {x : ITable} {c : List Byte → Bool} {f : Nat → ITable → List Byte → Nat → State → State}
    (h : IndexWorking op s (tagKey inst tag) g tb x) (hc : c g.packet = true) :
    indexWork op inst tag c s f = .next (f tb x g.packet (tagKey inst tag) s) := by
  obtain ⟨h1, h2, h3, h4, h5⟩ := h
  subst h3
  unfold indexWork
  simp only [h1.1, hc]
  rw [h1.next (by simp [h2])]
  simp only [h4, h5, Bool.false_eq_true, if_false]
theorem takeSeq_soft (s : State) : (takeSeq s).flc.softOk = s.flc.softOk ∧ (takeSeq s).flc.softReplaces = s.flc.softReplaces := by
  unfold takeSeq; simp only; split <;> exact ⟨rfl, rfl⟩
theorem takeover_soft (code unit repl ns : Nat) (s : State) : (takeover code unit repl ns s).flc.softOk = s.flc.softOk ∧ (takeover code unit repl ns s).flc.softReplaces = s.flc.softReplaces := by
  unfold takeover; simp only
  show (logHealth _ _ _ _ _ _ _ _).flc.softOk = _ ∧ (logHealth _ _ _ _ _ _ _ _).flc.softReplaces = _
  unfold logHealth pushHealth; split
  · exact takeSeq_soft (settleFaults s)
  · exact ⟨rfl, rfl⟩
theorem modInst_get? (n j : Nat) (f : Inst → Inst) (s : State) : Tbl.get? (modInst n f s).insts j = if j = n then (Tbl.get? s.insts n).map f else Tbl.get? s.insts j := Tbl.get?_modify _ _ _ _
theorem hostWrite_hostMem (n a : Nat) (bs : List Byte) (s : State) : (hostWrite n a bs s).hostMem = (hostStore (pasidOf s n) a bs s).hostMem := rfl
theorem owe_fold (ps : List Nat) (l : PLog) : (ps.foldl owe l).marker = l.marker ∧ (ps.foldl owe l).syncs = l.syncs ∧ (ps.foldl owe l).tail = l.tail := by
  induction ps generalizing l with
  | nil => exact ⟨rfl, rfl, rfl⟩
  | cons p ps ih =>
    have h : (owe l p).marker = l.marker ∧ (owe l p).syncs = l.syncs ∧ (owe l p).tail = l.tail := by unfold owe; split <;> exact ⟨rfl, rfl, rfl⟩
    simp only [List.foldl_cons, ih, h, and_self]
theorem hostWrite_log (n a k : Nat) (bs : List Byte) (s : State) :
    (let l := Tbl.getD s.mgr.logs k resetPLog
     let m := Tbl.getD (hostWrite n a bs s).mgr.logs k resetPLog
     m.marker = l.marker ∧ m.syncs = l.syncs ∧ m.tail = l.tail) := by
  have e : Tbl.get? (hostWrite n a bs s).mgr.logs k = (Tbl.get? s.mgr.logs k).map (fun l => if l.enable && l.inst == n then (pagesOf a bs.length).foldl owe l else l) :=
    Tbl.get?_mapVals s.mgr.logs (fun _ l => if l.enable && l.inst == n then (pagesOf a bs.length).foldl owe l else l) k
  simp only [Tbl.getD, e]
  cases Tbl.get? s.mgr.logs k with
  | none => exact ⟨rfl, rfl, rfl⟩
  | some l => simp only [Option.map_some, Option.getD_some]; split
              · exact owe_fold _ _
              · exact ⟨rfl, rfl, rfl⟩
theorem appendLog_hostMem (k x : Nat) (f : PLog → PLog) (s : State) :
    (let l := Tbl.getD s.mgr.logs k resetPLog
     (appendLog k x f s).hostMem = (hostStore (pasidOf s 0) (l.base + 8 * l.tail) (leBytes 8 (x + b2n l.phase)) s).hostMem) := rfl
theorem appendLog_log (k x : Nat) (f : PLog → PLog) (s : State) :
    (let l := Tbl.getD s.mgr.logs k resetPLog
     ∃ m : PLog, Tbl.get? (appendLog k x f s).mgr.logs k = some (f m) ∧ m.marker = l.marker ∧ m.syncs = l.syncs ∧ m.tail = (l.tail + 1) % 2 ^ l.sizeLog2) := by
  intro l
  obtain ⟨h1, h2, h3⟩ := hostWrite_log 0 (l.base + 8 * l.tail) k (leBytes 8 (x + b2n l.phase)) s
  unfold appendLog; simp only [modLog, Tbl.get?_set, if_true]
  exact ⟨_, rfl, h1, h2, rfl⟩
theorem entryWritten_tail (l : PLog) : (entryWritten l).tail = l.tail := by unfold entryWritten; split <;> rfl
theorem glb_of_get {u s : State} (h : u.get .glb = s.get .glb) : u.glb = s.glb := h
theorem clk_of_get {u s : State} (h : u.get .clk = s.get .clk) : u.clk = s.clk := h
theorem hif_of_get {u s : State} (h : u.get .hif = s.get .hif) : u.hif = s.hif := h
theorem mgr_of_get {u s : State} (h : u.get .mgr = s.get .mgr) : u.mgr = s.mgr := h
theorem otp_of_get {u s : State} (h : u.get .otp = s.get .otp) : u.otp = s.otp := h
theorem dbg_of_get {u s : State} (h : u.get .dbg = s.get .dbg) : u.dbg = s.dbg := h
theorem pwr_of_get {u s : State} (h : u.get .pwr = s.get .pwr) : u.pwr = s.pwr := h
theorem bsh_of_get {u s : State} (h : u.get .bsh = s.get .bsh) : u.bsh = s.bsh := h
theorem sec_of_get {u s : State} (h : u.get .sec = s.get .sec) : u.sec = s.sec := h
theorem sch_of_get {u s : State} (h : u.get .sch = s.get .sch) : u.sch = s.sch := h
theorem dmz_of_get {u s : State} (h : u.get .dmz = s.get .dmz) : u.dmz = s.dmz := h
theorem idx_of_get {u s : State} (h : u.get .idx = s.get .idx) : u.idx = s.idx := h
theorem flc_of_get {u s : State} (h : u.get .flc = s.get .flc) : u.flc = s.flc := h
theorem mem_of_get {u s : State} (h : u.get .mem = s.get .mem) : u.mem = s.mem := h
theorem cch_of_get {u s : State} (h : u.get .cch = s.get .cch) : u.cch = s.cch := h
theorem drc_of_get {u s : State} (h : u.get .drc = s.get .drc) : u.drc = s.drc := h
theorem spn_of_get {u s : State} (h : u.get .spn = s.get .spn) : u.spn = s.spn := h
theorem locks_of_get {u s : State} (h : u.get .locks = s.get .locks) : u.locks = s.locks := h
theorem insts_of_get {u s : State} (h : u.get .insts = s.get .insts) : u.insts = s.insts := h
theorem units_of_get {u s : State} (h : u.get .units = s.get .units) : u.units = s.units := h
theorem hostMem_of_get {u s : State} (h : u.get .hostMem = s.get .hostMem) : u.hostMem = s.hostMem := h
theorem fresh_of_get {u s : State} (h : u.get .fresh = s.get .fresh) : u.fresh = s.fresh := h
theorem CodecWorking.next {op : Nat} {inst : Fin 64} {tag : Fin 256} {s : State} {g : Tag} {c : List Byte → Bool} {f : List Byte → Nat → State → State}
    (h : CodecWorking op s inst (tagKey inst tag) g) (hc : c g.packet = true) : codecWork op inst tag c s f = .next (f g.packet (tagKey inst tag) s) := by
  unfold codecWork; simp only [h.1.1]; exact h.1.next (by simp [hc, h.2])
theorem ctxOf_put (s : State) (n c : Nat) (x : Option Ctx) (hc : c ≠ 0) : ctxOf (putCtx n c x s) n c = x := by
  unfold ctxOf putCtx; simp only [hc, if_false]; cases x with
  | none => simp [Tbl.get?_erase]
  | some x => simp [Tbl.get?_set]
theorem ctxOf_zero (s : State) (n : Nat) : ctxOf s n 0 = none := by simp [ctxOf]
theorem ctxOf_put_none (s : State) (n c : Nat) : ctxOf (putCtx n c none s) n c = none := by
  by_cases hc : c = 0
  · subst hc; exact ctxOf_zero _ _
  · exact ctxOf_put s n c none hc
theorem ctxOf_of {t u : State} (h : t.bsh.ctxs = u.bsh.ctxs) (n c : Nat) : ctxOf t n c = ctxOf u n c := by unfold ctxOf; rw [h]
theorem codecCount_ctxs (st : Nat) (s : State) : (codecCount st s).bsh.ctxs = s.bsh.ctxs := by
  unfold codecCount; split
  · rfl
  · split <;> rfl
theorem finish_bsh (k : Nat) (r : Reply) (s : State) : (finish k r s).bsh = s.bsh := finish_get k r s .bsh (by decide)
theorem codecFails_ctx (n c k st r0 r1 : Nat) (s : State) : ctxOf (codecFails n c k st r0 r1 s) n c = none := by
  unfold codecFails finishWith
  exact (ctxOf_of (u := putCtx n c none s) (by rw [finish_bsh, codecCount_ctxs]) n c).trans (ctxOf_put_none s n c)
theorem codecOutput_only (n a l : Nat) (bs : List Byte) (rest : Bool) (s : State) : OnlyIn [.mgr, .hostMem, .fresh] s (codecOutput n a l bs rest s) := by
  intro x hx; simp at hx; unfold codecOutput; simp [hx]
theorem codecOutput_mem (n a l : Nat) (bs : List Byte) (rest : Bool) (s : State) (hl : bs.length ≤ l) (h : l < 2 ^ 64) (j : Nat) (hj : j < bs.length) :
    Cells.read (codecOutput n a l bs rest s).hostMem (hostKey (pasidOf s n) (a + j)) = bs.getD j 0 := by
  obtain ⟨tail, ht⟩ : ∃ tail, tail = (if rest then freeBytes s (l - bs.length) else []) := ⟨_, rfl⟩
  have hlen : (bs ++ tail).length ≤ l := by
    rw [List.length_append, ht]; split
    · simp [freeBytes]; omega
    · simp; exact hl
  have e : (codecOutput n a l bs rest s).hostMem = (hostStore (pasidOf s n) a (bs ++ tail) s).hostMem := by rw [ht]; rfl
  rw [e, hostStore_at _ _ _ _ _ (by rw [List.length_append]; omega) (by omega)]
  simp [List.getElem?_append_left hj]
theorem codec_end (n k : Nat) (op : Nat) (x : Ctx) (ends : Bool) (p : List Byte) (s : State) (g : Tag) (hw : Working op s k g) (hr : CodecReady s n k x)
    (h0 : ¬ (pkContext p = 0 ∧ x.mode = 1)) : CodecJobEnds n k x ends p s (codecRun n ends x p k s) := by
  obtain ⟨h1, h2, h3, h4, h5⟩ := hr
  have h5' : ¬ 2097152 < (dictBytes s n x.dictCtx).length := by omega
  have hl : field p 44 4 < 2 ^ 64 := by have := field_lt p 44 4; norm_num at this ⊢; omega
  unfold CodecJobEnds codecRun
  simp only [h3, ne_eq, not_true_eq_false, if_false, h4, Bool.false_or, h5', decide_false, Bool.false_eq_true, if_neg h0]
  generalize Config.codecJob _ = r
  have h0' : ¬ (pkContext p = 0 ∧ x.mode = 1 ∧ r.kind < 2) := fun h => h0 ⟨h.1, h.2.1⟩
  simp only [if_neg h0']
  generalize hout : r.output.take (field p 44 4) = out
  have hol : out.length ≤ field p 44 4 := by rw [← hout]; simp
  -- each end is a finish over a state that differs in bsh from the output
  have key : ∀ (rest : Bool) (y : Option Ctx) (st c : Nat) (R : Reply) (U : State), U.tags = s.tags → U.hostMem = (codecOutput n (field p 36 8) (field p 44 4) out rest s).hostMem →
      OnlyIn [.bsh, .mgr, .hostMem, .fresh] s U → ctxOf U n (pkContext p) = y → R.status = st → R.r0 = c → R.r1 = out.length →
      (Ended (finish k R U) k st c out.length ∧ ctxOf (finish k R U) n (pkContext p) = y ∧
       (∀ j < out.length, Cells.read (finish k R U).hostMem (hostKey (pasidOf s n) (field p 36 8 + j)) = out.getD j 0) ∧
       OtherTags k s (finish k R U) ∧ OnlyIn [.tags, .locks, .units, .bsh, .mgr, .hostMem, .fresh] s (finish k R U)) := by
    intro rest y st c R U t1 t2 t3 t4 e1 e2 e3
    subst e1 e2
    refine ⟨by rw [← e3]; exact hw.finish_ended t1 R, ?_, ?_, finish_others_of t1 R, ?_⟩
    · rw [ctxOf_of (u := U) (by rw [finish_bsh])]; exact t4
    · intro j hj
      have : (finish k R U).hostMem = U.hostMem := finish_get k R U .hostMem (by decide)
      rw [this, t2]; exact codecOutput_mem _ _ _ _ _ _ hol hl j hj
    · intro z hz; simp at hz; rw [finish_get _ _ _ _ (by simp [hz]), t3 z (by simp [hz])]
  have hput : ∀ (y : Option Ctx) (rest : Bool), OnlyIn [.bsh, .mgr, .hostMem, .fresh] s (putCtx n (pkContext p) y (codecOutput n (field p 36 8) (field p 44 4) out rest s)) := by
    intro y rest z hz; simp at hz
    have := codecOutput_only n (field p 36 8) (field p 44 4) out rest s z (by simp [hz])
    rw [← this]; exact putCtx_get _ _ _ _ z (by simp [hz])
  have hcc : ∀ (st : Nat) (U : State), OnlyIn [.bsh] U (codecCount st U) := by
    intro st U z hz; simp at hz; simp [hz]
  have hfail : ∀ (rest : Bool) (st c : Nat),
      (Ended (codecFails n (pkContext p) k st c out.length (codecOutput n (field p 36 8) (field p 44 4) out rest s)) k st c out.length ∧
       ctxOf (codecFails n (pkContext p) k st c out.length (codecOutput n (field p 36 8) (field p 44 4) out rest s)) n (pkContext p) = none ∧
       (∀ j < out.length, Cells.read (codecFails n (pkContext p) k st c out.length (codecOutput n (field p 36 8) (field p 44 4) out rest s)).hostMem (hostKey (pasidOf s n) (field p 36 8 + j)) = out.getD j 0) ∧
       OtherTags k s (codecFails n (pkContext p) k st c out.length (codecOutput n (field p 36 8) (field p 44 4) out rest s)) ∧
       OnlyIn [.tags, .locks, .units, .bsh, .mgr, .hostMem, .fresh] s (codecFails n (pkContext p) k st c out.length (codecOutput n (field p 36 8) (field p 44 4) out rest s))) := by
    intro rest st c
    have hO : OnlyIn [.bsh, .mgr, .hostMem, .fresh] s (codecCount st (putCtx n (pkContext p) none (codecOutput n (field p 36 8) (field p 44 4) out rest s))) := by
      intro z hz; rw [hcc st _ z (by simp at hz ⊢; simp [hz])]; exact hput none rest z hz
    refine key rest none st c { status := st, r0 := c, r1 := out.length } _ (hO .tags (by decide)) ?_ hO ?_ rfl rfl rfl
    · exact (hcc st _ .hostMem (by decide)).trans (putCtx_get _ _ _ _ .hostMem (by decide))
    · exact (ctxOf_of (codecCount_ctxs _ _) _ _).trans (ctxOf_put_none _ _ _)
  by_cases k0 : r.kind = 0
  · simp only [k0, if_true]
    obtain ⟨y, hy⟩ : ∃ y, y = (if ends then none else some { advanceCtx x r (field p 36 8) (pkLength p) out.length (codecRun.dictRef s n x.dictCtx) false with st := .opened, endSeen := false }) := ⟨_, rfl⟩
    rw [← hy]
    have hO := hput y false
    obtain ⟨a1, a2, a3, a4, a5⟩ := key false (if pkContext p = 0 then none else y) stOk (pkLength p) { status := stOk, r0 := pkLength p, r1 := out.length }
      (putCtx n (pkContext p) y (codecOutput n (field p 36 8) (field p 44 4) out false s)) (hO .tags (by decide)) (putCtx_get _ _ _ _ .hostMem (by decide)) hO
      (by
        by_cases hc : pkContext p = 0
        · rw [hc]; simp [ctxOf_zero]
        · rw [if_neg hc, ctxOf_put _ _ _ _ hc]) rfl rfl rfl
    refine ⟨fun _ => ⟨a1, fun hc he => ?_⟩, by simp, by simp, by simp, ?_, a3, a4, a5⟩
    · exact ⟨_, a2.trans (by rw [if_neg hc, hy, he]; rfl), rfl⟩
    · simp only [true_and, Nat.zero_ne_one, false_and, false_or, Nat.not_succ_le_zero, or_false]
      intro he; refine a2.trans ?_; have he' : ends = true := by simpa using he
      rw [hy, he']; simp
  · by_cases k1 : r.kind = 1
    · simp only [k1, Nat.one_ne_zero, if_false, if_true]
      by_cases hh : (pkHoldPartial p && !(pkContext p == 0)) = true
      · simp only [hh, if_true]
        have hc : pkContext p ≠ 0 := by simp at hh; exact hh.2
        generalize hcons : (if r.inHeld then 0 else min (r.bitPos / 8 / 4 * 4) (pkLength p)) = consumed
        obtain ⟨y, hy⟩ : ∃ y, y = { advanceCtx x r (field p 36 8) consumed out.length (codecRun.dictRef (codecOutput n (field p 36 8) (field p 44 4) out true s) n x.dictCtx) true with st := .suspended, endSeen := ends } := ⟨_, rfl⟩
        rw [← hy]
        have hO := hput (some y) true
        obtain ⟨a1, a2, a3, a4, a5⟩ := key true (some y) stOkResumable consumed { status := stOkResumable, r0 := consumed, r1 := out.length }
          (putCtx n (pkContext p) (some y) (codecOutput n (field p 36 8) (field p 44 4) out true s)) (hO .tags (by decide)) (putCtx_get _ _ _ _ .hostMem (by decide)) hO
          (ctxOf_put _ _ _ _ hc) rfl rfl rfl
        refine ⟨by simp, fun _ _ => ⟨⟨_, a1⟩, y, a2, by rw [hy], by rw [hy]⟩, by simp, by simp, by simp, a3, a4, a5⟩
      · simp only [hh, if_false]
        obtain ⟨a1, a2, a3, a4, a5⟩ := hfail true stCodecLimit (if r.inHeld then 0 else min (r.bitPos / 8 / 4 * 4) (pkLength p))
        exact ⟨by simp, by simp, fun _ _ => ⟨_, a1⟩, by simp, fun _ => a2, a3, a4, a5⟩
    · have k2 : 2 ≤ r.kind := by omega
      simp only [if_neg k0, if_neg k1]
      obtain ⟨a1, a2, a3, a4, a5⟩ := hfail true (if r.kind = 2 then stCodecData else stCodecLimit) (min r.consumed (pkLength p))
      exact ⟨fun h => absurd h k0, fun h => absurd h k1, fun h => absurd h k1, fun _ => a1, fun _ => a2, a3, a4, a5⟩
theorem mailboxEvent_get?_mbox (n dir m len word : Nat) (s : State) (k : Nat) (i : Inst) (h : Tbl.get? s.insts k = some i) :
    ∃ j, Tbl.get? (mailboxEvent n dir m len word s).insts k = some j ∧ j.mbox = i.mbox := by
  rw [mailboxEvent_insts, Tbl.get?_modify]
  by_cases hk : k = n
  · subst hk; rw [if_pos rfl, h]; refine ⟨_, rfl, ?_⟩; unfold queueEvent; split
    · rfl
    · split <;> rfl
  · rw [if_neg hk]; exact ⟨i, h, rfl⟩
theorem resetTag_get? (k j : Nat) (s : State) : Tbl.get? (resetTag k s).tags j =
    if j = k then (Tbl.get? s.tags k).map (fun t => { t with st := .done, reply := cutReply stAbortedByReset t, after := none, uses := [], work := .resetting })
    else Tbl.get? s.tags j := by
  unfold resetTag
  cases h : Tbl.get? s.tags k with
  | none => by_cases hj : j = k
            · subst hj; simp [h]
            · simp [hj]
  | some t =>
    simp only
    have : (if t.st = .done then s else dropWork k t s).tags = s.tags := by
      split
      · rfl
      · exact dropWork_get _ _ _ .tags (by decide)
    rw [modTag_get?, this, h]
theorem resetTags_get? (ks : List Nat) (s : State) (j : Nat) (hj : j ∈ ks ∨ ∃ y, Tbl.get? s.tags j = some y ∧ y.st = .done ∧ y.reply.status = stAbortedByReset)
    (hb : ∃ y, Tbl.get? s.tags j = some y) : ∃ y, Tbl.get? (ks.foldl (fun s k => resetTag k s) s).tags j = some y ∧ y.st = .done ∧ y.reply.status = stAbortedByReset := by
  induction ks generalizing s with
  | nil => rcases hj with h | h
           · simp at h
           · exact h
  | cons k ks ih =>
    simp only [List.foldl_cons]
    obtain ⟨y, hy⟩ := hb
    by_cases hk : j = k
    · subst hk
      refine ih _ (Or.inr ⟨_, by rw [resetTag_get?, if_pos rfl, hy]; rfl, rfl, ?_⟩) ⟨_, by rw [resetTag_get?, if_pos rfl, hy]; rfl⟩
      unfold cutReply; simp only; split <;> rfl
    · refine ih _ ?_ ⟨y, by rw [resetTag_get?, if_neg hk]; exact hy⟩
      rcases hj with h | ⟨z, h1, h2⟩
      · left; simpa [hk] using h
      · right; exact ⟨z, by rw [resetTag_get?, if_neg hk]; exact h1, h2⟩
theorem resetTags_other (ks : List Nat) (s : State) (j : Nat) (hj : j ∉ ks) : Tbl.get? (ks.foldl (fun s k => resetTag k s) s).tags j = Tbl.get? s.tags j := by
  induction ks generalizing s with
  | nil => rfl
  | cons k ks ih =>
    simp only [List.mem_cons, not_or] at hj
    simp only [List.foldl_cons]; rw [ih _ hj.2, resetTag_get?, if_neg hj.1]

/-- Every instance of `s` is in `t`, with the same PASID, state and fence. -/
def Keeps (s t : State) : Prop := ∀ n i, Tbl.get? s.insts n = some i →
  ∃ j, Tbl.get? t.insts n = some j ∧ j.pasid = i.pasid ∧ j.st = i.st ∧ j.fenced = i.fenced
theorem Keeps.refl (s : State) : Keeps s s := fun _ i h => ⟨i, h, rfl, rfl, rfl⟩
theorem Keeps.of {s t : State} (h : t.insts = s.insts) : Keeps s t := fun _ i hi => ⟨i, by rw [h]; exact hi, rfl, rfl, rfl⟩
theorem Keeps.trans {s t u : State} (h : Keeps s t) (h' : Keeps t u) : Keeps s u := fun n i hi => by
  obtain ⟨j, j1, j2, j3, j4⟩ := h n i hi
  obtain ⟨l, l1, l2, l3, l4⟩ := h' n j j1
  exact ⟨l, l1, by rw [l2, j2], by rw [l3, j3], by rw [l4, j4]⟩
theorem Keeps.inst (n : Nat) (f : Inst → Inst) (s : State) (h : ∀ i, (f i).pasid = i.pasid ∧ (f i).st = i.st ∧ (f i).fenced = i.fenced) :
    Keeps s (modInst n f s) := fun m i hi => by
  by_cases e : m = n
  · subst e; exact ⟨f i, by simp only [modInst, Tbl.get?_modify, if_true, hi, Option.map_some], h i⟩
  · exact ⟨i, by simp only [modInst, Tbl.get?_modify, if_neg e, hi], rfl, rfl, rfl⟩
theorem Keeps.fold {α : Type} (l : List α) (f : State → α → State) (h : ∀ s a, Keeps s (f s a)) (s : State) : Keeps s (l.foldl f s) := by
  induction l generalizing s with
  | nil => exact Keeps.refl s
  | cons a l ih => exact (h s a).trans (ih _)
theorem Keeps.raise (n : Nat) (e : Event) (s : State) : Keeps s (raise n e s) := Keeps.inst _ _ _ fun i => by
  unfold queueEvent; split
  · exact ⟨rfl, rfl, rfl⟩
  · split <;> exact ⟨rfl, rfl, rfl⟩
theorem Keeps.setPort (p : Nat) (st : PortSt) (s : State) : Keeps s (setPort p st s) := by
  unfold Machine.setPort
  refine Keeps.trans ?_ (Keeps.of (announce_get _ _ .insts (by decide)))
  unfold spanChange
  exact Keeps.trans (Keeps.of rfl) (Keeps.raise _ _ _)
theorem Keeps.undoJoin (s : State) : Keeps s (undoJoin s) := by
  unfold Machine.undoJoin
  refine Keeps.trans (Keeps.fold _ _ ?_ s) (Keeps.of rfl)
  intro s p; split
  · exact Keeps.refl s
  · refine Keeps.trans (t := modEPort p (fun q => { q with retry := [], waiting := [] }) s) (Keeps.of rfl) (Keeps.setPort _ _ _)
theorem Keeps.dropWork (k : Nat) (t : Tag) (s : State) : Keeps s (dropWork k t s) := by
  unfold Machine.dropWork
  refine Keeps.trans (t := dropUnits k (dropWorkers k (releaseLock k s))) (Keeps.of ?_) ?_
  · show State.get _ .insts = _; simp; rfl
  generalize dropUnits k (dropWorkers k (releaseLock k s)) = u
  have hw : Keeps u (match t.work with
    | .forwarded => dropXact k (cancelXact k u)
    | .keyGrant => dropXact k u
    | .joining => Machine.undoJoin u
    | .note => dropNote k u
    | .mirror => freeWaits k u
    | .lastUser => unnameTag k u
    | _ => u) := by
    split
    all_goals first
      | exact Keeps.refl _
      | exact Keeps.undoJoin _
      | exact Keeps.inst _ _ _ (fun i => by split <;> exact ⟨rfl, rfl, rfl⟩)
      | exact Keeps.of (show State.get _ .insts = State.get _ .insts by simp)
  have h1 : ∀ w : State, (if w.spn.leaving = some k then { w with spn := { w.spn with leaving := none } } else w).insts = w.insts := fun w => by split <;> rfl
  have h2 : ∀ w : State, Keeps w (if (pkOpcode t.packet == opCodec || pkOpcode t.packet == opCodecResume) && t.started then
      putCtx (keyInst k) (pkContext t.packet) none (if w.spn.leaving = some k then { w with spn := { w.spn with leaving := none } } else w)
      else (if w.spn.leaving = some k then { w with spn := { w.spn with leaving := none } } else w)) := fun w => by
    refine Keeps.of ?_
    split
    · rw [show (putCtx _ _ _ _).insts = _ from putCtx_get _ _ _ _ .insts (by decide)]; exact h1 w
    · exact h1 w
  exact hw.trans (h2 _)
theorem Keeps.resetTag (k : Nat) (s : State) : Keeps s (resetTag k s) := by
  unfold Machine.resetTag
  split
  · exact Keeps.refl s
  · refine Keeps.trans ?_ (Keeps.of rfl)
    split
    · exact Keeps.refl s
    · exact Keeps.dropWork _ _ _
theorem freeObjects_insts (n : Nat) (s : State) : (freeObjects n s).insts =
    Tbl.modify s.insts n (fun i => { i with mbox := { resetMbox with word := i.mbox.word, noteTag := i.mbox.noteTag } }) := by
  unfold freeObjects; simp only [modInst]; congr 1
  show State.get _ .insts = State.get s .insts
  simp
theorem busyOf_has (s : State) (n : Nat) (p : Nat × Tag) (h : p ∈ busyOf s n) : ∃ y, Tbl.get? s.tags p.1 = some y := by
  have h := (List.mem_filter.mp h).1
  cases hg : Tbl.get? s.tags p.1 with
  | some y => exact ⟨y, rfl⟩
  | none =>
    exfalso; revert h hg
    generalize s.tags = l
    induction l with
    | nil => simp
    | cons a l ih =>
      obtain ⟨k, v⟩ := a
      intro h hg
      unfold Tbl.get? at hg
      split at hg
      · cases hg
      · rcases List.mem_cons.mp h with h | h
        · subst h; rename_i hne; exact hne rfl
        · exact ih h hg
theorem resetInstance_tags (n : Nat) (st : InstSt) (s : State) (j : Nat) : Tbl.get? (resetInstance n st s).tags j =
    Tbl.get? (((busyOf s n).map Prod.fst).foldl (fun s k => resetTag k s) (cancelOwner n (modInst n (fun i => { i with fenced := true, st := st }) s))).tags j := by
  unfold resetInstance
  have hb : busyOf (cancelOwner n (modInst n (fun i => { i with fenced := true, st := st }) s)) n = busyOf s n := by
    have h : (cancelOwner n (modInst n (fun i => { i with fenced := true, st := st }) s)).tags = s.tags :=
      cancelOwner_get _ _ .tags (by decide)
    unfold busyOf; rw [h]
  simp only [hb]
  rw [show (freeObjects n _).tags = _ from freeObjects_get _ _ .tags (by decide)]; rfl
theorem resetInstance_inst (n : Nat) (st : InstSt) (s : State) (i : Inst) (h : Tbl.get? s.insts n = some i) :
    ∃ j, Tbl.get? (resetInstance n st s).insts n = some j ∧ j.fenced = true ∧ j.st = st ∧ j.pasid = i.pasid ∧ j.mbox.pend = false ∧ j.mbox.deliv = false := by
  unfold resetInstance
  simp only [freeObjects_insts, Tbl.get?_modify, if_true]
  obtain ⟨j, j1, j2, j3, j4⟩ := Keeps.fold ((busyOf (cancelOwner n (modInst n (fun i => { i with fenced := true, st := st }) s)) n).map Prod.fst)
    (fun s k => resetTag k s) (fun s k => Keeps.resetTag k s) (cancelOwner n (modInst n (fun i => { i with fenced := true, st := st }) s)) n
    { i with fenced := true, st := st } (by
      rw [show (cancelOwner n _).insts = _ from cancelOwner_get _ _ .insts (by decide)]
      show Tbl.get? (modInst n _ s).insts n = _; rw [modInst_get?, if_pos rfl, h, Option.map_some])
  exact ⟨{ j with mbox := { resetMbox with word := j.mbox.word, noteTag := j.mbox.noteTag } }, by rw [j1, Option.map_some], j4, j3, j2, rfl, rfl⟩
theorem resetInstance_aborted (n : Nat) (st : InstSt) (s : State) : ∀ p ∈ busyOf s n, ∃ y,
    Tbl.get? (resetInstance n st s).tags p.1 = some y ∧ y.st = .done ∧ y.reply.status = stAbortedByReset := by
  intro p hp
  rw [resetInstance_tags]
  obtain ⟨y, hy⟩ := busyOf_has s n p hp
  refine resetTags_get? _ _ _ (Or.inl (List.mem_map_of_mem hp)) ⟨y, ?_⟩
  rw [show (cancelOwner n _).tags = _ from cancelOwner_get _ _ .tags (by decide)]; exact hy
theorem resetInstance_keeps (n : Nat) (st : InstSt) (s : State) (k : Nat) (hk : keyInst k ≠ n) :
    Tbl.get? (resetInstance n st s).tags k = Tbl.get? s.tags k := by
  rw [resetInstance_tags, resetTags_other, show (cancelOwner n _).tags = _ from cancelOwner_get _ _ .tags (by decide)]; rfl
  intro h; obtain ⟨p, hp, rfl⟩ := List.mem_map.mp h
  exact hk (by simpa using (List.mem_filter.mp hp).2)
theorem beginReset_all (st : InstSt) (r0 : Nat → Nat) (p : List Byte) (k : Nat) (s : State) (i : Inst) (g : Tag)
    (hi : Tbl.get? s.insts (field p 36 1) = some i) (hk : keyInst k ≠ field p 36 1) (hg : Tbl.get? s.tags k = some g) (hs : g.st = .running) :
    Ended (beginReset st r0 p k s) k stOk (r0 (busyOf s (field p 36 1)).length) 0 ∧
    (∀ p' ∈ busyOf s (field p 36 1), ∃ y, Tbl.get? (beginReset st r0 p k s).tags p'.1 = some y ∧ y.st = .done ∧ y.reply.status = stAbortedByReset) ∧
    (∃ j, Tbl.get? (beginReset st r0 p k s).insts (field p 36 1) = some j ∧ j.fenced = true ∧ j.st = st ∧ j.pasid = i.pasid ∧ j.mbox.pend = false ∧ j.mbox.deliv = false) := by
  unfold beginReset
  simp only [Tbl.has, hi, Option.isSome_some, if_true]
  have ht := resetInstance_keeps (field p 36 1) st s k hk
  rw [hg] at ht
  refine ⟨⟨_, by rw [modTag_get?, if_pos rfl, finishWith_get?, if_pos rfl, ht]; rfl, ?_, ?_⟩, ?_, ?_⟩
  · rfl
  · simp [hs]
  · intro q hq
    obtain ⟨y, y1, y2⟩ := resetInstance_aborted _ st s q hq
    have hne : q.1 ≠ k := fun h => hk (by rw [← h]; simpa using (List.mem_filter.mp hq).2)
    exact ⟨y, by rw [modTag_get?, if_neg hne, finishWith_get?, if_neg hne]; exact y1, y2⟩
  · have hr := resetInstance_inst (field p 36 1) st s i hi
    generalize resetInstance (field p 36 1) st s = u at hr ⊢
    have : (modTag k (fun t => { t with work := .resetting }) (finishWith k stOk (r0 (busyOf s (field p 36 1)).length) 0 u)).insts = u.insts :=
      finishWith_get k stOk (r0 (busyOf s (field p 36 1)).length) 0 u .insts (by decide)
    rw [this]; exact hr
theorem get_glb (u : State) (g : Glb) (x : Part) (hx : x ≠ .glb) : ({ u with glb := g } : State).get x = u.get x := by
  cases x <;> first | rfl | exact absurd rfl hx
theorem trace_hold (kind ctx engine : Nat) (owner : Option Nat) (aux arg : Nat) (s : State) : (trace kind ctx engine owner aux arg s).sch.hold = s.sch.hold := by
  unfold trace; simp only; repeat' split
  all_goals rfl
theorem modVol_get? (v m : Nat) (f : Vol → Vol) (s : State) : vol? (modVol v f s) m = if m = v then (vol? s v).map f else vol? s m := Tbl.get?_modify _ _ _ _
theorem drbgUsed_flc (s : State) : (drbgUsed s).flc = s.flc := flc_of_get (drbgUsed_get _ .flc (by decide))
theorem get_flc (u : State) (g : Flc) (x : Part) (hx : x ≠ .flc) : ({ u with flc := g } : State).get x = u.get x := by
  cases x <;> first | rfl | exact absurd rfl hx
theorem dropRef_vols (v : Nat) (f : Nat → Bool) (s : State) : (dropRef v f s).flc.vols = s.flc.vols := rfl
theorem finishDurable_one (k g : Nat) (r : Reply) (s : State) : finishDurable k [g] r s = modTag k (fun t => { t with work := .durable, reply := r, groups := [g] }) s := rfl
theorem unmapAll_vol (v m : Nat) (s : State) : vol? (unmapAll v s) m =
    if m = v then (vol? s v).map (fun u => { u with data := [], durable := [], map := [], mapDurable := [] }) else vol? s m := by
  rw [show vol? (unmapAll v s) m = Tbl.get? (Tbl.modify s.flc.vols v (fun u => { u with data := [], durable := [], map := [], mapDurable := [] })) m from rfl, Tbl.get?_modify]; rfl
theorem destroyKey_vol (v m : Nat) (s : State) : vol? (destroyKey v s) m =
    if m = v then (vol? s v).map (fun u => { u with key := 0, keyGood := false }) else vol? s m := modVol_get? v m _ { s with sec := { s.sec with volKeys := Tbl.erase s.sec.volKeys v } }
theorem deleteVolume_all (v : Nat) (s : State) (u : Vol) (h : vol? s v = some u) : ∃ w,
    w = modVol v (fun u => { u with serves := false, deleted := true }) (discardVolumePackages v (unmapAll v (destroyKey v s))) ∧
    vol? w v = some { u with serves := false, deleted := true, key := 0, keyGood := false, data := [], durable := [], map := [], mapDurable := [] } ∧
    Tbl.get? w.sec.volKeys v = none ∧ (∀ p ∈ w.bsh.packages, p.vol ≠ v) ∧ (∀ m, m ≠ v → vol? w m = vol? s m) ∧
    OnlyIn [.bsh, .sec, .flc] s w ∧ w.tags = s.tags ∧ w.flc.nextGroup = s.flc.nextGroup := by
  have hd : ∀ m x, vol? (discardVolumePackages v x) m = vol? x m := fun _ _ => rfl
  refine ⟨_, rfl, ?_, ?_, ?_, ?_, ?_, ?_, ?_⟩
  · rw [modVol_get?, if_pos rfl, hd, unmapAll_vol, if_pos rfl, destroyKey_vol, if_pos rfl, h]; rfl
  · show Tbl.get? (Tbl.erase s.sec.volKeys v) v = none
    rw [Tbl.get?_erase]; simp
  · intro p hp; have := (List.mem_filter.mp hp).2; simpa using this
  · intro m hm; rw [modVol_get?, if_neg hm, hd, unmapAll_vol, if_neg hm, destroyKey_vol, if_neg hm]
  · intro x hx; simp at hx; simp [hx]
  · simp only [modVol, discardVolumePackages, unmapAll, dropRef, destroyKey]
  · simp only [modVol, discardVolumePackages, unmapAll, dropRef, destroyKey]
theorem newVolumeKey_vol (v m : Nat) (s : State) : vol? (newVolumeKey v s) m =
    if m = v then (vol? s v).map (fun u => { u with epoch := Tbl.getD s.flc.epochs v 0 + 1, lc := s.otp.ladderLc, key := drbgBits s, keyGood := true }) else vol? s m := by
  unfold newVolumeKey vol?; rw [drbgUsed_flc]; exact modVol_get? v m _ _
theorem sanitOne_vol (k v n : Nat) (s : State) :
    (n ≠ v → vol? (sanitOne k s v) n = vol? s n) ∧
    (∀ u, vol? s v = some u → ∃ y, vol? (sanitOne k s v) v = some y ∧ y.capacity = u.capacity ∧ y.map = [] ∧ y.data = [] ∧ y.serves = u.serves ∧
      (k ≠ 0 → y.key = u.key ∧ y.keyGood = u.keyGood)) := by
  have hd : ∀ m x, vol? (discardVolumePackages v x) m = vol? x m := fun _ _ => rfl
  unfold sanitOne; simp only
  split
  · rename_i hk
    refine ⟨fun hn => ?_, fun u hu => ?_⟩
    · rw [newVolumeKey_vol, if_neg hn, destroyKey_vol, if_neg hn, hd, unmapAll_vol, if_neg hn]
    · rw [newVolumeKey_vol, if_pos rfl, destroyKey_vol, if_pos rfl, hd, unmapAll_vol, if_pos rfl, hu]; exact ⟨_, rfl, rfl, rfl, rfl, rfl, fun h => absurd hk h⟩
  · refine ⟨fun hn => ?_, fun u hu => ?_⟩
    · rw [hd, unmapAll_vol, if_neg hn]
    · rw [hd, unmapAll_vol, if_pos rfl, hu]; exact ⟨_, rfl, rfl, rfl, rfl, rfl, fun h => ⟨rfl, rfl⟩⟩
theorem sanitOne_fold (k : Nat) (l : List Nat) (s : State) :
    (∀ n ∈ l, ∀ u, vol? s n = some u → ∃ y, vol? (l.foldl (sanitOne k) s) n = some y ∧ y.capacity = u.capacity ∧ y.map = [] ∧ y.data = [] ∧ y.serves = u.serves ∧
      (k ≠ 0 → y.key = u.key ∧ y.keyGood = u.keyGood)) ∧
    (∀ n, n ∉ l → vol? (l.foldl (sanitOne k) s) n = vol? s n) := by
  induction l generalizing s with
  | nil => simp
  | cons a l ih =>
    simp only [List.foldl_cons]
    obtain ⟨i1, i2⟩ := ih (sanitOne k s a)
    refine ⟨fun n hn u hu => ?_, fun n hn => ?_⟩
    · by_cases hna : n = a
      · subst hna
        obtain ⟨y, y1, y2, y3, y4, y5, y6⟩ := (sanitOne_vol k n n s).2 u hu
        by_cases hl : n ∈ l
        · obtain ⟨z, z1, z2, z3, z4, z5, z6⟩ := i1 n hl y y1
          exact ⟨z, z1, by rw [z2, y2], z3, z4, by rw [z5, y5], fun h => ⟨by rw [(z6 h).1, (y6 h).1], by rw [(z6 h).2, (y6 h).2]⟩⟩
        · exact ⟨y, by rw [i2 n hl]; exact y1, y2, y3, y4, y5, y6⟩
      · have hl : n ∈ l := by simpa [hna] using hn
        exact i1 n hl u (by rw [(sanitOne_vol k a n s).1 hna]; exact hu)
    · simp only [List.mem_cons, not_or] at hn
      rw [i2 n hn.2, (sanitOne_vol k a n s).1 hn.1]
theorem sanitOne_only (k : Nat) (l : List Nat) (s : State) : OnlyIn [.bsh, .sec, .flc, .fresh] s (l.foldl (sanitOne k) s) := by
  induction l generalizing s with
  | nil => intro x _; rfl
  | cons a l ih => intro x hx; simp only [List.foldl_cons]; rw [ih _ x hx]; simp at hx; simp [hx]
theorem spn_of_spn (s : State) (x : Part) (hx : x ≠ .spn) (g : Spn) : ({ s with spn := g } : State).get x = s.get x := by
  cases x <;> first | rfl | exact absurd rfl hx
/-- What flits sent leave of a port: all but its sequence and its buffers. -/
def SameLink (s t : State) : Prop := ∀ p, (eport t p).st = (eport s p).st ∧ (eport t p).since = (eport s p).since ∧
  (eport t p).downs = (eport s p).downs ∧ (eport t p).rxSeq = (eport s p).rxSeq ∧ (eport t p).rxValid = (eport s p).rxValid ∧
  (eport t p).nakSent = (eport s p).nakSent ∧ (eport t p).neighbour = (eport s p).neighbour ∧ (eport t p).nbPort = (eport s p).nbPort
theorem SameLink.refl (s : State) : SameLink s s := fun _ => ⟨rfl, rfl, rfl, rfl, rfl, rfl, rfl, rfl⟩
theorem SameLink.trans {s t u : State} (a : SameLink s t) (b : SameLink t u) : SameLink s u := fun p => by
  obtain ⟨a1, a2, a3, a4, a5, a6, a7, a8⟩ := a p; obtain ⟨b1, b2, b3, b4, b5, b6, b7, b8⟩ := b p
  exact ⟨b1.trans a1, b2.trans a2, b3.trans a3, b4.trans a4, b5.trans a5, b6.trans a6, b7.trans a7, b8.trans a8⟩
theorem SameLink.of {s t : State} (h : t.spn.ports = s.spn.ports) : SameLink s t := fun p => by
  unfold eport; rw [h]; exact ⟨rfl, rfl, rfl, rfl, rfl, rfl, rfl, rfl⟩
theorem eport_mod (p r : Nat) (f : EPort → EPort) (s : State) : eport (modEPort p f s) r =
    if r = p ∧ (Tbl.get? s.spn.ports p).isSome then f (eport s p) else eport s r := by
  unfold eport Tbl.getD modEPort; simp only [Tbl.get?_modify]
  by_cases h : r = p
  · subst h; cases Tbl.get? s.spn.ports r <;> simp
  · simp [h]
theorem SameLink.mod (p : Nat) (f : EPort → EPort) (s : State) (h : ∀ q, (f q).st = q.st ∧ (f q).since = q.since ∧ (f q).downs = q.downs ∧
    (f q).rxSeq = q.rxSeq ∧ (f q).rxValid = q.rxValid ∧ (f q).nakSent = q.nakSent ∧ (f q).neighbour = q.neighbour ∧ (f q).nbPort = q.nbPort) :
    SameLink s (modEPort p f s) := fun r => by
  rw [eport_mod]; split
  · rename_i hr; rw [hr.1]; exact h _
  · exact ⟨rfl, rfl, rfl, rfl, rfl, rfl, rfl, rfl⟩
theorem SameLink.fold {α : Type} (l : List α) (f : State → α → State) (h : ∀ s a, SameLink s (f s a)) (s : State) : SameLink s (l.foldl f s) := by
  induction l generalizing s with
  | nil => exact SameLink.refl s
  | cons a l ih => exact (h s a).trans (ih _)
theorem nextEnded_set (s : State) (i k : Nat) (v : Worker) (h : nextEnded s k = none) (hv : v.st ≠ .ended) :
    nextEnded { s with dmz := { s.dmz with workers := Tbl.set s.dmz.workers i v } } k = none := by
  unfold nextEnded at *
  rw [List.find?_eq_none] at *
  intro q hq
  have : q = (i, v) ∨ q ∈ s.dmz.workers := by
    revert hq; show q ∈ Tbl.set s.dmz.workers i v → _
    generalize s.dmz.workers = l
    induction l with
    | nil => intro hq; simp [Tbl.set] at hq; exact Or.inl hq
    | cons a l ih =>
      obtain ⟨k', v'⟩ := a
      intro hq; unfold Tbl.set at hq
      split at hq
      · rcases List.mem_cons.mp hq with h | h
        · exact Or.inl h
        · exact Or.inr h
      · split at hq
        · rcases List.mem_cons.mp hq with h | h
          · exact Or.inl h
          · exact Or.inr (List.mem_cons_of_mem _ h)
        · rcases List.mem_cons.mp hq with h | h
          · exact Or.inr (by rw [h]; exact List.mem_cons_self)
          · rcases ih h with h | h
            · exact Or.inl h
            · exact Or.inr (List.mem_cons_of_mem _ h)
  rcases this with h' | h'
  · subst h'; simp [hv]
  · exact h q h'
theorem settleRecords_none (k n : Nat) (s : State) (h : nextEnded s k = none) : settleRecords k n s = s := by
  cases n with
  | zero => rfl
  | succ n => simp [settleRecords, h]
theorem damzu_makes {s : State} {i word : Nat} {w : Worker} {p : Prog} (h : AtWord s i word w p) (hop : bits word 26 6 ≠ 0x3C)
    (v : Worker) (hv : perform s p word { w with count := w.count + 1 } = v) (hne : v.st ≠ .ended) (hs : v.searches = w.searches) :
    damzu i word s = .next { s with dmz := { s.dmz with workers := Tbl.set s.dmz.workers i v } } := by
  obtain ⟨h1, h2, h3, h4, h5, h6, h7⟩ := h
  have hi : issue s p word w = v := by rw [← hv]; unfold issue; rw [if_neg (by omega)]
  unfold damzu; simp only [h1, h2, act, h3, h4, h5, hi, hs, if_true]
  simp only [beq_self_eq_true, Bool.and_self, Bool.true_and]
  rw [if_pos (by simp [hop]), settleRecords_none _ _ _ (nextEnded_set _ _ _ _ h7 hne)]
theorem Gives_ok (d : Nat) (x : BitVec 64) (w : Worker) : (Gives d x w).st = w.st ∧ (Gives d x w).searches = w.searches := by
  unfold Gives flowNext setG; split <;> exact ⟨rfl, rfl⟩
@[simp] theorem setG_pc (d : Nat) (x : BitVec 64) (w : Worker) : (setG d x w).pc = w.pc := by unfold setG; split <;> rfl
theorem RR (op d a b : Nat) (ho : op < 64) (hd : d < 16) (ha : a < 16) (hb : b < 16) : bits (wordRR op d a b) 26 6 = op ∧ bits (wordRR op d a b) 22 4 = d ∧
    bits (wordRR op d a b) 18 4 = a ∧ bits (wordRR op d a b) 14 4 = b := by
  unfold bits wordRR; refine ⟨?_, ?_, ?_, ?_⟩ <;> omega
theorem RI (op d a i : Nat) (ho : op < 64) (hd : d < 16) (ha : a < 16) (hb : i < 2 ^ 18) : bits (wordRI op d a i) 26 6 = op ∧ bits (wordRI op d a i) 22 4 = d ∧
    bits (wordRI op d a i) 18 4 = a ∧ bits (wordRI op d a i) 0 18 = i := by
  unfold bits wordRI; refine ⟨?_, ?_, ?_, ?_⟩ <;> omega
theorem rr_gives {s : State} {i op : Nat} {d a b : Fin 16} {w : Worker} {p : Prog} (h : AtWord s i (wordRR op d a b) w p) (ho : 1 ≤ op) (ho' : op ≤ 12) :
    damzu i (wordRR op d a b) s = .next { s with dmz := { s.dmz with workers := Tbl.set s.dmz.workers i (Gives d (aluRR op (getG w a) (getG w b)) { w with count := w.count + 1 }) } } := by
  obtain ⟨e1, e2, e3, e4⟩ := RR op d a b (by omega) d.2 a.2 b.2
  refine damzu_makes h (by rw [e1]; omega) _ ?_ (by rw [(Gives_ok _ _ _).1, h.2.2.2.1]; decide) (Gives_ok _ _ _).2
  unfold perform; simp only [e1, e2, e3, e4, ho, ho', and_self, if_true]
  rw [setG_pc]; rfl
theorem ri_gives {s : State} {i op : Nat} {d a : Fin 16} {n : Nat} {w : Worker} {p : Prog} (h : AtWord s i (wordRI op d a n) w p) (hn : n < 2 ^ 18) (ho : 16 ≤ op) (ho' : op ≤ 24) :
    damzu i (wordRI op d a n) s = .next { s with dmz := { s.dmz with workers := Tbl.set s.dmz.workers i (Gives d (aluRI op (getG w d) (getG w a) n) { w with count := w.count + 1 }) } } := by
  obtain ⟨e1, e2, e3, e4⟩ := RI op d a n (by omega) d.2 a.2 hn
  refine damzu_makes h (by rw [e1]; omega) _ ?_ (by rw [(Gives_ok _ _ _).1, h.2.2.2.1]; decide) (Gives_ok _ _ _).2
  unfold perform; rw [if_neg (by rw [e1]; omega)]; simp only [e1, e2, e3, e4, ho, ho', and_self, if_true]
  rw [setG_pc]; rfl
theorem modChan_id (c : Nat) (s : State) : modChan c id s = s := by
  unfold modChan Tbl.modify; simp

end Sys2Proof.Machine
end

