-- ==== Sys2Proof/WellFormed.lean ====
section
/-! DEFINITION. Which operands a command can have: the bounds that the types of Syntax.lean do not give. A command with other operands is no
happening of the part; the meanings answer it all the same. -/

namespace Sys2Proof

/-- A write of 1 to 64 bytes, its value within them. -/
def wfStore (size value : Nat) : Bool := decide (1 ≤ size ∧ size ≤ 64 ∧ value < 2 ^ (8 * size))

/-- A slice has one of 16 windows (R372). -/
def wfWindow (slice : Bool) (win : Fin 64) : Bool := !slice || decide (win.val < 16)

/-- HEAD of an instance window, of one of 16 slice windows, or of one of 4 page logs. -/
def wfTarget (target : Fin 3) (n : Fin 64) : Bool :=
  if target = 0 then true else if target = 1 then decide (n.val < 16) else decide (n.val < 4)

/-- At least one byte, within the BAR: 128 KiB of BAR0, 64 windows of 64 KiB, or 16 slice windows and the MSI-X structures in 128 KiB. -/
def wfWrite (bar : Fin 3) (off : Nat) (data : List Byte) : Bool :=
  decide (1 ≤ data.length ∧ off + data.length ≤ if bar = 1 then 0x400000 else 0x20000)

/-- Lanes of a pool: 9 of decompression, 5 of compression, 12 of AES (Table 1.1). -/
def laneCount (pool : Fin 3) : Nat := if pool = 0 then 9 else if pool = 1 then 5 else 12

/-- No number twice. -/
def nodup (l : List Nat) : Bool := decide l.Nodup

/-- A page of one of 256 dies, with at least one code word, and lost blocks of volumes 0 to 255. -/
def wfPage (die : Nat) (cws : List (Fin 7)) (lost : List (Nat × Nat)) : Bool :=
  decide (die < 256) && !cws.isEmpty && lost.all (fun b => decide (b.1 < 256))

/-- A die is found once, and is not refused as well; a rate that the field holds. -/
def wfFound (rate : Nat) (dies : List FoundDie) (refused : List (Fin 16)) : Bool :=
  decide (rate < 4096) && nodup (dies.map (fun d => d.1.val)) && dies.all (fun d => !refused.contains d.1 && decide (d.2.2.1 ≤ 3 ∧ d.2.2.2.1 ≤ 256))

/-- At least one flipped position, each below the width of the code word (R310, R312), none twice. -/
def wfFlips (width : Nat) (l : List Nat) : Bool := !l.isEmpty && nodup l && l.all (fun i => decide (i < width))

/-- Bit errors of granules of DRAM. -/
def wfGranules (nature : List (Bool × Nat × List Nat)) : Bool := nature.all (fun e => wfFlips 523 e.2.2)

/-- A Span ID and a transaction number (R390). -/
def wfXact (id xid : Nat) : Bool := decide (id < 65536 ∧ xid < 2 ^ 32)

/-- A link of 0 (none), 1, 2 or 4 lanes, or of 8 (R457), and a mask of its lanes. -/
def wfLink (width : Nat) (speed : Fin 6) (polarity : Nat) : Bool :=
  [0, 1, 2, 4, 8].contains width && (width == 0 || decide (0 < speed.val)) && decide (polarity < 256)

/-- What the phases of a start-up can find. -/
def wfOutcome (o : StartOutcome) : Bool :=
  o.failed.all (fun f => decide (f.1 < 10)) && nodup (o.pairs.map (fun p => p.1.val)) && nodup (o.channels.map (fun c => c.ch.val))
    && o.channels.all (fun c => wfFound c.rate c.dies c.refused) && (o.rails.isEmpty || o.rails.length == 8) && o.rails.all (fun v => decide (v < 65536))

/-- The operands are within their bounds. -/
def Instr.wf (i : Instr) : Bool :=
  match i with
  | .twPost _ _ _ size value => wfStore size value
  | .slPost _ _ _ size value => wfStore size value
  | .twRingCfgWrite _ slice win _ => wfWindow slice win
  | .twRingBaseWrite _ slice win _ _ => wfWindow slice win
  | .twRingHeadWrite _ target n _ => wfTarget target n
  | .twIrqStsClear .. | .coalTimeExpiry .. => true
  | .twMboxDb _ slice win _ => wfWindow slice win
  | .registerWrite _ bar off data => wfWrite bar off data
  | .glbSeqLoRead .. | .glbTimeLoRead .. | .glbRecovAddrLoRead .. | .schTraceData3Read .. | .traceClear ..
  | .commandStart .. | .rangeLockGrant .. | .replyCommit .. | .eventWrite .. | .stopped .. | .read ..
  | .write .. | .readAsset .. | .installChunk .. | .flush .. | .trim .. | .verify .. | .scan ..
  | .indexSearch .. | .indexInsert .. | .indexDeleteEntry .. | .indexDeleteKey .. | .indexStep ..
  | .programLoad .. | .programUnload .. | .codecDecompress .. | .codecCompress .. | .codecResume ..
  | .codecSave .. | .codecRestore .. | .abort .. | .mailboxNote .. | .licenseLoad .. | .revocationListLoad ..
  | .licenseDrop .. | .sealOpen .. | .sealClose .. | .attest .. | .logRead .. | .featureSet .. | .featureGet ..
  | .fwStage .. | .fwActivate .. | .activationSwitch | .activationSwitchEnd .. | .instanceCreate ..
  | .instanceDestroy .. | .instanceReset .. | .volumeCreate .. | .volumeDelete .. | .spanJoin .. | .spanLeave ..
  | .spanMirrorSet .. | .sanitizeCryptographicErase .. | .sanitizeBlockErase .. | .sanitizeOverwrite ..
  | .deviceReset .. | .spanDeadline .. | .hostReadError .. => true
  | .stageUnitDone _ _ _ lane _ outcome by_ _ => decide (lane < 256 ∧ outcome < 256 ∧ by_ < 256)
  | .laneFault pool lane by_ _ => decide (lane < laneCount pool ∧ by_ < 256)
  | .shaLaneFault _ by_ _ => decide (by_ < 256)
  | .pkEngineFault .. => true
  | .softDecoderFault _ by_ _ => decide (by_ < 256)
  | .post .. | .eventQueueStall .. | .spawn .. | .dispatch .. | .preemption .. | .sliceExpiry .. | .wait_ ..
  | .yield .. | .exit_ .. | .cancel .. | .engineStopped .. | .checkpointInterval .. | .checkpointApplyDone ..
  | .engineFault .. => true
  | .epoch uses => nodup (uses.map (fun u => u.1.val))
  | .recordEntry .. | .add .. | .sub .. | .mul .. | .and_ .. | .or_ .. | .xor .. | .shl .. | .shr .. | .sltu ..
  | .seq .. | .ctz .. | .popc .. | .addi .. | .andi .. | .ori .. | .shli .. | .shri .. | .sltui .. | .seqi ..
  | .movh .. | .bswap .. | .ldr .. | .ldk .. | .lds .. | .sts .. | .vldr .. | .vldk .. | .vlds .. | .vsts ..
  | .vcmpeq .. | .vcmpgtu .. | .vand .. | .vor .. | .vxor .. | .vsplat .. | .vmask .. | .beq .. | .bne ..
  | .bltu .. | .bgeu .. | .loop .. | .lidx .. | .emitr .. | .emits .. | .emitg .. | .cnt .. | .idxs ..
  | .trap .. | .end_ .. | .cursorIdleExpiry .. | .respreadMove .. | .idxTableCreate .. | .idxTableDelete ..
  | .idxTableEmpty .. | .idxScrub .. | .indexBankFault .. => true
  | .pageReadDone die _ cws _ _ lost _ => wfPage die cws lost
  | .programDone _ die _ _ _ _ _ _ _ => decide (die < 256)
  | .eraseDone _ die _ _ _ _ => decide (die < 256)
  | .journalPageDurable .. | .gcSelect .. => true
  | .gcCopyVerified _ vol _ _ => decide (vol < 256)
  | .gcEraseSource .. | .mapSegmentWrite .. => true
  | .patrolRead die _ cws _ _ lost _ _ => wfPage die cws lost
  | .refresh _ die _ _ allots => decide (die < 256) && allots.all (fun a => decide (a.1 < 256))
  | .wearLevelMove .. => true
  | .dieTimeout die _ => decide (die < 256)
  | .rebuildDone die => decide (die < 256)
  | .channelLost .. | .evacuate .. | .release .. => true
  | .inserted _ _ _ _ rate dies refused => wfFound rate dies refused
  | .sramScrub _ _ _ nature _ _ => nature.all (fun e => wfFlips 13 e.2)
  | .dramScrub _ _ _ nature _ => nature.all (fun e => wfFlips 523 e.2)
  | .hogsheadBankReplace .. | .firkinLineRemap .. => true
  | .dramSideFail _ _ dropped _ => dropped.all (fun b => decide (b.1 < 256))
  | .cacheFill _ _ nature => wfGranules nature
  | .prefetch _ _ nature => wfGranules nature
  | .writeBufferDrain nature => wfGranules nature
  | .cacheDisable .. | .cacheEnable .. | .cchWayPwrWrite .. | .cacheWayFault .. | .memInjArm .. | .drainSet ..
  | .drainCleared .. | .mgrInstCtlPortWrite .. | .ack .. | .send .. | .exportInst .. | .importInst ..
  | .mgrLogCtlWrite .. | .pageLogEntry .. | .sync .. | .logMarker .. => true
  | .flitReceived _ bytes => bytes.length == 256
  | .nak .. | .lanesTrained .. | .trainingTimeout .. | .hello .. | .helloTimeout .. | .exletPortFail ..
  | .portRetryTimer .. | .announceTimer | .announce .. | .membershipExpiry .. => true
  | .req origin xid _ _ _ _ => wfXact origin xid
  | .pairSeqGapExpiry .. => true
  | .resp home xid _ _ => wfXact home xid
  | .cancelFlit origin xid => wfXact origin xid
  | .spanResendExpiry xid => decide (xid < 2 ^ 32)
  | .abortRespTimeout .. => true
  | .mirrorWrite origin xid => wfXact origin xid
  | .mirrorAck copy xid => wfXact copy xid
  | .mirrorGraceExpiry copy xid => wfXact copy xid
  | .resyncPassEnd v _ => decide (v < 256)
  | .primarySuperseded origin xid => wfXact origin xid
  | .probe origin xid => wfXact origin xid
  | .probeResp home xid => wfXact home xid
  | .bind .. | .unbind .. => true
  | .keyReq origin xid => wfXact origin xid
  | .keyGrant anchorId xid => wfXact anchorId xid
  | .pairMiscompare .. | .refclkLoss .. | .pllRelock .. | .rootReqChange .. => true
  | .hostPortFail _ vectors _ => vectors.all (fun v => decide (v < 2048))
  | .linkReturn _ width speed _ polarity => wfLink width speed polarity && decide (0 < width)
  | .spareCheck .. => true
  | .railBelowWarning _ mv => decide (mv < 65536)
  | .railsAboveWarning mvs => mvs.length == 8 && mvs.all (fun v => decide (v < 65536))
  | .dwellEnd | .dipLong => true
  | .railOverVoltage _ mv _ => decide (mv < 65536)
  | .railBelowReset _ mv => decide (mv < 65536)
  | .pwrFailAssert | .flushDone | .pwrFailDeassert | .holdupRdyChange .. => true
  | .sensorSample _ reading => reading.all (fun t => decide (-32768 ≤ t ∧ t < 32768))
  | .thermalTrip _ temp => decide (-32768 ≤ temp ∧ temp < 32768)
  | .powerCapEstimate .. | .retrainStart .. => true
  | .retrainDone _ _ dropped _ => dropped.all (fun b => decide (b.1 < 256))
  | .entropyHealthFail | .entropyRetest .. | .drbgReseed => true
  | .commit _ made => made.all (fun b => decide (b < 128))
  | .secUnlockDataWrite .. | .submit .. | .restart .. | .otpProgDataWrite .. => true
  | .otpGo _ misses => misses.all (fun m => decide (m.1 < 2048 ∧ m.2 < 8))
  | .otpRestart .. | .go .. | .shutdown .. | .resume .. | .dbgRead .. | .dbgWrite .. | .powerOnReset .. => true
  | .startupPhaseEnd o => wfOutcome o
  | .perstNAssert .. => true
  | .perstNRelease _ width speed _ polarity => wfLink width speed polarity
  | .functionLevelReset .. | .d3hotEntry .. | .d3hotExit .. | .status | .tempMax | .thermState
  | .wear | .spare | .id | .temps | .rails | .health | .smbusWrite .. | .extest
  | .idcode => true
  | .samplePreload pins shifted => pins.length == shifted.length
  | .clamp | .highz => true
  | .dap _ off _ => decide (off % 4 = 0 ∧ off < 0x20000)
  | .bypass | .healthLogWrite | .learnedRepairWrite => true
  | .homeBudgetExpiry origin xid => wfXact origin xid
  | .joinSettleExpiry | .activityToggle => true

end Sys2Proof
end

