-- ==== Sys2Proof/Tests/Slice0.lean ====
section
/-! SUPPORT. Small checks: what `Instr.wf` refuses, and for every statement of Obligations.lean a concrete state and
operands that meet the hypotheses of each of its clauses together. Each theorem is about one state; none runs a program. -/

namespace Sys2Proof.Tests

set_option Elab.async false

open Sys2Proof.Machine

/-- A packet of opcode `op` with these fields laid over zeros: (offset, bytes, value). -/
def pkt (op : Nat) (fs : List (Nat × Nat × Nat)) : List Byte :=
  fs.foldl (fun p f => overlay p f.1 (leBytes f.2.1 f.2.2)) (BitVec.ofNat 8 op :: List.replicate 63 0)

/-- A RUNNING tag at work on a packet. -/
def atTag (p : List Byte) : Tag :=
  { st := .running, packet := p, seq := 0, seq16 := 0, intakeSeq := 0, order := 0, started := true, work := .working
    groups := [], uses := [], cursor := 0, after := none, reply := {} }

/-- Instance `n` as a native instance of function 0, its ring enabled. -/
def native (n : Nat) : Inst :=
  { resetInst0 with pasid := n, vecBase := 32 * n, ring := { resetRing 9 with enable := true } }

/-- Slice instance `n` in slice window `w` of function 0, its ring enabled. -/
def slice (n w : Nat) : Inst :=
  { native n with slice := true, sliceWin := w, ring := { resetRing 6 with enable := true } }

/-- A host port whose link is up and whose PERST_N is released. -/
def live : HPort := { resetHPort with linkUp := true, perst := false }

/-- A part in STAGE 8: both ports up, instances 0 and 1 native, instance 2 a slice in window 15. -/
def up : State :=
  { State.reset with
    glb := { resetGlb 0 1 0 with stage := 8, seq := 10, seqLimit := 2 ^ 20, seqJournaled := 2 ^ 20 }
    hif := { resetHif 0 0 with port0 := live, port1 := live }
    insts := [(0, native 0), (1, native 1), (2, slice 2 15)] }

/-- `up` with tag `tag` of instance `n` as `g`. -/
def upTag (n tag : Nat) (g : Tag) : State := { up with tags := [(tagKey n tag, g)] }

/-- `s` with instance `n` as `i`. -/
def withInst (n : Nat) (i : Inst) (s : State) : State := { s with insts := Tbl.set s.insts n i }

/-- An empty local volume of 64 blocks, assigned to every instance. -/
def vol : Vol :=
  { capacity := 64, compress := false, access := 2 ^ 64 - 1, serves := true, epoch := 1, lc := 2, key := 1, keyGood := true
    data := [], durable := [], map := [], mapDurable := [], exported := false, deleted := false, mirror := none }

/-- Channel 0 in service, with a die at its position 0. -/
def chan : Chan := { resetChan with st := .inService, rate := 2400 }
def die : Die := newDie 0 0 512 100 0

/-- The key of the tag the witnesses use: tag 255 of instance 1. -/
abbrev key : Nat := 511

/-- `up` with volume 5 and its key. -/
def upVol : State :=
  { up with flc := { resetFlc with vols := [(5, vol)], channels := [(0, chan)], dies := [(0, die)] }, sec := { resetSec with volKeys := [(5, 1)], pkOk := 3 } }

/-- The exclusive lock of the tag over blocks 0 to 7 of volume 5. -/
def lock : Lock := { tag := key, vol := 5, first := 0, len := 8, excl := true, held := true, order := 0 }

/-- `upVol` with tag 255 of instance 1 at work on packet `p`, holding `lock`. -/
def busy (p : List Byte) : State := { upVol with tags := [(key, atTag p)], locks := [lock] }

/-- As `busy`, in instance 0. -/
def busy0 (p : List Byte) : State := { upVol with tags := [(255, atTag p)], locks := [{ lock with tag := 255 }] }


/-- PostIsAccepted: tags 0 and 255 of a native instance, tags 0 and 31 of a slice. -/
theorem wit_PostIsAccepted :
    nativeAt up 0 1 = some (native 1) ∧ acceptsPosts up (native 1) = true ∧
    Tbl.has up.tags (tagKey 1 (bits 0 0 8)) = false ∧ Tbl.has up.tags (tagKey 1 (bits 0xFF 0 8)) = false ∧
    sliceAt up 0 15 = some (2, slice 2 15) ∧ acceptsPosts up (slice 2 15) = true ∧
    Tbl.has up.tags (tagKey 2 (bits 0 0 5)) = false ∧ Tbl.has up.tags (tagKey 2 (bits 31 0 5)) = false := by decide +kernel

/-- PostIsRefused: a busy tag, and rings that are off; a malformed post of 16 bytes at place 0. -/
theorem wit_PostIsRefused :
    (∀ s ∈ [upTag 1 0xFF (atTag []), upTag 2 31 (atTag [])], nativeAt s 0 1 = some (native 1) ∧ acceptsPosts s (native 1) = true ∧
      sliceAt s 0 15 = some (2, slice 2 15) ∧ acceptsPosts s (slice 2 15) = true) ∧
    Tbl.has (upTag 1 0xFF (atTag [])).tags (tagKey 1 (bits 0xFF 0 8)) = true ∧
    Tbl.has (upTag 2 31 (atTag [])).tags (tagKey 2 (bits 31 0 5)) = true ∧
    nativeAt (withInst 1 resetInst0 up) 0 1 = some resetInst0 ∧ resetInst0.ring.enable = false ∧
    sliceAt (withInst 2 { slice 2 15 with ring := resetRing 6 } up) 0 15 = some (2, { slice 2 15 with ring := resetRing 6 }) ∧
    ¬((0 : Fin 8) = 0 ∧ 16 = 8) ∧ ¬((7 : Fin 8) = 0 ∧ 8 = 8) ∧ ¬((3 : Fin 4) = 0 ∧ 4 = 4) ∧ ¬((0 : Fin 4) = 0 ∧ 8 = 4) := by
  decide +kernel

/-- A FLUSH that waits to start, and one with a volume named in a field that must be 0. -/
def queued (p : List Byte) : Tag := { atTag p with st := .queued, started := false }

/-- CommandStarts: a FLUSH that starts, and one whose VOLUME is wrong. -/
theorem wit_CommandStarts :
    startsNow (upTag 1 255 (queued (pkt opFlush []))) (tagKey (1 : Fin 64) (255 : Fin 256)) (queued (pkt opFlush [])) = true ∧
    failedCheck (upTag 1 255 (queued (pkt opFlush []))) 1 (native 1) (queued (pkt opFlush [])) = none ∧
    readOnlyWrong (upTag 1 255 (queued (pkt opFlush []))) (pkt opFlush []) = false ∧
    lockOps.contains (pkOpcode (pkt opFlush [])) = false ∧
    homeOf upVol 5 = none ∧
    startsNow (upTag 1 255 (queued (pkt opFlush [(2, 2, 1)]))) key (queued (pkt opFlush [(2, 2, 1)])) = true ∧
    failedCheck (upTag 1 255 (queued (pkt opFlush [(2, 2, 1)]))) 1 (native 1) (queued (pkt opFlush [(2, 2, 1)])) =
      some { status := stBadField, r0 := 2 } := by decide +kernel

/-- RangeLockIsGranted: a READ whose entry waits for nothing. -/
theorem wit_RangeLockIsGranted :
    let s := { busy (pkt opRead []) with locks := [{ lock with held := false }] }
    serving s = true ∧ lockOwnerRuns s key = true ∧ lockGrantable s key = true := by decide +kernel

/-- RepliesAndEventsReachTheRing: a DONE tag, and an event that waits. -/
theorem wit_RepliesAndEventsReachTheRing :
    canCommit (upTag 1 255 { atTag (pkt opFlush []) with st := .done }) key { atTag (pkt opFlush []) with st := .done } (native 1) = true ∧
    up.glb.resetTag = none ∧
    (let i := { native 1 with ring := { (native 1).ring with evtQ := [⟨1, 0, 0, 0⟩] } }
     let s := withInst 1 i up
     Tbl.get? s.insts 1 = some i ∧ canWriteEntry s 1 i = true ∧ (busyOf s 1).length < ringFree i.ring) := by decide +kernel

/-- AbortsCatchTheirTarget: an ABORT of tag 0 posted in tag 255, whose target is FREE, QUEUED, RUNNING; and a STOPPED target. -/
theorem wit_AbortsCatchTheirTarget :
    let p := pkt opAbort [(40, 4, 7)]
    let g := queued p
    let u : Tag := { queued (pkt opFlush []) with seq := 7 }
    let s1 := upTag 1 255 g
    let s2 := { up with tags := [(256, u), (511, g)] }
    let s3 := { up with tags := [(256, { u with st := .running }), (511, g)] }
    pkOpcode p = opAbort ∧ field p 36 2 < 256 ∧ field p 36 2 ≠ (255 : Fin 256) ∧
    (∀ s ∈ [s1, s2, s3], powered s = true ∧ Tbl.get? s.tags key = some g ∧ failedCheck s 1 (native 1) g = none ∧
      Tbl.get? s.insts 1 = some (native 1)) ∧
    Tbl.get? s1.tags (tagKey 1 (field p 36 2)) = none ∧ Tbl.get? s2.tags (tagKey 1 (field p 36 2)) = some u ∧
    Tbl.get? s3.tags (tagKey 1 (field p 36 2)) = some { u with st := .running } ∧
    u.seq = field p 40 4 ∧ unabortableOps.contains (pkOpcode u.packet) = false ∧
    prefixOps.contains (pkOpcode u.packet) = false := by decide +kernel

/-- ReadDelivers: a READ and a VERIFY of the first block, with one block lost or none; a buffer of 4,096 bytes takes as many. -/
theorem wit_ReadDelivers :
    let r := pkt opRead [(2, 2, 5), (16, 4, 1), (32, 4, 4096)]
    let v := pkt opVerify [(2, 2, 5), (16, 4, 1)]
    (Working opRead (busy r) (tagKey (1 : Fin 64) (255 : Fin 256)) (atTag r) ∧ lockHeld (busy r) key = true ∧ mayWrite (busy r) 1 = true ∧
      (busy r).bsh.enable = true ∧ rangePacked (busy r) 5 0 1 = false ∧ vol? (busy r) (pkVolume r) = some vol ∧
      failingBlocks vol (pkLba r) (pkLength r) (lostIn (busy r) key 5 0 1 []) ([] ++ unitBlocks (busy r) key 0 1 stInternal) = [] ∧
      failingBlocks vol (pkLba r) (pkLength r) (lostIn (busy r) key 5 0 1 []) ([0] ++ unitBlocks (busy r) key 0 1 stInternal) =
        [(0, stInternal)]) ∧
    (Working opVerify (busy v) key (atTag v) ∧ lockHeld (busy v) key = true ∧ vol? (busy v) (pkVolume v) = some vol) ∧
    pkSgl r = false ∧ (List.replicate 4096 (1 : Byte)).length ≤ pkBufLen r := by
  unfold Working; decide +kernel

/-- WriteWaitsForItsGroups: a WRITE of one block to the end of its volume, ending well or after its one unit. -/
theorem wit_WriteWaitsForItsGroups :
    let w := pkt opWrite [(2, 2, 5), (8, 8, 63), (16, 4, 1), (32, 4, 4096)]
    Working opWrite (busy w) key (atTag w) ∧ lockHeld (busy w) key = true ∧
      (busy w).bsh.enable = true ∧ writeCompresses (busy w) w = false ∧ vol? (busy w) (pkVolume w) = some vol ∧
      unitBlocks (busy w) key (pkLba w) (pkLength w) stInternal = [] ∧ keyLost (busy w) (pkVolume w) = false ∧
      vol.mirror = none ∧ mayHold (busy w) 1 w vol = false ∧ 0 < pkLength w ∧ 0 < prefixBlocks (pkLba w) (pkLength w) 1 := by
  unfold Working; decide +kernel

/-- HeldWritesReplyAtOnce: a WRITE of an instance under write-back, which holds nothing of it yet; a TRIM; a FLUSH. -/
theorem wit_HeldWritesReplyAtOnce :
    let w := pkt opWrite [(2, 2, 5), (16, 4, 1), (32, 4, 4096)]
    let t := pkt opTrim [(2, 2, 5), (16, 4, 1)]
    (Working opTrim (busy t) key (atTag t) ∧ lockHeld (busy t) key = true ∧ vol? (busy t) (pkVolume t) = some vol ∧
      mayHold (busy t) 1 t vol = false ∧ 0 < pkLength t) ∧
    (Working opFlush (busy (pkt opFlush [])) key (atTag (pkt opFlush [])) ∧
      earlierWrite (busy (pkt opFlush [])) 1 (atTag (pkt opFlush [])).order = false ∧ heldData (busy (pkt opFlush [])) = false) ∧
    Working opWrite (busy w) key (atTag w) ∧ pkFua w = false := by
  unfold Working; decide +kernel

/-- While the write-back buffers have room (their size is free, log entry 102), such a WRITE may be held. -/
theorem wit_HeldWritesReplyAtOnce_held (room : 1 ≤ Config.writeBackMib) :
    let w := pkt opWrite [(2, 2, 5), (16, 4, 1), (32, 4, 4096)]
    let s := { busy w with insts := Tbl.set up.insts 1 { native 1 with feat := { resetFeat with writeBack := true } },
                           pwr := { resetPwr with holdup := 4095 } }
    Working opWrite s key (atTag w) ∧ lockHeld s key = true ∧ s.bsh.enable = true ∧ vol? s (pkVolume w) = some vol ∧
      unitBlocks s key (pkLba w) (pkLength w) stInternal = [] ∧ keyLost s (pkVolume w) = false ∧ mayHold s 1 w vol = true := by
  have lim (s : State) (h : 1 ≤ ((s.pwr.holdup * 50 - 2000) * (flushRate s * 10)) / 1048576) : 0 < limitMib s := by
    unfold limitMib; omega
  unfold Working; dsimp only; and_intros
  iterate 8 (· decide +kernel)
  unfold mayHold
  simp only [Bool.and_eq_true, decide_eq_true_eq]
  refine ⟨by decide +kernel, ?_⟩
  exact Nat.mul_pos (by decide) (lim _ (by decide +kernel))

/-- RegisterWritesSetFields: each register answers both functions; a locked SEC block; a part in reset answers at none; the first and
the last word of a slot, its tag busy or FREE. -/
theorem wit_RegisterWritesSetFields :
    (∀ fn : Fin 2, ∀ off ∈ [0x0C, 0x8000, 0xC000, 0x16000, 0x18004, 0x0D], bar0Answers up fn off = true) ∧
    (let s := { up with otp := resetOtp [(0x208, 4)], sec := { resetSec with lock := true } }
     bar0Answers s 0 0xC000 = true ∧ lifecycle s.otp = 2 ∧ s.sec.lock = true) ∧
    bar0Answers State.reset 0 0 = false ∧
    nativeAt (upTag 1 255 (atTag [])) 0 1 = some (native 1) ∧ Tbl.has (upTag 1 255 (atTag [])).tags (tagKey 1 255) = true ∧
    nativeAt up 0 1 = some (native 1) ∧ Tbl.has up.tags (tagKey 1 0) = false ∧
    (8 % 8 = 0 ∧ ∃ t, exec (.registerWrite 0 0 8 [1, 0, 0, 0]) up = .next t) := by
  refine ⟨?_, ?_, ?_, ?_, ?_, ?_, ?_, by decide, _, rfl⟩ <;> decide +kernel

/-- DebugPortReadsAndWrites: a BLANK part in STAGE 8, its scopes open; over the port and from function 0; target 7 is not there. -/
theorem wit_DebugPortReadsAndWrites :
    (∀ src : Fin 3, dbgFrom up src = true) ∧ (∀ t ∈ [0, 1, 2, 3, 4], dbgReaches up t = true) ∧ dbgReaches up 7 = false ∧
    (let s := { up with dbg := { addr := 2 ^ 25 - 4, data := 1 } }
     dbgFrom s 2 = true ∧ dbgReaches s 0 = true ∧ s.dbg.addr + 4 ≤ 2 ^ 25 ∧ inTwin s.mem s.dbg.addr = false ∧
       inTwin s.mem (s.dbg.addr + 1) = false ∧ inTwin s.mem (s.dbg.addr + 2) = false ∧ inTwin s.mem (s.dbg.addr + 3) = false) ∧
    powered up = true ∧ dapReaches up 0xC040 = true ∧ dapReaches up 0x19010 = true := by decide +kernel

theorem bytesAt_append_left (a b : List Byte) (o n : Nat) (h : o + n ≤ a.length) : bytesAt (a ++ b) o n = bytesAt a o n := by
  unfold bytesAt
  rw [List.drop_append_of_le_length (by omega), List.take_append_of_le_length (by simp; omega)]

theorem bytesAt_append_right (a b : List Byte) (o n : Nat) (h : a.length ≤ o) : bytesAt (a ++ b) o n = bytesAt b (o - a.length) n := by
  unfold bytesAt
  rw [List.drop_append, List.drop_eq_nil_of_le h, List.nil_append]

theorem bytesAt_whole (a : List Byte) : bytesAt a 0 a.length = a := by simp [bytesAt]

/-- `s` with these bytes of host memory at address 4,096 of a PASID. -/
def hostHas (pasid : Nat) (bs : List Byte) (s : State) : State :=
  { s with hostMem := (bs.zipIdx 4096).map (fun p => (2 ^ 64 * pasid + p.2, p.1)) }

theorem get?_zipIdx (bs : List Byte) (k n j : Nat) (h : j < bs.length) :
    Tbl.get? ((bs.zipIdx n).map (fun p => (k + p.2, p.1))) (k + (n + j)) = some (bs.getD j 0) := by
  induction bs generalizing n j with
  | nil => simp at h
  | cons b bs ih =>
    cases j with
    | zero => simp [Tbl.get?]
    | succ j =>
      have : k + (n + (j + 1)) ≠ k + n := by omega
      simp only [List.zipIdx_cons, List.map_cons, Tbl.get?, this, if_false]
      have := ih (n + 1) j (by simpa using h)
      simpa [Nat.add_assoc, Nat.add_comm 1 j] using this

/-- Those bytes are what the part reads there. -/
theorem hostRead_hostHas (pasid : Nat) (bs : List Byte) (s : State) (h : bs.length ≤ 2 ^ 20) :
    hostRead (hostHas pasid bs s) pasid 4096 bs.length = bs := by
  apply List.ext_getElem
  · simp [hostRead]
  · intro j h1 h2
    have e : (4096 + j) % 2 ^ 64 = 4096 + j := Nat.mod_eq_of_lt (by omega)
    have g := get?_zipIdx bs (2 ^ 64 * pasid) 4096 j h2
    simp only [hostRead, List.getElem_map, List.getElem_range, Cells.read, hostKey, hostHas, e, g, Option.getD_some]
    simp [List.getElem?_eq_getElem h2]

/-- A container of two words, END twice, with `h` in its HASH field. -/
def container (h : List Byte) : List Byte :=
  pkt 0x5A [(1, 3, 0x4B3744), (4, 2, 1), (8, 4, 8), (20, 4, 1), (26, 2, 512)] ++
    (h ++ (List.replicate 16 0 ++ (leBytes 4 0xF8000000 ++ leBytes 4 0xF8000000)))

/-- The SHA-384 of what HASH covers in it (log entry 6). -/
def hash : List Byte := leBytes 48 (Config.sha384 (hashed (container (List.replicate 48 0)))).toNat

/-- That container with its own hash. -/
def goodContainer : List Byte := container hash

theorem hash_length : hash.length = 48 := rfl

theorem hashed_container (h : List Byte) (l : h.length = 48) : hashed (container h) = hashed (container (List.replicate 48 0)) := by
  have pre (x : List Byte) (o n : Nat) (b : o + n ≤ 64) : bytesAt (container x) o n =
      bytesAt (pkt 0x5A [(1, 3, 0x4B3744), (4, 2, 1), (8, 4, 8), (20, 4, 1), (26, 2, 512)]) o n := bytesAt_append_left _ _ _ _ b
  have post (x : List Byte) (n : Nat) (b : x.length = 48) : bytesAt (container x) 128 n =
      bytesAt (List.replicate 16 0 ++ (leBytes 4 0xF8000000 ++ leBytes 4 0xF8000000)) 16 n := by
    unfold container
    rw [bytesAt_append_right _ _ _ _ (by decide +kernel), bytesAt_append_right _ _ _ _ (by
      rw [show (pkt 0x5A _).length = 64 from by decide +kernel]; omega), b]
    rfl
  unfold hashed field
  rw [pre h 0 64 (by omega), pre h 8 4 (by omega), pre h 12 4 (by omega), post h _ l, pre _ 0 64 (by omega), pre _ 8 4 (by omega),
    pre _ 12 4 (by omega), post _ _ (by simp)]

/-- The hash of the good container is right. -/
theorem goodContainer_verifies : verifyHeader goodContainer 136 = none := by
  have a : firstWrong (rule2 goodContainer) = none := by decide +kernel
  have b : firstWrong (rule3 goodContainer) = none := by decide +kernel
  unfold verifyHeader
  rw [if_neg (by decide +kernel), a, b]
  refine if_pos ?_
  unfold goodContainer
  rw [hashed_container _ hash_length]
  unfold field container
  rw [bytesAt_append_right _ _ _ _ (by decide +kernel), bytesAt_append_left _ _ _ _ (by rw [hash_length]; decide +kernel)]
  exact congrArg leNat (bytesAt_whole hash)

/-- ProgramsLoadAndUnload: a container whose length is wrong, one that must be signed and is not, one that loads into slot 0; a program
without users and with one. -/
theorem wit_ProgramsLoadAndUnload :
    let p := pkt opProgramLoad [(24, 8, 4096), (32, 4, 136)]
    let q := pkt opProgramLoad [(24, 8, 4096), (32, 4, 136), (36, 4, 1)]
    let u := pkt opProgramUnload []
    (Working opProgramLoad (busy p) key (atTag p) ∧ pkServes (busy p) = true ∧
      verifyHeader (gather (busy p) 1 p 0 (min (pkBufLen p) 131400)) (pkBufLen p) = some (1, 0)) ∧
    (∀ x ∈ [p, q], Working opProgramLoad (hostHas 1 goodContainer (busy x)) key (atTag x) ∧
      gather (hostHas 1 goodContainer (busy x)) 1 x 0 (min (pkBufLen x) 131400) = goodContainer ∧ pkBufLen x = 136) ∧
    bit (field goodContainer 6 2) 0 = false ∧ bit (field q 36 4) 0 = true ∧
    (bit (field p 36 4) 0 || progSigReq (busy p)) = false ∧ verifyCode (busy p) 1 goodContainer = none ∧
    Tbl.lowestFree (busy p).dmz.progs 0 256 = some 0 ∧ Tbl.countIf (busy p).dmz.progs (fun _ x => x.inst == 1) < 16 ∧
    Working opProgramUnload (busy u) key (atTag u) ∧ inUse (busy u) (.program (pkHandle u % 256)) = false ∧
    (let g := { atTag u with uses := [.program 0] }
     Working opProgramUnload { upVol with tags := [(key, g)] } key g ∧
       inUse { upVol with tags := [(key, g)] } (.program (pkHandle u % 256)) = true) := by
  intro p q u
  have good (x : List Byte) (h : x = p ∨ x = q) : gather (hostHas 1 goodContainer (busy x)) 1 x 0 (min (pkBufLen x) 131400) = goodContainer ∧
      pkBufLen x = 136 := by
    have e : pkBufLen x = 136 := by rcases h with rfl | rfl <;> decide +kernel
    have r := hostRead_hostHas 1 goodContainer (busy x) (by rw [show goodContainer.length = 136 from rfl]; decide)
    refine ⟨?_, e⟩
    have b : bufferOf (hostHas 1 goodContainer (busy x)) 1 x = some [(4096, 136)] := by rcases h with rfl | rfl <;> decide +kernel
    have n : pasidOf (hostHas 1 goodContainer (busy x)) 1 = 1 := rfl
    rw [show goodContainer.length = 136 from rfl] at r
    unfold gather
    rw [b, n, e]
    simpa [runsSlice] using r
  unfold Working
  refine ⟨by decide +kernel, ?_, ?_⟩
  · intro x hx
    refine ⟨?_, good x (by simpa using hx)⟩
    revert x; simp only [List.mem_cons, List.not_mem_nil, or_false, forall_eq_or_imp, forall_eq]
    and_intros <;> decide +kernel
  · and_intros <;> decide +kernel

/-- A program of two END words in slot 0 of instance 1. -/
def prog : Prog :=
  { st := .loaded, inst := 1, gen := 0, code := leBytes 4 0xF8000000 ++ leBytes 4 0xF8000000, const := [], scratchLen := 0, defBudget := 1
    defFraming := 0, defFrameArg := 512, tables := [], hash := 0, unloadTag := none }

/-- ScanRunsTheRecords: a scan of one block by that program, and a worker that enters its last record. -/
theorem wit_ScanRunsTheRecords :
    let p := pkt opScan [(2, 2, 5), (16, 4, 1), (32, 4, 128), (58, 2, 2048)]
    let s := { busy p with dmz := { resetDmz with progs := [(0, prog)] } }
    Working opScan s key (atTag p) ∧ lockHeld s key = true ∧ mayWrite s 1 = true ∧ scanUnitsRun s (pkHandle p) = true ∧
      progAt s (pkHandle p) = some prog ∧ firstWrong (scanFields p) = none ∧ field p 48 4 = 0 ∧ pkSeal p = false ∧ 128 ≤ pkBufLen p ∧
      (recordInput s 1 key p).isSome = true ∧ abortComing s key = false ∧
      (recordInput s 1 key p).bind (fun ci => recordAt ci.1.framing ci.1.arg ci.2 1 0) = some (2048, 2048) ∧
      workerFree s 0 key 1 = true := by
  unfold Working; decide +kernel

/-- A package of one chunk of 16 bytes, its record in block 1, kept for licence slot 0 over volume 5. -/
def package : Package :=
  { vol := 5, lba := 0, licence := 0, header := pkt 0 [(16, 4, 1), (20, 4, 16), (24, 4, 1), (28, 4, 2)], dirBlocks := 1
    directory := leBytes 4 1 ++ leBytes 4 96, dict := none, used := 0 }

/-- The licence of slot 0, for title 0. -/
def licence : Lic :=
  { st := .loaded, inst := 1, gen := 0, licenceId := 0, titleId := 0, keyGen := 0, grouped := false, group := 0, sealRequired := false
    scanAllowed := true, key := 0, dropTag := none }

/-- `busy p`, with that package kept and that licence. -/
def asset (p : List Byte) : State :=
  { busy p with bsh := { resetBsh with packages := [package] }, sec := { resetSec with volKeys := [(5, 1)], licences := [(0, licence)] } }

/-- The fields of a chunk record of 16 payload bytes. -/
def record : List (Nat × Nat × Nat) := [(0, 4, 0x4B374348), (12, 4, 16), (16, 4, 16)]

/-- Is there an answer that meets `f`? -/
def okIs {ε α : Type} (f : α → Bool) : Except ε α → Bool
  | .ok a => f a
  | .error _ => false

theorem ok_of {ε α : Type} {x : Except ε α} (f : α → Bool) (h : okIs f x = true) : ∃ a, x = .ok a ∧ f a = true := by
  cases x with
  | ok a => exact ⟨a, rfl, h⟩
  | error _ => simp [okIs] at h

/-- Is there none? -/
def isError {ε α : Type} : Except ε α → Bool
  | .ok _ => false
  | .error _ => true

theorem error_of {ε α : Type} {x : Except ε α} (h : isError x = true) : ∃ e, x = .error e := by
  cases x with
  | ok _ => simp [isError] at h
  | error e => exact ⟨e, rfl⟩

/-- AssetsAreReadAndInstalled: a READ_ASSET and an INSTALL_CHUNK that ask for a chunk behind the last, or for chunk 0. -/
theorem wit_AssetsAreReadAndInstalled :
    let bad := pkt opReadAsset [(2, 2, 5), (16, 4, 2), (32, 4, 4096), (36, 4, 1), (40, 4, 1)]
    let good := pkt opReadAsset [(2, 2, 5), (16, 4, 2), (32, 4, 4096), (40, 4, 1)]
    let wrong := pkt opInstallChunk [(2, 2, 5), (16, 4, 96), (24, 8, 4096), (32, 4, 96), (36, 4, 1)]
    let put := pkt opInstallChunk [(2, 2, 5), (16, 4, 96), (24, 8, 4096), (32, 4, 96)]
    let checks (p : List Byte) := packageChecks (asset p) (volumeReader (asset p) p [] []) 1 key (pkHandle p % 256) (field p 36 4)
      (field p 40 4) (field p 40 4) false p (fun h => decide (assetLen (asset p) 1 p (field p 36 4) (field p 40 4) h ≤ pkBufLen p))
    let host (s : State) : State := { s with hostMem := (pkt 0 record).zipIdx.map (fun p => (2 ^ 64 + (4096 + p.2), p.1)) }
    let inst (p : List Byte) := installChecks (host (asset p)) (volumeReader (host (asset p)) p [] []) p
      (gather (host (asset p)) 1 p 0 (pkLength p)) vol.capacity
    (∀ p ∈ [bad, good], Working opReadAsset (asset p) key (atTag p) ∧ lockHeld (asset p) key = true ∧ mayWrite (asset p) 1 = true ∧
      (asset p).bsh.enable = true ∧ field p 48 4 = 0) ∧
    (∃ e, checks bad = .error e) ∧ (∃ a, checks good = .ok a ∧ a.2.isNone = true) ∧
    (let s := { asset wrong with locks := [] }
     Working opInstallChunk s key (atTag wrong) ∧ s.locks.any (fun l => l.tag == key) = false ∧ vol? s (pkVolume wrong) = some vol ∧
       ∃ e, installChecks s (volumeReader s wrong [] []) wrong (gather s 1 wrong 0 (pkLength wrong)) vol.capacity = .error e) ∧
    Working opInstallChunk (host (asset put)) key (atTag put) ∧ lockHeld (host (asset put)) key = true ∧
      vol? (host (asset put)) (pkVolume put) = some vol ∧ vol.mirror = none ∧ mayHold (host (asset put)) 1 put vol = false ∧
      ∃ a, inst put = .ok a ∧ (a.1 == 1 && a.2.1 == 1) = true := by
  unfold Working
  refine ⟨by decide +kernel, error_of (by decide +kernel), ok_of _ (by decide +kernel), ⟨by decide +kernel, by decide +kernel,
    by decide +kernel, error_of (by decide +kernel)⟩, by decide +kernel, by decide +kernel, by decide +kernel, rfl, by decide +kernel,
    ok_of _ (by decide +kernel)⟩

/-- The record of the package's chunk. -/
def recordBlock : List Byte := pkt 0 record ++ List.replicate 32 0

/-- Where the AES lanes open that record (log entry 6), its chunk is delivered. -/
theorem wit_AssetsAreReadAndInstalled_chunk
    (opens : Config.gcmOpen 0 (bytesAt recordBlock 24 12) (bytesAt recordBlock 0 64) (bytesAt recordBlock 64 (96 - 80))
      (bytesAt recordBlock (96 - 16) 16) = some (List.replicate 16 0)) :
    let p := pkt opReadAsset [(2, 2, 5), (16, 4, 2), (32, 4, 4096), (40, 4, 1)]
    let s := { asset p with flc := { resetFlc with vols := [(5, { vol with data := (pkt 0 record).zipIdx.map (fun p => (4096 + p.2, p.1)) })] } }
    (assetLoop (chunkAt s key (volumeReader s p [] []) 0 { header := package.header, directory := package.directory, dict := none } [])
      (fun _ => false) 0 0 1).status = stOk := by
  intro p s
  have r : chunkRecord (volumeReader s p [] []) package.directory 0 = (stOk, recordBlock) := by decide +kernel
  have l : dirLen package.directory 0 = 96 := by decide +kernel
  have c : (chunkAt s key (volumeReader s p [] []) 0 { header := package.header, directory := package.directory, dict := none } [] 0).status =
      stOk := by
    unfold chunkAt chunkStages
    rw [if_neg (by decide +kernel), r, l, show titleKey s 0 = some 0 by decide +kernel,
      show (slotRevoked s 0 && !pastGcm s key 0) = false by decide +kernel]
    simp only [opens]
    decide +kernel
  unfold assetLoop
  rw [if_neg (by simpa using c)]
  rfl

/-- An index table of 1,024 indexes with keys of 32 bits, matched whole: table 255 of instance 1. -/
def itable : ITable :=
  { owner := 1, keyBits := 32, matchBits := 32, size := 1024, base := 0, hole := 8, gen := 0, respread := false }

/-- An entry of that table. -/
def ientry (key prio : Nat) : IEntry := { table := 255, key := key, tag := keyTag8 itable key, prio := prio, data := 9 }

/-- A cursor of instance 1 over the entries of key 0, at the one of priority 0 and index 0. -/
def cursor : Cursor :=
  { gen := 1, live := true, table := 255, key := 0, inst := 1, prio := 0, index := 0, used := 0, stepTag := none, next := none }

/-- `busy p`, with that table holding these entries. -/
def indexed (p : List Byte) (es : Tbl IEntry) : State :=
  { busy p with idx := { resetIdx with bankOk := 0x1FFFF, tables := [(255, itable)], entries := es, cursors := [(1, cursor)] } }

/-- IndexSearchFindsTheFirstMatch: no match, one, and two, the second before the first. -/
theorem wit_IndexSearchFindsTheFirstMatch :
    let p := pkt opIndexSearch [(20, 4, 255)]
    (∀ es ∈ [[], [(0, ientry 0 0)], [(0, ientry 0 1), (1, ientry 0 0)]],
      IndexWorking opIndexSearch (indexed p es) key (atTag p) 255 itable) ∧
    matchesOf (indexed p []) 255 itable (pkKey p) = [] ∧
    matchesOf (indexed p [(0, ientry 0 0)]) 255 itable (pkKey p) = [(0, 0)] ∧
    1 < (matchesOf (indexed p [(0, ientry 0 1), (1, ientry 0 0)]) 255 itable (pkKey p)).length ∧
    firstMatch (matchesOf (indexed p [(0, ientry 0 1), (1, ientry 0 0)]) 255 itable (pkKey p)) = some (0, 1) ∧
    firstMatch [(1, 0), (0, 1)] = some (0, 1) := by
  unfold IndexWorking Working; decide +kernel

/-- IndexStepsInsertsDeletes: a step with none, one and two matches left; an insert over an entry, into a free place, into a full
table; the deletes. -/
theorem wit_IndexStepsInsertsDeletes :
    let p := pkt opIndexStep [(20, 4, 255), (36, 2, 4097)]
    let e : Tbl IEntry := [(0, ientry 0 0)]
    let later (es : Tbl IEntry) := (matchesOf (indexed p es) 255 itable 0).filter (fun m => matchBefore (0, 0) m)
    (∀ es ∈ [e, e ++ [(1, ientry 0 1)], e ++ [(1, ientry 0 1), (2, ientry 0 1)]],
      IndexWorking opIndexStep (indexed p es) key (atTag p) 255 itable ∧ stepPending (indexed p es) p = false ∧
        cursorOf (indexed p es) 1 (field p 36 2) = some cursor ∧ cursor.table = 255) ∧
    later e = [] ∧ later (e ++ [(1, ientry 0 1)]) = [(1, 1)] ∧ 1 < (later (e ++ [(1, ientry 0 1), (2, ientry 0 1)])).length ∧
    firstMatch (later (e ++ [(1, ientry 0 1), (2, ientry 0 1)])) = some (1, 1) ∧
    (let i := pkt opIndexInsert [(20, 4, 255), (36, 4, 2 ^ 32 - 1), (58, 2, 65535)]
     let old := ientry (2 ^ 32 - 1) 65535
     let small : ITable := { itable with size := 0 }
     IndexWorking opIndexInsert (indexed i [(0, old)]) key (atTag i) 255 itable ∧ pkKey i < 2 ^ itable.keyBits ∧
       sameEntry (indexed i [(0, old)]) 255 (pkKey i) (field i 58 2) = some (0, old) ∧
       IndexWorking opIndexInsert (indexed i []) key (atTag i) 255 itable ∧
       sameEntry (indexed i []) 255 (pkKey i) (field i 58 2) = none ∧ (place 255 itable old (indexed i [])).isSome = true ∧
       (let s := { indexed i [] with idx := { (indexed i []).idx with tables := [(255, small)] } }
        IndexWorking opIndexInsert s key (atTag i) 255 small ∧ sameEntry s 255 (pkKey i) (field i 58 2) = none ∧
          (place 255 small old s).isNone = true)) ∧
    (∀ d ∈ [pkt opIndexDelete [(20, 4, 255)], pkt opIndexDelete [(20, 4, 255), (54, 1, 1)],
        pkt opIndexDelete [(20, 4, 255), (52, 2, 1), (54, 1, 1)]],
      IndexWorking opIndexDelete (indexed d e) key (atTag d) 255 itable ∧
        (field d 54 1 = 0 ∨ (field d 54 1 = 1 ∧ field d 52 2 = 0) ∨ (field d 54 1 = 1 ∧ field d 52 2 ≠ 0))) := by
  unfold IndexWorking Working; dsimp only; and_intros <;> decide +kernel

/-- IndexTablesAndIntegrity: a table made, deleted, waited for; an idle cursor; a respread at its end and with a move to make; a bank. -/
theorem wit_IndexTablesAndIntegrity :
    let s := indexed [] []
    let use : Tag := { atTag [] with uses := [.table 255] }
    let spread (hole : Nat) : State := { indexed [] [(2, ientry 0 0)] with idx := { (indexed [] [(2, ientry 0 0)]).idx with
      tables := [(255, { itable with respread := true, hole := hole })] } }
    bar0Answers s 0 0xD024 = true ∧ s.idx.req = none ∧ (cfgTable (2 ^ 24 + 2 ^ 12)).isSome = true ∧
    Tbl.lowestFree s.idx.tables 0 256 = some 0 ∧ lowestBase s.idx.tables 1024 = some 1024 ∧
    Tbl.has s.idx.tables (255 : Fin 256) = true ∧ tableInUse s 255 = false ∧ tableInUse { s with tags := [(key, use)] } 255 = true ∧
    powered s = true ∧ cursor.live = true ∧ cursor.stepTag = none ∧ cursor.used + 1000 * s.idx.cursorMs < { s with now := 100001 }.now ∧
    s.idx.enable = true ∧ (itable.respread = false) ∧
    ((liveEntries (spread 0) 255).map Prod.fst = [2]) ∧
    respreadMove itable (spacing itable 1 1023) [(2, 0)] = some (2, 0) ∧ itable.size - 1 ≠ 0 ∧ itable.hole ≠ 0 ∧
    Tbl.get? (spread 8).idx.entries 2 = some (ientry 0 0) ∧
    bit s.idx.bankOk (15 : Fin 17) = true ∧ bit s.idx.bankOk 16 = true ∧ s.idx.replaces = 0xFF := by
  decide +kernel

/-- A codec context of instance 1. -/
def ctx (st : CtxSt) : Ctx := { newStream 0 1 0 with st := st }

/-- `busy p`, with context 64 of instance 1 as `x`; 64 contexts are allowed. -/
def withCtx (x : Option Ctx) (p : List Byte) : State :=
  let s := withInst 1 { native 1 with feat := { resetFeat with codecContexts := 64 } } (busy p)
  { s with bsh := { resetBsh with ctxs := match x with | some x => [(ctxKey 1 64, x)] | none => [] } }

/-- CodecJobsEnd: wrong fields; a decompression and a compression on a new stream of context 64; a compression without a context; a
resumption of a suspended stream and one of none. -/
theorem wit_CodecJobsEnd :
    let d0 := pkt opCodec []
    let c0 := pkt opCodec [(48, 1, 1)]
    let d := pkt opCodec [(49, 1, 1), (50, 1, 0), (52, 4, 64)]
    let c := pkt opCodec [(48, 1, 1), (49, 1, 1), (50, 1, 2), (52, 4, 64)]
    let one := pkt opCodec [(48, 1, 1), (49, 1, 1), (50, 1, 2)]
    let r := pkt opCodecResume [(52, 4, 64)]
    let ready (s : State) (x : Ctx) : Bool := s.bsh.enable && mayWrite s 1 && decide (unitStatus s key 0 = stOk) && !formatDisabled s x.format
      && decide ((dictBytes s 1 x.dictCtx).length ≤ 2097152)
    (∀ p ∈ [d0, c0, d, c, one], CodecWorking opCodec (withCtx none p) 1 key (atTag p)) ∧
    (∀ p ∈ [d0, c0], (firstWrong (codecFields (withCtx none p) 1 p)).isSome = true ∧ (withCtx none p).bsh.enable = true ∧
      mayWrite (withCtx none p) 1 = true) ∧
    (∀ p ∈ [d, c, one], firstWrong (codecFields (withCtx none p) 1 p) = none ∧ bit (field p 50 1) 0 = false ∧
      ready (withCtx none p) (newStream (field p 48 1) (field p 49 1) (pkHandle p)) = true) ∧
    field d0 48 1 = 0 ∧ field c0 48 1 = 1 ∧ field d 48 1 = 0 ∧ field c 48 1 = 1 ∧ pkContext c ≠ 0 ∧ field one 48 1 = 1 ∧ pkContext one = 0 ∧
    (CodecWorking opCodecResume (withCtx (some (ctx .suspended)) r) 1 key (atTag r) ∧
      ctxOf (withCtx (some (ctx .suspended)) r) 1 (pkContext r) = some (ctx .suspended) ∧
      ready (withCtx (some (ctx .suspended)) r) (ctx .suspended) = true) ∧
    CodecWorking opCodecResume (withCtx none r) 1 key (atTag r) ∧ ctxOf (withCtx none r) 1 (pkContext r) = none ∧
    (withCtx none r).bsh.enable = true ∧ mayWrite (withCtx none r) 1 = true := by
  unfold CodecWorking Working; decide +kernel

/-- The image of an open context without history, but for its zeros. -/
def image : List (Nat × Nat × Nat) := [(0, 4, 0x4B374358), (4, 2, 1), (7, 1, 1), (9, 1, 1)]

/-- CodecContextsSaveAndRestore: a save; a restore of zeros; a restore into contexts 0 and 65, and into a dictionary in use. -/
theorem wit_CodecContextsSaveAndRestore :
    let v := pkt opCodecSave [(52, 4, 64)]
    let r := pkt opCodecRestore [(32, 4, 4096), (52, 4, 64)]
    let r0 := pkt opCodecRestore [(32, 4, 4096)]
    let r65 := pkt opCodecRestore [(32, 4, 4096), (52, 4, 65)]
    (CodecWorking opCodecSave (withCtx (some (ctx .opened)) v) 1 key (atTag v) ∧ mayWrite (withCtx (some (ctx .opened)) v) 1 = true ∧
      ctxOf (withCtx (some (ctx .opened)) v) 1 (pkContext v) = some (ctx .opened)) ∧
    (∀ p ∈ [r, r0, r65], CodecWorking opCodecRestore (withCtx none p) 1 key (atTag p)) ∧
    pkContext r ≠ 0 ∧ pkContext r ≤ contextCount (withCtx none r) 1 ∧ dictInUse (withCtx none r) 1 (pkContext r) = false ∧
    pkContext r0 = 0 ∧ contextCount (withCtx none r65) 1 < pkContext r65 ∧
    (let s := withCtx (some { ctx .opened with dictCtx := 64 }) r
     CodecWorking opCodecRestore s 1 key (atTag r) ∧ dictInUse s 1 (pkContext r) = true) := by
  unfold CodecWorking Working; decide +kernel

/-- The whole image. -/
def imageBytes : List Byte := (pkt 0 image).take 16 ++ List.replicate 4080 0

theorem bytesAt_zeros (m o n : Nat) : bytesAt (List.replicate m 0) o n = List.replicate n 0 := by
  unfold bytesAt
  rw [List.drop_replicate, List.take_replicate]
  simp only [List.length_replicate, ← List.replicate_add]
  congr 1
  omega

theorem bytesAt_image (o n : Nat) (h : 16 ≤ o) : bytesAt imageBytes o n = List.replicate n 0 := by
  unfold imageBytes
  rw [bytesAt_append_right _ _ _ _ (by simpa using Or.inl h), bytesAt_zeros]

theorem leNat_zeros (n : Nat) : leNat (List.replicate n 0) = 0 := by
  induction n with
  | zero => rfl
  | succ n ih => rw [List.replicate_succ, leNat, ih]; rfl

theorem field_image (o n : Nat) (h : 16 ≤ o) : field imageBytes o n = 0 := by rw [field, bytesAt_image o n h, leNat_zeros]

theorem allZero_zeros (n : Nat) : allZero (List.replicate n 0) = true := by simp [allZero]

/-- A restore of an image whose state the codec takes (its coding is free, log entry 48). -/
theorem wit_CodecContextsSaveAndRestore_image (good : Config.codecStateBad (List.replicate 980 0) = 0) :
    let r := pkt opCodecRestore [(24, 8, 4096), (32, 4, 4096), (52, 4, 64)]
    let s := hostHas 1 imageBytes (withCtx none r)
    let b := gather s 1 r 0 (min (pkBufLen r) 69632)
    firstWrong (imageFields s 1 (pkBufLen r) b) = none ∧ (imageCtx b).st ≠ .dictionary := by
  intro r s b
  have len : imageBytes.length = 4096 := by
    rw [imageBytes, List.length_append, List.length_replicate, show ((pkt 0 image).take 16).length = 16 by decide +kernel]
  have e : b = imageBytes := by
    have h := hostRead_hostHas 1 imageBytes (withCtx none r) (by rw [len]; decide)
    have g : bufferOf s 1 r = some [(4096, 4096)] := by decide +kernel
    have p : pasidOf s 1 = 1 := rfl
    rw [len] at h
    have l : min (pkBufLen r) 69632 = 4096 := by decide +kernel
    unfold b gather
    rw [g, p, l]
    simpa [runsSlice] using h
  rw [e]
  have dict : (field imageBytes 6 1 == 1) = false := by decide +kernel
  refine ⟨?_, ?_⟩
  · unfold firstWrong
    rw [Option.map_eq_none_iff, List.find?_eq_none]
    have refs (i : Nat) : refBad imageBytes false i = false := by
      simp (disch := omega) only [refBad, bytesAt_image, field_image, allZero_zeros]
      simp
    unfold imageFields
    simp (disch := omega) only [dict, refs, field_image, bytesAt_image, good, allZero_zeros]
    decide +kernel
  · decide +kernel

/-- StagesAndLanes: unit 0 of a READ at its XTS stage and at its last, protected or not; unit 0 of a codec job and of a READ_ASSET in
each lane; a lane of each pool, with its spare and without. -/
theorem wit_StagesAndLanes :
    let r := pkt opRead [(2, 2, 5), (16, 4, 1)]
    let a := pkt opReadAsset [(2, 2, 5), (16, 4, 1), (40, 4, 1)]
    let w := pkt opCodec []
    let u (stages next : Nat) (retry : Nat) (prot reread : Bool) : UnitDesc :=
      { stages := stages, next := next, format := 0, status := stOk, retry := retry, inBuf := 0, inLen := 0, outBuf := 0, outLen := 0
        xtsKey := 0, gcmKey := 0, sealSession := 0, chunk := 0, tweak := 0, crcVec := 0, program := 0, intakeSeq := 0, codecCtx := 0
        deadline := 0, isProtected := prot, reread := reread }
    let at_ (p : List Byte) (x : UnitDesc) : State := { busy p with
      units := [(unitKey key 0, x)], bsh := { resetBsh with dOk := 0x1FF, cOk := 0x1F }
      sec := { resetSec with aesOk := 0xFFF, shaOk := 0xF, pkOk := 3 }, flc := { resetFlc with softOk := 0x1F } }
    let ok (p : List Byte) (x : UnitDesc) (outcome lane by_ : Nat) : Bool :=
      stageOps.contains (pkOpcode p) && hasUnit p 0 && serving (at_ p x) && outcomeOk (at_ p x) p x outcome lane by_
    let all_ : Nat := 2 ^ sXts + 2 ^ sGcm + 2 ^ sBushel + 2 ^ sDma
    (∀ prot : Bool, ∀ next ∈ [sXts, sDma], ok r (u (2 ^ sXts + 2 ^ sDma) next 0 prot false) 0 11 0 = true) ∧
    (∀ retry ∈ [0, 1], ok r (u (2 ^ sXts + 2 ^ sDma) sDma retry false false) 1 9 10 = true ∧
      ok a (u all_ sDma retry false false) 1 7 8 = true ∧ ok w (u (2 ^ sCompress + 2 ^ sDma) sDma retry false false) 1 3 4 = true) ∧
    (∀ reread : Bool, ok a (u all_ sGcm 0 false reread) 2 0 0 = true) ∧
    ok r (u (2 ^ sXts + 2 ^ sDma) sXts 0 false false) stMediaError 0 0 = true ∧
    producingPool r (2 ^ sXts + 2 ^ sDma) = some 2 ∧ producingPool a all_ = some 0 ∧ producingPool w (2 ^ sCompress + 2 ^ sDma) = some 1 ∧
    (let s := at_ r (u 0 0 0 false false)
     powered s = true ∧ laneFaultOk s 0 0 8 = true ∧ laneFaultOk s 1 0 4 = true ∧ laneFaultOk s 2 0 11 = true ∧
       unitOk s.sec.shaOk (3 : Fin 4) = true ∧ rerunOk s.sec.shaOk 4 (3 : Fin 4) 0 [] = true ∧ unitOk s.sec.pkOk 0 = true ∧
       unitOk s.sec.pkOk 1 = true ∧ unitOk s.flc.softOk (0 : Fin 5) = true ∧
       rerunOk s.flc.softOk 5 (0 : Fin 5) 4 (standing s.flc.softOk (0 : Fin 5) [(4, s.flc.softReplaces)]) = true) := by
  decide +kernel

/-- InstancesComeAndGo: an INSTANCE_CREATE of instance 0 and of 63; a reset and a destroy of instance 1; the three writes of
MGR_INST_CTL. -/
theorem wit_InstancesComeAndGo :
    let bad := pkt opInstanceCreate []
    let good := pkt opInstanceCreate [(36, 1, 63), (40, 4, 9), (44, 2, 96), (46, 2, 1), (48, 2, 1)]
    let r := pkt opInstanceReset [(36, 1, 1)]
    let d := pkt opInstanceDestroy [(36, 1, 1)]
    let sel (i : Inst) (s : State) : State := withInst 1 i { s with mgr := { resetMgr with instSel := 1 } }
    (∀ p ∈ [bad, good], Working opInstanceCreate (busy0 p) 255 (atTag p)) ∧
    instanceRefused (busy0 bad) bad = some { status := stBadField, r0 := 36 } ∧ instanceRefused (busy0 good) good = none ∧
    Working opInstanceReset (busy0 r) 255 (atTag r) ∧ Working opInstanceDestroy (busy0 d) 255 (atTag d) ∧ keyInst 255 ≠ field r 36 1 ∧
    Tbl.get? (busy0 r).insts (field r 36 1) = some (native 1) ∧
    (let s := sel (native 1) (busy [])
     bar0Answers s 0 0x401C = true ∧ Tbl.get? s.insts s.mgr.instSel = some (native 1) ∧ (1 : BitVec 32).getLsbD 0 = true ∧
       (native 1).drain = false ∧ s.mgr.instSel ≠ 0 ∧ (native 1).st = .active ∧ busyOf s s.mgr.instSel ≠ []) ∧
    (∀ st ∈ [InstSt.draining, .drained], let i := { native 1 with st := st, drain := true }
      bar0Answers (sel i up) 0 0x401C = true ∧ Tbl.get? (sel i up).insts (sel i up).mgr.instSel = some i ∧ (0 : BitVec 32).getLsbD 0 = false) ∧
    (0x100 : BitVec 32).getLsbD 0 = (native 1).drain := by
  unfold Working; decide +kernel

/-- A page log of instance 1 with one page owed. -/
def plog : PLog := { resetPLog with enable := true, inst := 1, owed := [5] }

/-- `up` with instance 1 selected, the image `instImage i` at the migration address, and log 3 as `l`. -/
def manager (i : Inst) (l : PLog) : State :=
  hostHas 0 (instImage i) { withInst 1 i up with mgr := { resetMgr with instSel := 1, migAddr := 4096, logs := [(3, l)] } }

/-- The instance whose image is imported. -/
def fresh1 : Inst := { native 1 with ring := resetRing 9 }

theorem leNat_leBytes (n x : Nat) (h : x < 256 ^ n) : leNat (leBytes n x) = x := by
  induction n generalizing x with
  | zero => simp at h; simp [leBytes, leNat, h]
  | succ n ih =>
    have := ih (x / 256) (by rw [Nat.div_lt_iff_lt_mul (by decide)]; simpa [Nat.pow_succ] using h)
    simp only [leBytes, leNat, this, BitVec.toNat_ofNat]
    omega

/-- The image but for its CRC-32C. -/
def imageBody : List Byte := (instImage fresh1).take 252

/-- Its image is legal: the part reads it at MIG_ADDR, and its CRC-32C is right. -/
theorem image_legal : imageLegal fresh1 (hostRead (manager fresh1 plog) 0 (manager fresh1 plog).mgr.migAddr 256) = true := by
  have len : (instImage fresh1).length = 256 := by decide +kernel
  have h := hostRead_hostHas 0 (instImage fresh1) { withInst 1 fresh1 up with
    mgr := { resetMgr with instSel := 1, migAddr := 4096, logs := [(3, plog)] } } (by rw [len]; decide)
  rw [len] at h
  rw [show (manager fresh1 plog).mgr.migAddr = 4096 from rfl]
  unfold manager
  rw [h]
  have blen : imageBody.length = 252 := by decide +kernel
  have e : instImage fresh1 = imageBody ++ leBytes 4 (crc32c imageBody) := by
    have parts : ∀ b : List Byte, b.length = 252 → (b ++ leBytes 4 (crc32c b)).take 252 = b := fun b h => List.take_left' h
    unfold imageBody instImage
    rw [parts _ (by decide +kernel)]
  have crc : field (instImage fresh1) 252 4 = crc32c imageBody := by
    have w : bytesAt (leBytes 4 (crc32c imageBody)) 0 4 = leBytes 4 (crc32c imageBody) := bytesAt_whole _
    rw [e, field, bytesAt_append_right _ _ _ _ (by rw [blen]), blen, show 252 - 252 = 0 from rfl, w]
    exact leNat_leBytes 4 _ (crcReflected _ _).isLt
  unfold imageLegal
  rw [crc]
  simp only [show (instImage fresh1).take 252 = imageBody from rfl, beq_self_eq_true, Bool.and_true]
  decide +kernel

/-- MailboxesMigrationAndLogs: a note and its ACK; a message of 256 bytes; exports and imports; a log enabled, with a page owed, full, with
a marker due. -/
theorem wit_MailboxesMigrationAndLogs :
    let p := pkt opMailboxNote [(36, 4, 256)]
    let i1 : Inst := { native 1 with mbox := { resetMbox with pend := true, noteTag := key, noteLen := 256 } }
    let g1 : Tag := { atTag p with work := .note }
    let drained : Inst := { native 1 with st := .drained }
    let ctl : BitVec 32 := 2 ^ 31 + 2 ^ 16 * 63 + 20
    let full : PLog := { plog with tail := 511 }
    let due : PLog := { plog with owed := [], syncs := [0] }
    (Working opMailboxNote (busy p) key (atTag p) ∧ noteBusy (busy p) 1 = false ∧ Tbl.get? (busy p).insts 1 = some (native 1)) ∧
    (let s := { manager i1 plog with tags := [(key, g1)] }
     Tbl.get? s.insts s.mgr.instSel = some i1 ∧ bar0Answers s 0 0x4070 = true ∧ i1.mbox.pend = true ∧
       Tbl.get? s.tags i1.mbox.noteTag = some g1 ∧ atWork s i1.mbox.noteTag opMailboxNote .note = true) ∧
    (let s := manager (native 1) plog
     Tbl.get? s.insts s.mgr.instSel = some (native 1) ∧ (native 1).mbox.deliv = false ∧ (native 1).st = .active ∧
       1 ≤ (256 : Fin 512).val ∧ (256 : Fin 512).val ≤ 256) ∧
    (bar0Answers (manager drained plog) 1 0x4308 = true ∧
      Tbl.get? (manager drained plog).insts (manager drained plog).mgr.instSel = some drained ∧ (native 1).st ≠ .drained) ∧
    (let s := manager fresh1 plog
     Tbl.get? s.insts s.mgr.instSel = some fresh1 ∧ fresh1.st = .active ∧ fresh1.ring.enable = false ∧ busyOf s s.mgr.instSel = [] ∧
       imageLegal fresh1 (hostRead up 0 0 256) = false) ∧
    (let s := manager (native 1) plog
     bar0Answers s 0 0x4400 = true ∧ bar0Answers s 0 0x4414 = true ∧ (Tbl.getD s.mgr.logs (3 : Fin 4) resetPLog).enable = true ∧
       (Tbl.getD s.mgr.logs (0 : Fin 4) resetPLog).enable = false ∧ ctl.getLsbD 31 = true ∧ bits ctl.toNat 16 6 ≠ 0 ∧
       9 ≤ bits ctl.toNat 0 5 ∧ bits ctl.toNat 0 5 ≤ 20 ∧
       s.mgr.logs.any (fun p => !(p.1 == (0 : Fin 4).val) && p.2.enable && p.2.inst == bits ctl.toNat 16 6) = false) ∧
    (∀ l ∈ [plog, full], Tbl.get? (manager (native 1) l).insts 0 = some (native 0) ∧ portLive (manager (native 1) l) (native 0).port = true ∧
      powered (manager (native 1) l) = true ∧ Tbl.getD (manager (native 1) l).mgr.logs (3 : Fin 4) resetPLog = l ∧ l.enable = true ∧
      l.owed = [5] ∧ l.syncs.head? ≠ some 0) ∧
    logFull plog = false ∧ logFull full = true ∧ full.stalled = false ∧
    (Tbl.getD (manager (native 1) due).mgr.logs (3 : Fin 4) resetPLog = due ∧ due.enable = true ∧ due.syncs.head? = some 0 ∧
      logFull due = false) := by
  unfold Working; decide +kernel

/-- LogsAndFeatures: the logs' number out of range, of the manager's, and each instance's own; a feature set and refused; the formats. -/
theorem wit_LogsAndFeatures :
    let rd (id : Nat) := pkt opLogRead [(36, 2, id)]
    let set (id v : Nat) := pkt opFeatureSet [(36, 2, id), (40, 8, v)]
    let get (id : Nat) := pkt opFeatureGet [(36, 2, id)]
    (∀ id ∈ [0, 1, 2, 3, 6, 7], Working opLogRead (busy (rd id)) key (atTag (rd id)) ∧ mayWrite (busy (rd id)) 1 = true ∧
      field (rd id) 36 2 = id) ∧
    (∀ p ∈ [set 1 1, set 2 1000000, set 0x31 4], Working opFeatureSet (busy p) key (atTag p) ∧ Tbl.get? (busy p).insts 1 = some (native 1) ∧
      featureValueLegal (field p 36 2) (field p 40 8) = true) ∧
    featureAllowed (busy (set 2 1000000)) 1 2 1000000 = true ∧ featureAllowed (busy (set 1 1)) 1 1 1 = false ∧
    (∀ p ∈ [get 1, get 0x12], Working opFeatureGet (busy p) key (atTag p)) ∧ field (get 1) 36 2 ≠ 0x12 ∧ field (get 0x12) 36 2 = 0x12 ∧
    (let s := { up with
      flc := { resetFlc with logPending := [healthEntry up 1 0 0 0 0 0 []] }
      mem := { resetMem with repairs := [{ kind := 0, unit := 0, address := 0, seq := 0 }] } }
     programsRun s = true ∧ s.flc.logPending ≠ [] ∧ s.mem.repairs ≠ []) := by
  unfold Working; decide +kernel

/-- FirmwareIsStagedAndActivated: pieces out of place, first, and last of an image of 4 bytes; an activation without an image and with
one; the switch and its end. -/
theorem wit_FirmwareIsStagedAndActivated :
    let piece (off last n : Nat) := pkt opFwStage [(24, 8, 4096), (32, 4, n), (36, 4, off), (40, 1, last)]
    let a := pkt opFwActivate []
    let sw : Tag := { atTag a with work := .switching }
    let s (g : Tag) : State := { upVol with tags := [(255, g), (key, atTag [])], glb := { upVol.glb with staged := some noImage } }
    (∀ p ∈ [piece 4 0 4, piece 0 0 1048576, piece 0 1 12], Working opFwStage (busy0 p) 255 (atTag p) ∧ programsRun (busy0 p) = true) ∧
    field (piece 4 0 4) 36 4 ≠ 0 ∧ field (piece 4 0 4) 36 4 ≠ (busy0 []).glb.stagedBytes ∧
    (∀ p ∈ [piece 0 0 1048576, piece 0 1 12], field p 36 4 = 0 ∧ 4 ≤ pkBufLen p ∧ pkBufLen p ≤ 1048576 ∧ pkBufLen p % 4 = 0 ∧
      field p 36 4 + pkBufLen p ≤ 16777216) ∧
    field (piece 0 0 1048576) 40 1 = 0 ∧ field (piece 0 1 12) 40 1 = 1 ∧
    (let t := { busy0 (piece 0 1 12) with hostMem := [(4096 + 8, 12)] }
     leNat (Cells.readN (Cells.writeN [] 0 (gather t 0 (piece 0 1 12) 0 12)) 8 4) = 0 + 12) ∧
    Working opFwActivate (busy0 a) 255 (atTag a) ∧ (busy0 a).glb.staged = none ∧
    Working opFwActivate (s (atTag a)) 255 (atTag a) ∧ (s (atTag a)).glb.staged = some noImage ∧
    switchTag (s sw) = some 255 ∧ serving (s sw) = true ∧ (s sw).sch.hold = false ∧ Tbl.get? (s sw).tags 255 = some sw ∧ sw.st = .running ∧
    (let t := { s sw with sch := { resetSch with hold := true } }
     switchTag t = some 255 ∧ powered t = true ∧ t.sch.hold = true ∧ enginesIdle t = true) := by
  unfold Working; dsimp only; and_intros <;> decide +kernel

/-- VolumesComeGoAndAreSanitized: a create refused and one of 64 blocks as volume 255; a delete of volume 5; a SANITIZE of each method at
each of its steps. -/
theorem wit_VolumesComeGoAndAreSanitized :
    let bad := pkt opVolumeCreate [(2, 2, 256)]
    let good := pkt opVolumeCreate [(2, 2, 255), (40, 8, 64)]
    let room (s : State) : State := { s with flc := { s.flc with usable := 128 }, sec := { s.sec with drbgReady := true } }
    let d := pkt opVolumeDelete [(2, 2, 5)]
    let san (m : Nat) := pkt opSanitize [(2, 2, 5), (36, 1, m)]
    let at_ (m : Nat) (x : List Sanit) : State := { room (busy0 (san m)) with flc := { (room (busy0 (san m))).flc with sanitizing := x } }
    (∀ p ∈ [bad, good], Working opVolumeCreate (room (busy0 p)) 255 (atTag p) ∧ earlierCreate (room (busy0 p)) 0 = false) ∧
    (createRefused (room (busy0 bad)) bad).isSome = true ∧ createRefused (room (busy0 good)) good = none ∧
    Working opVolumeDelete (busy0 d) 255 (atTag d) ∧ volumeBusy (busy0 d) 255 (pkVolume d) = false ∧ vol? (busy0 d) (pkVolume d) = some vol ∧
    (∀ m ∈ [0, 1, 2], ∀ x ∈ [[], [Sanit.mk 5 m 0 false], [Sanit.mk 5 m 0 true]],
      Working opSanitize (at_ m x) 255 (atTag (san m)) ∧ sanitReady (at_ m x) 255 m [] 8 = true ∧ drbgServes (at_ m x) = true ∧
        (at_ m x).flc.sanitizing.find? (fun x => x.vol == pkVolume (san m)) = x.head?) := by
  unfold Working; decide +kernel

/-- Bytes of host memory at address 4,096 of PASID 1 where they are not 0. -/
def hostFields (fs : List (Nat × Nat × Nat)) : Cells :=
  fs.flatMap (fun f => (leBytes f.2.1 f.2.2).zipIdx.map (fun p => (2 ^ 64 + (4096 + (f.1 + p.2)), p.1)))

/-- `busy p` over that memory, content allowed (the lifecycle SECURED). -/
def keyed (p : List Byte) (fs : List (Nat × Nat × Nat)) : State :=
  { busy p with hostMem := hostFields fs, otp := { resetOtp [(0x208, 4)] with ladderLc := 2 }, sec := { resetSec with pkOk := 1, drbgReady := true } }

/-- A licence of this device, and its bytes but for zeros; a revocation list of no entry; a seal request. -/
def licenceFields : List (Nat × Nat × Nat) := [(0, 4, 0x4B374C49), (4, 2, 1), (6, 1, 1)]
def listFields : List (Nat × Nat × Nat) := [(0, 4, 0x4B37524C), (4, 2, 1), (8, 8, 1)]
def sealFields : List (Nat × Nat × Nat) := [(0, 4, 0x4B37534F), (4, 2, 1), (144, 4, 0x4B374354), (148, 2, 1), (150, 1, 3)]

/-- LicencesAndSealSessions: inputs of a wrong length, of a wrong format, where content is not allowed, and good; a list; a drop and a
close, without users and with one. -/
theorem wit_LicencesAndSealSessions :
    let l (n : Nat) := pkt opLicenseLoad [(24, 8, 4096), (32, 4, n)]
    let d := pkt opLicenseDrop []
    let o (n : Nat) := pkt opSealOpen [(24, 8, 4096), (32, 4, n), (44, 4, 584)]
    let c := pkt opSealClose [(20, 4, 1023)]
    let x : Seal := { st := .opened, inst := 1, gen := 0, key := 0, noncePrefix := 0, counter := 7, closeTag := none }
    let use (p : List Byte) (u : Use) : Tag := { atTag p with uses := [u] }
    (∀ n ∈ [399, 400], Working opLicenseLoad (keyed (l n) licenceFields) key (atTag (l n)) ∧ pkServes (keyed (l n) licenceFields) = true ∧
      loadMagic (keyed (l n) licenceFields) 1 (l n) ≠ revocationMagic ∧ pkBufLen (l n) = n) ∧
    licenceFormat (bytesAt (inputOf (keyed (l 400) []) 1 (l 400) 400) 0 400) = false ∧ loadMagic (keyed (l 400) []) 1 (l 400) ≠ revocationMagic ∧
    licenceFormat (bytesAt (inputOf (keyed (l 400) licenceFields) 1 (l 400) 400) 0 400) = true ∧
    contentAllowed { keyed (l 400) licenceFields with otp := resetOtp [] } = false ∧ contentAllowed (keyed (l 400) licenceFields) = true ∧
    (∀ n ∈ [223, 224], Working opLicenseLoad (keyed (l n) listFields) key (atTag (l n)) ∧
      loadMagic (keyed (l n) listFields) 1 (l n) = revocationMagic ∧ pkBufLen (l n) = n) ∧
    (let b := inputOf (keyed (l 224) listFields) 1 (l 224) (224 + 16 * 4096)
     field b 16 4 = 0 ∧ revocationFormat b 0 = true ∧ (keyed (l 224) listFields).sec.revSequence < field b 8 8) ∧
    Working opLicenseDrop (busy d) key (atTag d) ∧ inUse (busy d) (.licence 0) = false ∧
    (let s := { busy d with tags := [(key, use d (.licence 0))] }
     Working opLicenseDrop s key (use d (.licence 0)) ∧ inUse s (.licence (pkHandle d % 256)) = true) ∧
    (∀ n ∈ [431, 432], Working opSealOpen (keyed (o n) sealFields) key (atTag (o n)) ∧ mayWrite (keyed (o n) sealFields) 1 = true ∧
      pkServes (keyed (o n) sealFields) = true ∧ pkBufLen (o n) = n ∧ 584 ≤ field (o n) 44 4) ∧
    sealFormat (bytesAt (inputOf (keyed (o 432) sealFields) 1 (o 432) 432) 0 432) = true ∧ contentAllowed (keyed (o 432) sealFields) = true ∧
    Tbl.countIf (keyed (o 432) sealFields).sec.seals (fun _ x => x.inst == 1) < 64 ∧
    Tbl.lowestFree (keyed (o 432) sealFields).sec.seals 1 1023 = some 1 ∧ drbgServes (keyed (o 432) sealFields) = true ∧
    (let s (g : Tag) : State := { busy c with sec := { resetSec with seals := [(1023, x)] }, tags := [(key, g)] }
     Working opSealClose (s (atTag c)) key (atTag c) ∧ Tbl.get? (s (atTag c)).sec.seals (pkHandle c % 1024) = some x ∧
       inUse (s (atTag c)) (.session (pkHandle c % 1024)) = false ∧
       Working opSealClose (s (use c (.session 1023))) key (use c (.session 1023)) ∧
       inUse (s (use c (.session 1023))) (.session (pkHandle c % 1024)) = true) := by
  unfold Working; dsimp only; and_intros <;> decide +kernel

/-- AttestationUnlockAndEntropy: an ATTEST of a tenant where it may not, of SELECT 64 and of SELECT 0; a commit of SVN 1; the unlock
words; the entropy tests and a reseed. -/
theorem wit_AttestationUnlockAndEntropy :
    let a (sel : Nat) := pkt opAttest [(52, 4, sel)]
    let deny : State := { busy (a 0) with sec := { resetSec with tenantAttest := false, pkOk := 1 } }
    (∀ n ∈ [0, 0x17, 0x40], Working opAttest (busy (a n)) key (atTag (a n)) ∧ pkServes (busy (a n)) = true ∧ mayWrite (busy (a n)) 1 = true ∧
      tenantAttest (busy (a n)) = true ∧ field (a n) 52 4 = n) ∧
    bit 0x17 3 = false ∧ bit 0x17 5 = false ∧
    Working opAttest deny key (atTag (a 0)) ∧ tenantAttest deny = false ∧ pkServes deny = true ∧ mayWrite deny 1 = true ∧
    (let s := { up with glb := { up.glb with running := { noImage with svn := 1 } } }
     bar0Answers s 0 0xC00C = true ∧ s.sec.commitBusy = false ∧ arbValue s.otp < s.glb.running.svn) ∧
    (∀ src : Fin 3, unlockAnswers up src 0xC050 = true ∧ unlockAnswers up src 0xC054 = true) ∧
    { resetSec with unlockWords := List.replicate 107 0 }.unlockWords.length < 108 ∧ pkServes upVol = true ∧
    powered up = true ∧ up.sec.entropyFail = false ∧
    (let s := { up with sec := { resetSec with entropyFail := true, retests := 1 } }
     powered s = true ∧ s.sec.entropyFail = true ∧ s.sec.retests < 2 ∧ s.sec.retestAt ≤ s.now) ∧
    (let s := { up with sec := { resetSec with drbgReady := true, generates := 65536 } }
     powered s = true ∧ drbgServes s = true ∧ 65536 ≤ s.sec.generates) := by
  unfold Working; dsimp only; and_intros <;> decide +kernel

/-- The 256 bytes of a flit of type `t` and LSEQ `n`, zeros else, with their CRC-32. -/
def flitBytes (t n : Nat) : List Byte :=
  let b := BitVec.ofNat 8 t :: (List.replicate 7 0 ++ leBytes 2 n ++ List.replicate 242 0)
  b ++ leBytes 4 (crc32 b)

theorem flitOf_flitBytes (t n : Nat) : ∃ f, flitOf (flitBytes t n) = some f ∧ f.type = t % 256 ∧ f.lseq = n % 4096 := by
  have l : (BitVec.ofNat 8 t :: (List.replicate 7 0 ++ leBytes 2 n ++ List.replicate 242 0)).length = 252 := by
    simp only [List.length_cons, List.length_append, List.length_replicate]
    simp [leBytes]
  generalize hb : BitVec.ofNat 8 t :: (List.replicate 7 0 ++ leBytes 2 n ++ List.replicate 242 0) = b at l
  have e : flitBytes t n = b ++ leBytes 4 (crc32 b) := by rw [flitBytes, hb]
  have w : bytesAt (leBytes 4 (crc32 b)) 0 4 = leBytes 4 (crc32 b) := bytesAt_whole _
  have c : field (b ++ leBytes 4 (crc32 b)) 252 4 = crc32 b := by
    rw [field, bytesAt_append_right _ _ _ _ (by rw [l]), l, show 252 - 252 = 0 from rfl, w]
    exact leNat_leBytes 4 _ (crcReflected _ _).isLt
  have f (o n : Nat) (h : o + n ≤ 252) : field (b ++ leBytes 4 (crc32 b)) o n = field b o n := by
    rw [field, bytesAt_append_left _ _ _ _ (by rw [l]; exact h)]; rfl
  rw [e, flitOf, c, List.take_left' l, if_pos ⟨by simp [l, leBytes], rfl⟩]
  refine ⟨_, rfl, ?_, ?_⟩
  · show field _ 0 1 = _
    rw [f 0 1 (by decide), ← hb]
    simp [field, bytesAt, leNat]
  · show field _ 8 2 % 4096 = _
    rw [f 8 2 (by decide), ← hb]
    generalize List.replicate 242 (0 : Byte) = r
    simp [field, bytesAt, leBytes, leNat, List.replicate]
    omega

/-- A flit of type `t` from Span ID `origin`, as it waits in the inbox. -/
def flit (t origin : Nat) (payload : List Byte) : Flit :=
  { type := t, last := true, resent := false, leaving := false, dest := 1, origin := origin, hops := 0, lseq := 0, lack := 0
    lackValid := false, originSeq := 5, xid := 0, index := 0, budget := 0, payload := payload }

/-- `up` as device 1 of a span, port 2 as `q`, with these flits delivered at port 2. -/
def linked (q : EPort) (fs : List Flit) : State :=
  { up with spn := { resetSpn with spanId := 1, joined := true, ports := [(0, resetEPort), (1, resetEPort), (2, q)]
                                   inbox := fs.map (fun f => (2, f)) } }

/-- A port in a state. -/
def port (st : PortSt) : EPort := { resetEPort with st := st }

/-- ExletPortsTrainAndRecover: a port in HELLO and ACTIVE with bad bytes and with flits in and out of turn; a NAK; each state's step. -/
theorem wit_ExletPortsTrainAndRecover :
    (∀ st ∈ [PortSt.hello, .active], ∀ nak : Bool, let q := { port st with nakSent := nak }
      powered (linked q []) = true ∧ Tbl.get? (linked q []).spn.ports (2 : Fin 3) = some q) ∧
    flitOf [] = none ∧
    (∃ f, flitOf (flitBytes tHello 1) = some f ∧ sequenced f.type = true ∧ f.lseq ≠ (port .active).rxSeq) ∧
    (∃ f, flitOf (flitBytes tHello 0) = some f ∧ sequenced f.type = true ∧ f.lseq = (port .active).rxSeq) ∧
    (let q := { port .active with retry := [flit tReq 1 []] }
     (arrived (linked q [flit tNak 2 []]) (2 : Fin 3) tNak).isSome = true ∧ q.retry ≠ []) ∧
    (∀ st ∈ [PortSt.training, .hello, .active, .down, .conflict], powered (linked (port st) []) = true ∧
      Tbl.get? (linked (port st) []).spn.ports (2 : Fin 3) = some (port st)) ∧
    (∀ st ∈ [PortSt.training, .hello, .down], 50000 + (port st).since ≤ { linked (port st) [] with now := 100000 }.now ∧
      100000 + (port st).since ≤ { linked (port st) [] with now := 100000 }.now) ∧
    (∀ n ∈ [0, 1], arrived (linked (port .hello) [flit tHello n (leBytes 2 n)]) (2 : Fin 3) tHello = some (flit tHello n (leBytes 2 n)) ∧
      field (flit tHello n (leBytes 2 n)).payload 0 2 = n) ∧
    (linked (port .hello) []).spn.spanId = 1 ∧ (linked (port .hello) []).spn.joining = none := by
  obtain ⟨f1, e1, t1, l1⟩ := flitOf_flitBytes tHello 1
  obtain ⟨f0, e0, t0, l0⟩ := flitOf_flitBytes tHello 0
  refine ⟨by decide +kernel, by decide +kernel, ⟨f1, e1, by rw [t1]; rfl, by rw [l1]; decide⟩, ⟨f0, e0, by rw [t0]; rfl, by rw [l0]; rfl⟩, ?_⟩
  and_intros <;> decide +kernel

/-- MembershipFollowsAnnouncements: the timer; an ANNOUNCE of device 2, newer, older, leaving, and of the device itself; its expiry. -/
theorem wit_MembershipFollowsAnnouncements :
    let f := flit tAnnounce 2 []
    let m (n since : Nat) : Member := { deviceId := 0, group := 0, portStates := 0, originSeq := n, since := since }
    let s (fs : List Flit) (n : Nat) : State := { linked (port .active) fs with
      now := 350000, spn := { (linked (port .active) fs).spn with members := [(2, m n 0)] } }
    powered (s [] 4) = true ∧ (s [] 4).spn.spanId ≠ 0 ∧ 100000 + (s [] 4).spn.announcedAt ≤ (s [] 4).now ∧
    (∀ g ∈ [f, { f with leaving := true }, flit tAnnounce 1 []], arrived (s [g] 4) (2 : Fin 3) tAnnounce = some g ∧
      powered (s [g] 4) = true ∧ (s [g] 4).spn.joining = none) ∧
    f.origin ≠ (s [f] 4).spn.spanId ∧ announceNewer (s [f] 4) f = true ∧ f.leaving = false ∧ announceNewer (s [f] 5) f = false ∧
    (flit tAnnounce 1 []).origin = (s [] 4).spn.spanId ∧
    Tbl.get? (s [] 4).spn.members (2 : Fin 65536) = some (m 4 0) ∧ 350000 + (m 4 0).since ≤ (s [] 4).now := by
  decide +kernel

/-- A packet as the first payload of a message, its PAIR_SEQ behind it. -/
def pay (p : List Byte) (seq : Nat) : List Byte := p ++ leBytes 4 seq

/-- `up` as device 1 of group 7 in a span with device 2, holding volume 5, exported; these flits in the inbox. -/
def spanned (fs : List Flit) : State :=
  { upVol with
    flc := { resetFlc with vols := [(5, { vol with exported := true })] }
    spn := { resetSpn with spanId := 1, group := 7, joined := true, inbox := fs.map (fun f => (2, f))
                           members := [(2, { deviceId := 2, group := 7, portStates := 0, originSeq := 0, since := 0 })] } }

/-- A message served here, its answer not decided. -/
def served (p : List Byte) : Served :=
  { mirror := false, pairSeq := 0, request := p, body := [], reply := none, groups := [], deadline := 0 }

/-- `spanned fs` serving message 9 of device 2, with its lock. -/
def serving9 (v : Served) (fs : List Flit) : State :=
  { spanned fs with spn := { (spanned fs).spn with served := [(servedKey 2 9, v)] }
                    locks := [{ lock with tag := servedTag (servedKey 2 9) }] }

/-- TheHomeServesRequests: a READ admitted and refused; a READ and a VERIFY decided; a gap, with the next number waiting and without;
a CANCEL and the end of a budget, before and after the answer is decided. -/
theorem wit_TheHomeServesRequests :
    let r := pkt opRead [(2, 2, 5), (16, 4, 1)]
    let v := pkt opVerify [(2, 2, 5), (16, 4, 1)]
    let f (p : List Byte) : Flit := flit tReq 2 (pay p 0)
    (∀ p ∈ [r, pkt opFlush []], serving (spanned [f p]) = true ∧ messageOf (spanned [f p]) tReq 2 0 = some ([pay p 0], f p) ∧
      (f p).resent = false ∧ (spanned [f p]).spn.leaving = none ∧
      field ([pay p 0].headD []) 64 4 = Tbl.getD (spanned [f p]).spn.pairRx 2 0) ∧
    homeRefuses (spanned [f r]) 2 (bytesAt (pay r 0) 0 64) = none ∧
    (homeRefuses (spanned []) 2 (bytesAt (pay (pkt opFlush []) 0) 0 64)).isSome = true ∧
    (∀ p ∈ [r, v], let s := serving9 (served (pay p 0)) []
      serving s = true ∧ messageOf s tReq 2 9 = none ∧ Tbl.get? s.spn.served (servedKey 2 9) = some (served (pay p 0)) ∧
        lockHeld s (servedTag (servedKey 2 9)) = true ∧ vol? s (pkVolume (bytesAt (pay p 0) 0 64)) = some { vol with exported := true } ∧
        keyLost s (pkVolume (bytesAt (pay p 0) 0 64)) = false) ∧
    pkOpcode (bytesAt (pay r 0) 0 64) = opRead ∧ pkOpcode (bytesAt (pay v 0) 0 64) = opVerify ∧
    (∀ fs ∈ [[], [flit tReq 2 (pay r 3)]], let s := { spanned fs with now := 200, spn := { (spanned fs).spn with gapWait := [(2, 0)] } }
      powered s = true ∧ Tbl.get? s.spn.gapWait (2 : Fin 65536) = some 0 ∧ 0 + s.spn.gapUs ≤ s.now) ∧
    (∀ x ∈ [served (pay r 0), { served (pay r 0) with reply := some {} }], let y := { x with deadline := 1 }
      let s := { serving9 x [{ flit tCancel 2 [] with xid := 9 }] with now := 1 }
      let t := { serving9 y [] with now := 1 }
      powered s = true ∧ Tbl.get? s.spn.served (servedKey 2 9) = some x ∧ (messageOf s tCancel 2 9).isSome = true ∧
        messageOf s tReq 2 9 = none ∧ Tbl.get? t.spn.served (servedKey 2 9) = some y ∧ y.deadline ≠ 0 ∧ y.deadline ≤ t.now) := by
  decide +kernel

/-- A transaction of the tag, to home 2. -/
def xact (p : List Byte) : Xact :=
  { tag := key, home := 2, pairSeq := 0, deadline := 5, sentAt := 0, lastRx := 0, portChange := true, resent := false, cancelAt := none
    first := pay p 0, rest := [] }

/-- `spanned fs` with the tag as `g` and that transaction as number 0. -/
def origin (g : Tag) (x : Xact) (fs : List Flit) : State :=
  { spanned fs with tags := [(key, g)], spn := { (spanned fs).spn with xacts := [(0, x)] }, now := 2000 }

/-- TheOriginEndsForwardedCommands: a RESP of a WRITE, of a TRIM and of a VERIFY, and of none; a silence; a deadline of each kind; a key
request and its grant, refused and given. -/
theorem wit_TheOriginEndsForwardedCommands :
    let g (p : List Byte) : Tag := { atTag p with work := .forwarded }
    let l := pkt opLicenseLoad []
    (∀ op ∈ [opWrite, opTrim, opVerify], let p := pkt op [(2, 2, 5), (16, 4, 1)]
      let s := origin (g p) (xact p) [flit tResp 2 []]
      serving s = true ∧ messageOf s tResp 2 0 = some ([[]], flit tResp 2 []) ∧ messageOf s tData 2 0 = none ∧
        Tbl.get? s.spn.xacts (0 % 2 ^ 32) = some (xact p) ∧ Tbl.get? s.tags (xact p).tag = some (g p) ∧ mayWrite s (keyInst key) = true ∧
        abortComing s key = false ∧ pkOpcode p ∈ [opWrite, opTrim, opVerify] ∧ pkOpcode (bytesAt (xact p).first 0 64) = pkOpcode p) ∧
    (powered (spanned [flit tResp 2 []]) = true ∧ messageOf (spanned [flit tResp 2 []]) tResp 2 0 = some ([[]], flit tResp 2 []) ∧
      Tbl.get? (spanned [flit tResp 2 []]).spn.xacts (0 % 2 ^ 32) = none) ∧
    (let p := pkt opRead []
     let s := origin (g p) (xact p) []
     Tbl.get? s.spn.xacts 0 = some (xact p) ∧ (xact p).portChange = true ∧ (xact p).resent = false ∧ (xact p).cancelAt = none ∧
       max (xact p).sentAt (xact p).lastRx + resendUs s key ≤ s.now ∧ xactOf s key = some (0, xact p) ∧ serving s = true ∧
       abortComing s key = false ∧ 1000 + (xact p).deadline ≤ s.now ∧
       (let y : Xact := { xact p with cancelAt := some 1000 }
        xactOf (origin { g p with st := .stopping } y []) key = some (0, y) ∧ y.cancelAt = some 1000 ∧ 1000 + 1000 ≤ s.now)) ∧
    (let k : Tag := { atTag l with work := .keyGrant }
     let s (b : List Byte) : State := { origin k (xact l) [flit tKeyGrant 2 b] with sec := { resetSec with pkOk := 1 } }
     xactOf (s []) key = some (0, xact l) ∧ (xact l).deadline ≤ (s []).now ∧
       (∀ b ∈ [[0], [1]], serving (s b) = true ∧ pkServes (s b) = true ∧ messageOf (s b) tKeyGrant 2 0 = some ([b], flit tKeyGrant 2 b) ∧
         Tbl.get? (s b).spn.xacts (0 % 2 ^ 32) = some (xact l) ∧ Tbl.get? (s b).tags (xact l).tag = some k ∧
         atWork (s b) key opLicenseLoad .keyGrant = true)) ∧
    (let s := { spanned [flit tKeyReq 2 []] with sec := { resetSec with pkOk := 1 } }
     serving s = true ∧ pkServes s = true ∧ messageOf s tKeyReq 2 0 = some ([[]], flit tKeyReq 2 [])) := by
  dsimp only; and_intros <;> decide +kernel

/-- SpansAreJoinedLeftAndBound: a join refused at each check, and good; its end; a leave refused, begun and ended; a binding; a PROBE
answered and refused, and its answer for a binding that waits. -/
theorem wit_SpansAreJoinedLeftAndBound :
    let j (id ports : Nat) := pkt opSpanJoin [(36, 2, id), (38, 1, ports)]
    let l := pkt opSpanLeave []
    let joined (leave : Option Nat) (m : Option Mirror) : State := { busy0 l with
      flc := { resetFlc with vols := [(5, { vol with mirror := m })] }
      spn := { resetSpn with spanId := 1, joined := true, leaving := leave } }
    let role : Mirror := { primary := true, copies := 1, id1 := 0, id2 := 0, primaryId := 0, st1 := .out, st2 := .out, sent1 := false, sent2 := false }
    (∀ p ∈ [j 0 1, j 1 0, j 1 8, j 65535 7], Working opSpanJoin (busy0 p) 255 (atTag p) ∧ spanForbidden (busy0 p) = false ∧
      (busy0 p).spn.spanId = 0) ∧
    spanForbidden { busy0 (j 1 1) with glb := { up.glb with arrangement := 2 } } = true ∧
    Working opSpanJoin { busy0 (j 1 1) with glb := { up.glb with arrangement := 2 } } 255 (atTag (j 1 1)) ∧
    field (j 0 1) 36 2 = 0 ∧ field (j 1 0) 36 2 ≠ 0 ∧ field (j 1 0) 38 1 = 0 ∧ 7 < field (j 1 8) 38 1 ∧ field (j 65535 7) 36 2 ≠ 0 ∧
    1 ≤ field (j 65535 7) 38 1 ∧ field (j 65535 7) 38 1 ≤ 7 ∧
    (let g : Tag := { atTag (j 1 1) with work := .joining }
     let s := { upVol with tags := [(255, g)], spn := { resetSpn with spanId := 1, joining := some 255 } }
     powered s = true ∧ s.spn.joining = some 255 ∧ joinSettled s = true ∧ Tbl.get? s.tags 255 = some g ∧
       atWork s 255 opSpanJoin .joining = true) ∧
    (∀ leave ∈ [none, some 255], ∀ m ∈ [none, some role], Working opSpanLeave (joined leave m) 255 (atTag l)) ∧
    spanRoles (joined none (some role)) = true ∧ spanRoles (joined none none) = false ∧ (joined none none).spn.joined = true ∧
    (joined (some 255) none).spn.leaving = some 255 ∧ (joined (some 255) none).spn.xacts = [] ∧ (joined (some 255) none).spn.served = [] ∧
    (let s := { spanned [] with spn := { (spanned []).spn with volSel := 255 } }
     bar0Answers s 0 0x16304 = true ∧ vol? s s.spn.volSel = none) ∧
    (∀ v ∈ [5, 6], let f := flit tProbe 2 [BitVec.ofNat 8 v]
      serving (spanned [f]) = true ∧ messageOf (spanned [f]) tProbe 2 0 = some ([f.payload], f) ∧ field [f.payload].flatten 0 1 = v) ∧
    vol? (spanned []) 5 = some { vol with exported := true } ∧ volServes (spanned []) 5 { vol with exported := true } = true ∧
    sameGroup (spanned []) 2 = true ∧ sameGroup (spanned []) 3 = false ∧ vol? (spanned []) 6 = none ∧
    (let f := flit tProbeResp 2 []
     powered (spanned [f]) = true ∧ messageOf (spanned [f]) tProbeResp 2 0 = some ([[]], f)) := by
  unfold Working; dsimp only; and_intros <;> decide +kernel

/-- A mirror role: primary or copy of device 2's volume, with device 2 as its first copy in a state. -/
def role (primary : Bool) (st : CopySt) : Mirror :=
  { primary := primary, copies := 3, id1 := 2, id2 := 3, primaryId := 2, st1 := st, st2 := st, sent1 := false, sent2 := false }

/-- `spanned fs` with volume 5 in that role, posting `p` in instance 0. -/
def mirrored (p : List Byte) (m : Option Mirror) (fs : List Flit) : State :=
  { spanned fs with flc := { resetFlc with vols := [(5, { vol with mirror := m })] }, tags := [(255, atTag p)]
                    spn := { (spanned fs).spn with ports := [(0, { port .active with neighbour := 2 }), (1, resetEPort), (2, resetEPort)] } }

/-- MirrorsFollowTheirSets: a set refused, without copies and with a new one; a MIRROR_WRITE of data and of a role, to a copy and to a
primary; an acknowledgement good and bad; a grace that passes; a pass of each copy sent and acknowledged. -/
theorem wit_MirrorsFollowTheirSets :
    let set (n id : Nat) := pkt opSpanMirrorSet [(2, 2, 5), (36, 1, n), (38, 2, id)]
    let w := pkt opWrite [(2, 2, 5), (16, 4, 1)]
    let ctl := pkt opSpanMirrorSet [(2, 2, 5), (8, 8, 64), (36, 1, 2), (38, 2, 1)]
    let f (p : List Byte) : Flit := flit tMirrorWrite 2 (pay p 0)
    let wait : MWait := { xid := 0, tag := 255, vol := 5, waiting := [2], sentAt := 0 }
    let g : Tag := { atTag w with work := .mirror }
    (∀ p ∈ [set 0 0, set 1 0, set 2 2], Working opSpanMirrorSet (mirrored p none []) 255 (atTag p) ∧ (atTag p).reply.status = stOk) ∧
    (∃ r, mirrorRefused (mirrored (set 0 0) none []) (set 0 0) = .error r) ∧
    (∃ a, mirrorRefused (mirrored (set 1 0) none []) (set 1 0) = .ok a ∧ (copyIds (set 1 0)).isEmpty = true) ∧
    (∃ a, mirrorRefused (mirrored (set 2 2) none []) (set 2 2) = .ok a ∧ (copyState a.1 2).isNone = true) ∧ copyIds (set 2 2) = [2] ∧
    (∀ p ∈ [w, ctl], ∀ m ∈ [none, some (role false .inSet), some (role true .inSet)], let s := mirrored w m [f p]
      serving s = true ∧ messageOf s tMirrorWrite 2 0 = some ([pay p 0], f p) ∧ holdsPrimary s (pkVolume (pay p 0)) = m.any (fun m => m.primary) ∧
        Tbl.getD s.spn.mirrorRx 2 0 = 0 ∧ vol? s (pkVolume (pay p 0)) = some { vol with mirror := m } ∧ keyLost s 5 = false) ∧
    copiesFrom { vol with mirror := some (role false .inSet) } 2 = true ∧ 0 < pkLength (bytesAt (pay w 0) 0 64) ∧
    ((takeCtl (mirrored w none []) 2 (bytesAt (pay ctl 0) 0 64)).2.isSome = true ∧ pkOpcode (bytesAt (pay ctl 0) 0 64) = opSpanMirrorSet ∧
      pkOpcode (bytesAt (pay w 0) 0 64) ≠ opSpanMirrorSet) ∧
    (∀ b ∈ [[0], [1]], let s := { mirrored w (some (role true .inSet)) [flit tMirrorAck 2 b] with
        tags := [(255, g)], spn := { (spanned [flit tMirrorAck 2 b]).spn with mwaits := [wait] } }
      powered s = true ∧ messageOf s tMirrorAck 2 0 = some ([b], flit tMirrorAck 2 b) ∧ s.spn.mwaits = [wait] ∧ wait.xid = 0 % 2 ^ 32 ∧
        Tbl.get? s.tags wait.tag = some g ∧ pkOpcode g.packet ≠ opSpanMirrorSet) ∧
    (let s := { mirrored w (some (role true .inSet)) [] with now := 1000, spn := { resetSpn with mwaits := [wait] } }
     powered s = true ∧ s.spn.mwaits.find? (fun w => w.xid == 0 && w.waiting.contains 2) = some wait ∧ wait.sentAt + s.spn.graceUs ≤ s.now ∧
       vol? s wait.vol = some { vol with mirror := some (role true .inSet) } ∧
       (liveCopies { vol with mirror := some (role true .inSet) }).contains 2 = true) ∧
    (∀ second sent : Bool, let m : Mirror := { role true .resync with sent1 := sent, sent2 := sent }
      let s := mirrored w (some m) []
      powered s = true ∧ vol? s 5 = some { vol with mirror := some m } ∧ m.primary = true ∧ (if second then 3 else 2) ≤ m.copies ∧
        (if second then m.st2 else m.st1) = .resync ∧ (if second then m.sent2 else m.sent1) = sent ∧ s.locks = [] ∧ s.spn.mwaits = []) := by
  unfold Working; dsimp only
  refine ⟨?_, error_of ?_, ok_of _ ?_, ok_of (fun a : Vol × Option Nat => (copyState a.1 2).isNone) ?_, ?_⟩
  on_goal 5 => and_intros
  all_goals decide +kernel

/-- A task of owner `owner` in a state, waiting for flags 0 and 31. -/
def task (st : TaskSt) (owner : Nat) : Task :=
  { st := st, prio := 3, owner := owner, damzu := true, pending := 0, delivered := 0, waitMask := 0x80000001, waitAll := false, engine := 35
    readyOrder := 0, since := 0, ckptAt := 0, program := 0, frameDelivered := 0 }

/-- An engine in a role that runs a context. -/
def engine (role : EngRole) (ctx : Option Nat) : Engine := { role := role, ctx := ctx, window := 0, order := 0, applying := none }

/-- `up` with these tasks and engines, and handle 4,095 bound to tag 255 of instance 1 at flag 24. -/
def tasked (ts : Tbl Task) (es : Tbl Engine) : State :=
  { up with now := 1000, sch := { resetSch with tasks := ts, engines := es, bindings := [(tagKey 1 255, { handle := 4095, base := 24 })] } }

/-- TasksArePostedDispatchedCancelled: a post by a handle and by a binding, to a task that waits for the flag, to one that runs, and to
none; a spawn into a free context; a dispatch with the program's window; a half applied; a cancel by each name; an engine that stops. -/
theorem wit_TasksArePostedDispatchedCancelled :
    (∀ st ∈ [TaskSt.waiting, .running], let s := tasked [(4095, task st 64)] []
      powered s = true ∧ Tbl.get? s.sch.bindings (tagKey 1 255) = some { handle := 4095, base := 24 } ∧ ctxOfHandle s 4095 = some 4095 ∧
        Tbl.get? s.sch.tasks 4095 = some (task st 64) ∧ ctxOfHandle s 4094 = none ∧ Tbl.sorted s.sch.tasks = true ∧
        Tbl.has s.sch.tasks (0 : Fin 4096).val = false) ∧
    waitMet (0 ||| BitVec.ofNat 32 (2 ^ (24 + 7))) (task .waiting 64).waitMask (task .waiting 64).waitAll = true ∧
    waitMet (0 ||| BitVec.ofNat 32 (2 ^ 1)) (task .waiting 64).waitMask (task .waiting 64).waitAll = false ∧
    (let s := tasked [(4095, task .ready 64)] [(35, engine .inService none)]
     powered s = true ∧ s.sch.hold = false ∧ Tbl.get? s.sch.engines (35 : Fin 36) = some (engine .inService none) ∧
       engineFree (engine .inService none) = true ∧ selected s = some (4095, task .ready 64) ∧
       Tbl.get? s.sch.tasks 4095 = some (task .ready 64) ∧ (engine .inService none).window = (task .ready 64).program) ∧
    (let l : LogHalf := { ctx := 4095, lines := 1, effects := [] }
     let x := { engine .inService none with applying := some l }
     powered (tasked [] [(35, x)]) = true ∧ Tbl.get? (tasked [] [(35, x)]).sch.engines (35 : Fin 36) = some x ∧ x.applying = some l) ∧
    (let s := tasked [(4095, task .stopping 64)] [(35, engine .inService (some 4095))]
     powered s = true ∧ Tbl.get? s.sch.engines (35 : Fin 36) = some (engine .inService (some 4095)) ∧
       Tbl.get? s.sch.tasks 4095 = some (task .stopping 64)) := by
  decide +kernel

/-- RunsAndEpochsEnd: a task at a checkpoint, with the hold set and clear, past its slice, pre-empted, waiting for a flag it has and for one
it has not; an engine that retires nothing; an engine at work and a spare that fail; an epoch that is over. -/
theorem wit_RunsAndEpochsEnd :
    let y := { task .running 1 with pending := 1 }
    let z := { task .ready 64 with prio := 7 }
    let s (hold : Bool) : State := { tasked [(0, { z with prio := 3 }), (1, z), (4095, y)] [(35, engine .inService (some 4095))] with
      sch := { resetSch with hold := hold, tasks := [(0, { z with prio := 3 }), (1, z), (4095, y)], engines := [(35, engine .inService (some 4095))] } }
    (∀ hold : Bool, ckptOf (s hold) (35 : Fin 36) 1 [] = some (4095, y) ∧ (s hold).sch.hold = hold ∧ y.owner ≠ 64 ∧
      Tbl.get? (s hold).insts y.owner = some (native 1)) ∧
    y.since + (s false).sch.sliceUs ≤ (s false).now ∧ (readyTasks (s false)).any (fun p => p.2.prio == y.prio) = true ∧
    victim (s false) = some ((35 : Fin 36).val, 3) ∧ (s false).sch.engines.any (fun p => engineFree p.2) = false ∧
    (readyTasks (s false)).any (fun p => decide (3 < p.2.prio)) = true ∧
    waitMet y.pending 1 true = true ∧ waitMet y.pending 3 true = false ∧ (∀ r ∈ up.mem.retiring, r.1 ≠ 0) ∧
    (let t := tasked [] [(31, engine .inService none), (35, engine .spare none)]
     powered t = true ∧ Tbl.get? t.sch.engines (31 : Fin 36) = some (engine .inService none) ∧ (engine .inService none).role = .inService ∧
       engineSpare t = some 35 ∧ engineSpare t ≠ some (31 : Fin 36).val ∧ Tbl.get? t.sch.engines 35 = some (engine .spare none) ∧
       Tbl.get? t.sch.engines (35 : Fin 36) = some (engine .spare none) ∧ (engine .spare none).role = .spare ∧
       (t.sch.epoch + 1) * 100 ≤ t.now ∧ Tbl.get? t.insts (1 : Nat) = some (native 1)) := by
  dsimp only; and_intros <;> decide +kernel

/-- A worker of tag 255 of instance 1 at the start of a record of one byte. -/
def worker : Worker := enterRecord 1 key 0 0 0 1024 [7] []

/-- A program of instance 1 whose code is one word, with 64 constant bytes and 64 scratch bytes. -/
def program (word : Nat) : Prog :=
  { st := .loaded, inst := 1, gen := 0, code := leBytes 4 word, const := List.replicate 64 1, scratchLen := 64, defBudget := 0
    defFraming := 0, defFrameArg := 0, tables := [0], hash := 0, unloadTag := none }

/-- `up` with that worker at that word. -/
def damzu (word : Nat) : State := { up with dmz := { resetDmz with progs := [(0, program word)], workers := [(31, worker)] } }

/-- That worker stands at the word. -/
abbrev At (word : Nat) : Prop := AtWord (damzu word) 31 word worker (program word)

/-- DamzuArithmetic: a worker at each of the words, operands 0 and 15 and immediates at their ends. -/
theorem wit_DamzuArithmetic :
    (∀ op ∈ List.range' 1 12, ∀ n ∈ [0, 15], At (wordRR op n n (if op < 0x0B then n else 0))) ∧
    (∀ op ∈ [0x10, 0x11, 0x12, 0x15, 0x16, 0x17], ∀ imm ∈ [0, 2 ^ 18 - 1], At (wordRI op 15 (if op = 0x17 then 0 else 15) imm)) ∧
    (∀ p ∈ [(0x13, 0), (0x13, 63), (0x14, 0), (0x14, 63), (0x18, 0), (0x18, 3)], At (wordRI p.1 15 15 p.2)) := by
  unfold At AtWord; decide +kernel

/-- DamzuMemoryAndVectors: a worker at each of the words, sizes and offsets at their ends. -/
theorem wit_DamzuMemoryAndVectors :
    (∀ op ∈ [0x20, 0x21, 0x22, 0x23], ∀ sz ∈ [0, 3], ∀ off ∈ [0, 2 ^ 16 - 1], At (wordM op 15 15 sz off)) ∧
    (∀ op ∈ [0x24, 0x25, 0x26, 0x27], ∀ off ∈ [0, 2 ^ 16 - 1], At (wordVM op 3 15 off)) ∧
    (∀ op ∈ [0x28, 0x29, 0x2A, 0x2B, 0x2C], At (wordVV op 3 3 3)) ∧
    At (wordVM 0x2D 3 15 0) ∧
    At (0x2E * 2 ^ 26 + 2 ^ 22 * 15 + 2 ^ 20 * 3) := by
  unfold At AtWord; and_intros <;> decide +kernel

/-- DamzuControlAndOutput: a worker at each of the words; a loop of no pass and of one; a table that is bound and one that is not; an END of
the next record; a body's end; a worker whose budget is spent. -/
theorem wit_DamzuControlAndOutput :
    (∀ op ∈ [0x30, 0x31, 0x32, 0x33], ∀ off ∈ [0, 2 ^ 18 - 1], At (wordBR op 15 15 off)) ∧
    (∀ mx ∈ [0, 4095], At (wordLP 0x34 1 1023 mx)) ∧
    min (getG worker (1 : Fin 16)).toNat 0 = 0 ∧ min (getG worker (1 : Fin 16)).toNat 4095 ≠ 0 ∧ worker.loops = [] ∧
    (∀ word ∈ [0x35 * 2 ^ 26 + 2 ^ 22 * 15 + 2 ^ 20 * 3, wordBR 0x38 15 15 0, wordBR 0x39 15 15 0, 0x3A * 2 ^ 26 + 2 ^ 22 * 15 + 2 ^ 16 * 3,
        0x3B * 2 ^ 26 + 2 ^ 22 * 15 + 2 ^ 19 * 7, 0x3C * 2 ^ 26 + 2 ^ 22 * 15 + 2 ^ 20 * 3 + 2 ^ 18 * 3, 0x3C * 2 ^ 26, 0x3D * 2 ^ 26 + 255, 0x3E * 2 ^ 26],
      At word) ∧
    (let word := 0x3C * 2 ^ 26
     let x : ITable := { owner := 1, keyBits := 128, matchBits := 128, size := 1, base := 0, hole := 0, gen := 0, respread := false }
     let s := { damzu word with idx := { resetIdx with tables := [(0, x)] } }
     AtWord s 31 word worker (program word) ∧ s.idx.enable = true ∧ slotTable s (program word) (0 : Fin 4) = some (0, x) ∧
       (damzu word).idx.enable = true ∧ slotTable (damzu word) (program word) (3 : Fin 4) = none) ∧
    worker.recIndex = (gatherOf (damzu (0x3E * 2 ^ 26)) worker.tag).recordsIn ∧
    (∀ q ∈ (damzu (0x3E * 2 ^ 26)).dmz.workers, q.2.tag = worker.tag → q.2.st = .ended → q.2.recIndex ≠ worker.recIndex + 1) ∧
    (let e : LoopEnt := { first := 4, last := 8, n := 2, iter := 0 }
     let v := { worker with pc := 8, loops := [e] }
     v.loops = e :: [] ∧ v.pc = e.last ∧ e.iter + 1 < e.n) ∧
    (let w := { worker with count := 1024 }
     let word := wordRR 0x01 15 15 15
     let s := { damzu word with dmz := { resetDmz with progs := [(0, program word)], workers := [(31, w)] } }
     Tbl.get? s.dmz.workers 31 = some w ∧ Tbl.get? s.dmz.progs w.prog = some (program word) ∧ serving s = true ∧ w.st = .running ∧
       w.budget ≤ w.count ∧ nextEnded s w.tag = none ∧ codeWord (program word) w.pc = wordRR 0x01 (15 : Fin 16) (15 : Fin 16) (15 : Fin 16)) := by
  unfold At AtWord; dsimp only; and_intros <;> decide +kernel

/-- A superblock in a state, of block 7 of die 15. -/
def sblock (st : SbSt) (refs : List (Nat × Nat)) : Superblock :=
  { st := st, slc := false, blocks := [(15, 7)], refs := refs, pins := [], written := 0, toErase := [(15, 7)] }

/-- `upVol` with die 15 as `d` on channel 0 as `c` and these superblocks, allotment 7 of volume 5 in the first. -/
def media (d : Die) (c : Chan) (sbs : Tbl Superblock) : State :=
  { upVol with flc := { resetFlc with
      channels := [(0, c)], dies := [(15, d)], superblocks := sbs, nextGroup := 2
      vols := [(5, { vol with map := [(7, { poison := 0, packed := false, die := 15, page := 0, slot := 0, len := 512 })] })]
      groups := [{ id := 1, held := false, entries := [.seqLimit 0] }], dirty := [9], toRefresh := [(15, 7)] } }

/-- PagesAreReadProgrammedErased: a page of one code word and of four; a patrol; a program into an open superblock; an erase of the last
block; a page of the waiting group and of none more; a dirty segment. -/
theorem wit_PagesAreReadProgrammedErased :
    let s := media die chan [(0, sblock .opened []), (1, sblock .erasing [])]
    powered s = true ∧ Tbl.get? s.flc.dies 15 = some die ∧ Tbl.get? s.flc.channels (15 / 16) = some chan ∧
    (∀ cws ∈ [[(0 : Fin 7)], [0, 2, 5, 6]], 1 ≤ cws.length ∧ cws.length ≤ 4) ∧
    atSteps (([0, 2, 5, 6] : List (Fin 7)).map (fun x => x.val)) 5 5 ≠ 0 ∧ atSteps (([0] : List (Fin 7)).map (fun x => x.val)) 5 6 = 0 ∧
    patrolRuns s (15 / 16) = true ∧ dieServes s 15 = true ∧ chanWrites s (15 / 16) = true ∧
    Tbl.get? s.flc.superblocks 0 = some (sblock .opened []) ∧ (sblock .opened []).st = .opened ∧ (sblock .opened []).slc = false ∧
    Tbl.get? s.flc.superblocks 1 = some (sblock .erasing []) ∧ (sblock .erasing []).st = .erasing ∧ (15, 7) ∈ (sblock .erasing []).toErase ∧
    (∀ p ∈ (sblock .erasing []).toErase, p = (15, 7)) ∧
    programsRun s = true ∧ 1 ≤ s.flc.groups.length ∧ (s.flc.groups.take 1).foldl (fun a g => a + g.entries.length) 0 ≤ 511 ∧ 9 ∈ s.flc.dirty := by
  dsimp only; and_intros <;> decide +kernel

/-- CollectionCopiesBeforeItErases: the best source; a wear spread past its limit; a source with nothing left, and with an allotment; a
copy that verified, and a block due for refresh. -/
theorem wit_CollectionCopiesBeforeItErases :
    let d := { die with wear := [(7, 10 ^ 6)] }
    let s (st : SbSt) (refs : List (Nat × Nat)) : State := media d chan [(0, sblock st refs), (1, sblock .opened [])]
    let e : MapEnt := { poison := 0, packed := false, die := 15, page := 0, slot := 0, len := 512 }
    (∀ st ∈ [SbSt.closed, .copying, .verifying], ∀ refs ∈ [[], [(5, 7)]], Tbl.get? (s st refs).flc.superblocks 0 = some (sblock st refs)) ∧
    gcRuns (s .closed []) (sblock .closed []).slc = true ∧ selectable (s .closed []) (sblock .closed []) = true ∧
    gcRuns (s .closed []) false = true ∧
    (wearSpread (s .closed [])).2.2 * 20 < ((wearSpread (s .closed [])).1 - (wearSpread (s .closed [])).2.1) * 10 ∧
    (∀ p ∈ (s .closed []).flc.superblocks, p.2.st = .closed → (sblock .closed []).written ≤ p.2.written) ∧
    programsRun (s .copying []) = true ∧ (sblock .copying []).refs = [] ∧ movesWait (s .copying []) 0 = false ∧
    pinned (s .copying []) (sblock .copying []) = false ∧ (sblock .copying [(5, 7)]).refs ≠ [] ∧
    powered (s .verifying [(5, 7)]) = true ∧ Tbl.get? (s .verifying [(5, 7)]).flc.superblocks 1 = some (sblock .opened []) ∧
    vol? (s .verifying [(5, 7)]) 5 = some { vol with map := [(7, e)] } ∧ Tbl.get? { vol with map := [(7, e)] }.map 7 = some e ∧
    (5, 7) ∈ (sblock .verifying [(5, 7)]).refs ∧ (15, 7) ∈ (sblock .verifying [(5, 7)]).blocks ∧
    refreshDue (s .verifying [(5, 7)]) 15 7 = true := by
  dsimp only; and_intros <;> decide +kernel

/-- DiesChannelsAndCarriers: a die that times out, and one rebuilt; a channel that is lost; an evacuation that fits and one that does not; a
channel in each state; the end of an evacuation and of an insertion. -/
theorem wit_DiesChannelsAndCarriers :
    let s := media die chan []
    let at_ (st : ChSt) : State := media die { chan with st := st } []
    let full : State := { media die chan [] with flc := { (media die chan []).flc with usable := 1 } }
    let eight : Tbl Die := (List.range 8).map (fun n => (16 + n, die))
    let fits : State := { s with flc := { resetFlc with channels := [(0, chan), (1, chan)], dies := (0, die) :: eight } }
    let ending (op : Nat) (st : ChSt) : State := { s with flc := { resetFlc with channels := [(15, { chan with st := st, svcOp := op })] } }
    powered s = true ∧ dieServes s 15 = true ∧ Tbl.get? s.flc.dies 15 = some die ∧
    (let d := { die with rebuilding := true }
     let r := { media d chan [] with flc := { (media d chan []).flc with vols := [(5, vol)] } }
     powered r = true ∧ Tbl.get? r.flc.dies 15 = some d ∧ d.rebuilding = true ∧ onDie r 15 = 0) ∧
    (∀ st ∈ [ChSt.inService, .shed, .evacuating, .training, .evacuated, .released],
      Tbl.get? (at_ st).flc.channels (0 : Fin 16) = some { chan with st := st } ∧ powered (at_ st) = true ∧
        bar0Answers (at_ st) (0 : Fin 2) (0x10024 + 0x400 * (0 : Fin 16).val) = true ∧ { chan with st := st }.svcOp = 0) ∧
    evacuationRefused full (0 : Fin 16) = true ∧ Tbl.get? full.flc.channels (0 : Fin 16) = some chan ∧
    bar0Answers full (1 : Fin 2) (0x10024 + 0x400 * (0 : Fin 16).val) = true ∧
    evacuationRefused fits (0 : Fin 16) = false ∧ Tbl.get? fits.flc.channels (0 : Fin 16) = some chan ∧
    bar0Answers fits (0 : Fin 2) (0x10024 + 0x400 * (0 : Fin 16).val) = true ∧ chan.st = .inService ∧
    (∀ p ∈ [(1, ChSt.evacuating), (3, .training)], Tbl.get? (ending p.1 p.2).flc.channels (15 : Fin 16) = some { chan with st := p.2, svcOp := p.1 } ∧
      powered (ending p.1 p.2) = true ∧ channelEmpty (ending p.1 p.2) (15 : Fin 16) = true) := by
  dsimp only; and_intros <;> decide +kernel

/-- CodesCorrectOneAndDetectTwo: the last positions, two of them, and a data position. -/
theorem wit_CodesCorrectOneAndDetectTwo :
    (12 ≤ 12 ∧ 522 ≤ 522 ∧ dataBitAt 12 = some 7 ∧ 7 < 8) ∧ (0 ≤ 12 ∧ (0 : Nat) ≠ 12) ∧ (512 ≤ 522 ∧ (511 : Nat) ≤ 522 ∧ (512 : Nat) ≠ 511 ∧ 512 ^^^ 511 = 0x3FF) := by
  decide +kernel

/-- A DRAM side in service, with errors at granule 3. -/
def side (ps : List Nat) : Side := { resetSide with st := .inService, mib := 1024, errs := [(3, ps)] }

/-- MemoriesAreScrubbedAndRepaired: a pass over a byte and over a granule with one flip and with two, the granule mirrored and not; a bank
due for replacement; a line remapped, the last one and the one too many, of an engine at work and of a spare; a side due to fail. -/
theorem wit_MemoriesAreScrubbedAndRepaired :
    let sram (ps : List Nat) : State := { up with mem := { resetMem with hogErr := [(2 ^ 25 - 1, ps)] } }
    let dram (ps : List Nat) (mib : Nat) : State := { up with drc := { resetDrc with a := side ps, b := { side [] with errs := [] }, mirrorMib := mib } }
    (∀ ps ∈ [[12], [3, 6]], powered (sram ps) = true ∧ flushing (sram ps) = false ∧ (sram ps).mem.sramScrubEn = true ∧
      (sram ps).mem.hogErr.filter (fun p => decide (2 ^ 25 - 4 ≤ p.1 ∧ p.1 < 2 ^ 25 - 4 + 4)) = [(2 ^ 25 - 1, ps)] ∧ (sram ps).mem.injArm = false) ∧
    verdict 12 [12] = .corrected ∧ verdict 12 [3, 6] = .uncorrectable ∧ twinOf (sram [3, 6]).mem (2 ^ 25 - 1) = none ∧
    (∀ ps ∈ [[522], [3, 6]], ∀ mib ∈ [0, 1], powered (dram ps mib) = true ∧ flushing (dram ps mib) = false ∧ (dram ps mib).mem.dramScrubEn = true ∧
      sideServes (dram ps mib) false = true ∧ (sideOf (dram ps mib) false).errs.filter (fun p => decide (0 ≤ p.1 ∧ p.1 < 0 + 4)) = [(3, ps)] ∧
      (dram ps mib).mem.injArm = false ∧ sideServes (dram ps mib) (!false) = true ∧ Tbl.get? (sideOf (dram ps mib) (!false)).errs 3 = none) ∧
    verdict 522 [522] = .corrected ∧ verdict 522 [3, 6] = .uncorrectable ∧ 2 ^ 20 * (dram [3, 6] 0).drc.mirrorMib ≤ 64 * 3 ∧
    64 * 3 < 2 ^ 20 * (dram [3, 6] 1).drc.mirrorMib ∧
    (∀ p ∈ [((31 : Fin 34), 0xFF, 31), (32, 0, 0)], let s := { up with mem := { resetMem with bankOk := 2 ^ 34 - 1, bank32 := p.2.1 } }
      powered s = true ∧ (List.range 32).find? (fun b => servingBank s.mem b == p.1.val) = some p.2.2 ∧
        bankSpare s = some (if p.2.1 = 0 then 33 else 32) ∧ unitOk s.mem.bankOk p.1 = true ∧ bankDue s p.1 (1 : Fin 4) = true) ∧
    (∀ n ∈ [31, 32], let s := { tasked [] [(0, engine .inService (some 1)), (35, engine .spare none)] with mem := { resetMem with
        firkinRemaps := (List.range n).map (fun k => (k, { unit := 0, line := k, factory := false })) ++
          (List.range n).map (fun k => (32 * 35 + k, { unit := 35, line := k, factory := false })) } }
      powered s = true ∧ Tbl.get? s.sch.engines (0 : Fin 36) = some (engine .inService (some 1)) ∧
        Tbl.get? s.sch.engines (35 : Fin 36) = some (engine .spare none) ∧ (∀ r ∈ s.mem.retiring, r.1 ≠ (0 : Fin 36).val ∧ r.1 ≠ (35 : Fin 36).val) ∧
        (∀ e ∈ [(0 : Fin 36), 35], lineRemapped s.mem e (8191 : Fin 8192) = false ∧ firkinLines s.mem e = n)) ∧
    (let s := { tasked [] [(0, engine .inService (some 1))] with mem := { resetMem with
        firkinRemaps := (List.range 31).map (fun k => (k, { unit := 0, line := k, factory := false })) } }
     firkinLines s.mem (0 : Fin 36) < 32 ∧ Tbl.lowestFree s.mem.firkinRemaps (32 * (0 : Fin 36).val) 32 = some 31) ∧
    (∀ st ∈ [SideSt.inService, .shed, .training], let s := { up with drc := { resetDrc with b := { side [] with st := st } } }
      powered s = true ∧ (sideOf s true).st = st ∧ sideDue s true (1 : Fin 3) = true) ∧
    bar0Answers up (1 : Fin 2) 0xF034 = true ∧ bit (0xFFFFFFFF : BitVec 32).toNat 31 = true := by
  dsimp only; and_intros <;> decide +kernel

/-- CacheFillsDrainsAndGates: a fill that reads well and one that does not; a prefetch; a drain of a whole line; the three registers; a
way's eighth parity error. -/
theorem wit_CacheFillsDrainsAndGates :
    let on : Drc := { resetDrc with a := { side [] with errs := [] }, b := { side [] with errs := [] } }
    let s (d : Drc) (c : Cch) : State := { up with drc := d, cch := { c with enabled := true } }
    (∀ d ∈ [on, { on with a := side [3, 6] }], let t := s d { resetCch with fills := [(1, some 15)] }
      powered t = true ∧ t.cch.fills.find? (fun f => f.1 == 1) = some (1, some 15) ∧ (∀ e ∈ t.cch.wbuf, e.line ≠ 1) ∧
        dramHeld t (1 * 128) = false ∧ t.mem.injArm = false) ∧
    (dramReadLine 1 (s on { resetCch with fills := [(1, some 15)] })).1 = true ∧
    (dramReadLine 1 (s { on with a := side [3, 6] } { resetCch with fills := [(1, some 15)] })).1 = false ∧
    (let t := s on { resetCch with streams := [{ cls := 3, line := 1, due := true }] }
     powered t = true ∧ t.cch.enable = true ∧ t.cch.enabled = true ∧ t.cch.prefetchEn = true ∧
       (∃ x ∈ t.cch.streams, x.cls = (3 : Fin 4).val ∧ x.line = 1 ∧ x.due = true) ∧ t.drc.a.st = .inService ∧ t.drc.b.st = .inService ∧
       t.drc.a.errs = [] ∧ t.drc.b.errs = [] ∧ t.cch.side.length + t.cch.pfDepth ≤ 64) ∧
    (let e : WEntry := { line := 17, bytes := [], enables := List.range 128 }
     let t := s on { resetCch with wbuf := [e] }
     powered t = true ∧ t.cch.wbuf = [e] ∧ dramHeld t (e.line * 128) = false ∧ e.enables = List.range 128 ∧
       2 ^ 20 * t.drc.mirrorMib ≤ e.line * 128 ∧ t.mem.injArm = false ∧ dramPlace t (e.line * 128) = (true, 128, false) ∧ sideServes t true = true) ∧
    (∀ reg ∈ [0xE000, 0xE008], bar0Answers (s on resetCch) (0 : Fin 2) reg = true) ∧
    (s on resetCch).cch.wbuf = [] ∧ bit (0 : BitVec 32).toNat 0 = false ∧ bit (0x41 : BitVec 32).toNat 0 = true ∧ bits (0x41 : BitVec 32).toNat 4 3 = 4 ∧
    bit (0xFFFFFFFF : BitVec 32).toNat 15 = true ∧ bit (s on resetCch).cch.wayPwr 15 = false ∧
    (let t := s on { resetCch with parityTimes := List.replicate 8 (15, 0) }
     powered t = true ∧ bit t.cch.wayPwr (15 : Fin 16) = false ∧
       8 ≤ (t.cch.parityTimes.filter (fun p => p.1 == (15 : Fin 16).val && decide (t.now ≤ 1000 + p.2))).length) := by
  dsimp only; and_intros <;> decide +kernel

/-- FailedHostReadsEndTheirCommands: a load of each kind, a command with a list, a codec job, a restore and a write, each at work. -/
theorem wit_FailedHostReadsEndTheirCommands :
    let w := pkt opWrite [(1, 1, 32), (2, 2, 5), (16, 4, 1)]
    (∀ op ∈ [opProgramLoad, opLicenseLoad, opSealOpen, opCodec, opCodecResume, opCodecRestore],
      Working op (busy (pkt op [])) (tagKey (1 : Fin 64) (255 : Fin 256)) (atTag (pkt op []))) ∧
    Working opFwStage (busy0 (pkt opFwStage [])) (tagKey (0 : Fin 64) (255 : Fin 256)) (atTag (pkt opFwStage [])) ∧
    Working opWrite (busy w) (tagKey (1 : Fin 64) (255 : Fin 256)) (atTag w) ∧ opWrite ∉ [opCodec, opCodecResume, opCodecRestore] ∧
    pkSgl (atTag w).packet = true ∧ mayWrite (busy (pkt opCodec [])) (1 : Fin 64) = true ∧ mayWrite (busy (pkt opCodecResume [])) (1 : Fin 64) = true ∧
    lockHeld (busy w) (tagKey (1 : Fin 64) (255 : Fin 256)) = true := by
  unfold Working; dsimp only; and_intros <;> decide +kernel

/-- PairsClocksPortsAndSpares: a pair that matched and one alone; the active root lost with a standby, without one, and the standby lost; a
relock; a request; a failed port that is covered and one that is not; a link that returns; a spare that fails its test. -/
theorem wit_PairsClocksPortsAndSpares :
    let s (c : Clk) : State := { up with clk := { c with refOk0 := true, refOk1 := true, lock0 := true } }
    (powered up = true ∧ bit up.pwr.pairsSingle (21 : Fin 22) = false) ∧
    (∀ lock : Bool, let t := s { resetClk with lock1 := lock }
      powered t = true ∧ (∀ ref : Fin 2, (if ref = 0 then t.clk.refOk0 else t.clk.refOk1) = true) ∧ (0 : Fin 2).val = b2n t.clk.rootActive ∧
        t.clk.autoSwitch = true ∧ standbyLocked t = lock ∧ (1 : Fin 2).val ≠ b2n t.clk.rootActive) ∧
    (let t := { s { resetClk with rootPending := true } with now := 100000 }
     powered t = true ∧ 2 ≤ t.glb.stage ∧ t.clk.stbyEn = true ∧ (if (1 : Fin 2) = 0 then t.clk.lock0 else t.clk.lock1) = false ∧
       (if (1 : Fin 2) = 0 then t.clk.lostAt0 else t.clk.lostAt1) + 100000 ≤ t.now) ∧
    (let t := s { resetClk with lock1 := true }
     let v : BitVec 32 := 7
     bar0Answers t (0 : Fin 2) 0x1000 = true ∧ bit v.toNat 0 ≠ t.clk.rootReq ∧ bit v.toNat 2 = true ∧ bit v.toNat 0 ≠ t.clk.rootActive ∧
       pllLocked t (if t.clk.rootActive then 0 else 1) = true) ∧
    (∀ p : Fin 2, ∀ paired : Bool, let t := { up with glb := { up.glb with arrangement := 1 }, hif := { up.hif with paired := paired } }
      powered t = true ∧ (portOf t p).linkUp = true ∧ portCovered t p = paired ∧ Tbl.get? t.insts 1 = some (native 1)) ∧
    (∀ p : Fin 2, let t := { up with glb := { up.glb with arrangement := 1 }, hif := { up.hif with port0 := { live with linkUp := false }, port1 := { live with linkUp := false } } }
      powered t = true ∧ (portOf t p).linkUp = false ∧ (portOf t p).perst = false ∧ widthOk (portLanes t p) 4 = true ∧ 1 ≤ (5 : Fin 6).val ∧
        (5 : Fin 6).val ≤ maxSpeed t ∧ (portOf t p).d3hot = false) ∧
    (let t := { tasked [] [(35, engine .spare none)] with now := 10000000 }
     let failing : List (Fin 8 × Nat) := [(0, 35)]
     powered t = true ∧ 5 ≤ t.glb.stage ∧ t.pwr.spareCheckAt + 10000000 ≤ t.now ∧ (0, 35) ∈ failing ∧
       Tbl.get? t.sch.engines 35 = some (engine .spare none) ∧ (engine .spare none).role = .spare) := by
  dsimp only; and_intros <;> decide +kernel

/-- `up` with this supply. -/
def supplied (p : Pwr) : State := { up with now := 2000000, pwr := p }

/-- SupplyDipsFlushesAndResumes: a rail between reset and warning in each supply state, with hold-up and without; the rails back; the dwell;
a long dip; an over-voltage; a rail below reset; PWR_FAIL_N, the flush and the return. -/
theorem wit_SupplyDipsFlushesAndResumes :
    let ok : Pwr := { resetPwr with holdupRdy := true, holdup := 255 }
    (∀ st ∈ [SupSt.normal, .recovering], powered (supplied { ok with supply := st }) = true ∧ (supplied { ok with supply := st }).pwr.supply = st ∧
      resetMv (7 : Fin 8) ≤ 1656 ∧ 1656 < warnMv (7 : Fin 8)) ∧
    Tbl.get? (supplied ok).insts 1 = some (native 1) ∧
    (let mvs := [727, 776, 727, 824, 1164, 1164, 485, 1746]
     mvs.length = 8 ∧ (∀ r < 8, warnMv r + hystMv r ≤ mvs.getD r 0)) ∧
    (∀ st ∈ [SupSt.normal, .warning], (supplied { ok with supply := st, below := 1 }).pwr.below ≠ 0) ∧
    (∀ st ∈ [SupSt.warning, .recovering], let s := supplied { ok with supply := st }
      powered s = true ∧ s.pwr.supply = st ∧ s.pwr.dwellAt + 100 ≤ s.now ∧ s.pwr.dipLong = false ∧ s.pwr.dipStart + 1000000 ≤ s.now) ∧
    (overMv (7 : Fin 8) < 1891 ∧ 1 ≤ 1) ∧ (1655 < resetMv (7 : Fin 8)) ∧
    (∀ st ∈ [SupSt.normal, .warning, .recovering], let s := { supplied { ok with supply := st } with
        sch := (tasked [] ((List.range 5).map (fun n => (n, engine .inService none)))).sch }
      s.pwr.pwrFail = false ∧ powered s = true ∧ 5 ≤ s.glb.stage ∧ s.pwr.supply = st ∧ 4 ∈ gatedEngines s) ∧
    (∀ w : Bool, let s := supplied { ok with supply := .flush, pwrFail := true, deassertWaits := w }
      powered s = true ∧ s.pwr.supply = .flush ∧ s.pwr.pwrFail = true ∧ s.pwr.deassertWaits = w) ∧
    (let s := { supplied { ok with supply := .flushed, pwrFail := true } with drc := { resetDrc with a := { side [] with st := .selfRefresh } } }
     s.pwr.pwrFail = true ∧ s.pwr.supply = .flushed ∧ railsGood s = true ∧ s.drc.a.st = .selfRefresh ∧ s.drc.a.retraining = none) := by
  dsimp only; and_intros <;> decide +kernel

/-- A supply with hold-up for a die. -/
def heldUp : State := { supplied { resetPwr with holdupRdy := true, holdup := 255 } with flc := upVol.flc }

/-- The same with hold-up, where the part has write-back buffers at all (Config.writeBackMib is free). -/
theorem wit_SupplyDipsFlushesAndResumes_held (h : Config.writeBackMib ≠ 0) :
    powered heldUp = true ∧ heldUp.pwr.supply = .normal ∧ holdupOk heldUp = true ∧ Tbl.get? heldUp.insts 1 = some (native 1) := by
  have f : ((heldUp.pwr.holdup * 50 - 2000) * (flushRate heldUp * 10)) / 1048576 ≠ 0 := by decide +kernel
  have g : (limitMib heldUp == 0) = false := by
    simp only [limitMib, beq_eq_false_iff_ne]
    omega
  refine ⟨by decide +kernel, by decide +kernel, ?_, by decide +kernel⟩
  simp only [holdupOk, g]
  decide +kernel

/-- TemperaturePowerCapAndRetraining: an on-die and a remote sensor whose state stays and changes; a trip; an estimate at the cap and past
it; each kind of interface in service with a trigger, covered and not, and at the end of a retraining. -/
theorem wit_TemperaturePowerCapAndRetraining :
    let x : Sensor := newSensor
    let hot : Sensor := { newSensor with ups := [7, 7, 7, 0], downs := 0 }
    let s (n : Nat) (x : Sensor) : State := supplied { resetPwr with sensors := [(n, x)], extCfg := [(7, (0xFFFF, 0, 1))] }
    (∀ n ∈ [(0 : Fin 20), 11, 19], ∀ y ∈ [x, hot], powered (s n y) = true ∧ sensorEnabled (s n y) n = true ∧
      Tbl.get? (s n y).pwr.sensors n = some y ∧ y.failed = false ∧ (n.val < 12 → deviates (s n y) n 999 = false ∧ (999 : Int) < 1000) ∧
      (12 ≤ n.val → -320 ≤ (999 : Int) ∧ (999 : Int) ≤ 1200)) ∧
    stateAfter (countSample (limitsOf (s 11 x) 11) 999 x) = x.state ∧ stateAfter (countSample (limitsOf (s 11 hot) 11) 999 hot) ≠ hot.state ∧
    (-320 ≤ (-320 : Int) ∧ (1200 : Int) ≤ 1200) ∧ (sensorOf up (11 : Fin 12)).failed = false ∧ (1000 : Int) ≤ 1000 ∧
    powered (supplied resetPwr) = true ∧ 5 ≤ up.glb.stage ∧ (supplied resetPwr).pwr.capAt + 100 ≤ (supplied resetPwr).now ∧
    (Tbl.get? (supplied resetPwr).insts 0).elim 19 (fun i => i.feat.powerCap) = 19 ∧ 19000 ≤ 1000 * 19 ∧ 1000 * 19 < 19001 ∧
    (∀ trig : Fin 3, ∀ w ∈ [0, 2], let c := { chan with retrain := true }
      let s := { s 7 { newSensor with temp := 1000 } with flc := { resetFlc with channels := [(15, c)], stripeW := w } }
      Tbl.get? s.flc.channels (15 : Fin 18) = some c ∧ powered s = true ∧ 5 ≤ s.glb.stage ∧ flushing s = false ∧ c.st = .inService ∧
        (∀ p ∈ s.flc.channels, p.2.retraining = none) ∧ heldOff s c.lastRetrain = false ∧
        triggered s trig ((15 : Fin 18) / 2) c.trainTemp c.retrain = true ∧ channelCovered s (15 : Fin 18) = decide (w = 0)) ∧
    (let c := { chan with st := .training, retraining := some (0, 2) }
     let s := { up with flc := { resetFlc with channels := [(15, c)] } }
     (15 : Fin 18).val < 16 ∧ Tbl.get? s.flc.channels (15 : Fin 18) = some c ∧ c.retraining = some (0, 2) ∧ powered s = true ∧
       channelThermal s (15 : Fin 18) ≠ 4) ∧
    (∀ trig : Fin 3, ∀ b : Bool, let d := { side [] with retrain := true }
      let s := { s (8 + b2n b) { newSensor with temp := 1000 } with drc := { resetDrc with a := d, b := d } }
      powered s = true ∧ 5 ≤ s.glb.stage ∧ flushing s = false ∧ (sideOf s b).st = .inService ∧ (sideOf s b).retraining = none ∧
        heldOff s (sideOf s b).lastRetrain = false ∧ triggered s trig (8 + b2n b) (sideOf s b).trainTemp (sideOf s b).retrain = true) ∧
    (∀ b : Bool, let d := { side [] with st := .shed, retraining := some (0, 1) }
      let s := { up with drc := { resetDrc with a := d, b := d } }
      (sideOf s b).retraining = some (0, 1) ∧ powered s = true) := by
  dsimp only; and_intros <;> decide +kernel

/-- A part at a stage of its start-up. -/
def booting (stage : Nat) : State := { State.reset with glb := { resetGlb 0 1 0 with stage := stage } }

/-- StartupRunsItsPhases: a part held and not held, with its sensors cool; each stage, its fuses read and not, its tests passed and failed,
PWR_FAIL_N asserted and not; no image, and one that passes (a check of R150 is the specification's own, so that is a premise). -/
theorem wit_StartupRunsItsPhases :
    let good : StartOutcome := {}
    let cool : State := { State.reset with
      glb := { resetGlb 0 4 0 with held := true }, pwr := { resetPwr with sensors := (List.range 12).map (fun n => (n, newSensor)) } }
    State.reset.glb.held = false ∧ cool.glb.held = true ∧ bit cool.glb.cause 2 = true ∧ coolAgain cool = true ∧
    (∀ k ∈ List.range 13, powered (booting k) = true ∧ (booting k).glb.stage = k) ∧
    fusesTaken (booting 1) = false ∧ good.fusesAgree = true ∧ { good with fusesAgree := false }.fusesAgree = false ∧
    scrupleFatal { good with failed := [(8, 0), (8, 1), (8, 2), (8, 3)] } = true ∧ scrupleFatal { good with failed := [(0, 0), (0, 35)] } = false ∧
    setting (booting 4).otp 0 0 1 0 (fun v => decide (v ≤ 2)) ≠ 2 ∧ good.rootCopy.val ∉ good.unreadable ∧
    (booting 5).pwr.pwrFail = false ∧ { booting 5 with pwr := { resetPwr with pwrFail := true } }.pwr.pwrFail = true ∧
    powered { booting 5 with pwr := { resetPwr with pwrFail := true } } = true ∧ programsRun (booting 7) = true := by
  dsimp only; and_intros <;> decide +kernel

theorem wit_StartupRunsItsPhases_image (x : Image) (o : Otp) (h : imageRefused o x.bytes x.len = none) (hw : o.won = []) :
    let s := { booting 4 with otp := o, glb := { resetGlb 0 1 0 with stage := 4, stored := x } }
    powered s = true ∧ s.glb.stage = 4 ∧ imageRefused s.otp s.glb.stored.bytes s.glb.stored.len = none ∧
      setting s.otp 0 0 1 0 (fun v => decide (v ≤ 2)) ≠ 2 :=
  ⟨rfl, rfl, h, by simp [setting, hw]⟩

/-- FusesRecoveryAndShutdown: a GO outside RECOVERY, of each wrong length, of an image that fails, and of one that passes; a word before the
twelfth and after it; a request refused, of a written target, of wrong words, of an anchor and of a transition; a shutdown that may end and
one that may not; a resume. -/
theorem wit_FusesRecoveryAndShutdown :
    let r (len : Nat) : State := { up with glb := { up.glb with stage := 9, recovLen := len } }
    let p (n : Nat) (words : List Nat) (fuses : Cells) : State := { up with otp := { resetOtp fuses with sel := n, words := words } }
    bar0Answers up (0 : Fin 2) 0x3C = true ∧ up.glb.stage ≠ 9 ∧
    (∀ len ∈ [4095, 4096, 16777216, 16777217], bar0Answers (r len) (0 : Fin 2) 0x3C = true ∧ (r len).glb.stage = 9 ∧ (r len).glb.recovLen = len) ∧
    (∀ n ∈ [11, 12], bar0Answers (p 2 (List.replicate n 1) []) (0 : Fin 2) 0x18008 = true ∧ (p 2 (List.replicate n 1) []).otp.words.length = n) ∧
    bar0Answers up (1 : Fin 2) 0x1800C = true ∧ targetWords 0 = none ∧ targetAllowed (p 0x0B [] []) 0x0B = false ∧
    (targetWords 1 ≠ none ∧ targetAllowed (p 1 [] [(0, 1)]) 1 = true ∧ targetWritten (p 1 [] [(0, 1)]).otp 1 = true) ∧
    (targetAllowed (p 2 [0] []) 2 = true ∧ targetWritten (p 2 [0] []).otp 2 = false ∧ targetWords 2 ≠ none ∧ progBad (p 2 [0] []).otp 2 = true) ∧
    (∀ n ∈ [2, 0x0A], let s := p n (List.replicate 12 1) []
      bar0Answers s (0 : Fin 2) 0x1800C = true ∧ 2 ≤ s.otp.sel ∧ s.otp.sel ≤ 0x0A ∧ targetAllowed s n = true ∧ targetWritten s.otp n = false ∧
        s.otp.words.length = 12) ∧
    (∀ g ∈ [(7, true), (3, false)], let s := p 0x0C [g.1] [(0x208, 1)]
      bar0Answers s (0 : Fin 2) 0x1800C = true ∧ s.otp.sel = 0x0C ∧ s.otp.words = [g.1] ∧ g.1 < 256 ∧ transitionAllowed s g.1 = g.2) ∧
    (∀ ts ∈ [[], [(key, atTag (pkt opRead []))]], let s := { up with tags := ts, glb := { up.glb with shutdown := true } }
      powered s = true ∧ s.glb.stage = 8 ∧ bar0Answers s (0 : Fin 2) 0x8 = true ∧ s.glb.shutdown = true ∧ s.tags = ts ∧
        s.glb.resetTag = none ∧ programsRun s = true) ∧
    (let s := { up with glb := { up.glb with stage := 11 } }
     bar0Answers s (0 : Fin 2) 0x8 = true ∧ s.glb.stage = 11) := by
  dsimp only; and_intros <;> decide +kernel

theorem readN_zeros (c : Cells) (n : Nat) (h : ∀ x, Cells.read c x = 0) (a : Nat := 0) : Cells.readN c a n = List.replicate n 0 := by
  induction n generalizing a with
  | zero => rfl
  | succ n ih => rw [Cells.readN, h, ih, List.replicate_succ]

theorem imageFormat_zeros (n len : Nat) (h : 4 ≤ n) : imageFormat (List.replicate n 0) len = false := by
  have e : (field (List.replicate n 0) 0 4 == 0x4B375949) = false := by
    simp [field, bytesAt, List.take_replicate, List.drop_replicate, Nat.min_eq_left h, leNat]
  simp only [imageFormat, e, Bool.false_and]

theorem imageRefused_zeros (o : Otp) (s : State) (a len : Nat) (h : s.hostMem = []) :
    imageRefused o (Cells.ofList (hostRead s 0 a len)) len ≠ none := by
  have z : ∀ x, Cells.read (Cells.ofList (hostRead s 0 a len)) x = 0 := by
    intro x
    rw [Cells.read_ofList, hostRead, h, List.getD_eq_getElem?_getD, List.getElem?_map]
    cases (List.range len)[x]? <;> rfl
  unfold imageRefused
  rw [readN_zeros _ _ z]
  generalize hn : 4096 = n
  dsimp only
  rw [imageFormat_zeros n len (by omega)]
  exact Option.some_ne_none _

/-- Zeros in host memory are no image. -/
theorem wit_FusesRecoveryAndShutdown_refused :
    let s := { up with glb := { up.glb with stage := 9, recovLen := 4096 } }
    bar0Answers s (0 : Fin 2) 0x3C = true ∧ s.glb.stage = 9 ∧ s.glb.recovLen = 4096 ∧
      imageRefused s.otp (Cells.ofList (hostRead s 0 s.glb.recovAddr s.glb.recovLen)) s.glb.recovLen ≠ none :=
  ⟨by decide +kernel, by decide +kernel, by decide +kernel, imageRefused_zeros _ _ _ _ rfl⟩

/-- An image in host memory that passes R150, as a premise. -/
theorem wit_FusesRecoveryAndShutdown_image (m : Cells) (o : Otp)
    (h : imageRefused o (Cells.ofList (hostRead { up with hostMem := m } 0 0 4096)) 4096 = none) :
    let s := { up with glb := { up.glb with stage := 9, recovLen := 4096 }, hostMem := m, otp := o }
    bar0Answers s (0 : Fin 2) 0x3C = true ∧ s.glb.stage = 9 ∧ s.glb.recovLen = 4096 ∧
      imageRefused s.otp (Cells.ofList (hostRead s 0 s.glb.recovAddr s.glb.recovLen)) s.glb.recovLen = none :=
  ⟨rfl, rfl, rfl, h⟩

/-- ResetsOfPortsAndTheDevice: a DEVICE_RESET with another command busy; an assertion and a release of PERST_N on each port; a function-level
reset with a command busy, and its end; an entry to D3hot and a return. -/
theorem wit_ResetsOfPortsAndTheDevice :
    let d := pkt opDeviceReset []
    let s := { busy0 d with tags := [(255, atTag d), (key, atTag (pkt opRead []))] }
    Working opDeviceReset s (tagKey (0 : Fin 64) (255 : Fin 256)) (atTag d) ∧ Tbl.get? s.insts 1 = some (native 1) ∧
    (∃ p ∈ busyOf s 1, p.1 ≠ tagKey (0 : Fin 64) (255 : Fin 256)) ∧
    (∀ p : Fin 2, let t := { s with glb := { up.glb with arrangement := 1 }
                                    insts := [(0, native 0), (1, { native 1 with port := 1 }), (2, native 2)] }
      portLanes t p ≠ 0 ∧ powered t = true ∧ t.glb.resetTag = none ∧ (∀ q ∈ t.insts, q.2.st ≠ .resetting ∧ q.2.st ≠ .destroying) ∧
        Tbl.sorted t.insts = true ∧ Tbl.get? t.insts 1 = some { native 1 with port := 1 } ∧ { native 1 with port := 1 }.port = (1 : Fin 2).val ∧
        { native 1 with port := 1 }.port ≠ (0 : Fin 2).val ∧ keyInst key = 1 ∧ fnReaches t p = true ∧ 5 ≤ t.glb.stage ∧
        { native 1 with port := 1 }.st ≠ .resetting ∧ { native 1 with port := 1 }.st ≠ .destroying ∧ busyOf t 1 ≠ [] ∧ (portOf t p).d3hot = false) ∧
    (let p : Fin 2 := 0
     portLanes State.reset p ≠ 0 ∧ (portOf State.reset p).perst = true ∧ powered State.reset = true ∧ widthOk (portLanes State.reset p) 8 = true ∧
       1 ≤ (5 : Fin 6).val ∧ (5 : Fin 6).val ≤ maxSpeed State.reset) ∧
    (let i := { native 1 with st := .resetting, fenced := true }
     let t := withInst 1 i up
     powered t = true ∧ Tbl.get? t.insts 1 = some i ∧ i.port = (0 : Fin 2).val ∧ i.st = .resetting ∧ i.drain = false ∧ resetWorkDone t 1 = true ∧
       resetCommand t 1 = false ∧ t.glb.resetTag = none) ∧
    (let t := { up with hif := { up.hif with port1 := { live with d3hot := true, heldMsix := [31] } } }
     powered t = true ∧ fnReaches t (1 : Fin 2) = true ∧ (portOf t (1 : Fin 2)).d3hot = true) := by
  unfold Working; dsimp only; and_intros <;> decide +kernel

/-- SmbusTestPortAndActivity: a target that answers and one that does not; a write, a code it has and one it has not; a part under test; the
wave with a command in flight, before and after 100 ms, and without. -/
theorem wit_SmbusTestPortAndActivity :
    smbusAnswers up = true ∧ smbusAnswers State.reset = false ∧
    ((0x13 : BitVec 8).toNat ∈ [0x00, 0x01, 0x02, 0x03, 0x04, 0x10, 0x11, 0x12, 0x13] ∧
      (0x14 : BitVec 8).toNat ∉ [0x00, 0x01, 0x02, 0x03, 0x04, 0x10, 0x11, 0x12, 0x13]) ∧ up.glb.held = false ∧
    (∀ ts ∈ [[], [(key, atTag (pkt opRead []))]], ∀ now ∈ [99999, 100000],
      let s := { up with tags := ts, now := now, hif := { up.hif with gpioMode := 0x80 } }
      powered s = true ∧ activityPin s = true ∧ anyInFlight s = !ts.isEmpty ∧
        (if now = 100000 then s.hif.activityAt + 100000 ≤ s.now else s.now < s.hif.activityAt + 100000)) := by
  dsimp only; and_intros <;> decide +kernel

/-- StepRunsTheFrontCommand, EveryCommandAnswers: a queue with a command, and an empty one. -/
theorem wit_StepRunsTheFrontCommand : { up with pending := [.bypass, .idcode] }.pending = .bypass :: [.idcode] ∧ up.pending = [] := by decide +kernel

/-- FuseBitsAreNeverCleared, MemoriesStayCanonical: a part whose fuses and host memory hold something takes a step. -/
theorem wit_MemoriesStayCanonical :
    let s := { up with otp := resetOtp [(0x208, 5)], hostMem := [(4096, 1)] }
    (∃ t, step s = .next t) ∧ (Cells.read s.otp.fuses 0x208).getLsbD 2 = true ∧ Cells.wf s.hostMem = true ∧ Cells.wf s.otp.fuses = true := by
  exact ⟨⟨_, rfl⟩, by decide +kernel, by decide +kernel, by decide +kernel⟩

/-- ResetIsAsTheSpecSays: the reset state takes a step too. -/
theorem wit_ResetIsAsTheSpecSays : ∃ t, step State.reset = .next t := ⟨_, rfl⟩

/-! ### What well-formedness refuses: one ill-formed command for each check, and one that it takes -/

theorem test_wf_takes_a_post : (Instr.twPost 0 0 0 8 (2 ^ 64 - 1)).wf = true := by decide
theorem test_wf_refuses_a_value_wider_than_its_write : (Instr.twPost 0 0 0 8 (2 ^ 64)).wf = false := by decide
theorem test_wf_refuses_a_write_of_65_bytes : (Instr.slPost 0 0 0 65 0).wf = false := by decide
theorem test_wf_refuses_slice_window_16 : (Instr.twRingCfgWrite 0 true 16 0).wf = false := by decide
theorem test_wf_refuses_slice_window_16_of_a_base : (Instr.twRingBaseWrite 0 true 16 false 0).wf = false := by decide
theorem test_wf_refuses_slice_window_16_of_a_doorbell : (Instr.twMboxDb 0 true 16 0).wf = false := by decide
theorem test_wf_refuses_page_log_4 : (Instr.twRingHeadWrite 0 2 4 0).wf = false := by decide
theorem test_wf_refuses_a_write_past_bar0 : (Instr.registerWrite 0 0 0x1FFFE [0, 0, 0]).wf = false := by decide
theorem test_wf_refuses_lane_9_of_decompression : (Instr.laneFault 0 9 0xFF 0).wf = false := by decide
theorem test_wf_refuses_a_replacement_of_9_bits : (Instr.shaLaneFault 0 256 0).wf = false := by decide
theorem test_wf_refuses_two_uses_of_one_instance_in_an_epoch : (Instr.epoch [(1, 0, 0), (1, 0, 0)]).wf = false := by decide
theorem test_wf_refuses_a_page_of_die_256 : (Instr.pageReadDone 256 0 [0] false 0 [] none).wf = false := by decide
theorem test_wf_refuses_a_page_without_code_words : (Instr.patrolRead 0 0 [] false 0 [] false false).wf = false := by decide
theorem test_wf_refuses_a_copy_of_volume_256 : (Instr.gcCopyVerified 0 256 0 0).wf = false := by decide
theorem test_wf_refuses_a_refresh_of_volume_256 : (Instr.refresh 0 0 0 0 [(256, 0)]).wf = false := by decide
theorem test_wf_refuses_a_program_of_die_256 : (Instr.programDone 0 256 0 true false true none 0 0).wf = false := by decide
theorem test_wf_refuses_an_erase_of_die_256 : (Instr.eraseDone 0 256 0 true 0 0).wf = false := by decide
theorem test_wf_refuses_a_rate_of_13_bits : (Instr.inserted 0 0 false true 4096 [] []).wf = false := by decide
theorem test_wf_refuses_a_flip_at_position_13 : (Instr.sramScrub 0 0 0 [(0, [13])] [] false).wf = false := by decide
theorem test_wf_refuses_a_flip_at_position_523 : (Instr.dramScrub false 0 0 [(0, [523])] false).wf = false := by decide
theorem test_wf_refuses_a_position_flipped_twice : (Instr.cacheFill [] 0 [(false, 0, [1, 1])]).wf = false := by decide
theorem test_wf_refuses_no_flip : (Instr.prefetch 0 0 [(false, 0, [])]).wf = false := by decide
theorem test_wf_refuses_granule_flips_of_a_drain : (Instr.writeBufferDrain [(true, 0, [523])]).wf = false := by decide
theorem test_wf_refuses_a_flit_of_255_bytes : (Instr.flitReceived 0 (List.replicate 255 0)).wf = false := by decide +kernel
theorem test_wf_refuses_span_id_65536 : (Instr.cancelFlit 65536 0).wf = false := by decide
theorem test_wf_refuses_a_transaction_of_33_bits : (Instr.spanResendExpiry (2 ^ 32)).wf = false := by decide
theorem test_wf_refuses_a_resync_of_volume_256 : (Instr.resyncPassEnd 256 false).wf = false := by decide
theorem test_wf_refuses_a_link_of_3_lanes : (Instr.perstNRelease 0 3 1 false 0).wf = false := by decide
theorem test_wf_refuses_a_link_that_returns_with_no_lane : (Instr.linkReturn 0 0 1 false 0).wf = false := by decide
theorem test_wf_refuses_vector_2048 : (Instr.hostPortFail 0 [2048] 0).wf = false := by decide
theorem test_wf_refuses_seven_rails : (Instr.railsAboveWarning (List.replicate 7 0)).wf = false := by decide
theorem test_wf_refuses_a_voltage_of_17_bits : (Instr.railBelowWarning 0 65536).wf = false := by decide
theorem test_wf_refuses_a_temperature_of_17_bits : (Instr.sensorSample 0 (some 32768)).wf = false := by decide
theorem test_wf_refuses_a_dropped_block_of_volume_256 : (Instr.retrainDone 0 true [(256, 0)] 0).wf = false := by decide
theorem test_wf_refuses_fuse_bit_8 : (Instr.otpGo 0 [(0, 8)]).wf = false := by decide
theorem test_wf_refuses_ten_pools : (Instr.startupPhaseEnd { failed := [(10, 0)] }).wf = false := by decide
theorem test_wf_refuses_pins_not_all_shifted : (Instr.samplePreload [1] []).wf = false := by decide
theorem test_wf_refuses_an_odd_debug_offset : (Instr.dap 0 2 0).wf = false := by decide

/-! ### Single steps, their results from the spec's words -/

/-- Does the command, run by a step, leave a state that `f` accepts? -/
def gives (c : Instr) (s : State) (f : State → Bool) : Bool :=
  match step { s with pending := c :: s.pending } with
  | .next t => f t
  | _ => false

/-- R39: the post of tag 255 of instance 1 with SEQ 7 is QUEUED. -/
theorem test_post_queues : gives (.twPost 0 1 0 8 (7 * 2 ^ 32 + 255)) up
    (fun t => (Tbl.get? t.tags key).any (fun g => g.st == .queued && g.seq == 7) && t.pending == []) = true := by decide +kernel

/-- R373: a post of a slice's tag 31 with SEQ 9. -/
theorem test_slice_post_queues : gives (.slPost 0 15 0 4 (9 * 2 ^ 16 + 31)) up
    (fun t => (Tbl.get? t.tags (tagKey 2 31)).any (fun g => g.st == .queued && g.seq16 == 9)) = true := by decide +kernel

/-- R202, Table 6.6: G1 is the record's length, 1; ADDI with immediate -1 makes it 0, and G0 stays zero. -/
theorem test_addi_wraps : gives (.addi 31 1 1 0x3FFFF) (damzu (wordRI 0x10 1 1 0x3FFFF))
    (fun t => (Tbl.get? t.dmz.workers 31).any (fun w => getG w 1 == 0 && w.pc == 4 && w.count == 1)) = true := by decide +kernel
theorem test_g0_stays_zero : gives (.addi 31 0 1 5) (damzu (wordRI 0x10 0 1 5))
    (fun t => (Tbl.get? t.dmz.workers 31).any (fun w => getG w 0 == 0)) = true := by decide +kernel

/-- Table 6.6: a load at the end of the record reads a byte and zeros beyond. -/
theorem test_ldr_past_the_record : gives (.ldr 31 2 0 3 0) (damzu (wordM 0x20 2 0 3 0))
    (fun t => (Tbl.get? t.dmz.workers 31).any (fun w => getG w 2 == 7)) = true := by decide +kernel

/-- R470: IDCODE shifts out 0x009405E7. -/
theorem test_idcode : gives .idcode up (fun t => t.hif.jtagOut == 0x009405E7) = true := by decide +kernel

/-- R468, Table 14.6: the target answers ID with 24 bytes, and NACKs a write. -/
theorem test_id_is_24_bytes : gives .id up (fun t => t.hif.smbus.any (fun b => b.length == 24)) = true := by decide +kernel
theorem test_smbus_write_is_nacked : gives (.smbusWrite true 0) up (fun t => t.hif.smbus.isNone) = true := by decide +kernel

/-- R422: PWR_FAIL_N in NORMAL begins the flush. -/
theorem test_power_fail_flushes : gives .pwrFailAssert up (fun t => t.pwr.supply == .flush && t.pwr.pwrFail) = true := by decide +kernel

/-- The table gives no row a word. -/
theorem test_no_word_spells_a_command : decodeTableWord 8 0 = none := rfl

end Sys2Proof.Tests
end

/-! Obligation O23 (StagesAndLanes): a unit's descriptor after a stage, and the state after a failure of a lane, an engine or a decoder. -/

namespace Sys2Proof.Machine

/-! ### A unit leaves service -/

/-- A takeover report leaves the unit's own part as the failure left it. -/
theorem takeover_with_bsh (code unit repl ns : Nat) (s : State) (b : Bsh) :
    (takeover code unit repl ns { s with bsh := b }).bsh = b ∧
      OnlyIn [.bsh, .glb, .pwr, .flc, .insts] s (takeover code unit repl ns { s with bsh := b }) := by
  refine ⟨bsh_of_get (takeover_get code unit repl ns { s with bsh := b } .bsh (by decide)), fun x hx => ?_⟩
  obtain ⟨hb, hx⟩ := List.ne_and_not_mem_of_not_mem_cons hx
  rw [takeover_get _ _ _ _ _ x hx, State.get_with_bsh s b x hb]

theorem takeover_with_sec (code unit repl ns : Nat) (s : State) (c : Sec) :
    (takeover code unit repl ns { s with sec := c }).sec = c ∧
      OnlyIn [.sec, .glb, .pwr, .flc, .insts] s (takeover code unit repl ns { s with sec := c }) := by
  refine ⟨sec_of_get (takeover_get code unit repl ns { s with sec := c } .sec (by decide)), fun x hx => ?_⟩
  obtain ⟨hc, hx⟩ := List.ne_and_not_mem_of_not_mem_cons hx
  rw [takeover_get _ _ _ _ _ x hx, State.get_with_sec s c x hc]

theorem takeover_with_flc_only (code unit repl ns : Nat) (s : State) (f : Flc) :
    OnlyIn [.glb, .pwr, .flc, .insts] s (takeover code unit repl ns { s with flc := f }) := fun x hx => by
  rw [takeover_get _ _ _ _ _ x hx, State.get_with_flc s f x (fun h => hx (by simp [h]))]

/-- R96: a decompression lane leaves service; spare 8 notes the lane that it replaces, unless it replaced one before. -/
theorem laneFault_decompress (lane by_ ns : Nat) (s : State) : laneFault 0 lane by_ ns s =
    takeover 2 lane by_ ns { s with bsh := { s.bsh with
      dOk := setBit s.bsh.dOk lane false
      dReplaced := if by_ = 8 ∧ s.bsh.dReplaced = 0xFF then lane else s.bsh.dReplaced } } := rfl

/-- R96: a compression lane; its spare is lane 4. -/
theorem laneFault_compress (lane by_ ns : Nat) (s : State) : laneFault 1 lane by_ ns s =
    takeover 3 lane by_ ns { s with bsh := { s.bsh with
      cOk := setBit s.bsh.cOk lane false
      cReplaced := if by_ = 4 ∧ s.bsh.cReplaced = 0xFF then lane else s.bsh.cReplaced } } := rfl

/-- R407: an AES lane; its spares are lanes 10 and 11. -/
theorem laneFault_aes (lane by_ ns : Nat) (s : State) : laneFault 2 lane by_ ns s =
    takeover 4 lane by_ ns { s with sec := { s.sec with
      aesOk := setBit s.sec.aesOk lane false
      a10Replaces := if by_ = 10 ∧ s.sec.a10Replaces = 0xFF then lane else s.sec.a10Replaces
      a11Replaces := if by_ = 11 ∧ s.sec.a11Replaces = 0xFF then lane else s.sec.a11Replaces } } := rfl

theorem exec_laneFault {s : State} {pool : Fin 3} {lane by_ : Nat} (ns : Nat) (hs : powered s = true)
    (hl : laneFaultOk s pool lane by_ = true) : exec (.laneFault pool lane by_ ns) s = .next (laneFault pool lane by_ ns s) := by
  show execLaneFault pool lane by_ ns s = _
  simp [execLaneFault, act, hs, hl]

theorem exec_shaLaneFault {s : State} {lane : Fin 4} {by_ : Nat} (ns : Nat) (hs : powered s = true)
    (hu : unitOk s.sec.shaOk lane = true) (hr : rerunOk s.sec.shaOk 4 lane by_ [] = true) :
    exec (.shaLaneFault lane by_ ns) s =
      .next (takeover 5 lane by_ ns { s with sec := { s.sec with shaOk := setBit s.sec.shaOk lane false } }) := by
  show execShaLaneFault lane by_ ns s = _
  simp [execShaLaneFault, act, hs, hu, hr]

/-- R160: with both engines in service, engine 1 takes over the work of engine 0. -/
theorem exec_pkEngineFault_zero {s : State} (ns : Nat) (hs : powered s = true) (h0 : unitOk s.sec.pkOk 0 = true)
    (h1 : unitOk s.sec.pkOk 1 = true) : exec (.pkEngineFault 0 ns) s =
      .next (takeover 6 0 1 ns { s with sec := { s.sec with pkOk := setBit s.sec.pkOk 0 false, pk1Replaces := 0 } }) := by
  show execPkEngineFault 0 ns s = _
  simp [execPkEngineFault, act, hs, h0, h1]

theorem exec_softDecoderFault {s : State} {d : Fin 5} {by_ : Nat} (ns : Nat) (hs : powered s = true)
    (hu : unitOk s.flc.softOk d = true)
    (hr : rerunOk s.flc.softOk 5 d by_ (standing s.flc.softOk d [(4, s.flc.softReplaces)]) = true) :
    exec (.softDecoderFault d by_ ns) s = .next (takeover 7 d by_ ns { s with flc := { s.flc with
      softOk := setBit s.flc.softOk d false
      softReplaces := if by_ = 4 ∧ s.flc.softReplaces = 0xFF then d.val else s.flc.softReplaces } }) := by
  show execSoftDecoderFault d by_ ns s = _
  simp [execSoftDecoderFault, act, hs, hu, hr, replaced]

/-! ### A stage finishes a unit -/

/-- The descriptor that `stageDone` writes. -/
def unitAfter (n : Nat) (p : List Byte) (lane len outcome : Nat) (u : UnitDesc) (s : State) : UnitDesc :=
  if outcome = 0 then (stageGood n p lane len u s).1
  else if outcome = 1 then (stageCrc n p u s).1
  else if outcome = 2 then (stageTag n p u s).1
  else { u with status := outcome }

/-- R14: of the descriptors, a stage that finishes a unit writes that unit's alone. -/
theorem stageDone_units (n : Nat) (p : List Byte) (k i lane len outcome by_ ns : Nat) (u : UnitDesc) (s : State) :
    (stageDone n p k i lane len outcome by_ ns u s).units =
      Tbl.set s.units (unitKey k i) (unitAfter n p lane len outcome u s) := by
  have hg : (stageGood n p lane len u s).2.units = s.units := stageGood_get n p lane len u s .units (by decide)
  have hc : (stageCrc n p u s).2.units = s.units := stageCrc_get n p u s .units (by decide)
  have ht : (stageTag n p u s).2.units = s.units := stageTag_get n p u s .units (by decide)
  have hl (pool : Nat) : (laneFault pool lane by_ ns (stageCrc n p u s).2).units = s.units :=
    (laneFault_get pool lane by_ ns _ .units (by decide)).trans hc
  rw [stageDone, bumpFresh_units, unitAfter]
  split
  · rw [hg]
  · split
    · cases producingPool p u.stages with
      | none => simp only [hc]
      | some pool => simp only [hl]
    · split
      · rw [ht]
      · rfl

/-- R21: after a mismatch the lane that wrote the data leaves service, as in a failure of that lane. -/
theorem stageDone_mismatch_get {pool : Nat} {p : List Byte} {u : UnitDesc} (h : producingPool p u.stages = some pool)
    (n k i lane len by_ ns : Nat) (s : State) (x : Part) (hx : x ≠ .units) (hf : x ≠ .fresh) :
    (stageDone n p k i lane len 1 by_ ns u s).get x = (laneFault pool lane by_ ns (stageCrc n p u s).2).get x := by
  rw [stageDone, bumpFresh_get _ x (by simpa using hf), State.get_with_units _ _ x hx]
  simp [h]

theorem stageCrc_bsh (n : Nat) (p : List Byte) (u : UnitDesc) (s : State) : (stageCrc n p u s).2.bsh = s.bsh :=
  stageCrc_get n p u s .bsh (by decide)

theorem stageCrc_sec (n : Nat) (p : List Byte) (u : UnitDesc) (s : State) : (stageCrc n p u s).2.sec = s.sec :=
  stageCrc_get n p u s .sec (by decide)

section
variable {p : List Byte} {u : UnitDesc} (n k i lane len by_ ns : Nat) (s : State)

theorem stageDone_mismatch_dOk (h : producingPool p u.stages = some 0) :
    (stageDone n p k i lane len 1 by_ ns u s).bsh.dOk = setBit s.bsh.dOk lane false := by
  rw [bsh_of_get (stageDone_mismatch_get h n k i lane len by_ ns s .bsh (by decide) (by decide)),
    laneFault_decompress, (takeover_with_bsh ..).1, stageCrc_bsh]

theorem stageDone_mismatch_cOk (h : producingPool p u.stages = some 1) :
    (stageDone n p k i lane len 1 by_ ns u s).bsh.cOk = setBit s.bsh.cOk lane false := by
  rw [bsh_of_get (stageDone_mismatch_get h n k i lane len by_ ns s .bsh (by decide) (by decide)),
    laneFault_compress, (takeover_with_bsh ..).1, stageCrc_bsh]

theorem stageDone_mismatch_aesOk (h : producingPool p u.stages = some 2) :
    (stageDone n p k i lane len 1 by_ ns u s).sec.aesOk = setBit s.sec.aesOk lane false := by
  rw [sec_of_get (stageDone_mismatch_get h n k i lane len by_ ns s .sec (by decide) (by decide)),
    laneFault_aes, (takeover_with_sec ..).1, stageCrc_sec]

end

/-- R15: a good unit goes to its next stage, whose input is the output of this one. -/
theorem unitAfter_good {n : Nat} {p : List Byte} {lane len : Nat} {u : UnitDesc} {s : State} (hs : u.status = stOk)
    (h : u.next ≠ sDma ∨ u.isProtected = false) :
    let v := unitAfter n p lane len 0 u s
    v.status = stOk ∧ v.inLen = u.outLen ∧ v.inBuf = u.outBuf ∧ v.outLen = len ∧
      v.next = nextStage (stageOrder (pkOpcode p)) u.stages u.next := by
  have free : ¬(u.next = sDma ∧ u.isProtected = true) := fun ⟨hn, hp⟩ => h.elim (· hn) (by simp [hp])
  simp [unitAfter, stageGood, free, hs]

/-- Protected plaintext that reaches the DMA stage ends its unit (R122). -/
theorem unitAfter_protected {n : Nat} {p : List Byte} {lane len : Nat} {u : UnitDesc} {s : State} (hn : u.next = sDma)
    (hp : u.isProtected = true) : unitAfter n p lane len 0 u s = { u with status := stInternal } := by
  simp [unitAfter, stageGood, hn, hp]

/-- R21: the first mismatch runs the unit again from its first stage, the second ends it. -/
theorem unitAfter_mismatch (n : Nat) (p : List Byte) (lane len : Nat) (u : UnitDesc) (s : State) :
    unitAfter n p lane len 1 u s =
      if u.retry = 0 then { u with retry := 1, next := firstStage (stageOrder (pkOpcode p)) u.stages }
      else { u with status := stInternal } := by
  simp only [unitAfter, stageCrc, one_ne_zero, if_false, if_true]
  split <;> rfl

/-- R88: the first failing tag has the chunk read again, the second ends its unit. -/
theorem unitAfter_tagFails (n : Nat) (p : List Byte) (lane len : Nat) (u : UnitDesc) (s : State) :
    unitAfter n p lane len 2 u s =
      if u.reread then { u with status := stAuthFail }
      else { u with reread := true, next := firstStage (stageOrder (pkOpcode p)) u.stages } := by
  simp only [unitAfter, stageTag]
  cases u.reread <;> rfl

theorem unitAfter_error {n : Nat} {p : List Byte} {lane len outcome : Nat} {u : UnitDesc} {s : State} (h : 2 < outcome) :
    unitAfter n p lane len outcome u s = { u with status := outcome } := by
  have : outcome ≠ 0 ∧ outcome ≠ 1 ∧ outcome ≠ 2 := by omega
  simp [unitAfter, this]

/-- A stage whose turn it is finishes its unit as `stageDone` says. -/
theorem exec_stageUnitDone {s : State} {inst : Fin 64} {tag : Fin 256} {i lane outcome by_ : Nat} {g : Tag} {u : UnitDesc}
    (len ns : Nat) (ht : Tbl.get? s.tags (tagKey inst tag) = some g) (hr : g.st = .running) (hw : g.work = .working)
    (hs : serving s = true) (hop : stageOps.contains (pkOpcode g.packet) = true) (hi : hasUnit g.packet i = true)
    (hu : (Tbl.get? s.units (unitKey (tagKey inst tag) i)).getD (newUnit s inst g i) = u) (hst : u.status = stOk)
    (hn : u.next ≠ 0xFF) (ho : outcomeOk s g.packet u outcome lane by_ = true) :
    exec (.stageUnitDone inst tag i lane len outcome by_ ns) s =
      .next (stageDone inst g.packet (tagKey inst tag) i lane len outcome by_ ns u s) := by
  show execStageUnitDone inst tag i lane len outcome by_ ns s = _
  have hn' : (u.next == 0xFF) = false := beq_false_of_ne hn
  simp only [execStageUnitDone, ht, hu, act, hr, hw, hs, hop, hi, hst, hn', ho, beq_self_eq_true, Bool.not_false, Bool.and_self, if_true]

/-- Settles O23: each outcome by the lemma about the descriptor that it leaves, each failure by the unit that it takes out of service. -/
theorem stagesAndLanes : Obligations.StagesAndLanes := by
  refine ⟨?stage, ?lane, ?sha, ?publicKey, ?softDecoder⟩
  case stage =>
    intro s inst tag i lane len outcome by_ ns g u ht hr hw hs hop hi hu hst hn ho
    refine ⟨_, exec_stageUnitDone len ns ht hr hw hs hop hi hu hst hn ho,
      ⟨unitAfter inst g.packet lane len outcome u s, ?written, ?_, ?_, ?_, ?_, ?_, ?_, unitAfter_error⟩, ?_, ?_, ?_, ?others, ?frame⟩
    case written => rw [stageDone_units, Tbl.get?_set, if_pos rfl]
    case others => exact fun j hj => by rw [stageDone_units, Tbl.get?_set, if_neg hj]
    case frame => exact OnlyIn.mono _ _ _ _ (stageDone_get _ _ _ _ _ _ _ _ _ _ s) (by decide)
    · rintro rfl h; exact unitAfter_good hst h
    · rintro rfl hd hp; exact unitAfter_protected hd hp
    · rintro rfl h; rw [unitAfter_mismatch, if_pos h]
    · rintro rfl h; rw [unitAfter_mismatch, if_neg h]
    · rintro rfl h; rw [unitAfter_tagFails, h]; rfl
    · rintro rfl h; rw [unitAfter_tagFails, if_pos h]
    · rintro rfl h; exact stageDone_mismatch_dOk _ _ _ _ _ _ _ _ h
    · rintro rfl h; exact stageDone_mismatch_cOk _ _ _ _ _ _ _ _ h
    · rintro rfl h; exact stageDone_mismatch_aesOk _ _ _ _ _ _ _ _ h
  case lane =>
    intro s lane by_ ns hs
    refine ⟨fun h => ⟨_, exec_laneFault ns hs h, ?_⟩, fun h => ⟨_, exec_laneFault ns hs h, ?_⟩, fun h => ⟨_, exec_laneFault ns hs h, ?_⟩⟩
    · exact laneFault_decompress lane by_ ns s ▸ takeover_with_bsh ..
    · exact laneFault_compress lane by_ ns s ▸ takeover_with_bsh ..
    · exact laneFault_aes lane by_ ns s ▸ takeover_with_sec ..
  case sha => exact fun s lane by_ ns hs hu hr => ⟨_, exec_shaLaneFault ns hs hu hr, takeover_with_sec ..⟩
  case publicKey => exact fun s ns hs h0 h1 => ⟨_, exec_pkEngineFault_zero ns hs h0 h1, takeover_with_sec ..⟩
  case softDecoder =>
    intro s d by_ ns hs hu hr
    exact ⟨_, exec_softDecoderFault ns hs hu hr, (takeover_soft ..).1, (takeover_soft ..).2, takeover_with_flc_only _ _ _ _ s _⟩

end Sys2Proof.Machine

/-! Obligations O1, O2 and O7: posts taken and refused, and the grant of a lock. -/

namespace Sys2Proof.Machine

/-! ### Posts -/

section
variable {s : State} {fn : Fin 2} {i : Inst}

/-- R38: a write of all of TW_POST is a post. -/
theorem exec_twPost {inst : Fin 64} (value : Nat) (h : nativeAt s fn inst = some i) :
    exec (.twPost fn inst 0 8 value) s = .next (post inst (bits value 0 8) (bits value 32 32) 0 i s) := by
  show execTwPost fn inst 0 8 value s = _
  simp [execTwPost, h]

theorem exec_twPost_malformed {inst : Fin 64} {off : Fin 8} {size : Nat} (value : Nat) (h : nativeAt s fn inst = some i)
    (hm : ¬(off = 0 ∧ size = 8)) : exec (.twPost fn inst off size value) s = .next (postMalformed inst size s) := by
  have hm' : off.val ≠ 0 ∨ size ≠ 8 := by rw [Fin.ext_iff] at hm; exact Classical.not_and_iff_not_or_not.mp hm
  show execTwPost fn inst off size value s = _
  simp only [execTwPost, h, if_pos hm']

/-- R373: so is a write of all of SL_POST, of one of 32 slots and with SEQ16. -/
theorem exec_slPost {win : Fin 16} {n : Nat} (value : Nat) (h : sliceAt s fn win = some (n, i)) :
    exec (.slPost fn win 0 4 value) s = .next (post n (bits value 0 5) 0 (bits value 16 16) i s) := by
  show execSlPost fn win 0 4 value s = _
  simp [execSlPost, h]

theorem exec_slPost_malformed {win : Fin 16} {off : Fin 4} {size n : Nat} (value : Nat) (h : sliceAt s fn win = some (n, i))
    (hm : ¬(off = 0 ∧ size = 4)) : exec (.slPost fn win off size value) s = .next (postMalformed n size s) := by
  have hm' : off.val ≠ 0 ∨ size ≠ 4 := by rw [Fin.ext_iff] at hm; exact Classical.not_and_iff_not_or_not.mp hm
  show execSlPost fn win off size value s = _
  simp only [execSlPost, h, if_pos hm']

variable {n slot seq seq16 : Nat}

theorem post_accepted (ha : acceptsPosts s i = true) (hf : Tbl.has s.tags (tagKey n slot) = false) :
    post n slot seq seq16 i s =
      acceptPost n slot (if i.slice then pkSubSeq (Cells.readN i.slots (slot * 64) 64) else seq) seq16 i s := by
  simp only [post, ha, hf, Bool.not_true, Bool.false_eq_true, if_false]
  rfl

theorem post_busy (ha : acceptsPosts s i = true) (hb : Tbl.has s.tags (tagKey n slot) = true) :
    post n slot seq seq16 i s =
      raise n ⟨0x0001, stSlotBusy, 0x0001 + 2 ^ 16 * slot, if i.slice then seq16 else seq⟩ (refusePost n s) := by
  simp only [post, ha, hb, Bool.not_true, Bool.false_eq_true, if_false, if_true]

/-- R40: with ENABLE 0 a post is counted, and no event is raised. -/
theorem post_disabled (he : i.ring.enable = false) : post n slot seq seq16 i s = refusePost n s := by
  simp [post, acceptsPosts, he]

end

/-- R77: an event that its mask lets through waits, or is counted as lost when 32 wait. -/
theorem queueEvent_enabled {e : Event} {i : Inst} (h : eventEnabled i e.code = true) : queueEvent e i =
    { i with ring := { i.ring with
        evtQ := if i.ring.evtQ.length < 32 then i.ring.evtQ ++ [e] else i.ring.evtQ
        evtLost := if i.ring.evtQ.length < 32 then i.ring.evtLost else satInc i.ring.evtLost 0xFF } } := by
  simp only [queueEvent, h, Bool.not_true, Bool.false_eq_true, if_false]
  split <;> rfl

/-- EV_SLOT_BUSY passes every mask (Table 2.8); its post is counted too. -/
theorem raise_slotBusy_refusePost (n r0 r1 : Nat) (s : State) : raise n ⟨0x0001, stSlotBusy, r0, r1⟩ (refusePost n s) =
    { s with insts := Tbl.modify s.insts n (fun j => { j with ring := { j.ring with
        refused := satInc j.ring.refused 0xFF
        evtQ := if j.ring.evtQ.length < 32 then j.ring.evtQ ++ [⟨0x0001, stSlotBusy, r0, r1⟩] else j.ring.evtQ
        evtLost := if j.ring.evtQ.length < 32 then j.ring.evtLost else satInc j.ring.evtLost 0xFF } }) } := by
  simp only [raise, refusePost, modRing, modInst, Tbl.modify_modify]
  congr 2
  funext j
  exact queueEvent_enabled rfl

/-- Settles O1: a post that nothing refuses goes to `acceptPost`. -/
theorem postIsAccepted : Obligations.PostIsAccepted := by
  refine ⟨?native, ?slice⟩
  case native =>
    intro s fn inst value i hn ha hf
    rw [exec_twPost value hn, post_accepted ha hf, nativeAt_slice hn]
    simp [acceptPost, modRing, modInst, nativeAt_slice hn]
  case slice =>
    intro s fn win value n i hn ha hf
    rw [exec_slPost value hn, post_accepted ha hf, sliceAt_slice hn]
    simp [acceptPost, modRing, modInst, sliceAt_slice hn]

/-- Settles O2: by what refuses the post: its tag, its ring or its form. -/
theorem postIsRefused : Obligations.PostIsRefused := by
  refine ⟨?native, ?slice, ?nativeForm, ?sliceForm⟩
  case native =>
    intro s fn inst value i hn
    refine ⟨fun ha hb => ?busy, fun he => ?disabled⟩
    case busy => rw [exec_twPost value hn, post_busy ha hb, nativeAt_slice hn, raise_slotBusy_refusePost]; rfl
    case disabled => rw [exec_twPost value hn, post_disabled he]; rfl
  case slice =>
    intro s fn win value n i hn
    refine ⟨fun ha hb => ?busy, fun he => ?disabled⟩
    case busy => rw [exec_slPost value hn, post_busy ha hb, sliceAt_slice hn, raise_slotBusy_refusePost]; rfl
    case disabled => rw [exec_slPost value hn, post_disabled he]; rfl
  case nativeForm => exact fun s fn inst off size value i hn hm => exec_twPost_malformed value hn hm
  case sliceForm => exact fun s fn win off size value n i hn hm => exec_slPost_malformed value hn hm

/-- Settles O7: the row grants just what `lockGrantable` lets it. -/
theorem rangeLockIsGranted : Obligations.RangeLockIsGranted := by
  intro s owner hs hr hg
  show execRangeLockGrant owner s = _
  simp [execRangeLockGrant, act, hs, hr, hg, grantLock]

end Sys2Proof.Machine

/-! Obligation O3 (RingRegistersFollowTheirRules): what each of the ring's registers makes of a write. -/

namespace Sys2Proof.Machine

/-! ### The ring's registers -/

theorem bits_low (x w : Nat) : bits x 0 w = x % 2 ^ w := by rw [bits, pow_zero, Nat.div_one]

/-- R42: what refuses a write of the configuration. -/
theorem ringCfgRefused_iff (i : Inst) (busy en : Bool) (size : Nat) : ringCfgRefused i busy en size = true ↔
    size < (if i.slice then 6 else 9) ∨ (if i.slice then 12 else 16) < size ∨ (i.ring.enable = true ∧ size ≠ i.ring.sizeLog2) ∨
      (i.ring.enable = true ∧ en = false ∧ (busy = true ∨ i.ring.evtQ ≠ [])) := by
  simp only [ringCfgRefused, Bool.or_eq_true, Bool.and_eq_true, Bool.not_eq_true', decide_eq_true_eq, beq_eq_false_iff_ne,
    List.isEmpty_eq_false_iff]
  tauto

theorem ringConfigure_eq (en : Bool) (size : Nat) (r : Ring) : ringConfigure en size r = bif en && !r.enable
    then { r with enable := true, sizeLog2 := size, head := 0, tail := 0, refused := 0, cfgRefused := false, headRefused := false
                  phase := true }
    else { r with enable := en, sizeLog2 := size, cfgRefused := false } := by
  simp only [ringConfigure, cond_eq_ite]

section
variable {s : State} {fn : Fin 2} {slice : Bool} {win : Fin 64} {n : Nat} {i : Inst}

theorem exec_twRingCfgWrite (v : BitVec 32) (h : windowAt s fn slice win = some (n, i)) :
    exec (.twRingCfgWrite fn slice win v) s = .next (
      if ringCfgRefused i (!(busyOf s n).isEmpty) (v.getLsbD 31) (bits v.toNat 0 (if slice then 4 else 5)) then refuseCfg n slice s
      else modRing n (ringConfigure (v.getLsbD 31) (bits v.toNat 0 (if slice then 4 else 5))) s) := by
  show execTwRingCfgWrite fn slice win v s = _
  simp only [execTwRingCfgWrite, h, bit_toNat, apply_ite Host.Outcome.next]

theorem exec_twRingBaseWrite (hi : Bool) (v : BitVec 32) (h : windowAt s fn slice win = some (n, i)) :
    exec (.twRingBaseWrite fn slice win hi v) s = .next (
      if i.ring.enable then refuseCfg n slice s
      else modRing n (fun r => { r with
        cfgRefused := false
        base := if hi then r.base % 2 ^ 32 + 2 ^ 32 * v.toNat else r.base / 2 ^ 32 * 2 ^ 32 + v.toNat / 4096 * 4096 }) s) := by
  show execTwRingBaseWrite fn slice win hi v s = _
  simp only [execTwRingBaseWrite, h]
  split <;> rfl

/-- R54: a native ring's HEAD notes what it refuses. -/
theorem exec_twRingHeadWrite_native (v : BitVec 32) (h : windowAt s fn false win = some (n, i)) :
    exec (.twRingHeadWrite fn 0 win v) s = .next (
      if headAccepted (v.toNat % 2 ^ 16) i.ring.head i.ring.tail (2 ^ i.ring.sizeLog2)
      then modRing n (fun r => { r with head := v.toNat % 2 ^ 16, headRefused := false }) s
      else modRing n (fun r => { r with headRefused := true }) s) := by
  show execTwRingHeadWrite fn 0 win v s = _
  have ht : ((0 : Fin 3).val == 1) = false := rfl
  have h2 : ¬(0 : Fin 3).val = 2 := by decide
  simp only [execTwRingHeadWrite, if_neg h2, ht, h, bits_low, ringSize, Bool.false_eq_true, if_false]
  split <;> rfl

/-- R54: what a slice's HEAD refuses counts as malformed. -/
theorem exec_twRingHeadWrite_slice (v : BitVec 32) (h : windowAt s fn true win = some (n, i)) :
    exec (.twRingHeadWrite fn 1 win v) s = .next (
      if headAccepted (v.toNat % 2 ^ 12) i.ring.head i.ring.tail (2 ^ i.ring.sizeLog2)
      then modRing n (fun r => { r with head := v.toNat % 2 ^ 12, headRefused := false }) s
      else countMalformed s) := by
  show execTwRingHeadWrite fn 1 win v s = _
  have ht : ((1 : Fin 3).val == 1) = true := rfl
  have h2 : ¬(1 : Fin 3).val = 2 := by decide
  simp only [execTwRingHeadWrite, if_neg h2, ht, h, bits_low, ringSize, if_true]
  split <;> rfl

end

/-- R54: so does what a page log's HEAD refuses. -/
theorem exec_twRingHeadWrite_log {s : State} {fn : Fin 2} (k : Fin 64) (v : BitVec 32) (h : bar0Answers s fn 0x4400 = true) :
    exec (.twRingHeadWrite fn 2 k v) s = .next (
      let l := Tbl.getD s.mgr.logs (k.val % 4) resetPLog
      if headAccepted (v.toNat % 2 ^ 20) l.head l.tail (2 ^ l.sizeLog2)
      then { s with mgr := { s.mgr with logs := Tbl.set s.mgr.logs (k.val % 4) { l with head := v.toNat % 2 ^ 20 } } }
      else countMalformed s) := by
  show execTwRingHeadWrite fn 2 k v s = _
  have h2 : (2 : Fin 3).val = 2 := rfl
  simp only [execTwRingHeadWrite, if_pos h2, h, bits_low, if_true]
  split <;> rfl

/-- Settles O3: each register by what its row makes of a write, taken and refused. -/
theorem ringRegistersFollowTheirRules : Obligations.RingRegistersFollowTheirRules := by
  refine ⟨?config, ?base, ?baseRefused, ?native, ?slice, ?log⟩
  case config =>
    intro s fn slice win v n i hw size refused
    have hr : ringCfgRefused i (!(busyOf s n).isEmpty) (v.getLsbD 31) size = true ↔ refused := by
      rw [ringCfgRefused_iff, windowAt_slice hw]
      simp only [Bool.not_eq_true', List.isEmpty_eq_false_iff, refused, ne_eq]
    rw [exec_twRingCfgWrite v hw]
    refine ⟨fun h => ?_, fun h => ?_⟩
    · rw [if_pos (hr.mpr h)]; rfl
    · rw [if_neg (mt hr.mp h), modRing]
      simp only [ringConfigure_eq]
      rfl
  case base =>
    intro s fn slice hi win v n i hw he
    rw [exec_twRingBaseWrite hi v hw, he]; rfl
  case baseRefused =>
    intro s fn slice hi win v n i hw he
    rw [exec_twRingBaseWrite hi v hw, he]; rfl
  case native =>
    intro s fn win v n i hw
    rw [exec_twRingHeadWrite_native v hw]
    simp only [headAccepted, decide_eq_true_eq]
    split <;> rfl
  case slice =>
    intro s fn win v n i hw
    rw [exec_twRingHeadWrite_slice v hw]
    simp only [headAccepted, decide_eq_true_eq]
    rfl
  case log =>
    intro s fn k v ha
    rw [exec_twRingHeadWrite_log k v ha]
    simp only [headAccepted, decide_eq_true_eq]
    rfl

end Sys2Proof.Machine

/-! Obligation O4 (InterruptsAndTheDoorbell): the vectors of a ring and the tenant's word. -/

namespace Sys2Proof.Machine

/-! ### Interrupts and the doorbell -/

theorem modRing_get?_same (n : Nat) (f : Ring → Ring) {s : State} {i : Inst} (h : Tbl.get? s.insts n = some i) :
    Tbl.get? (modRing n f s).insts n = some { i with ring := f i.ring } := by
  rw [modRing, modInst_get?, if_pos rfl, h]; rfl

/-- R56: a port that carries requests takes the message of a vector at once. -/
theorem signalInst_live {n : Nat} (k : Nat) {s : State} {i : Inst} (h : Tbl.get? s.insts n = some i)
    (hp : portLive s i.port = true) :
    signalInst n k s = { s with hif := { s.hif with msix := s.hif.msix ++ [(i.port, i.vecBase + k)] } } := by
  simp only [signalInst, h, signalPort, hp, if_true]

theorem exec_twIrqStsClear {s : State} {fn : Fin 2} {inst : Fin 64} {i : Inst} (h : nativeAt s fn inst = some i) :
    exec (.twIrqStsClear fn inst) s = .next (modRing inst clearUnsignalled s) := by
  show execTwIrqStsClear fn inst s = _
  simp only [execTwIrqStsClear, h]

theorem exec_coalTimeExpiry {s : State} {inst : Fin 64} {i : Inst} (h : Tbl.get? s.insts inst = some i) (hs : powered s = true)
    (hn : i.slice = false) (he : i.ring.irqEnable = true) (hu : 0 < i.ring.unsignalled) (hc : i.ring.coalTime ≠ 0)
    (ht : i.ring.coalStart + i.ring.coalTime ≤ s.now) :
    exec (.coalTimeExpiry inst) s = .next (signalInst inst 0 (modRing inst clearUnsignalled s)) := by
  show execCoalTimeExpiry inst s = _
  simp [execCoalTimeExpiry, h, act, hs, hn, he, hu, hc, ht]

section
variable {s : State} {fn : Fin 2} {slice : Bool} {win : Fin 64} {n : Nat} {i : Inst}

/-- The tenant's word is stored and the message is no longer waiting (R354). -/
def takeMail (n : Nat) (word : BitVec 32) (s : State) : State :=
  modInst n (fun i => { i with mbox := { i.mbox with deliv := false, word := word.toNat } }) s

theorem exec_twMboxDb_idle (word : BitVec 32) (h : windowAt s fn slice win = some (n, i)) (hd : i.mbox.deliv = false) :
    exec (.twMboxDb fn slice win word) s = .next s := by
  show execTwMboxDb fn slice win word s = _
  simp [execTwMboxDb, h, act, hd]

theorem exec_twMboxDb (word : BitVec 32) (h : windowAt s fn slice win = some (n, i)) (hd : i.mbox.deliv = true) :
    exec (.twMboxDb fn slice win word) s = .next
      (settleDrain n (mailboxEvent 0 2 n i.mbox.msgLen word.toNat (takeMail n word s))) := by
  show execTwMboxDb fn slice win word s = _
  simp only [execTwMboxDb, h, act, hd, if_true]
  rfl

end

theorem takeMail_get? (n m : Nat) (word : BitVec 32) (s : State) : Tbl.get? (takeMail n word s).insts m =
    if m = n then (Tbl.get? s.insts n).map (fun i => { i with mbox := { i.mbox with deliv := false, word := word.toNat } })
    else Tbl.get? s.insts m := modInst_get? ..

theorem settleDrain_get?_ne {n m : Nat} (s : State) (h : m ≠ n) : Tbl.get? (settleDrain n s).insts m = Tbl.get? s.insts m := by
  rw [settleDrain, modInst_get?, if_neg h]

theorem mailboxEvent_get?_ne {n m : Nat} (dir k len word : Nat) (s : State) (h : m ≠ n) :
    Tbl.get? (mailboxEvent n dir k len word s).insts m = Tbl.get? s.insts m := by
  rw [mailboxEvent_insts, Tbl.get?_modify_ne _ _ _ _ h]

/-- Instances that let EV_MAILBOX through and have room queue it (R355). -/
theorem mailboxEvent_get?_same {n : Nat} (dir k len word : Nat) {s : State} {i : Inst} (h : Tbl.get? s.insts n = some i)
    (he : eventEnabled i 0x0040 = true) (hl : i.ring.evtQ.length < 32) :
    Tbl.get? (mailboxEvent n dir k len word s).insts n = some { i with ring := { i.ring with
      evtQ := i.ring.evtQ ++ [⟨0x0040, stOk, 2 ^ 16 * dir + 2 ^ 24 * k + len % 512 * 2 ^ 32, word⟩] } } := by
  rw [mailboxEvent_insts, Tbl.get?_modify_self, h, Option.map_some, queueEvent_enabled he]
  simp only [if_pos hl]

/-- Settles O4: the doorbell for each of the instances: its own, the manager's, and the others. -/
theorem interruptsAndTheDoorbell : Obligations.InterruptsAndTheDoorbell := by
  refine ⟨?clear, ?expiry, ?idle, ?taken⟩
  case clear => exact fun s fn inst i h => exec_twIrqStsClear h
  case expiry =>
    intro s inst i h hs hp hn he hu hc ht
    rw [exec_coalTimeExpiry h hs hn he hu hc ht, signalInst_live 0 (modRing_get?_same _ _ h) hp]
    rfl
  case idle => exact fun s fn slice win word n i h hd => exec_twMboxDb_idle word h hd
  case taken =>
    intro s fn slice win word n i i0 hw hn hd h0 hi0 he hl
    refine ⟨_, exec_twMboxDb word hw hd, ?frame, ?own, ?manager, ?others⟩
    case frame => intro x hx; simp at hx; simp [takeMail, hx]
    case own =>
      have h := (takeMail_get? n n word s).trans ((if_pos rfl).trans (congrArg _ hn))
      rw [← mailboxEvent_get?_ne 2 n i.mbox.msgLen word.toNat _ h0] at h
      obtain ⟨st, hst⟩ := settleDrain_ring n _ _ h
      exact ⟨_, hst, rfl, rfl, rfl, rfl, rfl⟩
    case manager =>
      have h := (takeMail_get? n 0 word s).trans ((if_neg h0.symm).trans hi0)
      exact ⟨_, (settleDrain_get?_ne _ h0.symm).trans (mailboxEvent_get?_same 2 n _ _ h he hl), rfl, rfl⟩
    case others =>
      intro m hmn hm0
      rw [settleDrain_get?_ne _ hmn, mailboxEvent_get?_ne _ _ _ _ _ hm0, takeMail_get?, if_neg hmn]

end Sys2Proof.Machine

/-! Obligation O6 (CommandStarts): what a start does before the checks decide, and after. -/

namespace Sys2Proof.Machine

/-! ### Frames one after the other -/

/-- A frame is spelled by its list of parts, so that `decide` sees that the lists fit. -/
theorem OnlyIn.comp {ps qs rs : List Part} {s t u : State} (h : OnlyIn ps s t) (h' : OnlyIn qs t u) (hp : ∀ x ∈ ps, x ∈ rs)
    (hq : ∀ x ∈ qs, x ∈ rs) : OnlyIn rs s u :=
  (h.mono _ _ _ _ hp).trans _ _ _ _ (h'.mono _ _ _ _ hq)

theorem finish_only {k : Nat} {r : Reply} {s : State} : OnlyIn [.tags, .locks, .units] s (finish k r s) :=
  fun x hx => finish_get k r s x hx

theorem requestLock_only {k : Nat} {ls : List Lock} {s : State} : OnlyIn [.locks] s (requestLock k ls s) :=
  fun x hx => requestLock_get k ls s x hx

/-! ### The start of a command -/

/-- R46, R174: the command is bound, RUNNING, and a user of its objects; `n` was served last. -/
def takeCommand (n k handle base : Nat) (uses : List Use) (s : State) : State :=
  modTag k (fun t => { t with started := true, st := .running, uses := uses })
    (modRing n (fun r => { r with served := (lastStarted s).2 + 1 })
      { s with sch := { s.sch with bindings := Tbl.set s.sch.bindings k { handle := handle, base := base } } })

section
variable {s : State} {inst : Fin 64} {tag : Fin 256} {g : Tag} {i : Inst} (handle : BitVec 20) (base : Fin 32)

theorem exec_commandStart_failed {r : Reply} (hg : Tbl.get? s.tags (tagKey inst tag) = some g) (hi : Tbl.get? s.insts inst = some i)
    (hs : startsNow s (tagKey inst tag) g = true) (hf : failedCheck s inst i g = some r) :
    exec (.commandStart inst tag handle base) s = .next (finish (tagKey inst tag) r
      (takeCommand inst (tagKey inst tag) handle.toNat base (usesOf s inst g.packet) s)) := by
  show execCommandStart inst tag handle base s = _
  simp only [execCommandStart, hg, hi, act, hs, if_true, startCommand, hf]
  rfl

/-- A command of this device that its checks let pass asks for its locks (R62). -/
theorem exec_commandStart_passed (hg : Tbl.get? s.tags (tagKey inst tag) = some g) (hi : Tbl.get? s.insts inst = some i)
    (hs : startsNow s (tagKey inst tag) g = true) (hf : failedCheck s inst i g = none) (hr : readOnlyWrong s g.packet = false)
    (hh : lockOps.contains (pkOpcode g.packet) = false ∨ homeOf s (pkVolume g.packet) = none) :
    exec (.commandStart inst tag handle base) s = .next (requestLock (tagKey inst tag) (locksAtStart s (tagKey inst tag) g)
      (takeCommand inst (tagKey inst tag) handle.toNat base (usesOf s inst g.packet) s)) := by
  have home : (if lockOps.contains (pkOpcode g.packet) then homeOf s (pkVolume g.packet) else none) = none := by
    rcases hh with h | h <;> simp only [h, Bool.false_eq_true, if_false, ite_self]
  have begins : beginWork inst (tagKey inst tag) g (takeCommand inst (tagKey inst tag) handle.toNat base (usesOf s inst g.packet) s) =
      requestLock (tagKey inst tag) (locksAtStart s (tagKey inst tag) g)
        (takeCommand inst (tagKey inst tag) handle.toNat base (usesOf s inst g.packet) s) := by
    unfold beginWork
    rw [show homeOf (takeCommand inst (tagKey inst tag) handle.toNat base (usesOf s inst g.packet) s) = homeOf s from rfl, home]
    rfl
  show execCommandStart inst tag handle base s = _
  simp only [execCommandStart, hg, hi, act, hs, if_true, startCommand, hf]
  rw [← begins]
  exact congrArg _ (if_neg (by rw [Bool.not_eq_true]; exact hr))

end

theorem takeCommand_get? (n k j handle base : Nat) (uses : List Use) (s : State) :
    Tbl.get? (takeCommand n k handle base uses s).tags j =
      if j = k then (Tbl.get? s.tags k).map (fun t => { t with started := true, st := .running, uses := uses })
      else Tbl.get? s.tags j := modTag_get? ..

theorem takeCommand_only {n k handle base : Nat} {uses : List Use} {s : State} :
    OnlyIn [.sch, .tags, .insts] s (takeCommand n k handle base uses s) := by
  intro x hx
  simp at hx
  simp [takeCommand, hx]

/-- Settles O6: the start of the command, then what its checks make of it. -/
theorem commandStarts : Obligations.CommandStarts := by
  refine ⟨?passed, ?failed⟩
  case passed =>
    intro s inst tag handle base g i hg hi hs hf hr hh
    refine ⟨_, exec_commandStart_passed handle base hg hi hs hf hr hh, ?own, ?others, ?bound, ?frame⟩
    case own => rw [requestLock_tags, takeCommand_get?, if_pos rfl, hg]; rfl
    case others => intro j hj; rw [requestLock_tags, takeCommand_get?, if_neg hj]
    case bound => exact sch_of_get (requestLock_get _ _ _ .sch (by decide))
    case frame => exact takeCommand_only.comp requestLock_only (by decide) (by decide)
  case failed =>
    intro s inst tag handle base g i r hg hi hs hf
    have h := (takeCommand_get? inst (tagKey inst tag) _ handle.toNat base (usesOf s inst g.packet) s).trans
      ((if_pos rfl).trans (congrArg _ hg))
    refine ⟨_, exec_commandStart_failed handle base hg hi hs hf, finish_ended _ r _ _ h (by simp), ?others, ?frame⟩
    case others => intro j hj; rw [finish_others _ r _ j hj, takeCommand_get?, if_neg hj]
    case frame => exact takeCommand_only.comp finish_only (by decide) (by decide)

end Sys2Proof.Machine

/-! Obligation O48 (FailedHostReadsEndTheirCommands): what ends with a read of host memory that failed. -/

namespace Sys2Proof.Machine

theorem countHostError_only {s : State} : OnlyIn [.hif] s (countHostError s) := fun x hx => by
  simp at hx
  simp [countHostError, hx]

theorem putCtx_only {n c : Nat} {x : Option Ctx} {s : State} : OnlyIn [.bsh] s (putCtx n c x s) :=
  fun y hy => putCtx_get n c x s y hy

theorem codecCount_only {st : Nat} {s : State} : OnlyIn [.bsh] s (codecCount st s) := fun x hx => codecCount_get st s x hx

/-- A codec job that fails leaves its output undefined and its context EMPTY. -/
theorem codecEmptied_only {n a l c st : Nat} {rest : Bool} {s : State} :
    OnlyIn [.mgr, .bsh, .hostMem, .fresh] s (codecCount st (putCtx n c none (codecOutput n a l [] rest s))) :=
  OnlyIn.comp (codecOutput_only n a l [] rest s) (putCtx_only.comp codecCount_only (rs := [.bsh]) (by decide) (by decide))
    (by decide) (by decide)

theorem finish_hif (k : Nat) (r : Reply) (s : State) : (finish k r s).hif = s.hif := finish_get k r s .hif (by decide)

/-- R499: a failed read of a command at work is counted, and ends it. -/
theorem exec_hostReadError {s : State} {inst : Fin 64} {tag : Fin 256} {op : Nat} {g : Tag} {what : Fin 4} (units : Nat)
    (h : Working op s (tagKey inst tag) g) (hr : readsHost what g.packet = true)
    (hl : op ≠ opWrite ∧ op ≠ opInstallChunk ∨ what = 3 ∨ lockHeld s (tagKey inst tag) = true)
    (hm : op ≠ opCodec ∧ op ≠ opCodecResume ∨ mayWrite s inst = true) :
    exec (.hostReadError inst tag what units) s =
      .next (readErrorEnds inst what units g.packet (tagKey inst tag) (countHostError s)) := by
  obtain ⟨ht, ha, hs⟩ := h
  simp only [atWork, ht, Bool.and_eq_true, beq_iff_eq, Bool.not_eq_true'] at ha
  obtain ⟨⟨⟨hrun, rfl⟩, hwork⟩, habort⟩ := ha
  have locked : (!(pkOpcode g.packet == opWrite || pkOpcode g.packet == opInstallChunk) || what.val == 3 ||
      lockHeld s (tagKey inst tag)) = true := by
    rcases hl with h | rfl | h
    · simp [h]
    · simp
    · simp [h]
  have written : (!(pkOpcode g.packet == opCodec || pkOpcode g.packet == opCodecResume) || mayWrite s inst) = true := by
    rcases hm with h | h <;> simp [h]
  show execHostReadError inst tag what units s = _
  simp only [execHostReadError, ht, act, hs, hwork, hrun, habort, hr, locked, written, beq_self_eq_true, Bool.true_or, Bool.not_false,
    Bool.and_self, if_true]

theorem readsHost_codec {what : Fin 4} {p : List Byte} (hw : what ≠ 3) (h : pkOpcode p = opCodec ∨ pkOpcode p = opCodecResume) :
    readsHost what p = true := by
  have h3 : ¬what.val = 3 := fun e => hw (Fin.ext e)
  rcases h with h | h <;> simp [readsHost, h, h3]

theorem readsHost_restore {what : Fin 4} {p : List Byte} (hw : what ≤ 1) (h : pkOpcode p = opCodecRestore) : readsHost what p = true := by
  have h1 : what.val ≤ 1 := hw
  have h2 : ¬what.val = 2 ∧ ¬what.val = 3 := by omega
  simp [readsHost, h, h2]

/-- R499: every command without a bullet of its own. -/
theorem readErrorEnds_badField {what : Fin 4} (n units k : Nat) {p : List Byte} (s : State)
    (h : pkOpcode p ∉ [opCodecRestore, opWrite, opInstallChunk, opCodec, opCodecResume]) :
    readErrorEnds n what units p k s = badField k 24 s := by
  simp only [List.mem_cons, List.not_mem_nil, or_false, not_or] at h
  obtain ⟨hrest, hwrite, hinstall, hcodec, hresume⟩ := h
  simp only [readErrorEnds, if_neg hrest, if_neg hwrite, if_neg hinstall, hcodec, hresume, or_self, if_false, ite_self]

theorem readErrorEnds_list (n units k : Nat) {p : List Byte} (s : State) (h : pkOpcode p ≠ opCodecRestore) :
    readErrorEnds n 3 units p k s = badField k 24 s := by
  simp [readErrorEnds, h]

theorem readErrorEnds_codec {what : Fin 4} (n units k : Nat) {p : List Byte} (s : State) (hw : what ≠ 3)
    (h : pkOpcode p = opCodec ∨ pkOpcode p = opCodecResume) : readErrorEnds n what units p k s =
      codecFails n (pkContext p) k stBadField (codecReadField what) 0 (codecOutput n (field p 36 8) (field p 44 4) [] true s) := by
  have h3 : ¬what.val = 3 := fun e => hw (Fin.ext e)
  rcases h with h | h <;> simp [readErrorEnds, h, h3]

theorem readErrorEnds_restore {what : Fin 4} (n units k : Nat) {p : List Byte} (s : State) (h : pkOpcode p = opCodecRestore) :
    readErrorEnds n what units p k s = badField k 24 (putCtx n (pkContext p) none s) := if_pos h

theorem readErrorEnds_write {what : Fin 4} (n units k : Nat) {p : List Byte} (s : State) (hw : what ≠ 3) (h : pkOpcode p = opWrite) :
    readErrorEnds n what units p k s = writeDone n stWriteFault units p k s := by
  have h3 : ¬what.val = 3 := fun e => hw (Fin.ext e)
  simp [readErrorEnds, h, h3]

/-- A codec job's failure is a finish over a state without its context. -/
theorem codecFails_replies {op n k c st r0 r1 : Nat} {s u : State} {g : Tag} {i : Instr} (hw : Working op s k g)
    (e : exec i s = .next (codecFails n c k st r0 r1 u)) (hu : OnlyIn [.hif, .mgr, .hostMem, .fresh] s u) :
    Replies i s k st r0 r1 [.hif, .mgr, .bsh, .hostMem, .fresh] fun t => t.hif = u.hif ∧ ctxOf t n c = none := by
  refine hw.replies (r := { status := st, r0 := r0, r1 := r1 }) e
    (hu.comp (putCtx_only.comp codecCount_only (rs := [.bsh]) (by decide) (by decide)) (by decide) (by decide)) (by decide) ⟨?_, ?_⟩
  · rw [finish_hif]; exact hif_of_get ((codecCount_get _ _ _ (by decide)).trans (putCtx_get _ _ _ _ _ (by decide)))
  · exact codecFails_ctx n c k st r0 r1 u

/-- R64: no unit of a write that was not read in full is stored. -/
theorem writeBlocks_zero (held compress : Bool) (margin v lba : Nat) (bs : List Byte) (s : State) :
    writeBlocks held compress margin v lba 0 bs s = (s, []) := rfl

theorem prefixBlocks_zero (lba n : Nat) : prefixBlocks lba n 0 = 0 := by
  unfold prefixBlocks
  omega

theorem writeEnds_zero_flc (held : Bool) (k status len stored : Nat) (ids : List Nat) (s : State) :
    (writeEnds held k status len 0 stored ids s).flc = s.flc := by
  unfold writeEnds
  cases held
  · exact (flc_of_get (settleDurable_get _ _ .flc (by decide)))
  · exact (flc_of_get (finish_get _ _ _ .flc (by decide)))

theorem writeDone_zero_flc (n status : Nat) (hs : status ≠ stOk) (p : List Byte) (k : Nat) (s : State) :
    (writeDone n status 0 p k s).flc = s.flc := by
  unfold writeDone
  split
  · rfl
  · simp only [if_neg hs, prefixBlocks_zero, writeBlocks_zero, writeEnds_zero_flc, mirrorSend, if_true]
    rfl

/-- Settles O48: by what the failed read was of. -/
theorem failedHostReadsEndTheirCommands : Obligations.FailedHostReadsEndTheirCommands := by
  intro s inst tag op g hw counted
  have hop := hw.packet
  have hcounted (r : Reply) (u : State) (hu : u.hif = (countHostError s).hif) : counted (finish (tagKey inst tag) r u) := by
    show (finish (tagKey inst tag) r u).hif.hostErrors = _
    rw [finish_hif, hu]; rfl
  refine ⟨?object, ?list, ?codec, ?restore, ?write⟩
  case object =>
    intro units ho
    have hr : readsHost 0 g.packet = true ∧ op ∉ [opCodecRestore, opWrite, opInstallChunk, opCodec, opCodecResume] := by
      simp only [List.mem_cons, List.not_mem_nil, or_false] at ho
      rcases ho with rfl | rfl | rfl | rfl <;> simp [readsHost, hop]
    have hn := hr.2
    simp only [List.mem_cons, List.not_mem_nil, or_false, not_or] at hn
    obtain ⟨-, hwrite, hinstall, hcodec, hresume⟩ := hn
    have e := exec_hostReadError units hw hr.1 (.inl ⟨hwrite, hinstall⟩) (.inl ⟨hcodec, hresume⟩)
    rw [readErrorEnds_badField _ _ _ _ (hop ▸ hr.2)] at e
    exact hw.replies (r := { status := stBadField, r0 := 24 }) e countHostError_only (by decide) (hcounted _ _ rfl)
  case list =>
    intro units ho hl
    simp only [List.mem_cons, List.not_mem_nil, or_false, not_or] at ho
    obtain ⟨hcodec, hresume, hrestore⟩ := ho
    have e := exec_hostReadError (what := 3) units hw hl (.inr (.inl rfl)) (.inl ⟨hcodec, hresume⟩)
    rw [readErrorEnds_list _ _ _ _ (hop ▸ hrestore)] at e
    exact hw.replies (r := { status := stBadField, r0 := 24 }) e countHostError_only (by decide) (hcounted _ _ rfl)
  case codec =>
    intro what units h3 ho hm
    simp only [List.mem_cons, List.not_mem_nil, or_false] at ho
    have e := exec_hostReadError units hw (readsHost_codec h3 (hop ▸ ho)) (.inl (by rcases ho with rfl | rfl <;> decide)) (.inr hm)
    rw [readErrorEnds_codec _ _ _ _ h3 (hop ▸ ho)] at e
    have hr0 : codecReadField what = if what = 1 then 20 else if what = 2 then 36 else 24 := by simp only [codecReadField, Fin.ext_iff]; rfl
    rw [← hr0]
    exact hw.replies (r := { status := stBadField, r0 := codecReadField what }) e
      (countHostError_only.comp codecEmptied_only (by decide) (by decide)) (by decide)
      ⟨hcounted _ _ (hif_of_get (codecEmptied_only .hif (by decide))), codecFails_ctx ..⟩
  case restore =>
    intro what units hle ho
    have e := exec_hostReadError units hw (readsHost_restore hle (hop.trans ho)) (.inl (by rw [ho]; decide)) (.inl (by rw [ho]; decide))
    rw [readErrorEnds_restore _ _ _ _ (hop.trans ho)] at e
    refine hw.replies (r := { status := stBadField, r0 := 24 }) e (countHostError_only.comp putCtx_only (by decide) (by decide))
      (by decide) ⟨hcounted _ _ (hif_of_get (putCtx_only .hif (by decide))), ?_⟩
    rw [ctxOf_of (congrArg _ (finish_bsh ..))]
    exact ctxOf_put_none ..
  case write =>
    intro ho hl
    have e := exec_hostReadError (what := 0) 0 hw (by simp [readsHost, hop, ho]) (.inr (.inr hl)) (.inl (by rw [ho]; decide))
    rw [readErrorEnds_write _ _ _ _ (by decide) (hop.trans ho)] at e
    have hflc := writeDone_zero_flc inst stWriteFault (by decide) g.packet (tagKey inst tag) (countHostError s)
    refine ⟨_, e, ?_, ?_, ?_⟩
    · show (writeDone ..).hif.hostErrors = _
      rw [hif_of_get (writeDone_get _ _ _ _ _ _ .hif (by decide))]; rfl
    · rw [hflc]; rfl
    · rw [hflc]; rfl

end Sys2Proof.Machine

/-! Obligations O11 (WriteWaitsForItsGroups) and O12 (HeldWritesReplyAtOnce): the ends of WRITE, TRIM and FLUSH. -/

namespace Sys2Proof.Machine

/-! ### How a write ends -/

/-- Groups not yet durable keep the reply back (R65). -/
theorem writeEnds_waits {k : Nat} {ids : List Nat} {s : State} {g : Tag} (status len done stored : Nat)
    (hg : Tbl.get? s.tags k = some g) (hids : ids ≠ []) :
    let t := writeEnds false k status len done stored ids s
    Tbl.get? t.tags k = some { g with
      work := .durable, groups := ids
      reply := { status := status, r0 := done, r1 := stored, partialEffect := decide (done < len) } } ∧
    OtherTags k s t ∧ t.flc = (countHostWritten done s).flc ∧ OnlyIn [.tags, .flc] s t := by
  intro t
  have ht : t = modTag k (fun t => { t with
      work := .durable, groups := ids
      reply := { status := status, r0 := done, r1 := stored, partialEffect := decide (done < len) } }) (countHostWritten done s) :=
    settleDurable_waits k _ _ g hg hids
  rw [ht]
  refine ⟨?_, fun j hj => ?_, rfl, fun x hx => ?_⟩
  · rw [modTag_get?, if_pos rfl]; exact congrArg _ hg
  · rw [modTag_get?, if_neg hj]; rfl
  · simp at hx; simp [hx]

/-- A write under write-back ends at once (R67). -/
theorem writeEnds_held (k status len done stored : Nat) (ids : List Nat) (s : State) : writeEnds true k status len done stored ids s =
    finish k { status := status, r0 := done, r1 := stored, partialEffect := decide (done < len) }
      (holdBytes (blockBytes * done) (countHostWritten done s)) := rfl

section
variable {s : State} {n : Nat} {p : List Byte} {u : Vol}

/-- The groups that a write of the first `done` blocks of its range appends. -/
def writtenBlocks (s : State) (n : Nat) (p : List Byte) (u : Vol) (done : Nat) : State × List Nat :=
  writeBlocks (mayHold s n p u) (u.compress && !pkNoCompress p && s.bsh.zstdEn) (marginOf s n) (pkVolume p) (pkLba p) done
    (gather s n p 0 (blockBytes * done)) (discardPackages (pkVolume p) (pkLba p) done s)

theorem writeDone_unmirrored {status units done : Nat} (k : Nat) (hv : vol? s (pkVolume p) = some u) (hm : u.mirror = none)
    (hd : done = if status = stOk then pkLength p else prefixBlocks (pkLba p) (pkLength p) units) :
    writeDone n status units p k s = writeEnds (mayHold s n p u) k status (pkLength p) done
      (storedBy (writtenBlocks s n p u done).1 (writtenBlocks s n p u done).2) (writtenBlocks s n p u done).2
      (writtenBlocks s n p u done).1 := by
  subst hd
  simp only [writeDone, hv, mirrorSend_none _ _ _ _ _ _ _ _ _ hm]
  rfl

theorem writtenBlocks_only {done : Nat} : OnlyIn [.bsh, .flc, .fresh] s (writtenBlocks s n p u done).1 := by
  intro x hx
  simp at hx
  simp [writtenBlocks, hx]

/-- R64, R65: one group for each atomic unit goes behind the journal; reads see the old data. -/
theorem writtenBlocks_groups {done : Nat} (hv : vol? s (pkVolume p) = some u) (hh : mayHold s n p u = false) :
    ∃ gs : List Group, (writtenBlocks s n p u done).1.flc.groups = s.flc.groups ++ gs ∧
      (writtenBlocks s n p u done).2 = gs.map (fun j => j.id) ∧ (writtenBlocks s n p u done).1.flc.vols = s.flc.vols ∧
      (writtenBlocks s n p u done).1.flc.life = s.flc.life ∧
      List.Forall₂ (UnitOf (pkVolume p) (pkLba p) (gather s n p 0 (blockBytes * done))) (unitPieces (pkLba p) done) gs := by
  rw [writtenBlocks, hh]
  exact writeBlocks_groups _ _ _ _ _ _ u (discardPackages (pkVolume p) (pkLba p) done s) hv

/-- R398: a mirrored volume holds no write. -/
theorem mirror_of_mayHold (h : mayHold s n p u = true) : u.mirror = none := by
  simp only [mayHold, Bool.and_eq_true] at h
  exact Option.isNone_iff_eq_none.mp h.1.2

end

theorem writeStatus_eq_stOk (outcome : Fin 3) : writeStatus outcome = stOk ↔ outcome.val = 0 := by
  unfold writeStatus
  split
  · simp [*]
  · split <;> simp [*]

theorem exec_write {s : State} {inst : Fin 64} {tag : Fin 256} {outcome : Fin 3} {g : Tag} (units : Nat)
    (h : Working opWrite s (tagKey inst tag) g) (hl : lockHeld s (tagKey inst tag) = true)
    (hb : s.bsh.enable = true ∨ writeCompresses s g.packet = false)
    (hu : unitBlocks s (tagKey inst tag) (pkLba g.packet) (pkLength g.packet) stInternal = []) (hk : keyLost s (pkVolume g.packet) = false) :
    exec (.write inst tag outcome units) s =
      .next (writeDone inst (writeStatus outcome) units g.packet (tagKey inst tag) s) := by
  have hlanes : lanesRun s inst tag (writeCompresses s) = true := by
    rcases hb with hb | hb <;> simp [lanesRun, h.tag, hb]
  show execWrite inst tag outcome units s = _
  simp only [execWrite]
  rw [h.next (by rw [hl, hlanes]; rfl)]
  simp [writeOutcome, hu, hk]

/-- Settles O11: a write of at least one block has at least one group, for which the reply waits. -/
theorem writeWaitsForItsGroups : Obligations.WriteWaitsForItsGroups := by
  intro s inst tag outcome units g u hw hl hb hv hu hk hm hh lba done bs hdone
  have hd : done = if writeStatus outcome = stOk then pkLength g.packet else prefixBlocks lba (pkLength g.packet) units := by
    simp only [done, writeStatus_eq_stOk]
  obtain ⟨gs, hgroups, hids, hvols, hlife, hunits⟩ := writtenBlocks_groups (done := done) hv hh
  have hne : (writtenBlocks s inst g.packet u done).2 ≠ [] := by
    rw [hids]; simpa using forall₂_ne hunits (unitPieces_ne lba done hdone)
  have htags : (writtenBlocks s inst g.packet u done).1.tags = s.tags := writtenBlocks_only .tags (by decide)
  have e := exec_write (outcome := outcome) units hw hl hb hu hk
  rw [writeDone_unmirrored _ hv hm hd, hh] at e
  generalize storedBy _ _ = stored at e
  obtain ⟨hreply, hothers, hflc, hframe⟩ := writeEnds_waits (writeStatus outcome) (pkLength g.packet) done stored (htags ▸ hw.tag) hne
  refine ⟨_, e, gs, stored, ?groups, hunits, ?reply, ?vols, ?life, ?others, ?frame⟩
  case groups => rw [hflc]; exact hgroups
  case reply => rw [← hids]; exact hreply
  case vols => rw [hflc]; exact hvols
  case life => rw [hflc]; exact hlife ▸ rfl
  case others => exact fun j hj => htags ▸ hothers j hj
  case frame => exact writtenBlocks_only.comp hframe (by decide) (by decide)

/-! ### A held write, TRIM and FLUSH -/

/-- R67: a held write is in its volume at once. -/
theorem writtenBlocks_held {s : State} {n done : Nat} {p : List Byte} {u : Vol} (hv : vol? s (pkVolume p) = some u)
    (hh : mayHold s n p u = true) :
    (∃ m d, vol? (writtenBlocks s n p u done).1 (pkVolume p) = some { u with map := m, data := d } ∧
      ∀ x, Cells.read d x = if 4096 * pkLba p ≤ x ∧ x < 4096 * pkLba p + 4096 * done
        then (gather s n p 0 (4096 * done)).getD (x - 4096 * pkLba p) 0 else Cells.read u.data x) ∧
    (writtenBlocks s n p u done).1.flc.heldBytes = s.flc.heldBytes := by
  rw [writtenBlocks, hh]
  exact ⟨writeBlocks_held _ _ _ _ _ _ u (discardPackages (pkVolume p) (pkLba p) done s) hv, writeBlocks_heldBytes ..⟩

theorem finish_flc (k : Nat) (r : Reply) (s : State) : (finish k r s).flc = s.flc := finish_get k r s .flc (by decide)

/-- Counting and holding what was written changes no other part. -/
theorem heldWrite_only {n : Nat} {s : State} : OnlyIn [.flc] s (holdBytes (blockBytes * n) (countHostWritten n s)) := by
  intro x hx
  simp at hx
  simp [hx]

theorem heldWrite_heldBytes (n : Nat) (s : State) :
    (holdBytes (blockBytes * n) (countHostWritten n s)).flc.heldBytes = s.flc.heldBytes + blockBytes * n := rfl

theorem heldWrite_vol (n v : Nat) (s : State) : vol? (holdBytes (blockBytes * n) (countHostWritten n s)) v = vol? s v := rfl

theorem finish_vol (k v : Nat) (r : Reply) (s : State) : vol? (finish k r s) v = vol? s v := by rw [vol?, finish_flc]; rfl

theorem exec_trim {s : State} {inst : Fin 64} {tag : Fin 256} {g : Tag} (units : Nat)
    (h : Working opTrim s (tagKey inst tag) g) (hl : lockHeld s (tagKey inst tag) = true) :
    exec (.trim inst tag false units) s = .next (trimDone inst stOk units g.packet (tagKey inst tag) s) := h.next hl

/-- The groups that a TRIM of its whole range appends. -/
def trimmedBlocks (s : State) (p : List Byte) : State × List Nat :=
  trimBlocks false (pkVolume p) (pkLba p) (pkLength p) (discardPackages (pkVolume p) (pkLba p) (pkLength p) s)

theorem trimmedBlocks_only {s : State} {p : List Byte} : OnlyIn [.bsh, .flc, .fresh] s (trimmedBlocks s p).1 := by
  intro x hx
  simp at hx
  simp [trimmedBlocks, hx]

theorem trimmedBlocks_ids {s : State} {p : List Byte} {u : Vol} (hn : 0 < pkLength p) (hv : vol? s (pkVolume p) = some u) :
    (trimmedBlocks s p).2 ≠ [] ∧ (trimmedBlocks s p).1.flc.vols = s.flc.vols :=
  trimBlocks_ids _ _ _ u (discardPackages (pkVolume p) (pkLba p) (pkLength p) s) hn hv

/-- R301: a TRIM that is not held waits for its groups like a write. -/
theorem trimDone_unheld {s : State} {n units k : Nat} {p : List Byte} {u : Vol} (hv : vol? s (pkVolume p) = some u)
    (hm : u.mirror = none) (hh : mayHold s n p u = false) : trimDone n stOk units p k s =
      writeEnds false k stOk (pkLength p) (pkLength p) 0 (trimmedBlocks s p).2 (trimmedBlocks s p).1 := by
  simp only [trimDone, hv, hh, mirrorSend_none _ _ _ _ _ _ _ _ _ hm, if_true]
  rfl

theorem exec_flush {s : State} {inst : Fin 64} {tag : Fin 256} {g : Tag} (h : Working opFlush s (tagKey inst tag) g)
    (he : earlierWrite s inst g.order = false) (hh : heldData s = false) :
    exec (.flush inst tag) s = .next (finish (tagKey inst tag) { status := stOk } s) := by
  show execFlush inst tag s = _
  simp only [execFlush, h.tag]
  exact h.next (by rw [he, hh]; rfl)

/-- Settles O12: a held write and a FLUSH finish their tag, a TRIM waits as a write does. -/
theorem heldWritesReplyAtOnce : Obligations.HeldWritesReplyAtOnce := by
  refine ⟨?held, ?trim, ?flush⟩
  case held =>
    intro s inst tag units g u hw hl hb hv hu hk hh
    have hm := mirror_of_mayHold hh
    obtain ⟨hvol, hheld⟩ := writtenBlocks_held (done := pkLength g.packet) hv hh
    have e := exec_write (outcome := 0) units hw hl hb hu hk
    have hok : writeStatus 0 = stOk := rfl
    rw [hok, writeDone_unmirrored _ hv hm (if_pos rfl).symm, hh, writeEnds_held] at e
    have hbefore := writtenBlocks_only.comp (heldWrite_only (n := pkLength g.packet) (s := (writtenBlocks s inst g.packet u (pkLength g.packet)).1))
      (by decide) (by decide) (rs := [.bsh, .flc, .fresh])
    generalize hw' : holdBytes (blockBytes * pkLength g.packet) (countHostWritten (pkLength g.packet)
      (writtenBlocks s inst g.packet u (pkLength g.packet)).1) = w at e hbefore
    have htags : w.tags = s.tags := hbefore .tags (by decide)
    refine ⟨_, e, ⟨_, hw.finish_ended htags _⟩, ?vol, ?bytes, finish_others_of htags _, hbefore.comp finish_only (by decide) (by decide)⟩
    case vol => simpa only [finish_vol, ← hw', heldWrite_vol] using hvol
    case bytes => rw [finish_flc, ← hw', heldWrite_heldBytes, hheld]
  case trim =>
    intro s inst tag units g u hw hl hv hm hh hlen
    obtain ⟨hne, hvols⟩ := trimmedBlocks_ids hlen hv
    have htags : (trimmedBlocks s g.packet).1.tags = s.tags := trimmedBlocks_only .tags (by decide)
    have e := exec_trim units hw hl
    rw [trimDone_unheld hv hm hh] at e
    obtain ⟨hreply, hothers, hflc, hframe⟩ := writeEnds_waits stOk (pkLength g.packet) (pkLength g.packet) 0 (htags ▸ hw.tag) hne
    refine ⟨_, e, ⟨_, hne, ?reply⟩, ?vols, ?others, ?frame⟩
    case reply => simpa using hreply
    case vols => exact (congrArg Flc.vols hflc).trans hvols
    case others => exact fun j hj => htags ▸ hothers j hj
    case frame => exact trimmedBlocks_only.comp hframe (by decide) (by decide)
  case flush =>
    intro s inst tag g hw he hh
    exact ⟨_, exec_flush hw he hh, hw.finish_ended rfl _, finish_others_of rfl _, finish_only⟩

end Sys2Proof.Machine

/-! Obligation O8 (RepliesAndEventsReachTheRing): the ring's entry at TAIL, for a reply and for an event. -/

namespace Sys2Proof.Machine

/-! ### An entry of the ring -/

/-- A window of 32 bytes of host memory holds `bs`, and nothing else of it differs from `m`. -/
def EntryWritten (pasid a : Nat) (bs : List Byte) (m m' : Cells) : Prop :=
  (∀ j < 32, Cells.read m' (hostKey pasid (a + j)) = bs.getD j 0) ∧
    ∀ x, (∀ j < 32, x ≠ hostKey pasid (a + j)) → Cells.read m' x = Cells.read m x

/-- R51: the entry goes to TAIL, under the PASID of its owner. -/
theorem ringWrite_entry {n : Nat} {f : Ring → List Byte} {s : State} {i : Inst} (h : Tbl.get? s.insts n = some i)
    (hl : (f i.ring).length = 32) :
    EntryWritten i.pasid (i.ring.base + i.ring.tail * 32) (f i.ring) s.hostMem (ringWrite n f s).hostMem := by
  rw [ringWrite_hostMem n f s i h]
  refine ⟨fun j hj => hostStore_at _ _ _ _ j (hl ▸ hj) (by omega), fun x hx => hostStore_ne _ _ _ _ x (hl ▸ hx)⟩

/-- R51, R53: TAIL goes on by one entry; the events that wait are as they were. -/
theorem ringWrite_inst {n : Nat} {f : Ring → List Byte} {s : State} {i : Inst} (h : Tbl.get? s.insts n = some i) :
    ∃ j, Tbl.get? (ringWrite n f s).insts n = some j ∧ j.ring.tail = (i.ring.tail + 1) % 2 ^ i.ring.sizeLog2 ∧
      j.ring.evtQ = i.ring.evtQ ∧ j.ring.evtLost = i.ring.evtLost := by
  have hmoved := modRing_get?_same n (fun r => { r with
    tail := (i.ring.tail + 1) % ringSize i.ring
    phase := if (i.ring.tail + 1) % ringSize i.ring = 0 then !r.phase else r.phase })
    (s := hostWrite n (i.ring.base + i.ring.tail * 32) (f i.ring) s) h
  obtain ⟨u, p, c, hnoted⟩ := noteEntry_inst n _ _ hmoved
  simp only [ringWrite, h]
  exact ⟨_, hnoted, rfl, rfl, rfl⟩

theorem takeSeq_resetTag (s : State) : (takeSeq s).glb.resetTag = s.glb.resetTag := by
  unfold takeSeq
  simp only
  split <;> rfl

/-! ### A committed reply -/

theorem keyInst_tagKey (inst : Nat) (tag : Fin 256) : keyInst (tagKey inst tag) = inst := by
  unfold keyInst tagKey
  omega

theorem keyTag_tagKey (inst : Nat) (tag : Fin 256) : keyTag (tagKey inst tag) = tag := by
  unfold keyTag tagKey
  omega

theorem exec_replyCommit {s : State} {inst : Fin 64} {tag : Fin 256} {g : Tag} {i : Inst}
    (hg : Tbl.get? s.tags (tagKey inst tag) = some g) (hi : Tbl.get? s.insts inst = some i)
    (hc : canCommit s (tagKey inst tag) g i = true) :
    exec (.replyCommit inst tag) s = .next (commitReply (tagKey inst tag) g s) := by
  show execReplyCommit inst tag s = _
  simp only [execReplyCommit, hg, hi, act, hc, if_true]

theorem commitReply_tag (k : Nat) (t : Tag) {s : State} (hr : s.glb.resetTag = none) :
    Tbl.get? (commitReply k t s).tags k = none := by
  refine afterCommit_absent k t _ ?_ ?_
  · rw [freeTag, Tbl.get?_mapVals, Tbl.get?_erase, if_pos rfl]; rfl
  · rw [glb_of_get (freeTag_get _ _ .glb (by decide)), writeReply, glb_of_get (ringWrite_get _ _ _ .glb (by decide)), takeSeq_resetTag, hr]

/-- R51: of host memory the commit writes the reply's entry alone. -/
theorem commitReply_entry {k n : Nat} (t : Tag) {s : State} {i : Inst} (hk : keyInst k = n) (hi : Tbl.get? s.insts n = some i) :
    EntryWritten i.pasid (i.ring.base + i.ring.tail * 32)
      (replyBytes (keyTag k) t.reply.status (pkOpcode t.packet) n i.ring.phase (replyFlags t.reply) ((s.glb.seq + 1) % 2 ^ 48) t.seq
        t.reply.r0 t.reply.r1) s.hostMem (commitReply k t s).hostMem := by
  subst hk
  rw [commitReply, hostMem_of_get (afterCommit_get _ _ _ .hostMem (by decide)), hostMem_of_get (freeTag_get _ _ .hostMem (by decide)),
    writeReply, ← takeSeq_seq, ← takeSeq_hostMem]
  exact ringWrite_entry (takeSeq_insts s ▸ hi) (replyBytes_length ..)

/-! ### A written event -/

/-- R77: the event at the front leaves the queue; with room in it again, EV_EVENTS_LOST reports those discarded. -/
def eventSent (r : Ring) : Ring :=
  if r.evtLost = 0 then { r with evtQ := r.evtQ.tail }
  else { r with
    evtQ := r.evtQ.tail ++ [{ code := 0x0003, status := stOk, r0 := 0x0003 + 65536 * r.evtLost, r1 := 0 }], evtLost := 0 }

theorem writeEvent_eq (n : Nat) (e : Event) (s : State) : writeEvent n e s =
    modRing n eventSent (ringWrite n (fun r => replyBytes 0xFFFF e.status 0 n r.phase 0 (takeSeq s).glb.seq 0
      (e.r0 / 65536 * 65536 + e.code) e.r1) (takeSeq s)) := rfl

theorem writeEvent_entry {n : Nat} (e : Event) {s : State} {i : Inst} (hi : Tbl.get? s.insts n = some i) :
    EntryWritten i.pasid (i.ring.base + i.ring.tail * 32)
      (replyBytes 0xFFFF e.status 0 n i.ring.phase 0 ((s.glb.seq + 1) % 2 ^ 48) 0 (e.r0 / 65536 * 65536 + e.code) e.r1)
      s.hostMem (writeEvent n e s).hostMem := by
  rw [writeEvent_eq, hostMem_of_get (modRing_get _ _ _ .hostMem (by decide)), ← takeSeq_seq, ← takeSeq_hostMem s]
  exact ringWrite_entry (takeSeq_insts s ▸ hi) (replyBytes_length ..)

theorem eventSent_tail (r : Ring) : (eventSent r).tail = r.tail := by
  unfold eventSent
  split <;> rfl

theorem eventSent_evtQ (r : Ring) : (eventSent r).evtQ =
    r.evtQ.tail ++ (if r.evtLost = 0 then [] else [⟨0x0003, stOk, 0x0003 + 65536 * r.evtLost, 0⟩]) := by
  unfold eventSent
  split <;> simp [*]

theorem exec_eventWrite {s : State} {inst : Fin 64} {i : Inst} {e : Event} {es : List Event} (hi : Tbl.get? s.insts inst = some i)
    (hq : i.ring.evtQ = e :: es) (hc : canWriteEntry s inst i = true) (hb : (busyOf s inst).length < ringFree i.ring) :
    exec (.eventWrite inst) s = .next (settleDrain inst (writeEvent inst e s)) := by
  show execEventWrite inst s = _
  simp only [execEventWrite, hi, hq, act, hc, eventFits, decide_eq_true hb, Bool.and_self, if_true]

/-- Settles O8: both entries by `ringWrite_entry`, the ring of the event by what `ringWrite` leaves of it. -/
theorem repliesAndEventsReachTheRing : Obligations.RepliesAndEventsReachTheRing := by
  refine ⟨?reply, ?event⟩
  case reply =>
    intro s inst tag g i hg hi hc hr
    refine ⟨_, exec_replyCommit hg hi hc, commitReply_tag _ g hr, ?_⟩
    have h := commitReply_entry g (keyInst_tagKey inst tag) hi
    rwa [keyTag_tagKey] at h
  case event =>
    intro s inst i e es hi hq hc hb
    have hseq : Tbl.get? (takeSeq s).insts inst = some i := takeSeq_insts s ▸ hi
    refine ⟨_, exec_eventWrite hi hq hc hb, ?entry, ?ring, ?number, ?frame⟩
    case entry =>
      rw [hostMem_of_get (settleDrain_get _ _ .hostMem (by decide))]
      exact writeEvent_entry e hi
    case ring =>
      obtain ⟨j, hj, htail, hevtQ, hlost⟩ := ringWrite_inst (f := fun r => replyBytes 0xFFFF e.status 0 inst r.phase 0 (takeSeq s).glb.seq 0
        (e.r0 / 65536 * 65536 + e.code) e.r1) hseq
      obtain ⟨st, hst⟩ := settleDrain_ring inst _ _ (modRing_get?_same inst eventSent hj)
      refine ⟨_, hst, (eventSent_tail _).trans htail, (eventSent_evtQ _).trans ?_⟩
      rw [hevtQ, hlost, hq]; rfl
    case number =>
      rw [glb_of_get (settleDrain_get _ _ .glb (by decide)), writeEvent_eq, glb_of_get (modRing_get _ _ _ .glb (by decide)),
        glb_of_get (ringWrite_get _ _ _ .glb (by decide)), takeSeq_seq]
    case frame =>
      intro x hx
      rw [settleDrain_get _ _ _ (fun h => hx (by simp at h; simp [h])), writeEvent_get _ _ _ _ (fun h => hx (by simpa using h))]

end Sys2Proof.Machine

/-! Obligation O54 (ResetsOfPortsAndTheDevice): DEVICE_RESET, PERST_N, function-level resets and D3hot. -/

namespace Sys2Proof.Machine

/-! ### Tables and bits -/

theorem Tbl.mem_of_get? {α : Type} {t : Tbl α} {k : Nat} {v : α} (h : Tbl.get? t k = some v) : (k, v) ∈ t := by
  induction t with
  | nil => cases h
  | cons p t ih =>
    obtain ⟨k', v'⟩ := p
    simp only [Tbl.get?] at h
    split at h
    · next hk => cases h; subst hk; simp
    · exact List.mem_cons_of_mem _ (ih h)

theorem Tbl.get?_of_mem {α : Type} {t : Tbl α} {k : Nat} {v : α} (hs : Tbl.sorted t = true) (h : (k, v) ∈ t) :
    Tbl.get? t k = some v := by
  induction t with
  | nil => cases h
  | cons p t ih =>
    obtain ⟨k', v'⟩ := p
    rcases List.mem_cons.mp h with h | h
    · cases h; simp [Tbl.get?]
    · have habove := Tbl.sorted_above k' v' t hs _ h
      rw [Tbl.get?, if_neg (Nat.ne_of_gt habove)]
      exact ih (Tbl.sorted_tail _ t hs) h

theorem bit_setBit (x i : Nat) : bit (setBit x i true) i = true := by
  unfold setBit
  split
  · next h => simpa using h
  · next h =>
    simp only [bit, beq_true, if_true, beq_iff_eq] at h ⊢
    rw [Nat.add_div_right _ (Nat.two_pow_pos i)]
    omega

/-! ### The commands that a reset ends -/

/-- The command of tag `j` was ended by a reset (R73). -/
def EndedByReset (s : State) (j : Nat) : Prop :=
  ∃ y, Tbl.get? s.tags j = some y ∧ y.st = .done ∧ y.reply.status = stAbortedByReset

theorem resetInstance_ends (n : Nat) (st : InstSt) {s : State} {j : Nat} (hj : keyInst j = n) {y : Tag}
    (h : Tbl.get? s.tags j = some y) : EndedByReset (resetInstance n st s) j :=
  resetInstance_aborted n st s (j, y) (List.mem_filter.mpr ⟨Tbl.mem_of_get? h, by simpa using hj⟩)

/-- After the resets of some instances the tags of these are ended; no tag is gone. -/
theorem resetInstances_tags (ns : List Nat) (st : InstSt) {s : State} {j : Nat} {y : Tag} (h : Tbl.get? s.tags j = some y) :
    (∃ z, Tbl.get? (ns.foldl (fun s n => resetInstance n st s) s).tags j = some z) ∧
      (keyInst j ∈ ns ∨ EndedByReset s j → EndedByReset (ns.foldl (fun s n => resetInstance n st s) s) j) := by
  induction ns generalizing s y with
  | nil => exact ⟨⟨y, h⟩, fun hj => hj.resolve_left (by simp)⟩
  | cons n ns ih =>
    rw [List.foldl_cons]
    by_cases hn : keyInst j = n
    · have hended := resetInstance_ends n st hn h
      obtain ⟨z, hz, -⟩ := id hended
      exact ⟨(ih hz).1, fun _ => (ih hz).2 (.inr hended)⟩
    · have hkept := resetInstance_keeps n st s j hn
      refine ⟨(ih (hkept.trans h)).1, fun hj => (ih (hkept.trans h)).2 ?_⟩
      refine hj.imp (fun hm => (List.mem_cons.mp hm).resolve_left hn) (fun hended => ?_)
      unfold EndedByReset
      rwa [hkept]

theorem mem_keys_of_get? {α : Type} {t : Tbl α} {k : Nat} {v : α} (h : Tbl.get? t k = some v) : k ∈ t.map Prod.fst :=
  List.mem_map_of_mem (f := Prod.fst) (Tbl.mem_of_get? h)

theorem keyInst_of_mem_busyOf {s : State} {n : Nat} {p : Nat × Tag} (h : p ∈ busyOf s n) : keyInst p.1 = n := by
  simpa using (List.mem_filter.mp h).2

/-! ### DEVICE_RESET -/

theorem deviceReset_tags (k j : Nat) (s : State) : Tbl.get? (deviceReset k s).tags j =
    let u := (s.insts.map Prod.fst).foldl (fun s n => resetInstance n .resetting s) s
    if j = k then (Tbl.get? u.tags k).map (fun t => { t with st := .done, reply := { status := stOk }, work := .resetting })
    else Tbl.get? u.tags j := modTag_get? ..

theorem deviceReset_ended {k : Nat} {s : State} {g : Tag} (h : Tbl.get? s.tags k = some g) : Ended (deviceReset k s) k stOk 0 0 := by
  obtain ⟨y, hy⟩ := (resetInstances_tags (s.insts.map Prod.fst) .resetting h).1
  exact ⟨_, (deviceReset_tags k k s).trans ((if_pos rfl).trans (congrArg _ hy)), rfl, rfl, rfl, rfl⟩

theorem deviceReset_others {k n : Nat} {s : State} {i : Inst} (hi : Tbl.get? s.insts n = some i) {p : Nat × Tag}
    (hp : p ∈ busyOf s n) (hk : p.1 ≠ k) : EndedByReset (deviceReset k s) p.1 := by
  obtain ⟨y, hy⟩ := busyOf_has s n p hp
  have hended := (resetInstances_tags (s.insts.map Prod.fst) .resetting hy).2 (.inl (keyInst_of_mem_busyOf hp ▸ mem_keys_of_get? hi))
  unfold EndedByReset
  rwa [deviceReset_tags, if_neg hk]

/-! ### The instances when a reset is over -/

/-- What `settleInstances` does for one of the instances. -/
def settleInstance (s : State) (n : Nat) : State :=
  match Tbl.get? s.insts n with
  | none => s
  | some i =>
    if resetWorkDone s n && !resetCommand s n && s.glb.resetTag.isNone then
      if i.st = .resetting then resetEnds n s else if i.st = .destroying then destroyEnds n s else s
    else s

theorem settleInstances_eq (s : State) : settleInstances s = (s.insts.map Prod.fst).foldl settleInstance s := rfl

section
variable {s : State} {n : Nat} {i : Inst}

theorem destroyEnds_insts (m : Nat) (s : State) : (destroyEnds m s).insts = Tbl.erase s.insts m := by
  show Tbl.erase (deleteTables m s).insts m = _
  rw [insts_of_get (deleteTables_get m s .insts (by decide))]

theorem destroyEnds_groups (m : Nat) (s : State) : (destroyEnds m s).flc.groups = s.flc.groups := by
  show (deleteTables m s).flc.groups = _
  rw [flc_of_get (deleteTables_get m s .flc (by decide))]

theorem resetEnds_get?_ne {m : Nat} (s : State) (h : n ≠ m) : Tbl.get? (resetEnds m s).insts n = Tbl.get? s.insts n := by
  rw [resetEnds, settleDrain_get?_ne _ h, modInst_get?, if_neg h]

/-- R73, R347: what the end of a reset makes of number `n`. -/
theorem resetEnds_active (hi : Tbl.get? s.insts n = some i) (hd : i.drain = false) :
    Tbl.get? (resetEnds n s).insts n = some { i with fenced := false, st := .active } := by
  rw [resetEnds, settleDrain, modInst_get?, if_pos rfl, modInst_get?, if_pos rfl, hi]
  simp [hd]

/-- None but number `m` may go on or go. -/
theorem settleInstance_get?_ne {m : Nat} (s : State) (h : n ≠ m) : Tbl.get? (settleInstance s m).insts n = Tbl.get? s.insts n := by
  unfold settleInstance
  split
  · rfl
  · split
    · split
      · exact resetEnds_get?_ne s h
      · split
        · rw [destroyEnds_insts, Tbl.get?_erase, if_neg h]
        · rfl
    · rfl

theorem settleInstance_only {m : Nat} : OnlyIn [.idx, .flc, .spn, .insts] s (settleInstance s m) := by
  intro x hx
  simp at hx
  unfold settleInstance
  split
  · rfl
  · simp [hx]

theorem settleInstance_groups (m : Nat) : (settleInstance s m).flc.groups = s.flc.groups := by
  unfold settleInstance
  split
  · rfl
  · split
    · split
      · exact congrArg Flc.groups (flc_of_get (resetEnds_get m s .flc (by decide)))
      · split
        · exact destroyEnds_groups m s
        · rfl
    · rfl

theorem settleInstance_idle (hi : Tbl.get? s.insts n = some i) (hr : i.st ≠ .resetting) (hd : i.st ≠ .destroying) :
    settleInstance s n = s := by
  simp only [settleInstance, hi, if_neg hr, if_neg hd, ite_self]

theorem settleInstance_resets (hi : Tbl.get? s.insts n = some i) (hr : i.st = .resetting) (hd : i.drain = false)
    (hw : resetWorkDone s n = true) (hc : resetCommand s n = false) (ht : s.glb.resetTag = none) :
    Tbl.get? (settleInstance s n).insts n = some { i with fenced := false, st := .active } := by
  simp only [settleInstance, hi, hr, hw, hc, ht, Option.isNone_none, Bool.not_false, Bool.and_self, if_true]
  exact resetEnds_active hi hd

theorem settleInstances_fold_kept (ns : List Nat) (hi : Tbl.get? s.insts n = some i) (hr : i.st ≠ .resetting) (hd : i.st ≠ .destroying) :
    Tbl.get? (ns.foldl settleInstance s).insts n = some i := by
  induction ns generalizing s with
  | nil => exact hi
  | cons m ns ih =>
    rw [List.foldl_cons]
    by_cases h : n = m
    · subst h; rw [settleInstance_idle hi hr hd]; exact ih hi
    · exact ih ((settleInstance_get?_ne s h).trans hi)

/-- Instances under no reset stay as they are. -/
theorem settleInstances_kept (hi : Tbl.get? s.insts n = some i) (hr : i.st ≠ .resetting) (hd : i.st ≠ .destroying) :
    Tbl.get? (settleInstances s).insts n = some i := settleInstances_fold_kept _ hi hr hd

theorem settleInstances_absent (hi : Tbl.get? s.insts n = none) : Tbl.get? (settleInstances s).insts n = none := by
  rw [settleInstances_eq]
  generalize s.insts.map Prod.fst = ns
  induction ns generalizing s with
  | nil => exact hi
  | cons m ns ih =>
    refine ih ?_
    by_cases h : n = m
    · subst h; simp only [settleInstance, hi]
    · exact (settleInstance_get?_ne s h).trans hi

/-- What ends the reset of one number does not hang on the others. -/
theorem settleInstance_conditions (m : Nat) : resetWorkDone (settleInstance s m) n = resetWorkDone s n ∧
    resetCommand (settleInstance s m) n = resetCommand s n ∧ (settleInstance s m).glb = s.glb := by
  have htags : (settleInstance s m).tags = s.tags := settleInstance_only .tags (by decide)
  refine ⟨?_, ?_, glb_of_get (settleInstance_only .glb (by decide))⟩
  · unfold resetWorkDone busyOf heldData
    rw [htags, settleInstance_groups]
  · unfold resetCommand
    rw [htags]

theorem settleInstances_resets (hi : Tbl.get? s.insts n = some i) (hr : i.st = .resetting) (hd : i.drain = false)
    (hw : resetWorkDone s n = true) (hc : resetCommand s n = false) (ht : s.glb.resetTag = none) :
    Tbl.get? (settleInstances s).insts n = some { i with fenced := false, st := .active } := by
  have hmem : n ∈ s.insts.map Prod.fst := mem_keys_of_get? hi
  rw [settleInstances_eq]
  generalize s.insts.map Prod.fst = ns at hmem
  induction ns generalizing s with
  | nil => cases hmem
  | cons m ns ih =>
    rw [List.foldl_cons]
    by_cases h : n = m
    · subst h
      exact settleInstances_fold_kept ns (settleInstance_resets hi hr hd hw hc ht) (by simp) (by simp)
    · obtain ⟨hw', hc', hg'⟩ := settleInstance_conditions (s := s) (n := n) m
      exact ih ((settleInstance_get?_ne s h).trans hi) (hw'.trans hw) (hc'.trans hc) (hg' ▸ ht) ((List.mem_cons.mp hmem).resolve_left h)

end

/-! ### Ports -/

theorem portOf_modPort (p : Nat) (f : HPort → HPort) (s : State) : portOf (modPort p f s) p = f (portOf s p) := by
  by_cases h : p = 0 <;> simp [portOf, modPort, h]

theorem portOf_of_hif {s t : State} (h : t.hif = s.hif) (p : Nat) : portOf t p = portOf s p := by
  unfold portOf
  rw [h]

/-- R462: a port that carries requests takes each message at once. -/
theorem signalPort_foldl_live {p : Nat} (vs : List Nat) {s : State} (h : portLive s p = true) :
    vs.foldl (fun s v => signalPort p v s) s = { s with hif := { s.hif with msix := s.hif.msix ++ vs.map (fun v => (p, v)) } } := by
  induction vs generalizing s with
  | nil => simp
  | cons v vs ih =>
    have hv : signalPort p v s = { s with hif := { s.hif with msix := s.hif.msix ++ [(p, v)] } } := if_pos h
    rw [List.foldl_cons, ih (s := signalPort p v s) (by rw [hv]; exact h), hv]
    simp

theorem releaseMsix_live {p : Nat} {s : State} (h : portLive s p = true) :
    portOf (releaseMsix p s) p = { portOf s p with heldMsix := [] } ∧
      (releaseMsix p s).hif.msix = s.hif.msix ++ (portOf s p).heldMsix.map (fun v => (p, v)) := by
  have hport := portOf_modPort p (fun q => { q with heldMsix := [] }) s
  have hlive : portLive (modPort p (fun q => { q with heldMsix := [] }) s) p = true := by
    unfold portLive at h ⊢
    rw [hport]
    exact h
  simp only [releaseMsix, h, if_true, signalPort_foldl_live _ hlive]
  refine ⟨hport, ?_⟩
  unfold modPort
  split <;> rfl

/-- What a port holds back is all that its messages change. -/
theorem releaseMsix_port (p : Nat) (s : State) : ∃ vs, portOf (releaseMsix p s) p = { portOf s p with heldMsix := vs } := by
  cases h : portLive s p
  · exact ⟨(portOf s p).heldMsix, by simp [releaseMsix, h]⟩
  · exact ⟨[], (releaseMsix_live h).1⟩

end Sys2Proof.Machine

namespace Sys2Proof.Machine

/-! ### The numbers of the instances -/

/-- The numbers of the instances that are not ABSENT. -/
def instKeys (s : State) : List Nat := Tbl.keys s.insts

theorem Tbl.get?_eq_none_iff {α : Type} (t : Tbl α) (k : Nat) : Tbl.get? t k = none ↔ k ∉ Tbl.keys t := by
  induction t with
  | nil => simp [Tbl.keys]
  | cons p t ih =>
    obtain ⟨k', v⟩ := p
    by_cases h : k = k'
    · simp [Tbl.get?, Tbl.keys, h]
    · simpa [Tbl.get?, Tbl.keys, h] using ih

theorem instKeys_of {s t : State} (h : t.get .insts = s.get .insts) : instKeys t = instKeys s :=
  congrArg Tbl.keys (insts_of_get h)

theorem modInst_instKeys (n : Nat) (f : Inst → Inst) (s : State) : instKeys (modInst n f s) = instKeys s := by
  simp only [instKeys, modInst, Tbl.modify, Tbl.keys, List.map_map]
  refine List.map_congr_left fun p _ => ?_
  simp only [Function.comp]
  split <;> rfl

theorem foldl_instKeys {α : Type} (l : List α) {f : State → α → State} (h : ∀ s a, instKeys (f s a) = instKeys s) (s : State) :
    instKeys (l.foldl f s) = instKeys s := by
  induction l generalizing s with
  | nil => rfl
  | cons a l ih => rw [List.foldl_cons, ih, h]

theorem setPort_instKeys (p : Nat) (st : PortSt) (s : State) : instKeys (setPort p st s) = instKeys s := by
  unfold setPort spanChange raise
  rw [instKeys_of (announce_get _ _ .insts (by decide)), modInst_instKeys]
  rfl

/-- Port `p` as the undoing of a join leaves it. -/
def closePort (s : State) (p : Nat) : State :=
  if (eport s p).st == .disabled then s else setPort p .disabled (modEPort p (fun q => { q with retry := [], waiting := [] }) s)

theorem closePort_instKeys (s : State) (p : Nat) : instKeys (closePort s p) = instKeys s := by
  unfold closePort
  split
  · rfl
  · rw [setPort_instKeys, instKeys_of (modEPort_get _ _ _ .insts (by decide))]

/-- The join itself is over, the device in no span. -/
def clearJoin (s : State) : State := { s with spn := { s.spn with joining := none, spanId := 0, group := 0 } }

theorem undoJoin_eq (s : State) : undoJoin s = clearJoin ([0, 1, 2].foldl closePort s) := by
  unfold undoJoin clearJoin closePort
  rfl

theorem clearJoin_instKeys (s : State) : instKeys (clearJoin s) = instKeys s := rfl

theorem undoJoin_instKeys (s : State) : instKeys (undoJoin s) = instKeys s := by
  rw [undoJoin_eq, clearJoin_instKeys, foldl_instKeys [0, 1, 2] closePort_instKeys]

/-- Stopping a command adds none of the instances and takes none. -/
theorem dropWork_instKeys (k : Nat) (t : Tag) (s : State) : instKeys (dropWork k t s) = instKeys s := by
  have hstart : instKeys (dropUnits k (dropWorkers k (releaseLock k s))) = instKeys s := instKeys_of (by simp)
  have hleft (w : State) : instKeys (if w.spn.leaving = some k then { w with spn := { w.spn with leaving := none } } else w) = instKeys w := by
    split <;> rfl
  unfold dropWork
  rw [← hstart]
  generalize dropUnits k (dropWorkers k (releaseLock k s)) = u
  have hwork : instKeys (match t.work with
      | .forwarded => dropXact k (cancelXact k u)
      | .keyGrant => dropXact k u
      | .joining => undoJoin u
      | .note => dropNote k u
      | .mirror => freeWaits k u
      | .lastUser => unnameTag k u
      | _ => u) = instKeys u := by
    cases t.work
    case joining => exact undoJoin_instKeys u
    case note => exact modInst_instKeys ..
    all_goals exact instKeys_of (by simp)
  simp only
  split
  · exact (instKeys_of (putCtx_get _ _ _ _ .insts (by decide))).trans ((hleft _).trans hwork)
  · exact (hleft _).trans hwork

/-! ### PERST_N: the tags end -/

/-- What is under way of the commands of number `n` stops (R74). -/
def stopTags (n : Nat) (s : State) : State :=
  (busyOf s n).foldl (fun s p => if p.2.st = .done then s else dropWork p.1 p.2 s) s

/-- The tags of number `n` are FREE, without a reply. -/
def freeTags (n : Nat) (s : State) : State :=
  let u := cancelOwner n (stopTags n s)
  { u with
    tags := u.tags.filter (fun p => !(keyInst p.1 == n))
    locks := u.locks.filter (fun l => !(keyInst l.tag == n))
    sch := { u.sch with bindings := u.sch.bindings.filter (fun b => !(keyInst b.1 == n)) } }

theorem endTags_eq (n : Nat) (s : State) : endTags n s =
    if (busyOf s n).isEmpty then freeTags n s else logHealth 0x000A n 0xFFFF n 0 (busyOf s n).length [] (freeTags n s) := rfl

theorem freeTags_get (n : Nat) (s : State) (x : Part)
    (hx : x ∉ [Part.bsh, .sec, .sch, .dmz, .spn, .tags, .locks, .insts, .units, .fresh]) : (freeTags n s).get x = s.get x := by
  simp at hx
  simp [freeTags, stopTags, hx]

/-- The log entry of the tags that ended changes no part that tags, instances or ports are in. -/
theorem endTags_get_freeTags (n : Nat) (s : State) (x : Part) (hx : x ∉ [Part.glb, .flc]) : (endTags n s).get x = (freeTags n s).get x := by
  rw [endTags_eq]
  split
  · rfl
  · exact logHealth_get _ _ _ _ _ _ _ _ x hx

theorem endTags_tags (n k : Nat) (s : State) :
    Tbl.get? (endTags n s).tags k = if keyInst k = n then none else Tbl.get? s.tags k := by
  have hstop : (cancelOwner n (stopTags n s)).tags = s.tags := tags_of_get (by simp [stopTags])
  rw [tags_of_get (endTags_get_freeTags n s .tags (by decide))]
  show Tbl.get? ((cancelOwner n (stopTags n s)).tags.filter (fun p => !(keyInst p.1 == n))) k = _
  rw [Tbl.get?_filter _ (fun k => !(keyInst k == n)), hstop]
  by_cases h : keyInst k = n <;> simp [h]

theorem freeTags_insts (n : Nat) (s : State) : (freeTags n s).insts = (stopTags n s).insts :=
  insts_of_get (cancelOwner_get _ _ .insts (by decide))

theorem endTags_insts (n : Nat) (s : State) : (endTags n s).insts = (stopTags n s).insts :=
  (insts_of_get (endTags_get_freeTags n s .insts (by decide))).trans (freeTags_insts n s)

theorem endTags_keeps (n : Nat) (s : State) : Keeps s (endTags n s) := by
  refine Keeps.trans (Keeps.fold (busyOf s n) _ (fun s p => ?_) s) (Keeps.of (endTags_insts n s))
  split
  · exact Keeps.refl s
  · exact Keeps.dropWork _ _ _

theorem endTags_instKeys (n : Nat) (s : State) : instKeys (endTags n s) = instKeys s := by
  rw [instKeys, endTags_insts]
  refine foldl_instKeys (busyOf s n) (fun s p => ?_) s
  split
  · rfl
  · exact dropWork_instKeys ..

theorem logHealth_resetTag (kind inst vol unit lba count : Nat) (detail : List Byte) (s : State) :
    (logHealth kind inst vol unit lba count detail s).glb.resetTag = s.glb.resetTag := by
  unfold logHealth pushHealth
  split
  · exact takeSeq_resetTag s
  · rfl

theorem endTags_resetTag (n : Nat) (s : State) : (endTags n s).glb.resetTag = s.glb.resetTag := by
  have hfree : (freeTags n s).glb = s.glb := glb_of_get (freeTags_get n s .glb (by decide))
  rw [endTags_eq]
  split
  · rw [hfree]
  · rw [logHealth_resetTag, hfree]

/-! ### PERST_N: one number of the port -/

/-- What waited for a last user that is gone ends; no tag comes of it. -/
theorem settleObjects_absent (k : Nat) (s : State) (h : Tbl.get? s.tags k = none) : Tbl.get? (settleObjects s).tags k = none := by
  have hlic (xs : List Nat) {u : State} (hu : Tbl.get? u.tags k = none) :
      Tbl.get? (xs.foldl (fun s x => settleLicence x s) u).tags k = none := by
    have := endUses_absent k (xs.map .licence) u hu
    rwa [List.foldl_map] at this
  have hseal (xs : List Nat) {u : State} (hu : Tbl.get? u.tags k = none) :
      Tbl.get? (xs.foldl (fun s x => settleSeal x s) u).tags k = none := by
    have := endUses_absent k (xs.map .session) u hu
    rwa [List.foldl_map] at this
  have hprog (xs : List Nat) {u : State} (hu : Tbl.get? u.tags k = none) :
      Tbl.get? (xs.foldl (fun s x => settleProgram x s) u).tags k = none := by
    have := endUses_absent k (xs.map .program) u hu
    rwa [List.foldl_map] at this
  unfold settleObjects
  rw [tags_of_get (settleTable_get _ .tags (by decide))]
  exact hprog _ (hseal _ (hlic _ h))

theorem eraseInst_insts (n : Nat) (s : State) : (eraseInst n s).insts = Tbl.erase s.insts n := rfl

theorem perstInstance_eq (n : Nat) (s : State) : perstInstance n s =
    if n = 0 then resetWindow0 (endTags n s) else eraseInst n (deleteTables n (freeObjects n (endTags n s))) := rfl

theorem perstInstance_tags {n k : Nat} {s : State} (h : keyInst k = n ∨ Tbl.get? s.tags k = none) :
    Tbl.get? (perstInstance n s).tags k = none := by
  have hend : Tbl.get? (endTags n s).tags k = none := by
    rw [endTags_tags]
    rcases h with h | h <;> simp [h]
  rw [perstInstance_eq]
  split
  · exact settleObjects_absent k _ hend
  · rwa [tags_of_get (eraseInst_get _ _ .tags (by decide)), tags_of_get (deleteTables_get _ _ .tags (by decide)),
      tags_of_get (freeObjects_get _ _ .tags (by decide))]

theorem resetWindow0_insts (s : State) : (resetWindow0 s).insts = Tbl.modify s.insts 0 (fun i => { i with
    st := .active, fenced := false, slots := [], feat := resetFeat
    ring := { resetRing 9 with evtQ := i.ring.evtQ, served := i.ring.served } }) :=
  insts_of_get (settleObjects_get _ .insts (by decide))

/-- Of the other instances `perstInstance` leaves what stopping the commands leaves. -/
theorem perstInstance_insts_ne {n m : Nat} (s : State) (h : n ≠ m) :
    Tbl.get? (perstInstance m s).insts n = Tbl.get? (endTags m s).insts n := by
  rw [perstInstance_eq]
  split
  · next h0 => rw [resetWindow0_insts, Tbl.get?_modify_ne _ _ _ _ (h0 ▸ h)]
  · rw [eraseInst_insts, Tbl.get?_erase, if_neg h, insts_of_get (deleteTables_get _ _ .insts (by decide)), freeObjects_insts, Tbl.get?_modify_ne _ _ _ _ h]

theorem perstInstance_gone {n : Nat} (s : State) (h0 : n ≠ 0) : Tbl.get? (perstInstance n s).insts n = none := by
  rw [perstInstance_eq, if_neg h0, eraseInst_insts, Tbl.get?_erase, if_pos rfl]

theorem perstInstance_absent {n m : Nat} {s : State} (h0 : n ≠ 0) (h : Tbl.get? s.insts n = none) :
    Tbl.get? (perstInstance m s).insts n = none := by
  by_cases hm : n = m
  · subst hm; exact perstInstance_gone s h0
  · rw [perstInstance_insts_ne s hm]
    rw [Tbl.get?_eq_none_iff] at h ⊢
    have hkeys : Tbl.keys (endTags m s).insts = Tbl.keys s.insts := endTags_instKeys m s
    rwa [hkeys]

theorem perstInstance_resetTag (n : Nat) (s : State) : (perstInstance n s).glb.resetTag = s.glb.resetTag := by
  rw [← endTags_resetTag n s, perstInstance_eq]
  split
  · rw [glb_of_get (resetWindow0_get _ .glb (by decide))]
  · rw [glb_of_get (eraseInst_get _ _ .glb (by decide)), glb_of_get (deleteTables_get _ _ .glb (by decide)),
      glb_of_get (freeObjects_get _ _ .glb (by decide))]

/-! ### PERST_N: all instances of the port -/

/-- The instances numbered `ns`, one after the other. -/
def perstInstances (ns : List Nat) (s : State) : State := ns.foldl (fun s n => perstInstance n s) s

theorem perstInstances_tags {k : Nat} (ns : List Nat) {s : State} (h : keyInst k ∈ ns ∨ Tbl.get? s.tags k = none) :
    Tbl.get? (perstInstances ns s).tags k = none := by
  induction ns generalizing s with
  | nil => exact h.resolve_left (by simp)
  | cons n ns ih =>
    refine ih ?_
    rw [List.mem_cons, or_assoc, or_left_comm] at h
    exact h.imp_right perstInstance_tags

theorem perstInstances_gone {n : Nat} (ns : List Nat) {s : State} (h0 : n ≠ 0) (h : n ∈ ns ∨ Tbl.get? s.insts n = none) :
    Tbl.get? (perstInstances ns s).insts n = none := by
  induction ns generalizing s with
  | nil => exact h.resolve_left (by simp)
  | cons m ns ih =>
    refine ih ?_
    rw [List.mem_cons, or_assoc, or_left_comm] at h
    refine h.imp_right fun h => ?_
    rcases h with rfl | h
    · exact perstInstance_gone s h0
    · exact perstInstance_absent h0 h

theorem perstInstances_kept {n : Nat} (ns : List Nat) {s : State} {i : Inst} (hn : n ∉ ns) (h : Tbl.get? s.insts n = some i) :
    ∃ j, Tbl.get? (perstInstances ns s).insts n = some j ∧ j.st = i.st ∧ j.pasid = i.pasid := by
  induction ns generalizing s i with
  | nil => exact ⟨i, h, rfl, rfl⟩
  | cons m ns ih =>
    rw [List.mem_cons, not_or] at hn
    obtain ⟨j, hj, hpasid, hst, -⟩ := endTags_keeps m s n i h
    obtain ⟨l, hl, hlst, hlpasid⟩ := ih hn.2 ((perstInstance_insts_ne s hn.1).trans hj)
    exact ⟨l, hl, hlst.trans hst, hlpasid.trans hpasid⟩

theorem perstInstances_resetTag (ns : List Nat) (s : State) : (perstInstances ns s).glb.resetTag = s.glb.resetTag := by
  induction ns generalizing s with
  | nil => rfl
  | cons n ns ih => exact (ih _).trans (perstInstance_resetTag n s)

theorem perstInstances_get (ns : List Nat) (s : State) (x : Part)
    (hx : x ∉ [Part.glb, .mgr, .bsh, .sec, .sch, .dmz, .idx, .flc, .spn, .tags, .locks, .insts, .units, .fresh]) :
    (perstInstances ns s).get x = s.get x := State.get_foldl _ _ _ x fun s n => perstInstance_get n s x hx

end Sys2Proof.Machine

namespace Sys2Proof.Machine

/-! ### The instances that a port serves -/

/-- The numbers of the instances on port `p` that `c` holds of. -/
def instancesOn (p : Nat) (c : Inst → Bool) (s : State) : List Nat := (s.insts.filter (fun i => i.2.port == p && c i.2)).map Prod.fst

section
variable {s : State} {n p : Nat} {i : Inst} {c : Inst → Bool}

theorem mem_instancesOn (hi : Tbl.get? s.insts n = some i) (hp : i.port = p) (hc : c i = true) : n ∈ instancesOn p c s :=
  List.mem_map.mpr ⟨(n, i), List.mem_filter.mpr ⟨Tbl.mem_of_get? hi, by simp [hp, hc]⟩, rfl⟩

theorem not_mem_instancesOn (hs : Tbl.sorted s.insts = true) (hi : Tbl.get? s.insts n = some i) (hp : i.port ≠ p) :
    n ∉ instancesOn p c s := by
  intro hm
  obtain ⟨⟨m, j⟩, hj, rfl⟩ := List.mem_map.mp hm
  obtain ⟨hj, hport⟩ := List.mem_filter.mp hj
  rw [Tbl.get?_of_mem hs hj] at hi
  cases hi
  simp [hp] at hport

end

theorem powered_of_glb {s t : State} (h : t.glb = s.glb) : powered t = powered s := by
  unfold powered
  rw [h]

/-! ### PERST_N: the port and the device -/

/-- The reset of a port with its cause in GLB_RESET_CAUSE. -/
def portReset (p : Nat) (pin : Bool) (s : State) : State :=
  let u := perstPort p pin s
  { u with glb := { u.glb with cause := setBit u.glb.cause (6 + p) true } }

/-- What the reset of a port does to its instances. -/
def perstDevice (p : Nat) (s : State) : State := settleInstances (perstInstances (instancesOn p (fun _ => true) s) s)

theorem perstPort_port (p : Nat) (pin : Bool) (s : State) : portOf (perstPort p pin s) p =
    { resetHPort with perst := pin || (portOf s p).perst, sris := (portOf s p).sris, pm := 4 } := by
  unfold perstPort portOf modPort
  split <;> rfl

theorem portReset_get (p : Nat) (pin : Bool) (s : State) (x : Part) (hx : x ∉ [Part.hif, Part.glb]) : (portReset p pin s).get x = s.get x := by
  simp at hx
  simp [portReset, hx]

theorem portReset_port (p : Nat) (pin : Bool) (s : State) : portOf (portReset p pin s) p = portOf (perstPort p pin s) p := rfl

theorem portReset_resetTag (p : Nat) (pin : Bool) (s : State) : (portReset p pin s).glb.resetTag = s.glb.resetTag := by
  show (perstPort p pin s).glb.resetTag = s.glb.resetTag
  rw [glb_of_get (perstPort_get p pin s .glb (by decide))]

theorem perstDevice_get (p : Nat) (s : State) (x : Part)
    (hx : x ∉ [Part.glb, .mgr, .bsh, .sec, .sch, .dmz, .idx, .flc, .spn, .tags, .locks, .insts, .units, .fresh]) :
    (perstDevice p s).get x = s.get x := by
  rw [perstDevice, settleInstances_get _ x (by simp at hx ⊢; simp [hx]), perstInstances_get _ _ x hx]

theorem perstDevice_resetTag (p : Nat) (s : State) : (perstDevice p s).glb.resetTag = s.glb.resetTag := by
  rw [perstDevice, glb_of_get (settleInstances_get _ .glb (by decide)), perstInstances_resetTag]

theorem settleDeviceReset_none {s : State} (h : s.glb.resetTag = none) : settleDeviceReset s = s := by simp [settleDeviceReset, h]

theorem settleDeviceReset_linkUp (p : Nat) (s : State) : (portOf (settleDeviceReset s) p).linkUp = (portOf s p).linkUp := by
  have hrestart (u : State) : (portOf (restartDevice u) p).linkUp = (portOf u p).linkUp := by
    unfold portOf
    split <;> rfl
  unfold settleDeviceReset
  split
  · rw [hrestart, portOf_of_hif (hif_of_get (cleanStop_get s .hif (by decide)))]
  · rfl

theorem exec_perstNAssert {s : State} {p : Fin 2} (pin : Bool) (hl : portLanes s p ≠ 0) : exec (.perstNAssert p pin) s =
    .next (if powered s then settleDeviceReset (perstDevice p (portReset p pin s)) else perstPort p pin s) := by
  have hp : powered (perstPort p pin s) = powered s := powered_of_glb (glb_of_get (perstPort_get _ _ _ .glb (by decide)))
  show execPerstNAssert p pin s = _
  simp only [execPerstNAssert, act, beq_eq_false_iff_ne.mpr hl, Bool.not_false, if_true, hp]
  cases powered s
  · rfl
  · simp only [Bool.not_true, Bool.false_eq_true, if_false, if_true, perstDevice, instancesOn, Bool.and_true]
    rfl

/-- R74: of the instances of a port that is reset all but 0 are gone, and every tag. -/
theorem perstDevice_gone {s : State} {n p : Nat} {i : Inst} (hi : Tbl.get? s.insts n = some i) (hp : i.port = p) :
    (n ≠ 0 → Tbl.get? (perstDevice p s).insts n = none) ∧ ∀ k, keyInst k = n → Tbl.get? (perstDevice p s).tags k = none := by
  have hm : n ∈ instancesOn p (fun _ => true) s := mem_instancesOn hi hp rfl
  refine ⟨fun h0 => settleInstances_absent (perstInstances_gone _ h0 (.inl hm)), fun k hk => ?_⟩
  rw [perstDevice, tags_of_get (settleInstances_get _ .tags (by decide))]
  exact perstInstances_tags _ (.inl (hk ▸ hm))

/-- The instances of other ports stay, when no reset of them is under way. -/
theorem perstDevice_kept {s : State} {n p : Nat} {i : Inst} (hs : Tbl.sorted s.insts = true) (hi : Tbl.get? s.insts n = some i)
    (hp : i.port ≠ p) (hr : i.st ≠ .resetting) (hd : i.st ≠ .destroying) :
    ∃ j, Tbl.get? (perstDevice p s).insts n = some j ∧ j.st = i.st ∧ j.pasid = i.pasid := by
  obtain ⟨j, hj, hst, hpasid⟩ := perstInstances_kept _ (not_mem_instancesOn (c := fun _ => true) hs hi hp) hi
  exact ⟨j, settleInstances_kept hj (hst ▸ hr) (hst ▸ hd), hst, hpasid⟩

/-- What a reset of the port never changes, and the link that it takes down (R437). -/
structure PortDown (p : Nat) (s t : State) : Prop where
  linkUp : (portOf t p).linkUp = false
  fuses : t.otp.fuses = s.otp.fuses
  hostMem : t.hostMem = s.hostMem

theorem perstPort_down (p : Nat) (pin : Bool) (s : State) : PortDown p s (perstPort p pin s) where
  linkUp := by rw [perstPort_port]; rfl
  fuses := by rw [otp_of_get (perstPort_get _ _ _ .otp (by decide))]
  hostMem := hostMem_of_get (perstPort_get _ _ _ .hostMem (by decide))

theorem perstDevice_port (p : Nat) (pin : Bool) (s : State) :
    portOf (perstDevice p (portReset p pin s)) p = portOf (perstPort p pin s) p := by
  rw [portOf_of_hif (hif_of_get (perstDevice_get _ _ .hif (by decide))), portReset_port]

theorem settled_down (p : Nat) (pin : Bool) (s : State) : PortDown p s (settleDeviceReset (perstDevice p (portReset p pin s))) where
  linkUp := by rw [settleDeviceReset_linkUp, perstDevice_port, (perstPort_down p pin s).linkUp]
  fuses := by
    have hotp : (perstDevice p (portReset p pin s)).otp = s.otp := by
      rw [otp_of_get (perstDevice_get _ _ .otp (by decide)), otp_of_get (portReset_get _ _ _ .otp (by decide))]
    rw [← hotp]
    exact settleDeviceReset_fuses _
  hostMem := by
    rw [hostMem_of_get (settleDeviceReset_get _ .hostMem (by decide)), hostMem_of_get (perstDevice_get _ _ .hostMem (by decide)),
      hostMem_of_get (portReset_get _ _ _ .hostMem (by decide))]

theorem settled_none {s : State} (p : Nat) (pin : Bool) (h : s.glb.resetTag = none) :
    settleDeviceReset (perstDevice p (portReset p pin s)) = perstDevice p (portReset p pin s) :=
  settleDeviceReset_none (by rw [perstDevice_resetTag, portReset_resetTag, h])

/-! ### PERST_N released -/

/-- PERST_N of port `p` is released. -/
def releasePerst (p : Nat) (s : State) : State := modPort p (fun q => { q with perst := false }) s

/-- May port `p` train to `width` lanes at `speed`? -/
def linkTrains (s : State) (p width speed : Nat) : Bool :=
  powered s && widthOk (portLanes s p) width && decide (1 ≤ speed ∧ speed ≤ maxSpeed s)

/-- The port is not down any more. -/
def clearPortDown (p : Nat) (s : State) : State := { s with pwr := { s.pwr with portsDown := setBit s.pwr.portsDown p false } }

theorem linkUpAs_port (p width speed : Nat) (rev : Bool) (pol : Nat) (s : State) : ∃ vs, portOf (linkUpAs p width speed rev pol s) p =
    { portOf s p with linkUp := true, pm := 0, width := width, speed := speed, reversed := rev, polarity := pol % 256, heldMsix := vs } := by
  obtain ⟨vs, h⟩ := releaseMsix_port p (modPort p (fun q => { q with
    linkUp := true, pm := 0, width := width, speed := speed, reversed := rev, polarity := pol % 256 }) s)
  exact ⟨vs, h.trans (by rw [portOf_modPort])⟩

theorem linkTrains_releasePerst (s : State) (p width speed : Nat) : linkTrains (releasePerst p s) p width speed = linkTrains s p width speed := by
  have hglb : (releasePerst p s).glb = s.glb := glb_of_get (modPort_get _ _ _ .glb (by decide))
  have hotp : (releasePerst p s).otp = s.otp := otp_of_get (modPort_get _ _ _ .otp (by decide))
  unfold linkTrains portLanes maxSpeed
  rw [powered_of_glb hglb, hglb, hotp]

theorem exec_perstNRelease {s : State} {p : Fin 2} (width : Nat) (speed : Fin 6) (rev : Bool) (pol : Nat) (hl : portLanes s p ≠ 0)
    (hp : (portOf s p).perst = true) : exec (.perstNRelease p width speed rev pol) s =
      .next (if linkTrains s p width speed then linkUpAs p width speed rev pol (clearPortDown p (releasePerst p s)) else releasePerst p s) := by
  show execPerstNRelease p width speed rev pol s = _
  rw [← linkTrains_releasePerst]
  simp only [execPerstNRelease, act, beq_eq_false_iff_ne.mpr hl, hp, Bool.not_false, Bool.and_self, if_true]
  rfl

theorem linkUp_only {s : State} {p width speed pol : Nat} {rev : Bool} :
    OnlyIn [.hif, .pwr] s (linkUpAs p width speed rev pol (clearPortDown p (releasePerst p s))) := by
  intro x hx
  simp at hx
  simp [clearPortDown, releasePerst, hx]

/-! ### Function-level reset -/

/-- The cause of a function-level reset in GLB_RESET_CAUSE. -/
def flrCause (p : Nat) (s : State) : State := { s with glb := { s.glb with cause := setBit s.glb.cause (8 + p) true } }

/-- The instances that a function-level reset resets: those that are under no reset. -/
def mayReset (i : Inst) : Bool := !(i.st == .resetting || i.st == .destroying)

theorem flrInstances_none {s : State} (p : Nat) (h : s.glb.resetTag = none) :
    flrInstances p s = (instancesOn p mayReset s).foldl (fun s n => resetInstance n .resetting s) s := by
  unfold flrInstances
  rw [h]
  rfl

theorem flrInstances_ended {s : State} {n p : Nat} {i : Inst} (h : s.glb.resetTag = none) (hi : Tbl.get? s.insts n = some i)
    (hp : i.port = p) (hr : i.st ≠ .resetting) (hd : i.st ≠ .destroying) {q : Nat × Tag} (hq : q ∈ busyOf s n) :
    EndedByReset (flrInstances p s) q.1 := by
  obtain ⟨y, hy⟩ := busyOf_has s n q hq
  have hm : n ∈ instancesOn p mayReset s := mem_instancesOn hi hp (by simp [mayReset, hr, hd])
  rw [flrInstances_none p h]
  exact (resetInstances_tags _ .resetting hy).2 (.inl (keyInst_of_mem_busyOf hq ▸ hm))

theorem flrFunction_d3hot (p : Nat) (s : State) : (portOf (flrFunction p s) p).d3hot = false := by
  obtain ⟨vs, h⟩ := releaseMsix_port p (modPort p (fun q => { q with d3hot := false }) s)
  rw [flrFunction, h, portOf_modPort]

theorem exec_functionLevelReset {s : State} {p : Fin 2} (hw : powered s = true) (hr : fnReaches s p = true) (h5 : 5 ≤ s.glb.stage) :
    exec (.functionLevelReset p false) s = .next (settleInstances (flrFunction p (flrInstances p (flrCause p s)))) := by
  show execFunctionLevelReset p false s = _
  simp only [execFunctionLevelReset, act, hw, hr, h5, decide_true, Bool.and_self, if_true]
  rfl

theorem exec_functionLevelReset_ends {s : State} {p : Fin 2} (hw : powered s = true) :
    exec (.functionLevelReset p true) s = .next (settleInstances s) := by
  show execFunctionLevelReset p true s = _
  simp only [execFunctionLevelReset, act, hw, if_true]

/-! ### D3hot -/

theorem exec_d3hotEntry {s : State} {p : Fin 2} (hw : powered s = true) (hr : fnReaches s p = true) (h5 : 5 ≤ s.glb.stage)
    (hd : (portOf s p).d3hot = false) : exec (.d3hotEntry p) s = .next (modPort p (fun q => { q with d3hot := true, pm := 1 }) s) := by
  show execD3HotEntry p s = _
  simp only [execD3HotEntry, act, hw, hr, h5, hd, decide_true, Bool.not_false, Bool.and_self, if_true]

/-- Port `p` is in D0 again. -/
def toD0 (p : Nat) (s : State) : State := modPort p (fun q => { q with d3hot := false, pm := 0 }) s

theorem toD0_port (p : Nat) (s : State) : portOf (toD0 p s) p = { portOf s p with d3hot := false, pm := 0 } := portOf_modPort ..

theorem toD0_msix (p : Nat) (s : State) : (toD0 p s).hif.msix = s.hif.msix := by
  unfold toD0 modPort
  split <;> rfl

theorem toD0_live {p : Nat} {s : State} (h : fnReaches s p = true) : portLive (toD0 p s) p = true := by
  unfold portLive
  rw [toD0_port]
  simpa [fnReaches] using h

theorem exec_d3hotExit {s : State} {p : Fin 2} (hw : powered s = true) (hr : fnReaches s p = true) (hd : (portOf s p).d3hot = true) :
    exec (.d3hotExit p) s = .next (releaseMsix p (toD0 p s)) := by
  show execD3HotExit p s = _
  simp only [execD3HotExit, act, hw, hr, hd, Bool.and_self, if_true]
  rfl

theorem releaseMsix_only {p : Nat} {s : State} : OnlyIn [.hif] s (releaseMsix p (toD0 p s)) := by
  intro x hx
  simp at hx
  simp [toD0, hx]

/-! ### DEVICE_RESET -/

theorem exec_deviceReset {s : State} {inst : Fin 64} {tag : Fin 256} {g : Tag} (h : Working opDeviceReset s (tagKey inst tag) g) :
    exec (.deviceReset inst tag) s = .next (deviceReset (tagKey inst tag) s) := by
  show execDeviceReset inst tag s = _
  exact h.next rfl

theorem deviceReset_resetTag (k : Nat) (s : State) : (deviceReset k s).glb.resetTag = some k := rfl

/-- Settles O54: the resets of instances end their tags, the resets of ports drop theirs, and a port in D3hot keeps its messages. -/
theorem resetsOfPortsAndTheDevice : Obligations.ResetsOfPortsAndTheDevice := by
  refine ⟨?device, ?assert, ?release, ?flr, ?d3hot⟩
  case device =>
    intro s inst tag g hw
    exact ⟨_, exec_deviceReset hw, deviceReset_ended hw.tag, deviceReset_resetTag _ s, fun n i hi p hp hk => deviceReset_others hi hp hk,
      fun x hx => deviceReset_get _ s x hx⟩
  case assert =>
    intro s p pin hl
    refine ⟨_, exec_perstNAssert pin hl, ?_⟩
    cases hw : powered s
    case false =>
      rw [if_neg Bool.false_ne_true]
      obtain ⟨hlink, hfuses, hmem⟩ := perstPort_down p pin s
      exact ⟨hlink, hfuses, hmem, by simp⟩
    case true =>
      rw [if_pos rfl]
      obtain ⟨hlink, hfuses, hmem⟩ := settled_down p pin s
      refine ⟨hlink, hfuses, hmem, fun _ hnone hidle hs => ?_⟩
      rw [settled_none p pin hnone, perstDevice_port, perstPort_port]
      have hinsts : (portReset p pin s).insts = s.insts := insts_of_get (portReset_get _ _ _ .insts (by decide))
      rw [← hinsts] at hidle hs ⊢
      refine ⟨rfl, fun n i hi hp => perstDevice_gone hi hp, fun n i hi hp => ?_⟩
      obtain ⟨hr, hd⟩ := hidle (n, i) (Tbl.mem_of_get? hi)
      exact perstDevice_kept hs hi hp hr hd
  case release =>
    intro s p width speed rev pol hl hp
    have hperst : (portOf (releasePerst p s) p) = { portOf s p with perst := false } := portOf_modPort ..
    refine ⟨_, exec_perstNRelease width speed rev pol hl hp, ?_⟩
    cases ht : linkTrains s p width speed
    case false =>
      rw [if_neg Bool.false_ne_true, hperst]
      refine ⟨rfl, fun _ => rfl, fun hw hk h1 hm => ?_, fun x hx => modPort_get _ _ _ x (by simp_all)⟩
      simp [linkTrains, hw, hk, h1, hm] at ht
    case true =>
      obtain ⟨vs, hup⟩ := linkUpAs_port p width speed rev pol (clearPortDown p (releasePerst p s))
      have hclear : portOf (clearPortDown p (releasePerst p s)) p = portOf (releasePerst p s) p := rfl
      rw [if_pos rfl, hup, hclear, hperst]
      refine ⟨rfl, fun h0 => ?_, fun _ _ _ _ => ⟨rfl, rfl, rfl⟩, linkUp_only⟩
      simp [linkTrains, h0, widthOk] at ht
  case flr =>
    intro s p hw
    refine ⟨fun hr h5 hnone => ?_, ?_⟩
    · have hglb : (settleInstances (flrFunction p (flrInstances p (flrCause p s)))).glb = (flrCause p s).glb :=
        glb_of_get (by simp)
      have htags : (settleInstances (flrFunction p (flrInstances p (flrCause p s)))).tags = (flrInstances p (flrCause p s)).tags :=
        tags_of_get (by simp)
      refine ⟨_, exec_functionLevelReset hw hr h5, ?_, ?_, fun n i hi hp hrs hds q hq => ?_⟩
      · rw [hglb]; exact bit_setBit ..
      · rw [portOf_of_hif (hif_of_get (settleInstances_get _ .hif (by decide))), flrFunction_d3hot]
      · rw [htags]
        exact flrInstances_ended (s := flrCause p s) hnone hi hp hrs hds hq
    · exact ⟨_, exec_functionLevelReset_ends hw, fun n i hi hr hd hdone hc hnone =>
        ⟨_, settleInstances_resets hi hr hd hdone hc hnone, rfl, rfl⟩⟩
  case d3hot =>
    intro s p hw hr
    refine ⟨fun h5 hd => ⟨exec_d3hotEntry hw hr h5 hd, ?_⟩, fun hd => ?_⟩
    · rw [portLive, portOf_modPort]; simp
    · obtain ⟨hport, hmsix⟩ := releaseMsix_live (toD0_live hr)
      refine ⟨_, exec_d3hotExit hw hr hd, ?_, ?_, ?_, ?_, releaseMsix_only⟩
      · rw [hport, toD0_port]
      · rw [hport, toD0_port]
      · rw [hport]
      · rw [hmsix, toD0_msix, toD0_port]

end Sys2Proof.Machine

/-! Obligation O22 (CodecContextsSaveAndRestore): the image of a context delivered, and a context made from an image. -/

namespace Sys2Proof.Machine

/-- `Working.replies` for an end that is written by its status and result words. -/
theorem Working.repliesWith {op k status r0 r1 : Nat} {s u : State} {g : Tag} {c : Instr} {ps : List Part} {P : State → Prop}
    (h : Working op s k g) (e : exec c s = .next (finishWith k status r0 r1 u)) (hu : OnlyIn ps s u) (ht : Part.tags ∉ ps)
    (hp : P (finishWith k status r0 r1 u)) : Replies c s k status r0 r1 ps P :=
  h.replies (r := { status := status, r0 := r0, r1 := r1 }) e hu ht hp

theorem finishWith_hostMem (k status r0 r1 : Nat) (s : State) : (finishWith k status r0 r1 s).hostMem = s.hostMem :=
  finishWith_get k status r0 r1 s .hostMem (by decide)

theorem finishWith_bsh (k status r0 r1 : Nat) (s : State) : (finishWith k status r0 r1 s).bsh = s.bsh :=
  finishWith_get k status r0 r1 s .bsh (by decide)

/-! ### A context is saved -/

theorem exec_codecSave {s : State} {inst : Fin 64} {tag : Fin 256} {g : Tag} {x : Ctx}
    (h : CodecWorking opCodecSave s inst (tagKey inst tag) g) (hm : mayWrite s inst = true) (hx : ctxOf s inst (pkContext g.packet) = some x) :
    exec (.codecSave inst tag) s =
      .next (finishWith (tagKey inst tag) stOk (ctxImage x).length 0 (deliver inst g.packet 0 (ctxImage x) s)) := by
  show execCodecSave inst tag s = _
  rw [execCodecSave, h.next hm, saveDone, hx]

theorem deliver_only {n off : Nat} {p bs : List Byte} {s : State} : OnlyIn [.mgr, .hostMem] s (deliver n p off bs s) :=
  fun x hx => deliver_get n p off bs s x hx

/-! ### A context is restored -/

/-- A restore into context `c` of instance `n` ends with ST_BAD_FIELD; for a dictionary in use, by R110. -/
def ctxRefused (s : State) (n c : Nat) : Prop := c = 0 ∨ contextCount s n < c ∨ dictInUse s n c = true

theorem not_ctxRefused {s : State} {n c : Nat} (h0 : c ≠ 0) (hn : c ≤ contextCount s n) (hd : dictInUse s n c = false) :
    ¬ ctxRefused s n c := by simp [ctxRefused, h0, hn, hd]

/-- The bytes that a restore reads: at most the longest image (R111). -/
def imageRead (s : State) (n : Nat) (p : List Byte) : List Byte := gather s n p 0 (min (pkBufLen p) 69632)

section
variable {s : State} {n k : Nat} {p : List Byte}

theorem restoreDone_refused (h : ctxRefused s n (pkContext p)) : restoreDone n p k s = badField k 52 s := if_pos h

theorem restoreDone_wrong {o : Nat} (h : ¬ ctxRefused s n (pkContext p))
    (hb : firstWrong (imageFields s n (pkBufLen p) (imageRead s n p)) = some o) :
    restoreDone n p k s = codecFails n (pkContext p) k stCodecData o 0 s := by
  refine (if_neg h).trans ?_
  rw [← imageRead, hb]

/-- R111: behind the image's fields, the device reads only a dictionary. -/
theorem restoreDone_stream (h : ¬ ctxRefused s n (pkContext p))
    (hb : firstWrong (imageFields s n (pkBufLen p) (imageRead s n p)) = none) (hx : (imageCtx (imageRead s n p)).st ≠ .dictionary) :
    restoreDone n p k s = finishWith k stOk (4096 + (imageCtx (imageRead s n p)).history.length) 0
      (putCtx n (pkContext p) (some (imageCtx (imageRead s n p))) s) := by
  refine (if_neg h).trans ?_
  rw [← imageRead, hb]
  exact if_neg fun hd => hx hd.1

end

theorem exec_codecRestore {s : State} {inst : Fin 64} {tag : Fin 256} {g : Tag}
    (h : CodecWorking opCodecRestore s inst (tagKey inst tag) g) :
    exec (.codecRestore inst tag) s = .next (restoreDone inst g.packet (tagKey inst tag) s) := by
  show execCodecRestore inst tag s = _
  rw [execCodecRestore, h.next rfl]

theorem putCtx_dataErr (n c : Nat) (x : Option Ctx) (s : State) : (putCtx n c x s).bsh.dataErr = s.bsh.dataErr := by
  unfold putCtx
  split <;> rfl

/-- An image that is refused is counted among the data errors. -/
theorem codecFails_dataErr (n c k r0 r1 : Nat) (s : State) :
    (codecFails n c k stCodecData r0 r1 s).bsh.dataErr = satInc s.bsh.dataErr 0xFFFF := by
  rw [codecFails, finishWith_bsh, ← putCtx_dataErr n c none s]
  rfl

/-- Settles O22: a save finishes over the delivered image, a restore over the context put, emptied or left. -/
theorem codecContextsSaveAndRestore : Obligations.CodecContextsSaveAndRestore := by
  refine ⟨?save, ?restore, ?refused⟩
  case save =>
    intro s inst tag g x hw hm hx
    exact hw.1.repliesWith (exec_codecSave hw hm hx) deliver_only (by decide) (finishWith_hostMem ..)
  case restore =>
    intro s inst tag g hw h0 hn hd b
    have hc := not_ctxRefused h0 hn hd
    have e := exec_codecRestore hw
    refine ⟨fun o ho => ?wrong, fun hgood hstream => ?stream⟩
    case wrong =>
      rw [restoreDone_wrong hc ho] at e
      exact hw.1.repliesWith e (putCtx_only.comp codecCount_only (rs := [.bsh]) (by decide) (by decide)) (by decide)
        ⟨codecFails_ctx .., codecFails_dataErr ..⟩
    case stream =>
      rw [restoreDone_stream hc hgood hstream] at e
      refine hw.1.repliesWith e putCtx_only (by decide) ?_
      rw [ctxOf_of (congrArg _ (finishWith_bsh ..))]
      exact ctxOf_put s inst _ _ h0
  case refused =>
    intro s inst tag g hw hc
    have e := exec_codecRestore hw
    rw [restoreDone_refused hc] at e
    exact hw.1.repliesWith e (OnlyIn.refl [] s) (by decide) trivial

end Sys2Proof.Machine

/-! Obligation O37 (TasksArePostedDispatchedCancelled): what posts, spawns, dispatches, applied halves and cancels make of the tasks. -/

namespace Sys2Proof.Machine

/-! ### The trace ring stands apart -/

/-- The scheduler without its trace ring and its count of held posts: what posts, dispatches and cancels go by. -/
def bare (c : Sch) : Sch := { c with heldCount := 0, traceIndex := 0, traceWraps := 0, traceDropped := 0, trace := [] }

/-- R190: a trace record is written to the ring alone. -/
theorem bare_trace (kind ctx engine : Nat) (owner : Option Nat) (aux arg : Nat) (s : State) :
    bare (trace kind ctx engine owner aux arg s).sch = bare s.sch := by
  unfold trace bumpFresh
  dsimp only
  repeat' split
  all_goals rfl

theorem bare_traceTask (kind ctx engine aux arg : Nat) (s : State) :
    bare (traceTask kind ctx engine aux arg s).sch = bare s.sch := by
  unfold traceTask
  split
  · exact bare_trace ..
  · rfl

section
variable {c d : Sch} (h : bare c = bare d)
include h

theorem tasks_of_bare : c.tasks = d.tasks := (congrArg Sch.tasks h :)
theorem gens_of_bare : c.gens = d.gens := (congrArg Sch.gens h :)
theorem engines_of_bare : c.engines = d.engines := (congrArg Sch.engines h :)
theorem bindings_of_bare : c.bindings = d.bindings := (congrArg Sch.bindings h :)
theorem orphans_of_bare : c.orphans = d.orphans := (congrArg Sch.orphans h :)
theorem readyCounter_of_bare : c.readyCounter = d.readyCounter := (congrArg Sch.readyCounter h :)

end

@[simp] theorem traceTask_tasks (kind ctx engine aux arg : Nat) (s : State) :
    (traceTask kind ctx engine aux arg s).sch.tasks = s.sch.tasks := tasks_of_bare (bare_traceTask ..)
@[simp] theorem traceTask_gens (kind ctx engine aux arg : Nat) (s : State) :
    (traceTask kind ctx engine aux arg s).sch.gens = s.sch.gens := gens_of_bare (bare_traceTask ..)
@[simp] theorem traceTask_engines (kind ctx engine aux arg : Nat) (s : State) :
    (traceTask kind ctx engine aux arg s).sch.engines = s.sch.engines := engines_of_bare (bare_traceTask ..)
@[simp] theorem traceTask_orphans (kind ctx engine aux arg : Nat) (s : State) :
    (traceTask kind ctx engine aux arg s).sch.orphans = s.sch.orphans := orphans_of_bare (bare_traceTask ..)
@[simp] theorem traceTask_readyCounter (kind ctx engine aux arg : Nat) (s : State) :
    (traceTask kind ctx engine aux arg s).sch.readyCounter = s.sch.readyCounter := readyCounter_of_bare (bare_traceTask ..)

/-- A handle names the same context while the tasks and their generations stand. -/
theorem ctxOfHandle_of_bare {s u : State} (h : bare u.sch = bare s.sch) (a : Nat) : ctxOfHandle u a = ctxOfHandle s a := by
  unfold ctxOfHandle ctxGen
  rw [tasks_of_bare h, gens_of_bare h]

/-- The frame of a command is that of its meaning. -/
theorem onlyIn_of_next {ps : List Part} {o : Out} {s u : State} (h : ∃ t, o = .next t ∧ OnlyIn ps s t) (e : o = .next u) :
    OnlyIn ps s u := by
  obtain ⟨t, ht, hf⟩ := h
  cases ht.symm.trans e
  exact hf

/-! ### Posts -/

/-- A task READY behind those that are, `n` the last of the order (R182). -/
def readied (n : Int) (y : Task) : Task := { y with st := .ready, engine := noEngine, readyOrder := n }

theorem makeReady_tasks (c flags : Nat) (s : State) :
    (makeReady c flags s).sch.tasks = Tbl.modify s.sch.tasks c (readied s.sch.readyCounter) := by
  unfold makeReady
  rw [traceTask_tasks]
  rfl

theorem makeReady_orphans (c flags : Nat) (s : State) : (makeReady c flags s).sch.orphans = s.sch.orphans := by
  unfold makeReady
  rw [traceTask_orphans]
  rfl

/-- R175: flag `k` is pending. -/
def flagged (k : Nat) (y : Task) : Task := { y with pending := y.pending ||| BitVec.ofNat 32 (2 ^ k) }

/-- R175, R178: a task after a post of flag `k`; a wait that is then satisfied is over. -/
def posted (k : Nat) (n : Int) (y : Task) : Task :=
  if y.st = .waiting ∧ waitMet (flagged k y).pending y.waitMask y.waitAll = true then
    readied n (deliverFlags (flagged k y) y.waitMask)
  else flagged k y

/-- The flag of a post is set, and the post traced. -/
def flagSet (c k source : Nat) (s : State) : State := modTask c (flagged k) (traceTask 0x01 c noEngine source k s)

theorem flagSet_tasks (c k source : Nat) (s : State) : (flagSet c k source s).sch.tasks = Tbl.modify s.sch.tasks c (flagged k) := by
  rw [flagSet, modTask, traceTask_tasks]

theorem flagSet_readyCounter (c k source : Nat) (s : State) : (flagSet c k source s).sch.readyCounter = s.sch.readyCounter :=
  traceTask_readyCounter ..

section
variable {s : State} {c : Nat} {y : Task} (hy : Tbl.get? s.sch.tasks c = some y)
include hy

theorem postFlag_eq (k source : Nat) : postFlag c k source s =
    if y.st = .waiting ∧ waitMet (flagged k y).pending y.waitMask y.waitAll = true then
      makeReady c ((flagged k y).pending &&& y.waitMask).toNat (modTask c (fun t => deliverFlags t t.waitMask) (flagSet c k source s))
    else flagSet c k source s := by
  have hu : Tbl.get? (flagSet c k source s).sch.tasks c = some (flagged k y) := by
    rw [flagSet_tasks, Tbl.get?_modify_self, hy, Option.map_some]
  unfold postFlag
  extract_lets a u
  rw [show u = flagSet c k source s from rfl, hu]
  rfl

theorem postFlag_get? (k source j : Nat) : Tbl.get? (postFlag c k source s).sch.tasks j =
    if j = c then some (posted k s.sch.readyCounter y) else Tbl.get? s.sch.tasks j := by
  rw [postFlag_eq hy, posted]
  split
  · rw [makeReady_tasks, modTask, flagSet_tasks, flagSet_readyCounter]
    by_cases hj : j = c
    · rw [hj, Tbl.get?_modify_self, Tbl.get?_modify_self, Tbl.get?_modify_self, hy, if_pos rfl]
      rfl
    · rw [Tbl.get?_modify_ne _ _ _ _ hj, Tbl.get?_modify_ne _ _ _ _ hj, Tbl.get?_modify_ne _ _ _ _ hj, if_neg hj]
  · rw [flagSet_tasks, Tbl.get?_modify, hy, Option.map_some]

theorem postFlag_orphans (k source : Nat) : (postFlag c k source s).sch.orphans = s.sch.orphans := by
  rw [postFlag_eq hy]
  split
  · rw [makeReady_orphans]; exact traceTask_orphans ..
  · exact traceTask_orphans ..

end

/-- A post that finds no task counts as an orphan (log entry 66). -/
theorem orphan_bare (source arg : Nat) (s : State) :
    bare (orphan source arg s).sch = bare { s.sch with orphans := satInc s.sch.orphans 0xFFFFFFFF } := bare_trace ..

theorem postTask_of_ctx {s : State} {h c : Nat} (hc : ctxOfHandle s h = some c) (source k : Nat) :
    postTask source h k s = postFlag c k source s := by
  rw [postTask, hc]

theorem postTask_of_none {s : State} {h : Nat} (hc : ctxOfHandle s h = none) (source k : Nat) :
    postTask source h k s = orphan source (h % 2 ^ 20 + 2 ^ 26 * k) s := by
  rw [postTask, hc]

theorem postCommand_of_binding {s : State} {key : Nat} {b : Binding} (hb : Tbl.get? s.sch.bindings key = some b) {source k : Nat} :
    postCommand source key k s = postTask source b.handle (b.base + k) s := by
  rw [postCommand, hb]

/-- R174: the operands of a post name flag `k` of handle `h`, themselves or through the command's binding. -/
def PostNames (s : State) (handle : BitVec 20) (inst : Option (Fin 64)) (tag : Fin 256) (flag : Fin 32) (h k : Nat) : Prop :=
  inst = none ∧ h = handle.toNat ∧ k = flag ∨
    ∃ n b, inst = some n ∧ flag.val < 8 ∧ Tbl.get? s.sch.bindings (tagKey n tag) = some b ∧ h = b.handle ∧ k = b.base + flag

/-- R177: a held post is counted and traced before it is applied. -/
def stalled (source : Fin 38) (cycles : Fin 11) (s : State) : State :=
  trace 0x0A noCtx noEngine none source cycles { s with sch := { s.sch with heldCount := satInc s.sch.heldCount 0xFFFFFFFF } }

theorem bare_stalled (source : Fin 38) (cycles : Fin 11) (s : State) : bare (stalled source cycles s).sch = bare s.sch :=
  bare_trace ..

section
variable {s : State} {source : Fin 38} {handle : BitVec 20} {inst : Option (Fin 64)} {tag : Fin 256} {flag : Fin 32} {cycles : Fin 11}
  {h k : Nat}

theorem exec_post (hs : powered s = true) (hn : PostNames s handle inst tag flag h k) :
    exec (.post source handle inst tag flag) s = .next (postTask source h k s) := by
  show execPost source handle inst tag flag s = _
  obtain ⟨rfl, rfl, rfl⟩ | ⟨n, b, rfl, hf, hb, rfl, rfl⟩ := hn
  · simp [execPost, act, hs]
  · rw [← postCommand_of_binding hb]
    simp [execPost, act, hs, hf]

theorem exec_eventQueueStall (hs : powered s = true) (hn : PostNames s handle inst tag flag h k) (hc : 1 ≤ cycles.val) :
    exec (.eventQueueStall source handle inst tag flag cycles) s = .next (postTask source h k (stalled source cycles s)) := by
  show execEventQueueStall source handle inst tag flag cycles s = _
  obtain ⟨rfl, rfl, rfl⟩ | ⟨n, b, rfl, hf, hb, rfl, rfl⟩ := hn
  · simp [execEventQueueStall, act, hs, hc, stalled]
  · rw [← bindings_of_bare (bare_stalled source cycles s)] at hb
    rw [← postCommand_of_binding hb]
    simp [execEventQueueStall, act, hs, hf, hc, stalled]

end

/-! ### Spawns -/

/-- A context as a spawn sets it, before one without a wait is made READY (Table 5.4). -/
def newTask (prio : Fin 8) (owner : Fin 65) (damzu : Bool) (program : Nat) (wait : Option (BitVec 32 × Bool)) : Task :=
  { st := .waiting, prio := prio, owner := owner, damzu := damzu, pending := 0, delivered := 0
    waitMask := (wait.map Prod.fst).getD 0, waitAll := (wait.map Prod.snd).getD false, engine := noEngine
    readyOrder := 0, since := 0, ckptAt := 0, program := if damzu then program else 0, frameDelivered := 0 }

/-- The context is set, and the spawn traced. -/
def spawned (c spawner : Nat) (t : Task) (s : State) : State :=
  traceTask 0x0F c noEngine 0 spawner { s with sch := { s.sch with tasks := Tbl.set s.sch.tasks c t } }

theorem spawned_get? (c spawner : Nat) (t : Task) (s : State) : Tbl.get? (spawned c spawner t s).sch.tasks c = some t := by
  rw [spawned, traceTask_tasks, Tbl.get?_set, if_pos rfl]

theorem exec_spawn {s : State} {ctx : Fin 4096} (hs : powered s = true) (hc : Tbl.has s.sch.tasks ctx = false) (prio : Fin 8)
    (owner : Fin 65) (damzu : Bool) (program : Nat) (wait : Option (BitVec 32 × Bool)) (spawner : BitVec 20) :
    exec (.spawn ctx prio owner damzu program wait spawner) s = .next
      (let u := spawned ctx spawner.toNat (newTask prio owner damzu program wait) s
       if wait.isSome then u else makeReady ctx 0 u) := by
  show execSpawn ctx prio owner damzu program wait spawner s = _
  rw [execSpawn, act, hs, hc]
  rfl

/-! ### Dispatches -/

/-- A task RUNNING on an engine from `now` on (Table 5.4). -/
def dispatched (e now : Nat) (y : Task) : Task :=
  { y with st := .running, engine := e, since := now, ckptAt := now, frameDelivered := y.delivered }

section
variable {s : State} {c e : Nat} {y : Task} {x : Engine} (hy : Tbl.get? s.sch.tasks c = some y) (hx : Tbl.get? s.sch.engines e = some x)
include hy hx

theorem dispatchTo_task : Tbl.get? (dispatchTo c e s).sch.tasks c = some (dispatched e s.now y) := by
  simp [dispatchTo, hy, hx, modTask, modEngine, Tbl.get?_modify, dispatched]

theorem dispatchTo_engine : Tbl.get? (dispatchTo c e s).sch.engines e =
    some { x with ctx := some c, window := if y.damzu then y.program else 0, order := s.sch.dispatchCounter } := by
  simp [dispatchTo, hy, hx, modTask, modEngine, Tbl.get?_modify]

end

/-- R182: the selected task goes to a free engine whose window holds its program, or to any when none such is free. -/
theorem exec_dispatch {s : State} {engine : Fin 36} {x : Engine} {c : Nat} {y : Task} (hs : powered s = true) (hh : s.sch.hold = false)
    (hx : Tbl.get? s.sch.engines engine = some x) (hf : engineFree x = true) (hsel : selected s = some (c, y))
    (hw : x.window = y.program ∨ ∀ p ∈ s.sch.engines, engineFree p.2 = true → p.2.window ≠ y.program) :
    exec (.dispatch engine) s = .next (dispatchTo c engine s) := by
  show execDispatch engine s = _
  have hfits : (x.window == y.program || !s.sch.engines.any (fun p => engineFree p.2 && p.2.window == y.program)) = true := by
    rcases hw with hw | hw
    · simp [hw]
    · simp only [Bool.or_eq_true, Bool.not_eq_true', List.any_eq_false, Bool.and_eq_true, beq_iff_eq, not_and]
      exact .inr hw
  simp only [execDispatch, hx, hsel, act, hs, hh, hf, hfits, Bool.not_false, Bool.and_self, if_true]

/-! ### Applied checkpoints -/

theorem exec_checkpointApplyDone {s : State} {engine : Fin 36} {x : Engine} {l : LogHalf} (hs : powered s = true)
    (hx : Tbl.get? s.sch.engines engine = some x) (hl : x.applying = some l) :
    exec (.checkpointApplyDone engine) s = .next (l.effects.foldl releaseEffect (modEngine engine (fun x => { x with applying := none }) s)) := by
  show execCheckpointApplyDone engine s = _
  simp only [execCheckpointApplyDone, act, hs, if_true, applyHalf, hx, Option.bind_some, hl]

/-! ### Cancels -/

/-- R179, R181: what a cancel leaves of a task: on its engine it stops at the next instruction boundary, elsewhere it is gone at once. -/
def cancelled (y : Task) : Option Task :=
  if y.st = .running ∨ y.st = .stopping then some { y with st := .stopping } else none

theorem cancelled_st {y z : Task} (h : cancelled y = some z) : z.st = .stopping := by
  unfold cancelled at h
  split at h
  · cases h; rfl
  · cases h

theorem cancelled_cancelled (y : Task) : (cancelled y).bind cancelled = cancelled y := by
  by_cases h : y.st = .running ∨ y.st = .stopping <;> simp [cancelled, h]

theorem freeCtx_get? (c j : Nat) (s : State) :
    Tbl.get? (freeCtx c s).sch.tasks j = if j = c then none else Tbl.get? s.sch.tasks j := Tbl.get?_erase ..

theorem freeCtx_ctxGen (c : Nat) (s : State) : ctxGen (freeCtx c s) c = (ctxGen s c + 1) % 256 := by
  show (Tbl.get? (Tbl.set s.sch.gens c _) c).getD 0 = _
  rw [Tbl.get?_set, if_pos rfl, Option.getD_some]

section
variable {s : State} {c : Nat} {y : Task} (hy : Tbl.get? s.sch.tasks c = some y)
include hy

theorem cancelCtx_stopping (hst : y.st = .stopping) : cancelCtx c s = s := by
  simp only [cancelCtx, hy, hst, if_true]

theorem cancelCtx_running (hst : y.st = .running) :
    cancelCtx c s = modTask c (fun t => { t with st := .stopping }) (traceTask 0x07 c y.engine 0 (taskCode y.st) s) := by
  simp [cancelCtx, hy, hst]

theorem cancelCtx_free (hr : y.st ≠ .running) (hst : y.st ≠ .stopping) :
    cancelCtx c s = freeCtx c (traceTask 0x07 c y.engine 0 (taskCode y.st) s) := by
  simp only [cancelCtx, hy, if_neg hst, if_neg hr]

end

theorem cancelCtx_get? (c j : Nat) (s : State) : Tbl.get? (cancelCtx c s).sch.tasks j =
    if j = c then (Tbl.get? s.sch.tasks c).bind cancelled else Tbl.get? s.sch.tasks j := by
  cases hy : Tbl.get? s.sch.tasks c with
  | none =>
    have : cancelCtx c s = s := by simp only [cancelCtx, hy]
    by_cases hj : j = c <;> simp [this, hj, hy]
  | some y =>
    rw [Option.bind_some]
    by_cases hst : y.st = .stopping
    · have : cancelled y = some y := by
        rw [cancelled, if_pos (.inr hst), ← hst]
      rw [cancelCtx_stopping hy hst, this]
      split
      · next hj => rw [hj, hy]
      · rfl
    · by_cases hr : y.st = .running
      · simp [cancelCtx_running hy hr, modTask, Tbl.get?_modify, hy, cancelled, hr]
      · rw [cancelCtx_free hy hr hst, freeCtx_get?, traceTask_tasks, cancelled, if_neg (not_or.mpr ⟨hr, hst⟩)]

theorem cancelCtxs_get? (cs : List Nat) (j : Nat) (s : State) : Tbl.get? (cs.foldl (fun s c => cancelCtx c s) s).sch.tasks j =
    if j ∈ cs then (Tbl.get? s.sch.tasks j).bind cancelled else Tbl.get? s.sch.tasks j := by
  induction cs generalizing s with
  | nil => rfl
  | cons c cs ih =>
    rw [List.foldl_cons, ih, cancelCtx_get?]
    by_cases hc : j = c
    · subst hc
      simp [Option.bind_assoc, cancelled_cancelled]
    · simp [hc]

/-- The contexts of an owner. -/
def ctxsOf (o : Nat) (s : State) : List Nat := (s.sch.tasks.filter (fun p => p.2.owner == o)).map Prod.fst

theorem mem_ctxsOf {o c : Nat} {s : State} {y : Task} (hy : Tbl.get? s.sch.tasks c = some y) (ho : y.owner = o) : c ∈ ctxsOf o s :=
  List.mem_map.mpr ⟨(c, y), List.mem_filter.mpr ⟨Tbl.mem_of_get? hy, by simp [ho]⟩, rfl⟩

theorem not_mem_ctxsOf {o c : Nat} {s : State} {y : Task} (hs : Tbl.sorted s.sch.tasks = true) (hy : Tbl.get? s.sch.tasks c = some y)
    (ho : y.owner ≠ o) : c ∉ ctxsOf o s := by
  intro hm
  obtain ⟨⟨k, z⟩, hz, rfl⟩ := List.mem_map.mp hm
  obtain ⟨hz, hzo⟩ := List.mem_filter.mp hz
  cases hy.symm.trans (Tbl.get?_of_mem hs hz)
  exact ho (by simpa using hzo)

theorem cancelOwner_get? (o j : Nat) (s : State) : Tbl.get? (cancelOwner o s).sch.tasks j =
    if j ∈ ctxsOf o s then (Tbl.get? s.sch.tasks j).bind cancelled else Tbl.get? s.sch.tasks j := cancelCtxs_get? ..

theorem releaseEngine_get? (e : Nat) (s : State) : Tbl.get? (releaseEngine e s).sch.engines e =
    (Tbl.get? s.sch.engines e).map (fun x => { x with ctx := none }) := by
  rw [releaseEngine, modEngine, Tbl.get?_modify_self]

theorem exec_cancel_handle {s : State} {handle : BitVec 20} {c : Nat} (hs : powered s = true) (hc : ctxOfHandle s handle.toNat = some c) :
    exec (.cancel handle none) s = .next (cancelCtx c s) := by
  show execCancel handle none s = _
  simp only [execCancel, act, hs, hc, if_true]

theorem exec_cancel_owner {s : State} (hs : powered s = true) (handle : BitVec 20) (o : Fin 65) :
    exec (.cancel handle (some o)) s = .next (cancelOwner o s) := by
  show execCancel handle (some o) s = _
  simp only [execCancel, act, hs, if_true]

theorem exec_engineStopped {s : State} {engine : Fin 36} {x : Engine} {c : Nat} {y : Task} (hs : powered s = true)
    (hx : Tbl.get? s.sch.engines engine = some x) (hc : x.ctx = some c) (hy : Tbl.get? s.sch.tasks c = some y) (hst : y.st = .stopping) :
    exec (.engineStopped engine) s = .next (freeCtx c (releaseEngine engine s)) := by
  show execEngineStopped engine s = _
  simp [execEngineStopped, act, hs, hx, hc, hy, hst]

/-! ### The obligation -/

/-- A post changes the task that its handle names, and no other, or is an orphan; `u` is the state in which it is applied. -/
theorem post_settles {s u : State} {i : Instr} {source h k : Nat} (hu : bare u.sch = bare s.sch)
    (e : exec i s = .next (postTask source h k u)) (hf : OnlyIn [.sch, .fresh] s (postTask source h k u)) :
    (∀ x y, ctxOfHandle s h = some x → Tbl.get? s.sch.tasks x = some y → Completes i s fun t => OnlyIn [.sch, .fresh] s t ∧
      t.sch.orphans = s.sch.orphans ∧ (∀ j, j ≠ x → Tbl.get? t.sch.tasks j = Tbl.get? s.sch.tasks j) ∧
      Tbl.get? t.sch.tasks x = some (posted k s.sch.readyCounter y)) ∧
    (ctxOfHandle s h = none → Completes i s fun t => OnlyIn [.sch, .fresh] s t ∧ t.sch.tasks = s.sch.tasks ∧
      t.sch.orphans = satInc s.sch.orphans 0xFFFFFFFF) := by
  have htasks := tasks_of_bare hu
  refine ⟨fun x y hx hy => ⟨_, e, hf, ?task⟩, fun hx => ⟨_, e, hf, ?orphan⟩⟩
  case task =>
    rw [← ctxOfHandle_of_bare hu] at hx
    rw [← htasks] at hy
    rw [postTask_of_ctx hx, postFlag_orphans hy, orphans_of_bare hu]
    refine ⟨rfl, fun j hj => ?_, ?_⟩
    · rw [postFlag_get? hy, if_neg hj, htasks]
    · rw [postFlag_get? hy, if_pos rfl, readyCounter_of_bare hu]
  case orphan =>
    rw [← ctxOfHandle_of_bare hu] at hx
    rw [postTask_of_none hx]
    have hb := orphan_bare source (h % 2 ^ 20 + 2 ^ 26 * k) u
    exact ⟨(tasks_of_bare hb).trans htasks, (orphans_of_bare hb).trans (congrArg (satInc · _) (orphans_of_bare hu))⟩

/-- Settles O37: what each command leads to, and the tasks and engines there. -/
theorem tasksArePostedDispatchedCancelled : Obligations.TasksArePostedDispatchedCancelled := by
  refine ⟨?post, ?spawn, ?dispatch, ?applied, ?handle, ?owner, ?stopped⟩
  case post =>
    intro s i source handle inst tag flag cycles h k hs hi hn
    obtain rfl | ⟨rfl, hc⟩ := hi
    · have e := exec_post (source := source) hs hn
      exact post_settles rfl e (onlyIn_of_next (execPost_next ..) e)
    · have e := exec_eventQueueStall (source := source) hs hn hc
      exact post_settles (bare_stalled ..) e (onlyIn_of_next (execEventQueueStall_next ..) e)
  case spawn =>
    intro s ctx prio owner damzu program wait spawner hs hc
    have e := exec_spawn hs hc prio owner damzu program wait spawner
    have hu := spawned_get? ctx spawner.toNat (newTask prio owner damzu program wait) s
    refine ⟨_, e, onlyIn_of_next (execSpawn_next ..) e, ?_⟩
    cases wait with
    | some w => exact ⟨_, hu, rfl, rfl, rfl, nofun, fun m a h => by cases h; exact ⟨rfl, rfl, rfl⟩⟩
    | none =>
      refine ⟨readied s.sch.readyCounter (newTask prio owner damzu program none), ?_, rfl, rfl, rfl, fun _ => rfl, nofun⟩
      show Tbl.get? (makeReady ctx 0 _).sch.tasks ctx = _
      rw [makeReady_tasks, Tbl.get?_modify_self, hu, spawned, traceTask_readyCounter]
      rfl
  case dispatch =>
    intro s engine x c y hs hh hx hf hsel hy hw
    have e := exec_dispatch hs hh hx hf hsel hw
    exact ⟨_, e, onlyIn_of_next (execDispatch_next ..) e, dispatchTo_task hy hx, dispatchTo_engine hy hx⟩
  case applied => exact fun s engine x l hs hx hl => exec_checkpointApplyDone hs hx hl
  case handle =>
    intro s handle c y hs hc hy
    have e := exec_cancel_handle hs hc
    refine ⟨_, e, onlyIn_of_next (execCancel_next handle none s) e, fun hst => ?_, fun hr hst => ?_⟩
    · rw [cancelCtx_get?, if_pos rfl, hy, Option.bind_some, cancelled, if_pos hst]
    · rw [cancelCtx_free hy hr hst, freeCtx_ctxGen, freeCtx_get?, if_pos rfl, ctxGen, traceTask_gens]
      exact ⟨rfl, rfl⟩
  case owner =>
    intro s handle o hs hsorted
    have e := exec_cancel_owner hs handle o
    refine ⟨_, e, onlyIn_of_next (execCancel_next handle (some o) s) e, fun c z hz ho => ?_, fun c y hy ho => ?_⟩
    · rw [cancelOwner_get?] at hz
      split at hz
      · obtain ⟨y, -, hc⟩ := Option.bind_eq_some_iff.mp hz
        exact cancelled_st hc
      · next hm => exact absurd (mem_ctxsOf hz ho) hm
    · rw [cancelOwner_get?, if_neg (not_mem_ctxsOf hsorted hy ho), hy]
  case stopped =>
    intro s engine x c y hs hx hc hy hst
    have e := exec_engineStopped hs hx hc hy hst
    refine ⟨_, e, onlyIn_of_next (execEngineStopped_next ..) e, ?_, ?_, freeCtx_ctxGen ..⟩
    · exact (releaseEngine_get? engine s).trans (congrArg _ hx)
    · rw [freeCtx_get?, if_pos rfl]

end Sys2Proof.Machine

/-! Obligations O39 (DamzuArithmetic) and O40 (DamzuMemoryAndVectors): the word at a worker's pc, and what it makes of the worker. -/

namespace Sys2Proof.Machine

theorem sext_toNat {n : Nat} (x : BitVec n) : sext n x.toNat = x.signExtend 64 := by
  rw [sext, BitVec.ofNat_toNat, BitVec.setWidth_eq]

/-! ### Arithmetic (Table 6.6) -/

section
variable {s : State} {i op : Nat} {w : Worker} {p : Prog} {c : Instr} {x : BitVec 64}

theorem makes_rr {d a b : Fin 16} (h : AtWord s i (wordRR op d a b) w p) (hc : exec c s = damzu i (wordRR op d a b) s)
    (ho : 1 ≤ op ∧ op ≤ 12) (hx : aluRR op (getG w a) (getG w b) = x) : Makes c s i w (Gives d x) :=
  hx ▸ hc.trans (rr_gives h ho.1 ho.2)

theorem makes_ri {imm : Nat} {d a : Fin 16} (h : AtWord s i (wordRI op d a imm) w p)
    (hc : exec c s = damzu i (wordRI op d a imm) s) (hi : imm < 2 ^ 18) (ho : 16 ≤ op ∧ op ≤ 24)
    (hx : aluRI op (getG w d) (getG w a) imm = x) : Makes c s i w (Gives d x) :=
  hx ▸ hc.trans (ri_gives h hi ho.1 ho.2)

end

/-- Settles O39: each word by its form, RR or RI, and the line of Table 6.6 that its opcode names. -/
theorem damzuArithmetic : Obligations.DamzuArithmetic := by
  intro s i w p
  refine ⟨fun d a b => ?rr, fun d a => ⟨?ctz, ?popc, fun n h => ?bswap, fun n h => ?shli, fun n h => ?shri⟩, fun d a imm =>
    ⟨fun h => ?addi, fun h => ?andi, fun h => ?ori, fun h => ?sltui, fun h => ?seqi, ?movh⟩⟩
  case rr => and_intros <;> exact fun h => makes_rr h rfl (by decide) rfl
  case ctz | popc => exact fun h => makes_rr (b := 0) h rfl (by decide) rfl
  case bswap | shli | shri => exact makes_ri h rfl (by omega) (by decide) (by simp [aluRI, Nat.mod_eq_of_lt n.isLt])
  case addi | sltui | seqi => exact makes_ri h rfl imm.isLt (by decide) (by simp only [aluRI, sext_toNat])
  case andi | ori => exact makes_ri h rfl imm.isLt (by decide) (by simp only [aluRI, BitVec.ofNat_toNat])
  case movh => exact fun h => makes_ri (a := 0) h rfl imm.isLt (by decide) rfl

/-! ### A word that neither searches nor ends its record -/

/-- What such a word leaves of a worker: its run goes on or ends with trap 1, and it counts no search. -/
def RunsOn (w v : Worker) : Prop := (v.st = w.st ∨ v.st = .trapped 1) ∧ v.searches = w.searches

theorem RunsOn.setG (d : Nat) (x : BitVec 64) (w : Worker) : RunsOn w (setG d x w) := by
  unfold Machine.setG; split <;> exact ⟨.inl rfl, rfl⟩

theorem RunsOn.flowNext {w v : Worker} (h : RunsOn w v) (at_ : Nat) : RunsOn w (flowNext at_ v) := h

theorem RunsOn.aligned {w : Worker} {f : Worker → Worker} (h : RunsOn w (f w)) (off width : Nat) :
    RunsOn w (aligned off width w f) := by
  unfold Machine.aligned
  split
  · exact ⟨.inr rfl, rfl⟩
  · exact h.flowNext w.pc

theorem RunsOn.memOp (p : Prog) (op d vd width addr : Nat) (w : Worker) : RunsOn w (memOp p op d vd width addr w) := by
  have store (m : Cells) : RunsOn w { w with scratch := m } := ⟨.inl rfl, rfl⟩
  have vector (x : BitVec 256) : RunsOn w (setV vd x w) := ⟨.inl rfl, rfl⟩
  unfold Machine.memOp
  extract_lets k c toG toV
  split
  · exact (RunsOn.setG ..).flowNext _
  · exact (RunsOn.setG ..).aligned ..
  · exact (RunsOn.setG ..).aligned ..
  · exact (store _).aligned ..
  · exact (vector _).flowNext _
  · exact (vector _).aligned ..
  · exact (vector _).aligned ..
  · exact (store _).aligned ..

theorem makes_of_perform {s : State} {i word : Nat} {w : Worker} {p : Prog} {c : Instr} {v : Worker → Worker} (h : AtWord s i word w p)
    (hc : exec c s = damzu i word s) (hop : bits word 26 6 ≠ 0x3C)
    (hv : perform s p word { w with count := w.count + 1 } = v { w with count := w.count + 1 })
    (hr : RunsOn { w with count := w.count + 1 } (v { w with count := w.count + 1 })) : Makes c s i w v := by
  obtain ⟨hst, hse⟩ := hr
  refine hc.trans (damzu_makes h hop _ hv (fun he => ?_) hse)
  obtain ⟨-, -, -, hw, -⟩ := h
  rw [he] at hst
  simp [hw] at hst

/-! ### Loads and stores (Table 6.6) -/

theorem aligned_eq (off width : Nat) (w : Worker) (f : Worker → Worker) :
    aligned off width w f = (if off % width = 0 then fun w => flowNext w.pc (f w) else trap 1) w := by
  rw [aligned, ite_apply, ite_not]

theorem bits_wordM {op d a sz off : Nat} (ho : op < 64) (hd : d < 16) (ha : a < 16) (hz : sz < 4) (hf : off < 2 ^ 16) :
    bits (wordM op d a sz off) 26 6 = op ∧ bits (wordM op d a sz off) 22 4 = d ∧ bits (wordM op d a sz off) 18 4 = a ∧
      bits (wordM op d a sz off) 16 2 = sz ∧ bits (wordM op d a sz off) 0 16 = off := by
  unfold bits wordM; and_intros <;> omega

theorem bits_wordVM {op vd a off : Nat} (ho : op < 64) (hd : vd < 4) (ha : a < 16) (hf : off < 2 ^ 16) :
    bits (wordVM op vd a off) 26 6 = op ∧ bits (wordVM op vd a off) 24 2 = vd ∧ bits (wordVM op vd a off) 18 4 = a ∧
      bits (wordVM op vd a off) 0 16 = off := by
  unfold bits wordVM; and_intros <;> omega

theorem bits_wordVV {op vd va vb : Nat} (ho : op < 64) (hd : vd < 4) (ha : va < 4) (hb : vb < 4) :
    bits (wordVV op vd va vb) 26 6 = op ∧ bits (wordVV op vd va vb) 24 2 = vd ∧ bits (wordVV op vd va vb) 22 2 = va ∧
      bits (wordVV op vd va vb) 20 2 = vb := by
  unfold bits wordVV; and_intros <;> omega

theorem perform_memOp (s : State) (p : Prog) {word : Nat} (w : Worker) (h : 0x20 ≤ bits word 26 6 ∧ bits word 26 6 ≤ 0x27) :
    perform s p word w = memOp p (bits word 26 6) (bits word 22 4) (bits word 24 2) (2 ^ bits word 16 2)
      (getG w (bits word 18 4) + sext 16 (bits word 0 16)).toNat w := by
  rw [perform, if_neg (by omega), if_neg (by omega), if_pos h]

section
variable {s : State} {i op : Nat} {w : Worker} {p : Prog} {c : Instr} {v : Worker → Worker} {a : Fin 16} {off : BitVec 16}

/-- Form M: no load or store of G[D] depends on the field of V. -/
theorem makes_m {d : Fin 16} {sz : Fin 4} (h : AtWord s i (wordM op d a sz off.toNat) w p)
    (hc : exec c s = damzu i (wordM op d a sz off.toNat) s) (ho : 0x20 ≤ op ∧ op ≤ 0x27)
    (hv : ∀ vd, memOp p op d vd (2 ^ sz.val) (getG w a + off.signExtend 64).toNat { w with count := w.count + 1 } =
      v { w with count := w.count + 1 }) : Makes c s i w v := by
  obtain ⟨e1, e2, e3, e4, e5⟩ := bits_wordM (op := op) (by omega) d.isLt a.isLt sz.isLt off.isLt
  refine makes_of_perform h hc (by omega) ?_ (hv 0 ▸ RunsOn.memOp ..)
  rw [perform_memOp s p _ (by omega), e1, e2, e3, e4, e5, sext_toNat]
  exact hv _

/-- Form VM: no load or store of V[D] depends on the fields of G[D] and of the width. -/
theorem makes_vm {vd : Fin 4} (h : AtWord s i (wordVM op vd a off.toNat) w p)
    (hc : exec c s = damzu i (wordVM op vd a off.toNat) s) (ho : 0x20 ≤ op ∧ op ≤ 0x27)
    (hv : ∀ d width, memOp p op d vd width (getG w a + off.signExtend 64).toNat { w with count := w.count + 1 } =
      v { w with count := w.count + 1 }) : Makes c s i w v := by
  obtain ⟨e1, e2, e3, e4⟩ := bits_wordVM (op := op) (by omega) vd.isLt a.isLt off.isLt
  refine makes_of_perform h hc (by omega) ?_ (hv 0 0 ▸ RunsOn.memOp ..)
  rw [perform_memOp s p _ (by omega), e1, e2, e3, e4, sext_toNat]
  exact hv ..

end

/-! ### Vectors (Table 6.6) -/

section
variable {s : State} {i op : Nat} {w : Worker} {p : Prog} {c : Instr}

theorem perform_aluVV (s : State) (p : Prog) {word : Nat} (w : Worker) (h : 0x28 ≤ bits word 26 6 ∧ bits word 26 6 ≤ 0x2C) :
    perform s p word w =
      GivesV (bits word 24 2) (aluVV (bits word 26 6) (getV w (bits word 22 2)) (getV w (bits word 20 2))) w := by
  rw [perform, if_neg (by omega), if_neg (by omega), if_neg (by omega), if_pos h]
  rfl

theorem perform_vsplat (s : State) (p : Prog) {word : Nat} (w : Worker) (h : bits word 26 6 = 0x2D) : perform s p word w =
    GivesV (bits word 24 2) (ofBytes 256 (List.replicate 32 ((getG w (bits word 18 4)).setWidth 8))) w := by
  rw [perform, if_neg (by omega), if_neg (by omega), if_neg (by omega), if_neg (by omega), if_pos h]
  rfl

theorem perform_vmask (s : State) (p : Prog) {word : Nat} (w : Worker) (h : bits word 26 6 = 0x2E) :
    perform s p word w = Gives (bits word 22 4) (maskOf (getV w (bits word 20 2))) w := by
  rw [perform, if_neg (by omega), if_neg (by omega), if_neg (by omega), if_neg (by omega), if_neg (by omega), if_pos h]
  simp only [setG_pc]
  rfl

theorem makes_vv {vd va vb : Fin 4} {x : BitVec 256} (h : AtWord s i (wordVV op vd va vb) w p)
    (hc : exec c s = damzu i (wordVV op vd va vb) s) (ho : 0x28 ≤ op ∧ op ≤ 0x2C)
    (hx : aluVV op (getV w va) (getV w vb) = x) : Makes c s i w (GivesV vd x) := by
  obtain ⟨e1, e2, e3, e4⟩ := bits_wordVV (op := op) (by omega) vd.isLt va.isLt vb.isLt
  refine makes_of_perform h hc (by omega) ?_ ⟨.inl rfl, rfl⟩
  rw [perform_aluVV s p _ (by omega), e1, e2, e3, e4, ← hx]
  rfl

theorem makes_vsplat {vd : Fin 4} {a : Fin 16} (h : AtWord s i (wordVM 0x2D vd a 0) w p) :
    Makes (.vsplat i vd a) s i w (GivesV vd (ofBytes 256 (List.replicate 32 ((getG w a).setWidth 8)))) := by
  obtain ⟨e1, e2, e3, -⟩ := bits_wordVM (op := 0x2D) (off := 0) (by omega) vd.isLt a.isLt (by omega)
  refine makes_of_perform h rfl (by omega) ?_ ⟨.inl rfl, rfl⟩
  rw [perform_vsplat s p _ e1, e2, e3]
  rfl

theorem makes_vmask {d : Fin 16} {va : Fin 4} (h : AtWord s i (0x2E * 2 ^ 26 + 2 ^ 22 * d + 2 ^ 20 * va) w p) :
    Makes (.vmask i d va) s i w (Gives d (maskOf (getV w va))) := by
  have e1 : bits (0x2E * 2 ^ 26 + 2 ^ 22 * d + 2 ^ 20 * va) 26 6 = 0x2E := by unfold bits; omega
  have e2 : bits (0x2E * 2 ^ 26 + 2 ^ 22 * d + 2 ^ 20 * va) 22 4 = d := by unfold bits; omega
  have e3 : bits (0x2E * 2 ^ 26 + 2 ^ 22 * d + 2 ^ 20 * va) 20 2 = va := by unfold bits; omega
  refine makes_of_perform h rfl (by omega) ?_ ((RunsOn.setG ..).flowNext _)
  rw [perform_vmask s p _ e1, e2, e3]
  rfl

end

/-- Settles O40: each load and store by its line of `memOp`, each vector instruction by the lemma of its form. -/
theorem damzuMemoryAndVectors : Obligations.DamzuMemoryAndVectors := by
  intro s i w p
  refine ⟨fun a off => ⟨fun d sz => ⟨fun h => ?ldr, fun h => ?ldk, fun h => ?lds, fun h => ?sts⟩, fun vd =>
    ⟨fun h => ?vldr, fun h => ?vldk, fun h => ?vlds, fun h => ?vsts⟩⟩, fun vd va vb => ?vv, fun _ _ => makes_vsplat, fun _ _ => makes_vmask⟩
  case vv => and_intros <;> exact fun h => makes_vv h rfl (by decide) rfl
  case ldr => exact makes_m h rfl (by decide) fun _ => rfl
  case vldr => exact makes_vm h rfl (by decide) fun _ _ => rfl
  case ldk | lds => exact makes_m h rfl (by decide) fun _ => aligned_eq ..
  case vldk | vlds => exact makes_vm h rfl (by decide) fun _ _ => aligned_eq ..
  case sts => exact makes_m h rfl (by decide) fun _ => by simp only [memOp, aligned_eq]
  case vsts => exact makes_vm h rfl (by decide) fun _ _ => by simp only [memOp, aligned_eq]

end Sys2Proof.Machine

/-! Obligations O15 (ProgramsLoadAndUnload) and O16 (ScanRunsTheRecords): programs come and go, and run over records. -/

namespace Sys2Proof.Machine

/-! ### A program is loaded (R197, R198) -/

/-- The bytes that PROGRAM_LOAD reads: at most the longest container (R193). -/
def containerRead (s : State) (n : Nat) (p : List Byte) : List Byte := gather s n p 0 (min (pkBufLen p) 131400)

section
variable {s : State} {n k : Nat} {p : List Byte}

theorem programLoad_badHeader {r o : Nat} (h : verifyHeader (containerRead s n p) (pkBufLen p) = some (r, o)) :
    programLoad n p k s = finishWith k stProgramFault r o s := by
  rw [programLoad, ← containerRead, h]

/-- R195: a container that must be signed and is not. -/
theorem programLoad_unsigned (h : verifyHeader (containerRead s n p) (pkBufLen p) = none)
    (hr : (bit (field p 36 4) 0 || progSigReq s) = true) (hs : bit (field (containerRead s n p) 6 2) 0 = false) :
    programLoad n p k s = authFailed k s := by
  rw [programLoad, ← containerRead, h, hr, hs]
  rfl

theorem storeProgram_gen (n slot : Nat) (c : List Byte) (s : State) :
    Tbl.getD (storeProgram n slot c s).dmz.progGens slot 1 = nextGen s.dmz.progGens slot (2 ^ 24) := by
  rw [storeProgram, Tbl.getD, Tbl.get?_set, if_pos rfl, Option.getD_some]

theorem storeProgram_only {slot : Nat} {c : List Byte} : OnlyIn [.dmz] s (storeProgram n slot c s) :=
  fun x hx => storeProgram_get n slot c s x hx

/-- An unsigned container that passes takes the lowest free slot; the handle holds the slot and its generation. -/
theorem programLoad_stored {slot : Nat} (h : verifyHeader (containerRead s n p) (pkBufLen p) = none)
    (hr : (bit (field p 36 4) 0 || progSigReq s) = false) (hs : bit (field (containerRead s n p) 6 2) 0 = false)
    (hv : verifyCode s n (containerRead s n p) = none) (hf : Tbl.lowestFree s.dmz.progs 0 256 = some slot)
    (hn : Tbl.countIf s.dmz.progs (fun _ x => x.inst == n) < 16) :
    programLoad n p k s = finishWith k stOk (slot + nextGen s.dmz.progGens slot (2 ^ 24) * 256) 0
      (storeProgram n slot (containerRead s n p) s) := by
  rw [← storeProgram_gen n slot (containerRead s n p) s, programLoad, ← containerRead, h, hr, hs, hv, hf]
  exact if_neg (Nat.not_le.mpr hn)

end

theorem exec_programLoad {s : State} {inst : Fin 64} {tag : Fin 256} {g : Tag} (h : Working opProgramLoad s (tagKey inst tag) g)
    (hp : pkServes s = true) : exec (.programLoad inst tag) s = .next (programLoad inst g.packet (tagKey inst tag) s) := by
  show execProgramLoad inst tag s = _
  rw [execProgramLoad, h.next hp]

/-! ### A program is given up (R199) -/

section
variable {s : State} {p : List Byte} {k : Nat}

theorem freeProgram_only {slot : Nat} : OnlyIn [.dmz] s (freeProgram slot s) := fun x hx => freeProgram_get slot s x hx

theorem programUnload_unused (h : inUse s (.program (pkHandle p % 256)) = false) :
    programUnload p k s = finishWith k stOk 0 0 (freeProgram (pkHandle p % 256) s) :=
  if_neg (by rw [h]; exact Bool.false_ne_true)

theorem programUnload_used (h : inUse s (.program (pkHandle p % 256)) = true) : programUnload p k s =
    modTag k (fun t => { t with work := .lastUser }) { s with dmz := { s.dmz with
      progs := Tbl.modify s.dmz.progs (pkHandle p % 256) (fun x => { x with st := .unloading, unloadTag := some k }) } } := if_pos h

end

theorem exec_programUnload {s : State} {inst : Fin 64} {tag : Fin 256} {g : Tag} (h : Working opProgramUnload s (tagKey inst tag) g) :
    exec (.programUnload inst tag) s = .next (programUnload g.packet (tagKey inst tag) s) := by
  show execProgramUnload inst tag s = _
  rw [execProgramUnload, h.next rfl]

/-- What a reply leaves, in the order in which the statements about programs speak of it. -/
theorem Replies.completes {c : Instr} {s : State} {k status r0 r1 : Nat} {ps : List Part} {P : State → Prop}
    (h : Replies c s k status r0 r1 ps P) :
    Completes c s fun t => Ended t k status r0 r1 ∧ P t ∧ OtherTags k s t ∧ OnlyIn (.tags :: .locks :: .units :: ps) s t := by
  obtain ⟨t, e, ended, others, only, hp⟩ := h
  exact ⟨t, e, ended, hp, others, only⟩

theorem authFailed_sec (k : Nat) (s : State) :
    (authFailed k s).sec = { s.sec with authFail := satInc s.sec.authFail 0xFFFF } := finishWith_get _ _ _ _ _ .sec (by decide)

theorem finishWith_dmz (k status r0 r1 : Nat) (s : State) : (finishWith k status r0 r1 s).dmz = s.dmz :=
  finishWith_get k status r0 r1 s .dmz (by decide)

/-- Settles O15: a load by what its checks make of the container, an unload by whether the program has users. -/
theorem programsLoadAndUnload : Obligations.ProgramsLoadAndUnload := by
  refine ⟨?load, ?unused, ?used⟩
  case load =>
    intro s inst tag g hw hp
    have e := exec_programLoad hw hp
    refine ⟨fun r o hr => ?badHeader, fun hh hr hs => ?unsigned, fun slot hh hr hs hv hf hn => ?stored⟩
    case badHeader =>
      obtain ⟨t, e, ended, others, only, -⟩ :=
        hw.repliesWith (P := fun _ => True) (e.trans (congrArg _ (programLoad_badHeader hr))) (OnlyIn.refl [] s) (by decide) trivial
      exact ⟨t, e, ended, others, only⟩
    case unsigned =>
      exact (hw.repliesWith (ps := [.sec]) (e.trans (congrArg _ (programLoad_unsigned hh hr hs)))
        (fun x hx => State.get_with_sec s _ x (by simpa using hx)) (by decide)
        (authFailed_sec ..)).completes
    case stored =>
      exact (hw.repliesWith (e.trans (congrArg _ (programLoad_stored hh hr hs hv hf hn))) storeProgram_only (by decide)
        (finishWith_dmz ..)).completes
  case unused =>
    intro s inst tag g hw hu
    exact (hw.repliesWith ((exec_programUnload hw).trans (congrArg _ (programUnload_unused hu))) freeProgram_only (by decide)
      (finishWith_dmz ..)).completes
  case used =>
    intro s inst tag g hw hu
    refine ⟨_, (exec_programUnload hw).trans (congrArg _ (programUnload_used hu)), ?waits, rfl, ?others, ?frame⟩
    case waits => rw [modTag_get?, if_pos rfl, hw.tag]; rfl
    case others => intro j hj; rw [modTag_get?, if_neg hj]
    case frame =>
      intro x hx
      simp at hx
      simp [hx]

/-! ### A scan of plain blocks (R214 to R220) -/

/-- The state in which a scan whose output is not sealed has delivered it. -/
def scanDelivered (n : Nat) (p : List Byte) (k : Nat) (r : ScanRun) (s : State) : State :=
  deliver n p 0 (r.gather.stream ++ trailer r)
    (dropWorkers k (bumpFresh { s with idx := { s.idx with searches := s.idx.searches + r.searches } }))

/-- That state, with the block that could not be read counted. -/
def scanCounted (n : Nat) (p : List Byte) (k : Nat) (i : ScanIn) (r : ScanRun) (s : State) : State :=
  if i.bytes.length < i.total ∧ r.how = .media then countUnit i.status (scanDelivered n p k r s) else scanDelivered n p k r s

/-- The reply of a scan (Tables 6.11 and 6.12). -/
def scanReply (i : ScanIn) (r : ScanRun) : Reply :=
  { status := scanStatus i r.how, r0 := (scanWords r (r.gather.stream ++ trailer r).length).1
    r1 := (scanWords r (r.gather.stream ++ trailer r).length).2, truncated := r.how == .truncated }

theorem endScan_plain (n : Nat) (p : List Byte) (k : Nat) {c : ScanSet} (i : ScanIn) (s : State) (hc : c.header = true) :
    endScan n p k c i none s = endAsset k (scanReply i (runScan s c i)) (scanCounted n p k i (runScan s c i) s) := by
  simp only [endScan, hc, if_true]
  rfl

section
variable (n : Nat) (p : List Byte) (k : Nat) (i : ScanIn) (r : ScanRun) (s : State)

theorem scanCounted_get_delivered (x : Part) (hx : x ∉ [Part.bsh, Part.sec]) :
    (scanCounted n p k i r s).get x = (scanDelivered n p k r s).get x := by
  rw [scanCounted, State.get_ite, countUnit_get _ _ x hx, ite_self]

theorem scanCounted_get (x : Part) (hx : x ∉ [Part.mgr, .hostMem, .dmz, .fresh, .idx, .bsh, .sec]) :
    (scanCounted n p k i r s).get x = s.get x := by
  simp at hx
  rw [scanCounted_get_delivered _ _ _ _ _ _ x (by simp [hx])]
  simp [scanDelivered, hx]

theorem scanCounted_idx : (scanCounted n p k i r s).idx = { s.idx with searches := s.idx.searches + r.searches } :=
  idx_of_get ((scanCounted_get_delivered _ _ _ _ _ _ .idx (by decide)).trans (deliver_get _ _ _ _ _ .idx (by decide)))

theorem scanCounted_hostMem : (scanCounted n p k i r s).hostMem = (deliver n p 0 (r.gather.stream ++ trailer r) s).hostMem :=
  (hostMem_of_get (scanCounted_get_delivered _ _ _ _ _ _ .hostMem (by decide))).trans (deliver_congr _ _ _ _ _ _ rfl rfl)

end

/-- The input of a plain scan (R215, R216): the blocks of the range, but none of a unit that has failed a stage. -/
def plainReader (s : State) (k : Nat) (p : List Byte) (lost crcFail : List Nat) : Reader := fun i =>
  if unitStatus s k ((pkLba p + i) / 8 - pkLba p / 8) ≠ stOk then (unitStatus s k ((pkLba p + i) / 8 - pkLba p / 8), [])
  else volumeReader s p lost crcFail i

theorem exec_scan_plain {s : State} {inst : Fin 64} {tag : Fin 256} {lost crcFail again : List Nat} {g : Tag} {x : Prog} {bs : List Byte}
    {st : Nat} (h : Working opScan s (tagKey inst tag) g) (hl : lockHeld s (tagKey inst tag) = true) (hm : mayWrite s inst = true)
    (hu : scanUnitsRun s (pkHandle g.packet) = true) (hx : progAt s (pkHandle g.packet) = some x)
    (hf : firstWrong (scanFields g.packet) = none) (hp : field g.packet 48 4 = 0) (hs : pkSeal g.packet = false)
    (hb : 128 ≤ pkBufLen g.packet)
    (hin : plainInput (plainReader s (tagKey inst tag) g.packet lost crcFail) 0 (pkLength g.packet) = (bs, st)) :
    exec (.scan inst tag lost crcFail again) s = .next (endScan inst g.packet (tagKey inst tag)
      (scanSet s inst (tagKey inst tag) g.packet x) { bytes := bs, total := pkLength g.packet * 4096, status := st } none
      (countHostRead (bs.length / 4096) s)) := by
  have unsealed : sealCheck s inst 0 g.packet = .ok none := by simp [sealCheck, hs]
  have buffer : scanBufferOk g.packet 160 = true := by simp [scanBufferOk, hs, hb]
  show execScan inst tag lost crcFail again s = _
  simp only [execScan, h.tag]
  rw [h.next (by simp [hl, hm, hu])]
  unfold plainReader at hin
  simp only [scanDone, hx, hf, hp, unsealed, buffer, beq_self_eq_true, Bool.not_true, Bool.false_eq_true, if_false, if_true, hin]

/-! ### A worker enters a record (R202, R203, R217) -/

/-- The worker that enters a record of command `k`: its scratch is what it held for that command (R203). -/
def workerAtEntry (s : State) (worker n k m start : Nat) (c : ScanSet) (record : List Byte) : Worker :=
  enterRecord n k c.slot m start c.budget record (match Tbl.get? s.dmz.workers worker with
    | some w => if w.tag = k then w.scratch else []
    | none => [])

theorem exec_recordEntry {s : State} {worker : Nat} {inst : Fin 64} {tag : Fin 256} {n start len : Nat} {g : Tag} {c : ScanSet} {i : ScanIn}
    (hg : Tbl.get? s.tags (tagKey inst tag) = some g) (hr : g.st = .running) (hw : g.work = .working) (hs : serving s = true)
    (hl : lockHeld s (tagKey inst tag) = true) (ha : abortComing s (tagKey inst tag) = false)
    (hi : recordInput s inst (tagKey inst tag) g.packet = some (c, i)) (hn : recordAt c.framing c.arg i n 0 = some (start, len))
    (hf : workerFree s worker (tagKey inst tag) n = true) :
    exec (.recordEntry worker inst tag n) s = .next { s with dmz := { s.dmz with
      workers := Tbl.set s.dmz.workers worker
        (workerAtEntry s worker inst (tagKey inst tag) n start c (bytesAt i.bytes start len)) } } := by
  show execRecordEntry worker inst tag n s = _
  simp only [execRecordEntry, hg, hi, hn, act, hr, hw, hs, hl, ha, hf, beq_self_eq_true, Bool.not_false, Bool.and_self, if_true]
  rfl

/-- Settles O16: a plain scan ends over what it has delivered and counted; a record's entry sets its worker. -/
theorem scanRunsTheRecords : Obligations.ScanRunsTheRecords := by
  refine ⟨?scan, ?entry⟩
  case scan =>
    intro s inst tag lost crcFail again g x bs st hw hl hm hu hx hf hp hs hb hin c i r
    have e := exec_scan_plain (again := again) hw hl hm hu hx hf hp hs hb hin
    rw [endScan_plain _ _ _ _ _ rfl] at e
    have hget (y : Part) (hy : y ∉ [Part.bsh, Part.sec, Part.tags, Part.locks, Part.units]) := endAsset_get (tagKey inst tag)
      (scanReply i r) (scanCounted inst g.packet (tagKey inst tag) i r (countHostRead (bs.length / 4096) s)) y hy
    obtain ⟨ended, others⟩ := hw.endAsset (u := scanCounted inst g.packet (tagKey inst tag) i r (countHostRead (bs.length / 4096) s))
      (tags_of_get (scanCounted_get _ _ _ _ _ _ .tags (by decide))) (scanReply i r)
    refine ⟨_, e, ended, ?memory, ?counter, ?searches, others, ?frame⟩
    case memory =>
      exact (hostMem_of_get (hget .hostMem (by decide))).trans ((scanCounted_hostMem ..).trans (deliver_congr _ _ _ _ _ _ rfl rfl))
    case counter =>
      rw [flc_of_get ((hget .flc (by decide)).trans (scanCounted_get _ _ _ _ _ _ .flc (by decide)))]
      rfl
    case searches => exact (idx_of_get (hget .idx (by decide))).trans (scanCounted_idx ..)
    case frame =>
      intro y hy
      simp at hy
      rw [hget y (by simp [hy]), scanCounted_get _ _ _ _ _ _ y (by simp [hy]), countHostRead_get _ _ y (by simp [hy])]
  case entry =>
    intro s worker inst tag n start len g c i hg hr hw hs hl ha hi hn hf
    refine ⟨_, exec_recordEntry hg hr hw hs hl ha hi hn hf,
      ⟨workerAtEntry s worker inst (tagKey inst tag) n start c (bytesAt i.bytes start len), ?set, rfl, rfl, rfl, rfl, rfl, rfl, rfl, rfl, rfl, rfl⟩, ?others, ?frame⟩
    case set => exact (Tbl.get?_set ..).trans (if_pos rfl)
    case others => exact fun j hj => (Tbl.get?_set ..).trans (if_neg hj)
    case frame => exact fun y hy => State.get_with_dmz s _ y (by simpa using hy)

end Sys2Proof.Machine

/-! Obligations O18 (IndexSearchFindsTheFirstMatch), O19 (IndexStepsInsertsDeletes) and O20 (IndexTablesAndIntegrity): the index unit. -/

namespace Sys2Proof.Machine

/-! ### The order of R230 -/

theorem firstMatch_eq_none {ms : List (Nat × Nat)} : firstMatch ms = none ↔ ms = [] := by
  cases ms with
  | nil => simp [firstMatch]
  | cons a t => cases h : firstMatch t <;> simp [firstMatch, h]

theorem firstMatch_mem {ms : List (Nat × Nat)} {m : Nat × Nat} (h : firstMatch ms = some m) : m ∈ ms := by
  induction ms generalizing m with
  | nil => simp [firstMatch] at h
  | cons a t ih =>
    cases ht : firstMatch t with
    | none => simp_all [firstMatch]
    | some b =>
      simp only [firstMatch, ht, Option.some.injEq] at h
      split at h
      · exact h ▸ List.mem_cons_self
      · exact h ▸ List.mem_cons_of_mem a (ih ht)

/-- `a` does not come after `b` in the order of R230. -/
def NotAfter (a b : Nat × Nat) : Prop := a.1 < b.1 ∨ (a.1 = b.1 ∧ a.2 ≤ b.2)

theorem NotAfter.refl (a : Nat × Nat) : NotAfter a a := .inr ⟨rfl, le_rfl⟩

theorem NotAfter.trans {a b c : Nat × Nat} (h : NotAfter a b) (h' : NotAfter b c) : NotAfter a c := by
  unfold NotAfter at *; omega

theorem notAfter_of_before {a b : Nat × Nat} (h : matchBefore a b = true) : NotAfter a b := by
  simp only [matchBefore, decide_eq_true_eq] at h
  unfold NotAfter; omega

theorem notAfter_of_not_before {a b : Nat × Nat} (h : ¬ matchBefore a b = true) : NotAfter b a := by
  simp only [matchBefore, decide_eq_true_eq] at h
  unfold NotAfter; omega

theorem firstMatch_notAfter {ms : List (Nat × Nat)} {m b : Nat × Nat} (h : firstMatch ms = some m) (hb : b ∈ ms) : NotAfter m b := by
  induction ms generalizing m with
  | nil => simp at hb
  | cons a t ih =>
    cases ht : firstMatch t with
    | none =>
      obtain rfl := firstMatch_eq_none.mp ht
      obtain rfl : a = m := by simpa [firstMatch] using h
      obtain rfl : b = a := by simpa using hb
      exact .refl _
    | some d =>
      simp only [firstMatch, ht, Option.some.injEq] at h
      rw [← h]
      split
      case isTrue hd =>
        obtain rfl | hb := List.mem_cons.mp hb
        · exact .refl _
        · exact (notAfter_of_before hd).trans (ih ht hb)
      case isFalse hd =>
        obtain rfl | hb := List.mem_cons.mp hb
        · exact notAfter_of_not_before hd
        · exact ih ht hb

/-! ### A command of the unit ends -/

theorem exec_becomes {c : Instr} {s u v : State} (e : exec c s = .next u) (h : u = v) : exec c s = .next v := h ▸ e

theorem finishWith_idx (k status r0 r1 : Nat) (s : State) : (finishWith k status r0 r1 s).idx = s.idx :=
  finishWith_get k status r0 r1 s .idx (by decide)

/-- A command ends over a state that differs from `s` in the index unit alone. -/
theorem Working.repliesIdx {op k status r0 r1 : Nat} {s : State} {g : Tag} {c : Instr} {x : Idx} (h : Working op s k g)
    (e : exec c s = .next (finishWith k status r0 r1 { s with idx := x })) :
    Replies c s k status r0 r1 [.idx] fun t => t.idx = x :=
  h.repliesWith e (fun y hy => State.get_with_idx s x y (by simpa using hy)) (by decide) (finishWith_idx ..)

/-! ### A search takes a cursor (R233) -/

theorem reserveCursor_state (n : Nat) (s : State) : (reserveCursor n s).2 = s ∨ ∃ c, (reserveCursor n s).2 = freeCursor c s := by
  simp only [reserveCursor]
  split
  · exact .inl rfl
  · split
    · exact .inr ⟨_, rfl⟩
    · split
      · exact .inr ⟨_, rfl⟩
      · exact .inl rfl

theorem takeCursor_keeps (n tb key : Nat) (m : Nat × Nat) (k : Nat) (s : State) :
    (takeCursor n tb key m k s).2.idx.entries = s.idx.entries ∧ (takeCursor n tb key m k s).2.idx.tables = s.idx.tables := by
  have h : (reserveCursor n s).2.idx.entries = s.idx.entries ∧ (reserveCursor n s).2.idx.tables = s.idx.tables := by
    obtain h | ⟨c, h⟩ := reserveCursor_state n s <;> rw [h] <;> exact ⟨rfl, rfl⟩
  exact h

/-- The value that names the cursor taken, and the cursor: at the match, and not live. -/
theorem takeCursor_cursor (n tb key : Nat) (m : Nat × Nat) (k : Nat) (s : State) :
    ∃ c gen, (takeCursor n tb key m k s).1 = c + 4096 * gen ∧
      Tbl.get? (takeCursor n tb key m k s).2.idx.cursors c = some {
        gen := gen, live := false, table := tb, key := key, inst := n, prio := m.1, index := m.2, used := s.now
        stepTag := some k, next := none } := by
  have now : (reserveCursor n s).2.now = s.now := reserveCursor_get n s .now (by decide)
  refine ⟨_, _, rfl, ?_⟩
  rw [← now]
  exact (Tbl.get?_set ..).trans (if_pos rfl)

/-! ### INDEX_SEARCH (R229 to R233) -/

section
variable {s : State} {n tb k : Nat} {x : ITable} {p : List Byte}

theorem searchDone_none (err : Bool) (h : matchesOf s tb x (pkKey p) = []) :
    searchDone n err tb x p k s = finishWith k stOk 0 0 (countSearch s) := by
  have e : matchesOf (countSearch s) tb x (pkKey p) = [] := h
  simp only [searchDone, e, firstMatch]

theorem searchDone_one {m : Nat × Nat} (h : matchesOf s tb x (pkKey p) = [m]) : searchDone n false tb x p k s =
    finishWith k stOk (matchWords s m 1 0).1 (matchWords s m 1 0).2 (countSearch s) := by
  have e : matchesOf (countSearch s) tb x (pkKey p) = [m] := h
  simp only [searchDone, e, firstMatch, List.length_singleton, if_true]
  rfl

theorem searchDone_many {m : Nat × Nat} (hl : 1 < (matchesOf s tb x (pkKey p)).length)
    (hm : firstMatch (matchesOf s tb x (pkKey p)) = some m) : searchDone n false tb x p k s =
      (let c := takeCursor n tb (pkKey p) m k (countSearch s)
       let w := matchWords c.2 m (matchesOf s tb x (pkKey p)).length c.1
       finishWith k stOkMulti w.1 w.2 c.2) := by
  have e : matchesOf (countSearch s) tb x (pkKey p) = matchesOf s tb x (pkKey p) := rfl
  simp [searchDone, e, hm, indexRepair, hl.ne']

end

theorem entryData_congr {s t : State} (h : t.idx.entries = s.idx.entries) (i : Nat) : entryData t i = entryData s i := by
  simp only [entryData, h]

theorem exec_indexSearch {s : State} {inst : Fin 64} {tag : Fin 256} {g : Tag} {tb : Nat} {x : ITable}
    (h : IndexWorking opIndexSearch s (tagKey inst tag) g tb x) (err : Bool) :
    exec (.indexSearch inst tag err) s = .next (searchDone inst err tb x g.packet (tagKey inst tag) s) := by
  show indexWork opIndexSearch inst tag (fun _ => true) s (searchDone inst err) = _
  exact h.next rfl

/-- Settles O18: the ends of a search by the number of its matches, and the order of the first. -/
theorem indexSearchFindsTheFirstMatch : Obligations.IndexSearchFindsTheFirstMatch := by
  refine ⟨?none, ?one, ?many, fun ms m h => ⟨firstMatch_mem h, fun b hb => firstMatch_notAfter h hb⟩⟩
  case none =>
    intro s inst tag err g tb x h hm
    exact h.1.repliesIdx (exec_becomes (exec_indexSearch h err) (searchDone_none err hm))
  case one =>
    intro s inst tag g tb x prio i h hm
    exact h.1.repliesIdx (exec_becomes (exec_indexSearch h false) (searchDone_one hm))
  case many =>
    intro s inst tag g tb x m h hl hm
    obtain ⟨c, gen, hv, hc⟩ := takeCursor_cursor inst tb (pkKey g.packet) m (tagKey inst tag) (countSearch s)
    obtain ⟨he, ht⟩ := takeCursor_keeps inst tb (pkKey g.packet) m (tagKey inst tag) (countSearch s)
    have e := exec_becomes (exec_indexSearch h false) (searchDone_many hl hm)
    simp only [matchWords, hv, entryData_congr he] at e
    refine ⟨c, gen, h.1.repliesWith e (fun y hy => ?_) (by decide) ?_⟩
    · rw [takeCursor_get _ _ _ _ _ _ y hy, countSearch_get s y hy]
    · rw [finishWith_idx]
      exact ⟨he, ht, hc⟩

/-! ### INDEX_STEP (R234) -/

/-- The matches after the position of a cursor. -/
def matchesAfter (s : State) (tb : Nat) (x : ITable) (c : Cursor) : List (Nat × Nat) :=
  (matchesOf s tb x c.key).filter (fun m => matchBefore (c.prio, c.index) m)

section
variable {s : State} {n k : Nat} {x : ITable} {p : List Byte} {c : Cursor} (hc : cursorOf s n (field p 36 2) = some c)
include hc

theorem stepDone_none (h : matchesAfter s c.table x c = []) : stepDone n false c.table x p k s =
    finishWith k stOk 0 0 (stepCursor (field p 36 2 % 4096) k none (countSearch s)) := by
  have e : (matchesOf (countSearch s) c.table x c.key).filter (fun m => matchBefore (c.prio, c.index) m) = [] := h
  simp only [stepDone, hc, ne_eq, not_true_eq_false, if_false, e, firstMatch]

theorem stepDone_one {m : Nat × Nat} (h : matchesAfter s c.table x c = [m]) : stepDone n false c.table x p k s =
    finishWith k stOk (matchWords s m 1 0).1 (matchWords s m 1 0).2 (stepCursor (field p 36 2 % 4096) k none (countSearch s)) := by
  have e : (matchesOf (countSearch s) c.table x c.key).filter (fun m => matchBefore (c.prio, c.index) m) = [m] := h
  simp only [stepDone, hc, ne_eq, not_true_eq_false, if_false, e, firstMatch]
  rfl

theorem stepDone_many {m : Nat × Nat} (hl : 1 < (matchesAfter s c.table x c).length)
    (hm : firstMatch (matchesAfter s c.table x c) = some m) : stepDone n false c.table x p k s =
      (let w := matchWords s m (matchesAfter s c.table x c).length (field p 36 2)
       finishWith k stOkMulti w.1 w.2 (stepCursor (field p 36 2 % 4096) k (some m) (countSearch s))) := by
  have e : (matchesOf (countSearch s) c.table x c.key).filter (fun m => matchBefore (c.prio, c.index) m) =
    matchesAfter s c.table x c := rfl
  simp only [stepDone, hc, ne_eq, not_true_eq_false, if_false, e, hm, if_neg hl.ne']
  rfl

end

theorem exec_indexStep {s : State} {inst : Fin 64} {tag : Fin 256} {g : Tag} {tb : Nat} {x : ITable}
    (h : IndexWorking opIndexStep s (tagKey inst tag) g tb x) (hp : stepPending s g.packet = false) :
    exec (.indexStep inst tag false) s = .next (stepDone inst false tb x g.packet (tagKey inst tag) s) := by
  show indexWork opIndexStep inst tag (fun p => !stepPending s p) s (stepDone inst false) = _
  exact h.next (by simp [hp])

/-! ### INDEX_INSERT (R236) -/

/-- What `place` answers holds the new entry at the index taken. -/
theorem place_entry {tb i : Nat} {x : ITable} {e : IEntry} {s u : State} {moved : Bool} (h : place tb x e s = some (i, moved, u)) :
    Tbl.get? u.idx.entries i = some e := by
  have put (j : Nat) (v : State) : Tbl.get? (putEntry j e v).idx.entries j = some e := (Tbl.get?_set ..).trans (if_pos rfl)
  simp only [place] at h
  split at h
  · cases h; exact put ..
  · split at h
    · cases h
    · cases h; exact put ..

/-- The entry that an INDEX_INSERT writes. -/
def newEntry (tb : Nat) (x : ITable) (p : List Byte) : IEntry :=
  { table := tb, key := pkKey p, tag := keyTag8 x (pkKey p), prio := field p 58 2, data := field p 52 6 }

section
variable {s : State} {tb k : Nat} {x : ITable} {p : List Byte} (hk : pkKey p < 2 ^ x.keyBits)
include hk

theorem insertDone_same {i : Nat} {o : IEntry} (h : sameEntry s tb (pkKey p) (field p 58 2) = some (i, o)) :
    insertDone tb x p k s = finishWith k stOk i (tableFree s tb x) (putEntry i { o with data := field p 52 6 } s) := by
  simp only [insertDone, if_neg hk.not_ge, h]

theorem insertDone_placed {i : Nat} {moved : Bool} {u : State} (h : sameEntry s tb (pkKey p) (field p 58 2) = none)
    (hp : place tb x (newEntry tb x p) s = some (i, moved, u)) :
    insertDone tb x p k s = finishWith k stOk i (tableFree u tb x) (noteMoved k moved u) := by
  simp only [newEntry] at hp
  simp only [insertDone, if_neg hk.not_ge, h, hp]

theorem insertDone_full (h : sameEntry s tb (pkKey p) (field p 58 2) = none) (hp : place tb x (newEntry tb x p) s = none) :
    insertDone tb x p k s = finishWith k stBadRange 0 0 s := by
  simp only [newEntry] at hp
  simp only [insertDone, if_neg hk.not_ge, h, hp]

end

theorem exec_indexInsert {s : State} {inst : Fin 64} {tag : Fin 256} {g : Tag} {tb : Nat} {x : ITable}
    (h : IndexWorking opIndexInsert s (tagKey inst tag) g tb x) :
    exec (.indexInsert inst tag) s = .next (insertDone tb x g.packet (tagKey inst tag) s) := by
  show indexWork opIndexInsert inst tag (fun _ => true) s insertDone = _
  exact h.next rfl

/-- The note of `noteMoved` is on the tag that ends, and changes nothing of its end. -/
theorem Working.repliesNoted {op k status r0 r1 : Nat} {s u : State} {g : Tag} {c : Instr} {moved : Bool} {ps : List Part}
    {P : State → Prop} (h : Working op s k g) (e : exec c s = .next (finishWith k status r0 r1 (noteMoved k moved u)))
    (hu : OnlyIn ps s u) (ht : Part.tags ∉ ps) (hp : P (finishWith k status r0 r1 (noteMoved k moved u))) :
    Replies c s k status r0 r1 ps P := by
  have tags : u.tags = s.tags := hu .tags ht
  have noted : Tbl.get? (noteMoved k moved u).tags k = some { g with cursor := b2n moved } := by
    rw [noteMoved, modTag_get?, if_pos rfl, tags, h.tag, Option.map_some]
  refine ⟨_, e, Machine.finish_ended _ _ _ _ noted (by simp [h.running]), fun j hj => ?others, fun y hy => ?frame, hp⟩
  case others => rw [finishWith, finish_others _ _ _ j hj, noteMoved, modTag_get?, if_neg hj, tags]
  case frame =>
    simp only [List.mem_cons, not_or] at hy
    rw [finishWith_get _ _ _ _ _ _ (by simp [hy]), noteMoved_get _ _ _ _ (by simp [hy]), hu y hy.2.2.2]

/-! ### INDEX_DELETE (R239) -/

theorem Working.repliesDeleted {op k tb : Nat} {s : State} {g : Tag} {c : Instr} {f : IEntry → Bool} (h : Working op s k g)
    (e : exec c s = .next (deleteEntries tb f k s)) :
    Replies c s k stOk (Tbl.countIf (s.idx.entries.filter (fun p => p.2.table == tb)) (fun _ e => f e)) 0 [.idx] fun t =>
      t.idx = { s.idx with entries := s.idx.entries.filter (fun p => !(p.2.table == tb && f p.2)) } :=
  h.repliesIdx e

section
variable {s : State} {inst : Fin 64} {tag : Fin 256} {g : Tag} {tb : Nat} {x : ITable}
  (h : IndexWorking opIndexDelete s (tagKey inst tag) g tb x)
include h

theorem exec_indexDeleteEntry (hm : field g.packet 54 1 = 0) : exec (.indexDeleteEntry inst tag) s =
    .next (deleteEntries tb (fun e => e.key == pkKey g.packet && e.prio == field g.packet 52 2) (tagKey inst tag) s) := by
  show execIndexDeleteEntry inst tag s = _
  exact h.next (by simp [hm])

theorem exec_indexDeleteKey (hm : field g.packet 54 1 = 1) : exec (.indexDeleteKey inst tag) s =
    .next (if field g.packet 52 2 ≠ 0 then badField (tagKey inst tag) 52 s
      else deleteEntries tb (fun e => e.key == pkKey g.packet) (tagKey inst tag) s) := by
  show execIndexDeleteKey inst tag s = _
  exact h.next (by simp [hm])

end

/-- Settles O19: a step by the matches left, an insert by what it finds, a delete by its MODE. -/
theorem indexStepsInsertsDeletes : Obligations.IndexStepsInsertsDeletes := by
  refine ⟨?step, ?insert, ?delete⟩
  case step =>
    intro s inst tag g tb x c h hp hc ht later moved
    subst ht
    have e := exec_indexStep h hp
    refine ⟨fun hl => ?none, fun m hl => ?one, fun m hl hm => ?many⟩
    case none => exact h.1.repliesIdx (exec_becomes e (stepDone_none hc hl))
    case one => exact h.1.repliesIdx (exec_becomes e (stepDone_one hc hl))
    case many => exact h.1.repliesIdx (exec_becomes e (stepDone_many hc hl hm))
  case insert =>
    intro s inst tag g tb x h hk entry
    have e := exec_indexInsert h
    refine ⟨fun i o hs => ?same, fun i moved u hs hp => ?placed, fun hs hp => ?full⟩
    case same => exact h.1.repliesIdx (exec_becomes e (insertDone_same hk hs))
    case placed =>
      refine h.1.repliesNoted (exec_becomes e (insertDone_placed hk hs hp))
        (fun y hy => place_get _ _ _ _ _ _ _ y hy hp) (by decide) ?_
      rw [finishWith_idx]
      exact ⟨rfl, (place_entry hp :)⟩
    case full => exact h.1.repliesWith (exec_becomes e (insertDone_full hk hs hp)) (.refl [] s) (by decide) trivial
  case delete =>
    intro s inst tag g tb x h one all_
    refine ⟨fun hm => h.1.repliesDeleted (exec_indexDeleteEntry h hm), fun hm h0 => ?key, fun hm h0 => ?wrong⟩
    case key => exact h.1.repliesDeleted (exec_becomes (exec_indexDeleteKey h hm) (if_neg (not_not.mpr h0)))
    case wrong => exact h.1.repliesWith (exec_becomes (exec_indexDeleteKey h hm) (if_pos h0)) (.refl [] s) (by decide) trivial

/-! ### Table requests (R245) -/

theorem tblCmd_answered {fn : Nat} {s : State} {f : State → State} (ha : bar0Answers s fn 0xD024 = true) (hr : s.idx.req = none) :
    tblCmd fn s f = .next (f s) := by simp [tblCmd, act, ha, hr]

/-- A create that finds all it needs takes the number, the run of indexes, and a generation. -/
theorem createTable_made {s : State} {x : ITable} {tb base : Nat} (hx : cfgTable s.idx.cfg = some x)
    (ht : Tbl.lowestFree s.idx.tables 0 256 = some tb) (hb : lowestBase s.idx.tables x.size = some base) :
    ∃ gen, createTable s = { s with idx := { s.idx with
      tables := Tbl.set s.idx.tables tb { x with base := base, gen := gen }, tblGens := Tbl.set s.idx.tblGens tb gen
      result := 1, handle := tb + gen * 256 } } := by
  simp only [createTable, hx, ht, hb]
  exact ⟨_, rfl⟩

section
variable {s : State} {tb : Nat} (op : Nat) (ht : Tbl.has s.idx.tables tb = true)
include ht

/-- A request on a table in use waits. -/
theorem requestTable_waits (hu : tableInUse s tb = true) :
    requestTable op tb s = { s with idx := { s.idx with req := some { op := op, table := tb } } } := by
  have hu' (x : Idx) : tableInUse { s with idx := x } tb = true := hu
  simp [requestTable, ht, settleTable, hu']

/-- A request on a table that no started command uses takes effect at once. -/
theorem requestTable_acts (hr : s.idx.req = none) (hu : tableInUse s tb = false) :
    requestTable op tb s = if op = 2 then deleteTable tb { s with idx := { s.idx with result := 1 } }
      else emptyTable tb { s with idx := { s.idx with result := 1 } } := by
  have hu' (x : Idx) : tableInUse { s with idx := x } tb = false := hu
  simp [requestTable, ht, settleTable, hu', ← hr]

end

/-! ### Respread and the takeover of a bank (R238, R247) -/

theorem moveEntry_eq {s : State} {a : Nat} {e : IEntry} (he : Tbl.get? s.idx.entries a = some e) (tb b : Nat) :
    moveEntry tb a b s = { s with idx := { s.idx with
      entries := Tbl.set (Tbl.erase s.idx.entries a) b e, cursors := Tbl.mapVals s.idx.cursors (fun _ c => moveCursor tb a b c) } } := by
  simp only [moveEntry, he]

section
variable {s : State} {tb : Nat} {x : ITable}

theorem respreadStep_ends
    (h : x.size - ((liveEntries s tb).map Prod.fst).length = 0 ∨ x.hole = 0 ∨
      respreadMove x (spacing x ((liveEntries s tb).map Prod.fst).length (x.size - ((liveEntries s tb).map Prod.fst).length))
        ((liveEntries s tb).map Prod.fst).zipIdx = none) :
    respreadStep tb x s = { s with idx := { s.idx with tables := Tbl.modify s.idx.tables tb (fun t => { t with respread := false }) } } := by
  simp only [respreadStep]
  split
  case isTrue => rfl
  case isFalse hn =>
    obtain h | h | h := h
    · exact absurd (.inl h) hn
    · exact absurd (.inr h) hn
    · rw [h]

theorem respreadStep_moves {a b : Nat} (hf : x.size - ((liveEntries s tb).map Prod.fst).length ≠ 0) (h0 : x.hole ≠ 0)
    (hm : respreadMove x (spacing x ((liveEntries s tb).map Prod.fst).length (x.size - ((liveEntries s tb).map Prod.fst).length))
      ((liveEntries s tb).map Prod.fst).zipIdx = some (a, b)) : respreadStep tb x s = moveEntry tb a b s := by
  simp only [respreadStep, if_neg (not_or.mpr ⟨hf, h0⟩), hm]

end

theorem exec_respreadMove {s : State} {tb : Fin 256} {x : ITable} (hx : Tbl.get? s.idx.tables tb = some x) (hp : powered s = true)
    (he : s.idx.enable = true) (hr : x.respread = true) : exec (.respreadMove tb) s = .next (respreadStep tb x s) := by
  show execRespreadMove tb s = _
  simp [execRespreadMove, act, hx, hp, he, hr]

theorem exec_cursorIdleExpiry {s : State} {n : Fin 4096} {c : Cursor} (hc : Tbl.get? s.idx.cursors n = some c) (hp : powered s = true)
    (hl : c.live = true) (hs : c.stepTag = none) (hi : c.used + 1000 * s.idx.cursorMs < s.now) :
    exec (.cursorIdleExpiry n) s = .next (freeCursor n s) := by
  show execCursorIdleExpiry n s = _
  simp [execCursorIdleExpiry, act, hc, hp, hl, hs, hi]

theorem exec_idxScrub {s : State} (found : Nat) (hp : powered s = true) (he : s.idx.enable = true) : exec (.idxScrub found) s =
    .next { s with idx := { s.idx with corrected := min (s.idx.corrected + found) 0xFFFF } } := by
  show execIdxScrub found s = _
  simp [execIdxScrub, act, hp, he, satAdd]

/-- Bank 16, which stands, takes over the indexes of a bank that fails. -/
theorem exec_indexBankFault {s : State} {bank : Fin 17} (ns : Nat) (hp : powered s = true) (hb : bit s.idx.bankOk bank = true)
    (h16 : bank.val < 16) (hs : spareStands s.idx.bankOk 16 s.idx.replaces = true) : exec (.indexBankFault bank ns) s =
      .next (takeover 8 bank 16 ns { s with idx := { s.idx with
        bankOk := setBit s.idx.bankOk bank false, replaces := bank, takeovers := satInc s.idx.takeovers 0xFF } }) := by
  show execIndexBankFault bank ns s = _
  simp [execIndexBankFault, act, hp, hb, h16, hs, h16.ne]

/-- A takeover report leaves the index unit as the failure left it. -/
theorem takeover_with_idx (code unit repl ns : Nat) (s : State) (x : Idx) :
    (takeover code unit repl ns { s with idx := x }).idx = x ∧
      OnlyIn [.idx, .glb, .pwr, .flc, .insts] s (takeover code unit repl ns { s with idx := x }) := by
  refine ⟨idx_of_get (takeover_get _ _ _ _ _ .idx (by decide)), fun y hy => ?_⟩
  obtain ⟨hi, hy⟩ := List.ne_and_not_mem_of_not_mem_cons hy
  rw [takeover_get _ _ _ _ _ y hy, State.get_with_idx s x y hi]

/-- Settles O20: the requests on tables by whether the table is in use, then the unit's own work. -/
theorem indexTablesAndIntegrity : Obligations.IndexTablesAndIntegrity := by
  refine ⟨?create, ?acts, ?waits, ?idle, ?respread, fun s found hp he => exec_idxScrub found hp he, ?bank⟩
  case create =>
    intro s fn x tb base ha hr hx ht hb
    obtain ⟨gen, made⟩ := createTable_made hx ht hb
    exact ⟨gen, exec_becomes (tblCmd_answered ha hr) made⟩
  case acts =>
    intro s fn tb ha hr ht hu
    exact ⟨exec_becomes (tblCmd_answered ha hr) (requestTable_acts 2 ht hr hu),
      exec_becomes (tblCmd_answered ha hr) (requestTable_acts 3 ht hr hu)⟩
  case waits =>
    intro s fn tb ha hr ht hu
    exact ⟨exec_becomes (tblCmd_answered ha hr) (requestTable_waits 2 ht hu),
      exec_becomes (tblCmd_answered ha hr) (requestTable_waits 3 ht hu)⟩
  case idle =>
    intro s n c hc hp hl hs hi
    exact exec_cursorIdleExpiry hc hp hl hs hi
  case respread =>
    intro s tb x hx hp he hr es
    have e := exec_respreadMove hx hp he hr
    exact ⟨fun h => exec_becomes e (respreadStep_ends h), fun a b y hf h0 hm hy =>
      exec_becomes e ((respreadStep_moves hf h0 hm).trans (moveEntry_eq hy tb b))⟩
  case bank =>
    intro s bank ns hp hb h16 hs hr
    have stands : spareStands s.idx.bankOk 16 s.idx.replaces = true := by simp [spareStands, unitOk, hs, hr]
    exact ⟨_, exec_indexBankFault ns hp hb h16 stands, takeover_with_idx ..⟩

end Sys2Proof.Machine

/-! Obligation O26 (LogsAndFeatures): LOG_READ, FEATURE_SET and FEATURE_GET by what they make of their packet. -/

namespace Sys2Proof.Machine

/-! ### LOG_READ (R305) -/

section
variable {n k : Nat} {p : List Byte} {s : State}

theorem logRead_unknown (h : field p 36 2 = 0 ∨ 6 < field p 36 2) : logRead n p k s = badField k 36 s := by
  simp only [logRead, if_pos h]

/-- The logs of the device are the manager's alone. -/
theorem logRead_refused (h : ¬(field p 36 2 = 0 ∨ 6 < field p 36 2)) (hn : n ≠ 0) (h1 : field p 36 2 ≠ 1)
    (h3 : field p 36 2 ≠ 3) : logRead n p k s = finishWith k stNotPermitted 0 0 s := by
  simp [logRead, h, hn, h1, h3]

theorem logRead_delivers (h : ¬(field p 36 2 = 0 ∨ 6 < field p 36 2)) (hn : n = 0 ∨ field p 36 2 = 1 ∨ field p 36 2 = 3) :
    let out := ((logBytes s n (field p 36 2)).1.drop (field p 40 8)).take (pkBufLen p)
    ∃ q, logRead n p k s = finishWith k stOk out.length q (deliver n p 0 out s) := by
  have readable : (!(n == 0) && !(field p 36 2 == 1 || field p 36 2 == 3)) = false := by
    rcases hn with h | h | h <;> simp [h]
  simp only [logRead, if_neg h, readable, Bool.false_eq_true, if_false]
  exact ⟨_, rfl⟩

end

theorem exec_logRead {s : State} {inst : Fin 64} {tag : Fin 256} {g : Tag} (h : Working opLogRead s (tagKey inst tag) g)
    (hm : mayWrite s inst = true) : exec (.logRead inst tag) s = .next (logRead inst g.packet (tagKey inst tag) s) :=
  h.next hm

/-! ### The values of the features (Table 2.8) -/

/-- The features when `id` takes the value `v`. -/
def withFeature (id v : Nat) (f : Feat) : Feat :=
  match id with
  | 0x10 => { f with codecContexts := v }
  | 0x01 => { f with writeBack := v == 1 }
  | 0x02 => { f with spanBudget := v }
  | 0x03 => { f with eventMask := v }
  | 0x11 => { f with shrinkMargin := v }
  | 0x20 => { f with spanResend := v }
  | 0x30 => { f with powerCap := v }
  | _ => { f with alertLevel := v }

/-- A change of CODEC_CONTEXTS discards contexts; no feature changes the formats. -/
theorem setFeature_formats (n id v : Nat) (s : State) :
    (setFeature n id v s).bsh.deflateEn = s.bsh.deflateEn ∧ (setFeature n id v s).bsh.zstdEn = s.bsh.zstdEn := by
  unfold setFeature
  split <;> exact ⟨rfl, rfl⟩

/-- Of the state, a feature's value depends on the formats alone. -/
theorem featureValue_congr {s t : State} (h : t.bsh.deflateEn = s.bsh.deflateEn ∧ t.bsh.zstdEn = s.bsh.zstdEn) (i : Inst)
    (id : Nat) : featureValue t i id = featureValue s i id := by
  unfold featureValue
  rw [h.1, h.2]

/-- The features that FEATURE_SET takes. -/
theorem settable_of_legal {id v : Nat} (h : featureValueLegal id v = true) :
    id = 0x01 ∨ id = 0x02 ∨ id = 0x03 ∨ id = 0x10 ∨ id = 0x11 ∨ id = 0x20 ∨ id = 0x30 ∨ id = 0x31 := by
  unfold featureValueLegal at h
  split at h
  case h_9 => cases h
  all_goals decide

theorem setFeature_insts {id v : Nat} (h : featureValueLegal id v = true) (n : Nat) (s : State) : (setFeature n id v s).insts =
    Tbl.modify s.insts n (fun i => { i with feat := withFeature id v i.feat }) := by
  rcases settable_of_legal h with rfl | rfl | rfl | rfl | rfl | rfl | rfl | rfl <;> rfl

theorem featureValue_withFeature {id v : Nat} (h : featureValueLegal id v = true) (s : State) (i : Inst) :
    featureValue s { i with feat := withFeature id v i.feat } id = v := by
  rcases settable_of_legal h with rfl | rfl | rfl | rfl | rfl | rfl | rfl | rfl
  case inl =>
    have hv : v ≤ 1 := by simpa [featureValueLegal] using h
    show b2n (v == 1) = v
    interval_cases v <;> rfl
  all_goals rfl

/-- Each feature has a field of its own. -/
theorem featureValue_withFeature_ne {id v x : Nat} (h : featureValueLegal id v = true)
    (hx : x ∈ [0x01, 0x02, 0x03, 0x10, 0x11, 0x12, 0x20, 0x30, 0x31]) (hne : x ≠ id) (s : State) (i : Inst) :
    featureValue s { i with feat := withFeature id v i.feat } x = featureValue s i x := by
  simp only [List.mem_cons, List.not_mem_nil, or_false] at hx
  rcases settable_of_legal h with rfl | rfl | rfl | rfl | rfl | rfl | rfl | rfl <;>
    rcases hx with rfl | rfl | rfl | rfl | rfl | rfl | rfl | rfl | rfl <;>
    simp [featureValue, withFeature] at hne ⊢

/-! ### FEATURE_SET and FEATURE_GET -/

theorem finishWith_insts (k status r0 r1 : Nat) (s : State) : (finishWith k status r0 r1 s).insts = s.insts :=
  finishWith_get k status r0 r1 s .insts (by decide)

section
variable {s : State} {inst : Fin 64} {tag : Fin 256} {g : Tag} {i : Inst}

theorem exec_featureSet_allowed (h : Working opFeatureSet s (tagKey inst tag) g) (hi : Tbl.get? s.insts inst = some i)
    (ha : featureAllowed s inst (field g.packet 36 2) (field g.packet 40 8) = true) : exec (.featureSet inst tag) s =
      .next (finishWith (tagKey inst tag) stOk (featureValue s i (field g.packet 36 2)) 0
        (setFeature inst (field g.packet 36 2) (field g.packet 40 8) s)) := by
  show execFeatureSet inst tag s = _
  rw [execFeatureSet, h.next (by simp [Tbl.has, hi])]
  simp only [featureSet, hi, ha, if_true]

theorem exec_featureSet_refused (h : Working opFeatureSet s (tagKey inst tag) g) (hi : Tbl.get? s.insts inst = some i)
    (ha : featureAllowed s inst (field g.packet 36 2) (field g.packet 40 8) = false) :
    exec (.featureSet inst tag) s = .next (finishWith (tagKey inst tag) stNotPermitted 0 0 s) := by
  show execFeatureSet inst tag s = _
  rw [execFeatureSet, h.next (by simp [Tbl.has, hi])]
  simp only [featureSet, hi, ha, Bool.false_eq_true, if_false]

theorem exec_featureGet (h : Working opFeatureGet s (tagKey inst tag) g) (hi : Tbl.get? s.insts inst = some i) :
    exec (.featureGet inst tag) s =
      .next (finishWith (tagKey inst tag) stOk (featureValue s i (field g.packet 36 2)) (featureDefault s (field g.packet 36 2))
        (if field g.packet 36 2 = 0x12 then bumpFresh s else s)) := by
  show execFeatureGet inst tag s = _
  rw [execFeatureGet, h.next (by simp [Tbl.has, hi])]
  simp only [featureGet, hi]

end

/-- What a legal value leaves: the feature has it, the other features, the ring and the state are as they were. -/
theorem setFeature_inst {s t : State} {n id v : Nat} {i : Inst} (hi : Tbl.get? s.insts n = some i)
    (hv : featureValueLegal id v = true) (ht : t.insts = (setFeature n id v s).insts)
    (hf : t.bsh = (setFeature n id v s).bsh) :
    ∃ j, Tbl.get? t.insts n = some j ∧ j.ring = i.ring ∧ j.st = i.st ∧ featureValue t j id = v ∧
      ∀ x ∈ [0x01, 0x02, 0x03, 0x10, 0x11, 0x12, 0x20, 0x30, 0x31], x ≠ id → featureValue t j x = featureValue s i x := by
  have same := featureValue_congr (s := s) (t := t) (by rw [hf]; exact setFeature_formats n id v s)
  refine ⟨{ i with feat := withFeature id v i.feat }, ?_, rfl, rfl, ?_, fun x hx hne => ?_⟩
  · rw [ht, setFeature_insts hv, Tbl.get?_modify_self, hi]; rfl
  · rw [same, featureValue_withFeature hv]
  · rw [same, featureValue_withFeature_ne hv hx hne]

/-! ### The logs and repairs go to flash (R306, R322) -/

theorem exec_healthLogWrite {s : State} (hp : programsRun s = true) (h : s.flc.logPending ≠ []) :
    exec .healthLogWrite s = .next (writeLog s) := by
  show execHealthLogWrite s = _
  simp [execHealthLogWrite, act, hp, h]

theorem exec_learnedRepairWrite {s : State} (hp : programsRun s = true) (h : s.mem.repairs ≠ []) :
    exec .learnedRepairWrite s = .next (writeRepairs s) := by
  show execLearnedRepairWrite s = _
  simp [execLearnedRepairWrite, act, hp, h]

/-- Settles O26: a read by its log's id and its reader, a set by what the feature allows, a get by the feature. -/
theorem logsAndFeatures : Obligations.LogsAndFeatures := by
  refine ⟨?read, ?set, ?get, fun s hp => ⟨exec_healthLogWrite hp, exec_learnedRepairWrite hp⟩⟩
  case read =>
    intro s inst tag g hw hm
    have next := exec_logRead hw hm
    refine ⟨fun h => ?unknown, fun h1 h6 hn h1' h3 => ?refused, fun h1 h6 hn => ?delivered⟩
    case unknown =>
      exact hw.repliesWith (exec_becomes next (logRead_unknown h)) (OnlyIn.refl _ _) (by decide) trivial
    case refused =>
      have hn : inst.val ≠ 0 := fun h => hn (Fin.ext h)
      exact hw.repliesWith (exec_becomes next (logRead_refused (by omega) hn h1' h3)) (OnlyIn.refl _ _) (by decide) trivial
    case delivered =>
      have hn : inst.val = 0 ∨ field g.packet 36 2 = 1 ∨ field g.packet 36 2 = 3 := hn.imp_left (congrArg Fin.val)
      obtain ⟨q, delivers⟩ := logRead_delivers (k := tagKey inst tag) (s := s) (by omega) hn
      obtain ⟨t, e, ended, others, only, mem⟩ := hw.repliesWith (P := fun t => t.hostMem = (deliver inst g.packet 0 _ s).hostMem)
        (exec_becomes next delivers) deliver_only (by decide) (finishWith_hostMem ..)
      exact ⟨t, e, ⟨q, ended⟩, mem, others, only⟩
  case set =>
    intro s inst tag g i hw hi hv
    refine ⟨fun ha => ?allowed, fun ha => ?refused⟩
    case allowed =>
      refine hw.repliesWith (exec_featureSet_allowed hw hi ha) (fun x hx => ?frame) (by decide) ⟨?own, fun m hm => ?others⟩
      case frame => exact setFeature_get _ _ _ _ _ (by simpa [or_comm, and_comm] using hx)
      case own => exact setFeature_inst hi hv (finishWith_insts ..) (finishWith_bsh ..)
      case others => rw [finishWith_insts, setFeature_insts hv, Tbl.get?_modify_ne _ _ _ _ hm]
    case refused =>
      exact hw.repliesWith (exec_featureSet_refused hw hi ha) (OnlyIn.refl _ _) (by decide) trivial
  case get =>
    intro s inst tag g i hw hi
    have next := exec_featureGet hw hi
    refine ⟨fun h => ?stored, fun h => ?formats⟩
    case stored =>
      rw [if_neg h] at next
      exact hw.repliesWith next (OnlyIn.refl _ _) (by decide) trivial
    case formats =>
      rw [if_pos h, h] at next
      obtain ⟨t, e, ended, -, only, -⟩ := hw.repliesWith (P := fun _ => True) (ps := [.fresh]) next
        (fun x hx => bumpFresh_get s x hx) (by decide) trivial
      exact ⟨t, e, ⟨_, ended⟩, only⟩

end Sys2Proof.Machine

/-! Obligation O43 (CollectionCopiesBeforeItErases): sources are taken, copied into the journal, and erased. -/

namespace Sys2Proof.Machine

/-! ### The journal and the tables of flash -/

theorem modSb_get? (n j : Nat) (f : Superblock → Superblock) (s : State) : Tbl.get? (modSb n f s).flc.superblocks j =
    if j = n then (Tbl.get? s.flc.superblocks n).map f else Tbl.get? s.flc.superblocks j := Tbl.get?_modify ..

/-- R278: a copy's entry names the allotment's old place and its new one, the source and the target. -/
theorem appendMove_eq {s : State} {vol allot : Nat} {u : Vol} {e : MapEnt} (src dst : Nat) (hu : vol? s vol = some u)
    (he : Tbl.get? u.map allot = some e) : appendMove src dst vol allot s =
      bumpFresh (appendGroup false [.mapMove vol allot e (movedEnt s dst e 0) src dst] s) := by
  simp [appendMove, hu, he]

/-- A superblock that takes copies is open, dense, and not the source. -/
theorem targetOk_of {s : State} {src dst : Nat} {y : Superblock} (hy : Tbl.get? s.flc.superblocks dst = some y)
    (hne : src ≠ dst) (ho : y.st = .opened) (hd : y.slc = false) : targetOk s src dst = true := by
  simp [targetOk, hy, hne, ho, hd]

/-- A block that a refresh has copied: its reads count anew, and it is no longer due (R290). -/
def countsAnew (die block : Nat) (s : State) : State :=
  let t := modDie die (fun d => { d with reads := Tbl.erase d.reads block }) s
  { t with flc := { t.flc with toRefresh := t.flc.toRefresh.filter (fun p => !(p == (die, block))) } }

theorem countsAnew_dies (die block : Nat) (s : State) : (countsAnew die block s).flc.dies =
    Tbl.modify s.flc.dies die (fun d => { d with reads := Tbl.erase d.reads block }) := rfl

theorem countsAnew_reads {die block : Nat} {s : State} {d : Die} (h : Tbl.get? (countsAnew die block s).flc.dies die = some d) :
    Tbl.get? d.reads block = none := by
  rw [countsAnew_dies, Tbl.get?_modify_self] at h
  obtain ⟨x, -, rfl⟩ := Option.map_eq_some_iff.mp h
  simp [Tbl.get?_erase]

theorem countsAnew_toRefresh (die block : Nat) (s : State) : (die, block) ∉ (countsAnew die block s).flc.toRefresh := by
  simp [countsAnew]

/-! ### The commands of garbage collection -/

section
variable {s : State} {sb : Nat} {x : Superblock} (hx : Tbl.get? s.flc.superblocks sb = some x)
include hx

theorem exec_gcSelect (hr : gcRuns s x.slc = true) (hs : selectable s x = true) :
    exec (.gcSelect sb) s = .next (modSb sb (fun b => { b with st := .copying }) s) := by
  show execGcSelect sb s = _
  simp [execGcSelect, act, hx, hr, hs]

theorem exec_wearLevelMove (hr : gcRuns s false = true) (hc : x.st = .closed)
    (hw : (wearSpread s).2.2 * 20 < ((wearSpread s).1 - (wearSpread s).2.1) * 10)
    (ho : ∀ p ∈ s.flc.superblocks, p.2.st = .closed → x.written ≤ p.2.written) :
    exec (.wearLevelMove sb) s = .next (modSb sb (fun b => { b with st := .copying }) s) := by
  have oldest : s.flc.superblocks.all (fun p => !(p.2.st == .closed) || decide (x.written ≤ p.2.written)) = true := by
    rw [List.all_eq_true]
    intro p hp
    by_cases h : p.2.st = .closed <;> simp [h, ho p hp]
  show execWearLevelMove sb s = _
  simp only [execWearLevelMove, act, hx, hr, hc, hw, oldest, beq_self_eq_true, decide_true, Bool.and_self, if_true]

theorem exec_gcEraseSource (hp : programsRun s = true) (hc : x.st = .copying) (hr : x.refs = [])
    (hm : movesWait s sb = false) (hn : pinned s x = false) :
    exec (.gcEraseSource sb) s = .next (modSb sb (fun b => { b with st := .erasing, toErase := b.blocks }) s) := by
  show execGcEraseSource sb s = _
  simp [execGcEraseSource, act, hx, hp, hc, hr, hm, hn]

/-- R280: what still names the source, or still reads it, keeps it from being erased. -/
theorem gcEraseSource_idles (h : x.refs ≠ [] ∨ movesWait s sb = true ∨ pinned s x = true) : Idles (.gcEraseSource sb) s := by
  show execGcEraseSource sb s = _
  rcases h with h | h | h <;> simp [execGcEraseSource, act, hx, h]

theorem exec_gcCopyVerified {vol allot dst : Nat} (hp : powered s = true) (hv : x.st = .verifying)
    (hr : (vol, allot) ∈ x.refs) (ht : targetOk s sb dst = true) : exec (.gcCopyVerified sb vol allot dst) s =
      .next (modSb sb (fun b => { b with st := .journaling }) (appendMove sb dst vol allot s)) := by
  show execGcCopyVerified sb vol allot dst s = _
  simp [execGcCopyVerified, act, hx, hp, hv, hr, ht]

/-- R290: a refresh of one allotment copies it as garbage collection does. -/
theorem exec_refresh_one {die block dst vol allot : Nat} (hp : powered s = true) (hb : (die, block) ∈ x.blocks)
    (hd : refreshDue s die block = true) (hr : (vol, allot) ∈ x.refs) (ht : targetOk s sb dst = true) :
    exec (.refresh sb die block dst [(vol, allot)]) s = .next (countsAnew die block (appendMove sb dst vol allot s)) := by
  show execRefresh sb die block dst [(vol, allot)] s = _
  simp [execRefresh, act, hx, hp, hb, hd, hr, ht, countsAnew]

end

/-- Settles O43: a copy and a refresh by the MAP_MOVE that they append, the other commands by their guards. -/
theorem collectionCopiesBeforeItErases : Obligations.CollectionCopiesBeforeItErases := by
  refine ⟨fun s sb x hx => ⟨exec_gcSelect hx, exec_wearLevelMove hx, exec_gcEraseSource hx, gcEraseSource_idles hx⟩, ?copies⟩
  intro s sb dst vol allot x y u e hp hx hy hne ho hd hu he hr
  have target := targetOk_of hy hne ho hd
  have moved := appendMove_eq sb dst hu he
  constructor
  case left =>
    intro hv
    have next := exec_gcCopyVerified hx hp hv hr target
    refine ⟨_, next, ?_, ?_, ?_, onlyIn_of_next (execGcCopyVerified_next ..) next⟩
    · rw [moved, modSb_get?, if_pos rfl]
      exact ⟨_, congrArg _ hx, rfl, rfl⟩
    · rw [moved]
      exact ⟨_, rfl, rfl, rfl, rfl⟩
    · rw [moved]; rfl
  case right =>
    intro die block hb hdue
    have next := exec_refresh_one hx hp hb hdue hr target
    refine ⟨_, next, ?_, countsAnew_toRefresh _ _ _, fun d => countsAnew_reads, ?_, ?_, onlyIn_of_next (execRefresh_next ..) next⟩
    · rw [moved]
      exact ⟨_, rfl, rfl, rfl, rfl⟩
    · rw [moved]; rfl
    · rw [moved]; rfl

end Sys2Proof.Machine

/-! Obligation O44 (DiesChannelsAndCarriers): what reports and settlements leave of the dies and channels, and what the faults and the
carrier operations make of them. -/

namespace Sys2Proof.Machine

/-! ### Reports leave the dies and the channels -/

@[simp] theorem takeSeq_channels (s : State) : (takeSeq s).flc.channels = s.flc.channels := by
  unfold takeSeq; simp only; split <;> rfl

@[simp] theorem takeSeq_dies (s : State) : (takeSeq s).flc.dies = s.flc.dies := by
  unfold takeSeq; simp only; split <;> rfl

section
variable (kind inst vol unit lba count : Nat) (detail : List Byte) (s : State)

@[simp] theorem logHealth_channels : (logHealth kind inst vol unit lba count detail s).flc.channels = s.flc.channels := by
  unfold logHealth pushHealth
  split
  · exact takeSeq_channels s
  · rfl

@[simp] theorem logHealth_dies : (logHealth kind inst vol unit lba count detail s).flc.dies = s.flc.dies := by
  unfold logHealth pushHealth
  split
  · exact takeSeq_dies s
  · rfl

end

@[simp] theorem healthWarning_flc (kind a b : Nat) (s : State) : (healthWarning kind a b s).flc = s.flc := rfl

@[simp] theorem takeover_channels (code unit repl ns : Nat) (s : State) :
    (takeover code unit repl ns s).flc.channels = s.flc.channels :=
  logHealth_channels 0x0023 0xFF 0xFFFF (code * 256 + unit) 0 ns (leBytes 1 repl) (settleFaults s)

@[simp] theorem takeover_dies (code unit repl ns : Nat) (s : State) : (takeover code unit repl ns s).flc.dies = s.flc.dies :=
  logHealth_dies 0x0023 0xFF 0xFFFF (code * 256 + unit) 0 ns (leBytes 1 repl) (settleFaults s)

@[simp] theorem settleWriteBack_flc (was : Bool) (s : State) : (settleWriteBack was s).flc = s.flc :=
  flc_of_get (settleWriteBack_get was s .flc (by decide))

@[simp] theorem settleReadOnly_dies (s : State) : (settleReadOnly s).flc.dies = s.flc.dies := by
  unfold settleReadOnly
  dsimp only
  repeat' split
  all_goals rfl

/-- R253: the evacuations that READ_ONLY stops are the only change of a channel. -/
theorem settleReadOnly_channel {s : State} {c : Nat} {x : Chan} (h : Tbl.get? s.flc.channels c = some x) (hx : x.st ≠ .evacuating) :
    Tbl.get? (settleReadOnly s).flc.channels c = some x := by
  have stopped : ∀ t : State, t.flc.channels = s.flc.channels → Tbl.get? (stopEvacuations t).flc.channels c = some x := by
    intro t ht
    rw [stopEvacuations, Tbl.get?_mapVals, ht, h]
    simp [hx]
  unfold settleReadOnly
  dsimp only
  repeat' split
  case isFalse.isTrue.isTrue => exact stopped _ rfl
  all_goals exact h

/-! ### The fault bits (R433) -/

theorem bit_eq_testBit (x i : Nat) : bit x i = x.testBit i := by
  rw [bit, Nat.testBit_eq_decide_div_mod_eq]
  rfl

theorem bit_orFaults (a b i : Nat) : bit (orFaults a b) i = (bit a i || bit b i) := by
  simp only [bit_eq_testBit]
  exact Nat.testBit_lor a b i

theorem settleFaults_keeps {s : State} {i : Nat} (h : bit s.pwr.faultSts i = true) : bit (settleFaults s).pwr.faultSts i = true :=
  (bit_orFaults ..).trans (by rw [h, Bool.true_or])

theorem b2n_le_one (b : Bool) : b2n b ≤ 1 := by cases b <;> decide

/-- Bit 5 is that of a failed channel. -/
theorem faultConditions_failed {s : State} (h : s.flc.channels.any (fun c => c.2.st == .failed) = true) :
    bit (faultConditions s) 5 = true := by
  have h0 := b2n_le_one (degraded s)
  have h1 := b2n_le_one s.pwr.dipLong
  have h2 := b2n_le_one (decide (4 ≤ topThermal s))
  have h3 := b2n_le_one (decide (0 < sensorsFailed s))
  have h4 := b2n_le_one (!(s.pwr.portsDown == 0))
  have h5 : b2n true = 1 := rfl
  rw [faultConditions, h]
  simp only [bit, beq_iff_eq]
  omega

theorem settleFaults_failed {s : State} {c : Nat} {x : Chan} (h : Tbl.get? s.flc.channels c = some x) (hx : x.st = .failed) :
    bit (settleFaults s).pwr.faultSts 5 = true := by
  have failed : s.flc.channels.any (fun c => c.2.st == .failed) = true :=
    List.any_eq_true.mpr ⟨(c, x), Tbl.mem_of_get? h, by simp [hx]⟩
  exact (bit_orFaults ..).trans (by rw [faultConditions_failed failed, Bool.or_true])

theorem takeover_keeps_fault {s : State} {i : Nat} (code unit repl ns : Nat) (h : bit s.pwr.faultSts i = true) :
    bit (takeover code unit repl ns s).pwr.faultSts i = true := by
  have logged : (takeover code unit repl ns s).pwr = (settleFaults s).pwr :=
    pwr_of_get (logHealth_get 0x0023 0xFF 0xFFFF (code * 256 + unit) 0 ns (leBytes 1 repl) (settleFaults s) .pwr (by decide))
  rw [logged]
  exact settleFaults_keeps h

/-! ### Dies -/

theorem modDie_get? (n j : Nat) (f : Die → Die) (s : State) : Tbl.get? (modDie n f s).flc.dies j =
    if j = n then (Tbl.get? s.flc.dies n).map f else Tbl.get? s.flc.dies j := Tbl.get?_modify ..

theorem retireDie_dies (d : Nat) (s : State) : (retireDie d s).flc.dies =
    Tbl.modify s.flc.dies d (fun x => { x with retired := true, rebuilding := true, relocated := 0 }) := by
  simp only [retireDie, settleWriteBack_flc, settleReadOnly_dies]
  exact logHealth_dies ..

/-- A die in service is not retired. -/
theorem dieServes_retired {s : State} {die : Nat} {d : Die} (h : dieServes s die = true) (hd : Tbl.get? s.flc.dies die = some d) :
    d.retired = false := by
  unfold dieServes at h
  rw [hd] at h
  split at h
  case h_1 hx _ =>
    cases hx
    simp only [Bool.and_eq_true, Bool.not_eq_true'] at h
    exact h.1.2
  case h_2 => cases h

/-- The reports of a timeout, before the die is retired or not. -/
def timeoutNoted (die ns : Nat) (s : State) : State :=
  takeover 11 die 0xFF ns (modDie die (fun d => { d with timeouts := d.timeouts + 1 }) s)

theorem timeoutNoted_die {s : State} {die : Nat} {d : Die} (ns : Nat) (hd : Tbl.get? s.flc.dies die = some d) :
    Tbl.get? (timeoutNoted die ns s).flc.dies die = some { d with timeouts := d.timeouts + 1 } := by
  rw [timeoutNoted, takeover_dies, modDie_get?, if_pos rfl, hd]
  rfl

/-- R296: the third timeout in a row retires the die. -/
theorem exec_dieTimeout {s : State} {die : Nat} {d : Die} (ns : Nat) (hp : powered s = true) (hs : dieServes s die = true)
    (hd : Tbl.get? s.flc.dies die = some d) : exec (.dieTimeout die ns) s =
      .next (if 3 ≤ d.timeouts + 1 then retireDie die (timeoutNoted die ns s) else timeoutNoted die ns s) := by
  have noted := timeoutNoted_die ns hd
  rw [timeoutNoted] at noted ⊢
  show execDieTimeout die ns s = _
  simp only [execDieTimeout, act, hp, hs, Bool.and_self, if_true, noted]

theorem exec_rebuildDone {s : State} {die : Nat} {d : Die} (hp : powered s = true) (hd : Tbl.get? s.flc.dies die = some d)
    (hr : d.rebuilding = true) (he : onDie s die = 0) : exec (.rebuildDone die) s =
      .next (healthWarning 5 die d.relocated (modDie die (fun d => { d with rebuilding := false }) s)) := by
  show execRebuildDone die s = _
  simp [execRebuildDone, act, hd, hp, hr, he]

/-! ### A channel fails -/

theorem modChan_get? (c j : Nat) (f : Chan → Chan) (s : State) : Tbl.get? (modChan c f s).flc.channels j =
    if j = c then (Tbl.get? s.flc.channels c).map f else Tbl.get? s.flc.channels j := Tbl.get?_modify ..

theorem modChan_self {s : State} {c : Nat} {x : Chan} (f : Chan → Chan) (h : Tbl.get? s.flc.channels c = some x) :
    Tbl.get? (modChan c f s).flc.channels c = some (f x) := by
  rw [modChan_get?, if_pos rfl, h]
  rfl

theorem exec_channelLost {s : State} {ch : Fin 16} {c : Chan} (ns : Nat) (hp : powered s = true)
    (hc : Tbl.get? s.flc.channels ch = some c) (hst : c.st ∈ [.inService, .shed, .evacuating, .training]) :
    exec (.channelLost ch ns) s = .next (channelLost ch ns s) := by
  have standing : (c.st == .inService || c.st == .shed || c.st == .evacuating || c.st == .training) = true := by
    simpa [or_assoc] using hst
  show execChannelLost ch ns s = _
  simp only [execChannelLost, act, hc, hp, standing, Bool.and_self, if_true]

/-- The channel, its fault bit and its warning, before what follows from a covered fault and from the lost capacity. -/
def failureNoted (c : Nat) (s : State) : State :=
  healthWarning 8 c 0 (settleFaults (modChan c (fun x => { x with st := .failed, retraining := none }) s))

theorem failureNoted_channel {s : State} {c : Nat} {x : Chan} (h : Tbl.get? s.flc.channels c = some x) :
    Tbl.get? (failureNoted c s).flc.channels c = some { x with st := .failed, retraining := none } := modChan_self _ h

theorem failureNoted_fault {s : State} {c : Nat} {x : Chan} (h : Tbl.get? s.flc.channels c = some x) :
    bit (failureNoted c s).pwr.faultSts 5 = true := settleFaults_failed (failureNoted_channel h) rfl

/-- A covered fault is reported as a takeover too. -/
def failureReported (c ns : Nat) (s : State) : State :=
  if channelCovered s c then takeover 12 c 0xFF ns (failureNoted c s) else failureNoted c s

theorem failureReported_channel {s : State} {c : Nat} {x : Chan} (ns : Nat) (h : Tbl.get? s.flc.channels c = some x) :
    Tbl.get? (failureReported c ns s).flc.channels c = some { x with st := .failed, retraining := none } := by
  unfold failureReported
  split
  · rw [takeover_channels]
    exact failureNoted_channel h
  · exact failureNoted_channel h

theorem failureReported_fault {s : State} {c : Nat} {x : Chan} (ns : Nat) (h : Tbl.get? s.flc.channels c = some x) :
    bit (failureReported c ns s).pwr.faultSts 5 = true := by
  unfold failureReported
  split
  · exact takeover_keeps_fault _ _ _ _ (failureNoted_fault h)
  · exact failureNoted_fault h

theorem channelLost_eq (c ns : Nat) (s : State) :
    channelLost c ns s = settleWriteBack (holdupOk s) (settleReadOnly (failureReported c ns s)) := rfl

/-- R407: the channel is FAILED, and nothing that follows puts it back. -/
theorem channelLost_channel {s : State} {c : Nat} {x : Chan} (ns : Nat) (h : Tbl.get? s.flc.channels c = some x) :
    Tbl.get? (channelLost c ns s).flc.channels c = some { x with st := .failed, retraining := none } := by
  rw [channelLost_eq, settleWriteBack_flc]
  exact settleReadOnly_channel (failureReported_channel ns h) (by simp)

theorem channelLost_fault {s : State} {c : Nat} {x : Chan} (ns : Nat) (h : Tbl.get? s.flc.channels c = some x) :
    bit (channelLost c ns s).pwr.faultSts 5 = true := by
  have settled : (channelLost c ns s).pwr = (failureReported c ns s).pwr :=
    pwr_of_get ((settleWriteBack_get _ _ .pwr (by decide)).trans (settleReadOnly_get _ .pwr (by decide)))
  rw [settled]
  exact failureReported_fault ns h

/-! ### Service carriers (R298) -/

/-- A channel whose carrier operation ends. -/
def operationEnded (result : Nat) (x : Chan) : Chan :=
  { x with svcOp := 0, result := result, progress := if result = 1 then 100 else x.progress }

theorem carrierEnds_channel {s : State} {c : Nat} {x : Chan} (op result : Nat) (h : Tbl.get? s.flc.channels c = some x) :
    Tbl.get? (carrierEnds c op result s).flc.channels c = some (operationEnded result x) := by
  rw [carrierEnds, logHealth_channels]
  exact modChan_self (operationEnded result) h

section
variable {s : State} {fn : Fin 2} {ch : Fin 16} {c : Chan} (hc : Tbl.get? s.flc.channels ch = some c)
include hc

section
variable (hb : bar0Answers s fn (0x10024 + 0x400 * ch.val) = true) (h0 : c.svcOp = 0)
include hb h0

theorem exec_evacuate_begins (hs : c.st = .inService) (hr : evacuationRefused s ch = false) : exec (.evacuate fn ch false) s =
    .next (modChan ch (fun x => { x with st := .evacuating, svcOp := 1, progress := 0, result := 0 }) s) := by
  show execEvacuate fn ch false s = _
  simp [execEvacuate, act, evacuate, hc, hb, h0, hs, hr]

theorem exec_evacuate_noRoom (hs : c.st = .inService) (hr : evacuationRefused s ch = true) :
    exec (.evacuate fn ch false) s = .next (carrierEnds ch 1 2 s) := by
  show execEvacuate fn ch false s = _
  simp [execEvacuate, act, evacuate, hc, hb, h0, hs, hr]

theorem exec_evacuate_notInService (hs : c.st ≠ .inService) : exec (.evacuate fn ch false) s = .next (carrierEnds ch 1 3 s) := by
  show execEvacuate fn ch false s = _
  simp [execEvacuate, act, evacuate, hc, hb, h0, hs]

theorem exec_release_evacuated (hs : c.st = .evacuated) : exec (.release fn ch) s =
    .next (carrierEnds ch 2 1 (modChan ch (fun x => { x with st := .released }) s)) := by
  show execRelease fn ch s = _
  simp [execRelease, act, hc, hb, h0, hs]

theorem exec_release_refused (hs : c.st ≠ .evacuated) : exec (.release fn ch) s = .next (carrierEnds ch 2 3 s) := by
  show execRelease fn ch s = _
  simp [execRelease, act, hc, hb, h0, hs]

section
variable (trained : Bool) (rate : Nat) (dies : List (Fin 16 × Nat × Nat × Nat × Nat × Nat)) (refused : List (Fin 16))

theorem exec_inserted_begins (hs : c.st = .released) : exec (.inserted fn ch false trained rate dies refused) s =
    .next (modChan ch (fun x => { x with st := .training, svcOp := 3, progress := 0, result := 0 }) s) := by
  show execInserted fn ch false trained rate dies refused s = _
  simp [execInserted, act, hc, hb, h0, hs]

theorem exec_inserted_refused (hs : c.st ≠ .released) : exec (.inserted fn ch false trained rate dies refused) s =
    .next (carrierEnds ch 3 3 s) := by
  show execInserted fn ch false trained rate dies refused s = _
  simp [execInserted, act, hc, hb, h0, hs]

end
end

theorem exec_evacuate_ends (hp : powered s = true) (h1 : c.svcOp = 1) (he : channelEmpty s ch = true) :
    exec (.evacuate fn ch true) s = .next (settleWriteBack (holdupOk s) (carrierEnds ch 1 1
      (modChan ch (fun x => if x.st = .evacuating then { x with st := .evacuated } else x) s))) := by
  show execEvacuate fn ch true s = _
  simp [execEvacuate, act, hc, hp, h1, he]

theorem exec_inserted_ends (hp : powered s = true) (h3 : c.svcOp = 3) (trained : Bool) {rate : Nat} (hr : rate ≤ 3200)
    (dies : List (Fin 16 × Nat × Nat × Nat × Nat × Nat)) (refused : List (Fin 16)) :
    exec (.inserted fn ch true trained rate dies refused) s = .next (insertedEnds ch rate trained dies refused s) := by
  show execInserted fn ch true trained rate dies refused s = _
  simp [execInserted, act, hc, hp, h3, hr]

end

/-! ### A carrier inserted -/

theorem refuseParts_channels (c : Nat) (refused : List (Fin 16)) (s : State) :
    (refused.foldl (fun s k => refusePart (16 * c + k.val) s) s).flc.channels = s.flc.channels := by
  induction refused generalizing s with
  | nil => rfl
  | cons k ks ih => exact (ih _).trans (logHealth_channels ..)

theorem fitDies_channels (c : Nat) (dies : List (Fin 16 × Nat × Nat × Nat × Nat × Nat)) (refused : List (Fin 16)) (s : State) :
    (fitDies c dies refused s).flc.channels = s.flc.channels := refuseParts_channels c refused _

/-- The state of the channel once the carrier is trained: in service with dies, released without. -/
theorem trained_channel {s : State} {c : Nat} {x : Chan} (rate : Nat) (dies : List (Fin 16 × Nat × Nat × Nat × Nat × Nat))
    (h : Tbl.get? s.flc.channels c = some x) :
    ∃ y, Tbl.get? (if dies.isEmpty then modChan c (fun x => { x with st := .released }) s
        else channelTrained c rate s).flc.channels c = some y ∧
      y.st = (if dies ≠ [] then .inService else .released) ∧ (dies ≠ [] → y.rate = rate) := by
  cases dies with
  | nil => exact ⟨_, modChan_self _ h, rfl, fun h => absurd rfl h⟩
  | cons d ds => exact ⟨_, modChan_self _ h, rfl, fun _ => rfl⟩

theorem insertedEnds_channel {s : State} {c : Nat} {x : Chan} (rate : Nat) (trained : Bool)
    (dies : List (Fin 16 × Nat × Nat × Nat × Nat × Nat)) (refused : List (Fin 16)) (h : Tbl.get? s.flc.channels c = some x) :
    ∃ y, Tbl.get? (insertedEnds c rate trained dies refused s).flc.channels c = some y ∧ y.svcOp = 0 ∧
      y.result = (if trained then if refused = [] then 1 else 4 else 6) ∧
      y.st = (if trained = true ∧ dies ≠ [] then .inService else .released) ∧ (trained = true ∧ dies ≠ [] → y.rate = rate) := by
  cases trained with
  | false => exact ⟨_, carrierEnds_channel 3 6 (modChan_self _ h), rfl, rfl, rfl, fun h => absurd h.1 (by decide)⟩
  | true =>
    obtain ⟨y, hy, hst, hrate⟩ := trained_channel (s := fitDies c dies refused s) rate dies ((fitDies_channels ..).symm ▸ h)
    have settles : y.st ≠ .evacuating := by rw [hst]; split <;> simp
    refine ⟨operationEnded (if refused.isEmpty then 1 else 4) y, ?_, rfl, ?_, ?_, fun h => hrate h.2⟩
    · exact settleReadOnly_channel (carrierEnds_channel 3 _ hy) settles
    · simp [operationEnded]
    · simpa [operationEnded] using hst

/-- Settles O44: the faults by what their reports and settlements leave, a carrier operation by the state of its channel. -/
theorem diesChannelsAndCarriers : Obligations.DiesChannelsAndCarriers := by
  refine ⟨?timeout, fun s die d hp hd hr he => exec_rebuildDone hp hd hr he, ?lost, ?carrier⟩
  case timeout =>
    intro s die ns d hp hs hd
    have next := exec_dieTimeout ns hp hs hd
    refine ⟨_, next, ?_, onlyIn_of_next (execDieTimeout_next ..) next⟩
    by_cases third : 3 ≤ d.timeouts + 1
    · rw [if_pos third, retireDie_dies, Tbl.get?_modify_self, timeoutNoted_die ns hd]
      exact ⟨_, rfl, rfl, iff_of_true third rfl⟩
    · rw [if_neg third]
      exact ⟨_, timeoutNoted_die ns hd, rfl, iff_of_false third (by simp [dieServes_retired hs hd])⟩
  case lost =>
    intro s ch ns c hp hc hst
    have next := exec_channelLost ns hp hc hst
    exact ⟨_, next, ⟨_, channelLost_channel ns hc, rfl⟩, channelLost_fault ns hc,
      onlyIn_of_next (execChannelLost_next ..) next⟩
  case carrier =>
    intro s fn ch c hc ends said
    have ended (op result : Nat) : carrierEnds ch op result s = said op result id :=
      congrArg (carrierEnds ch op result) (modChan_id ch s).symm
    refine ⟨fun hb h0 => ⟨exec_evacuate_begins hc hb h0,
        fun hs hr => exec_becomes (exec_evacuate_noRoom hc hb h0 hs hr) (ended 1 2),
        fun hs => exec_becomes (exec_evacuate_notInService hc hb h0 hs) (ended 1 3),
        exec_release_evacuated hc hb h0,
        fun hs => exec_becomes (exec_release_refused hc hb h0 hs) (ended 2 3),
        fun trained rate dies refused => ⟨exec_inserted_begins hc hb h0 trained rate dies refused,
          fun hs => exec_becomes (exec_inserted_refused hc hb h0 trained rate dies refused hs) (ended 3 3)⟩⟩,
      fun hp h1 he hs => ?evacuated, fun hp h3 trained dies refused rate hr => ?inserted⟩
    case evacuated =>
      have next := exec_evacuate_ends (fn := fn) hc hp h1 he
      refine ⟨_, next, ?_, onlyIn_of_next (execEvacuate_next ..) next⟩
      rw [settleWriteBack_flc]
      exact ⟨_, carrierEnds_channel 1 1 (modChan_self _ hc), by simp [operationEnded, hs], rfl, rfl, rfl⟩
    case inserted =>
      have next := exec_inserted_ends (fn := fn) hc hp h3 trained hr dies refused
      exact ⟨_, next, insertedEnds_channel rate trained dies refused hc, onlyIn_of_next (execInserted_next ..) next⟩

end Sys2Proof.Machine

/-! Obligation O45 (CodesCorrectOneAndDetectTwo): the decisions of R312, by the positions flipped. -/

namespace Sys2Proof.Machine

/-! ### One flip is corrected, two are detected (R310 to R312) -/

theorem syndrome_one (p : Nat) : syndrome [p] = p := Nat.zero_xor p

theorem syndrome_two (p q : Nat) : syndrome [p, q] = p ^^^ q := congrArg (· ^^^ q) (Nat.zero_xor p)

theorem verdict_one {top p : Nat} (h : p ≤ top) : verdict top [p] = .corrected := by
  simp [verdict, syndrome_one, h]

/-- R312: two flips leave an even number of them and a syndrome that is not 0. -/
theorem verdict_two {top p q : Nat} (h : p ≠ q) :
    verdict top [p, q] = if top = 522 ∧ p ^^^ q = 0x3FF then .poison else .uncorrectable := by
  have differ : p ^^^ q ≠ 0 := fun e => h (Nat.xor_eq_zero_iff.mp e)
  simp [verdict, syndrome_two, differ]

theorem toggle_only (p : Nat) : toggle [p] p = [] := by simp [toggle]

/-- R312: the syndrome of one flip is its position, so that the correction takes the flip back. -/
theorem dataCorrected_one (bs : List Byte) (p : Nat) : dataCorrected bs [p] = bs := by
  rw [dataCorrected, syndrome_one, toggle_only]
  rfl

/-- R310: the code of a byte holds its eight data bits. -/
theorem dataBitAt_byte : ∀ p ≤ 12, ∀ i, dataBitAt p = some i → i < 8 := by
  have bounded : ∀ p ≤ 12, ∀ i ∈ dataBitAt p, i < 8 := by decide
  exact bounded

theorem flipBit_byte (b : Byte) {i : Nat} (h : i < 8) : flipBit [b] i = [b ^^^ BitVec.ofNat 8 (2 ^ i)] := by
  simp [flipBit, Nat.div_eq_of_lt h, Nat.mod_eq_of_lt h]

theorem dataRead_one {p i : Nat} (bs : List Byte) (h : dataBitAt p = some i) : dataRead bs [p] = flipBit bs i := by
  simp [dataRead, h]

/-- R315: the poison pattern flips check bits alone. -/
theorem dataRead_poisonPattern (bs : List Byte) : dataRead bs poisonPattern = bs := by
  have noData : poisonPattern.filterMap dataBitAt = [] := by decide
  rw [dataRead, noData]
  rfl

/-- Settles O45: one flip by its syndrome, two by their difference, the poison pattern and the example by evaluation. -/
theorem codesCorrectOneAndDetectTwo : Obligations.CodesCorrectOneAndDetectTwo := by
  refine ⟨fun b p hp => ⟨verdict_one hp, dataCorrected_one _ p, fun i hi => ?flip⟩,
    fun bs p hp => ⟨verdict_one hp, dataCorrected_one bs p⟩, fun p _ q _ h => (verdict_two h).trans (by simp),
    fun p _ q _ h => (verdict_two h).trans (by simp), by decide, dataRead_poisonPattern, by decide, by decide, by decide⟩
  case flip =>
    have hlt := dataBitAt_byte p hp i hi
    exact ⟨hlt, (dataRead_one [b] hi).trans (flipBit_byte b hlt)⟩

end Sys2Proof.Machine

/-! Obligation O46 (MemoriesAreScrubbedAndRepaired): what the scrubbers leave of Hogshead and of a DRAM side, and what the repairs leave of
the banks, the lines and the sides. -/

namespace Sys2Proof.Machine

/-! ### Lists, tables and byte memories -/

/-- A function of the state that every step of a fold keeps is kept by the fold. -/
theorem foldl_keeps {α σ β : Type} (g : σ → β) (l : List α) {f : σ → α → σ} (h : ∀ s a, g (f s a) = g s) (s : σ) :
    g (l.foldl f s) = g s := by
  induction l generalizing s with
  | nil => rfl
  | cons a l ih => exact (ih (f s a)).trans (h s a)

/-- The one object that a choice of numbers leaves is the object of its number. -/
theorem Tbl.get?_of_filter_eq {α : Type} {t : Tbl α} {f : Nat → Bool} {k : Nat} {v : α}
    (h : t.filter (fun p => f p.1) = [(k, v)]) : Tbl.get? t k = some v := by
  have chosen : f k = true := (List.mem_filter.mp (h ▸ List.mem_singleton.mpr rfl : (k, v) ∈ t.filter (fun p => f p.1))).2
  have only := Tbl.get?_filter t f k
  rw [h, if_pos chosen] at only
  simpa [Tbl.get?] using only.symm

theorem bit_setBit_false (x i : Nat) : bit (setBit x i false) i = false := by
  unfold setBit
  split
  · next h => simpa using h
  · next h =>
    have stood : x / 2 ^ i % 2 = 1 := by simpa [bit] using h
    have := Nat.sub_mul_div x (2 ^ i) 1
    simp only [mul_one] at this
    simp only [bit, Bool.false_eq_true, if_false, this, beq_eq_false_iff_ne]
    omega

theorem Cells.readN_length (m : Cells) (a n : Nat) : (Cells.readN m a n).length = n := by
  induction n generalizing a with
  | zero => rfl
  | succ n ih => simp [Cells.readN, ih]

theorem Cells.readN_writeN (m : Cells) (a : Nat) (bs : List Byte) : Cells.readN (Cells.writeN m a bs) a bs.length = bs := by
  induction bs generalizing m a with
  | nil => rfl
  | cons b bs ih =>
    have first : Cells.read (Cells.writeN (Cells.write m a b) (a + 1) bs) a = b := by
      rw [Cells.read_writeN, if_neg (by omega), Cells.read_write, if_pos rfl]
    rw [Cells.writeN, List.length_cons, Cells.readN, first, ih]

theorem dataRead_length (bs : List Byte) (ps : List Nat) : (dataRead bs ps).length = bs.length :=
  foldl_keeps List.length _ (fun _ _ => by simp [flipBit]) bs

theorem dataCorrected_length (bs : List Byte) (ps : List Nat) : (dataCorrected bs ps).length = bs.length := dataRead_length ..

/-! ### The SRAM scrubber (R323) -/

/-- The time of a full pass, when the scrub ends one. -/
def sramPassEnds (pass : Bool) (s : State) : State := if pass then { s with mem := { s.mem with sramPassAt := s.now } } else s

theorem exec_sramScrub {s : State} (target : Fin 4) (first len : Nat) (nature : List (Nat × List Nat)) (hard : List Nat) (pass : Bool)
    (hp : powered s = true) (hf : flushing s = false) (he : s.mem.sramScrubEn = true) :
    exec (.sramScrub target first len nature hard pass) s = .next (sramPassEnds pass (scrubSram target first len nature hard s)) := by
  show execSramScrub target first len nature hard pass s = _
  simp [execSramScrub, act, hp, hf, he, sramPassEnds]

/-- The one byte in the range that holds an error is the one that the scrubber reads. -/
theorem scrubSram_one {s : State} {first len a : Nat} {ps : List Nat}
    (h : s.mem.hogErr.filter (fun p => decide (first ≤ p.1 ∧ p.1 < first + len)) = [(a, ps)]) :
    scrubSram 0 first len [] [] s = scrubHog a ps false s := by
  show (s.mem.hogErr.filter (fun p => decide (first ≤ p.1 ∧ p.1 < first + len))).foldl (fun s p => scrubHog p.1 p.2 false s) s = _
  rw [h]
  rfl

/-- R314, R341: with no injection armed a byte written stands alone and without an error. -/
theorem hogStoreOne_clean {s : State} (a : Nat) (b : Byte) (h : s.mem.injArm = false) : hogStoreOne a b s =
    { s with mem := { s.mem with hog := Cells.write s.mem.hog a b, hogErr := Tbl.erase s.mem.hogErr a } } := by
  simp [hogStoreOne, injectionHits, h, setErr]

/-- R323: the corrected byte is rewritten, with fresh check bits, and counted. -/
theorem scrubHog_corrected {s : State} {a : Nat} {ps : List Nat} (hv : verdict 12 ps = .corrected) (hi : s.mem.injArm = false) :
    let t := scrubHog a ps false s
    Tbl.get? t.mem.hogErr a = none ∧ t.mem.corrected = satInc s.mem.corrected 0xFFFF ∧
      Cells.read t.mem.hog a = correctedByte (Cells.read s.mem.hog a) ps ∧
      ∀ x, x ≠ a → Cells.read t.mem.hog x = Cells.read s.mem.hog x := by
  have stored := hogStoreOne_clean (s := countSram a 0 (servingBank s.mem (a / 256 % 32)) false s) a
    (correctedByte (Cells.read s.mem.hog a) ps) hi
  simp only [scrubHog, hv, stored]
  exact ⟨(Tbl.get?_erase ..).trans (if_pos rfl), rfl, (Cells.read_write ..).trans (if_pos rfl),
    fun _ hx => Cells.read_write_ne _ _ _ _ hx⟩

/-- What an uncorrectable byte leaves: the stored bytes, the twin region, the count and the last error noted. -/
def hogNoted (m : Mem) : Cells × (Nat × Nat) × Nat × Nat × Nat :=
  (m.hog, (m.twinBase, m.twinSize), m.uncorrectable, m.lastAddr, m.lastKind)

/-- R319: a remap writes the remap store and the list of repairs alone. -/
theorem remapGranule_hogNoted (a : Nat) (s : State) : hogNoted (remapGranule a s).mem = hogNoted s.mem := by
  unfold remapGranule
  simp only
  split
  · rfl
  · split <;> rfl

theorem twinOf_congr {m m' : Mem} (h : hogNoted m = hogNoted m') (a : Nat) : twinOf m a = twinOf m' a := by
  simp only [hogNoted, Prod.mk.injEq] at h
  obtain ⟨-, ⟨hbase, hsize⟩, -⟩ := h
  rw [twinOf, twinOf, inTwin, inTwin, hbase, hsize]

theorem countSram_hogNoted (addr source unit : Nat) (s : State) : hogNoted (countSram addr source unit true s).mem =
    (s.mem.hog, (s.mem.twinBase, s.mem.twinSize), satInc s.mem.uncorrectable 0xFFFF, addr % 2 ^ 32, 2) := rfl

theorem countSram_twinOf (addr source unit : Nat) (bad : Bool) (s : State) (a : Nat) :
    twinOf (countSram addr source unit bad s).mem a = twinOf s.mem a := by cases bad <;> rfl

theorem restoreTwin_none {s : State} {a : Nat} (h : twinOf s.mem a = none) : restoreTwin a s = s := by
  simp only [restoreTwin, h]

/-- R323: an uncorrectable byte without a twin is counted and noted, and stands as it was. -/
theorem scrubHog_uncorrectable {s : State} {a : Nat} {ps : List Nat} (hv : verdict 12 ps = .uncorrectable)
    (ht : twinOf s.mem a = none) :
    let t := scrubHog a ps false s
    t.mem.uncorrectable = satInc s.mem.uncorrectable 0xFFFF ∧ t.mem.lastAddr = a % 2 ^ 32 ∧ t.mem.lastKind = 2 ∧
      t.mem.hog = s.mem.hog := by
  have noted : hogNoted (noteBankError a (countSram a 0 (servingBank s.mem (a / 256 % 32)) true s)).mem =
      hogNoted (countSram a 0 (servingBank s.mem (a / 256 % 32)) true s).mem := rfl
  have noTwin := (twinOf_congr noted a).trans ((countSram_twinOf a 0 _ true s a).trans ht)
  have left : hogNoted (scrubHog a ps false s).mem =
      (s.mem.hog, (s.mem.twinBase, s.mem.twinSize), satInc s.mem.uncorrectable 0xFFFF, a % 2 ^ 32, 2) := by
    simp only [scrubHog, hv]
    rw [restoreTwin_none ((twinOf_congr (remapGranule_hogNoted ..) a).trans noTwin), remapGranule_hogNoted, noted, countSram_hogNoted]
  simp only [hogNoted, Prod.mk.injEq] at left
  obtain ⟨hhog, -, hcount, haddr, hkind⟩ := left
  exact ⟨hcount, haddr, hkind, hhog⟩

/-! ### A DRAM side -/

section
variable (b : Bool) (f : Side → Side) (s : State)

@[simp] theorem sideOf_modSide_same : sideOf (modSide b f s) b = f (sideOf s b) := by cases b <;> rfl

@[simp] theorem sideOf_modSide_other : sideOf (modSide b f s) (!b) = sideOf s (!b) := by cases b <;> rfl

@[simp] theorem modSide_mirrorRepairs : (modSide b f s).drc.mirrorRepairs = s.drc.mirrorRepairs := by cases b <;> rfl

end

/-- A report of an error leaves the sides. -/
@[simp] theorem sideOf_noteError (addr source unit kind : Nat) (s : State) (b : Bool) :
    sideOf (noteError addr source unit kind s) b = sideOf s b := rfl

/-- R315, R341: with no injection armed a side in service takes the granule and the flips of its code word. -/
theorem sideStore_inService {s : State} {b : Bool} (off : Nat) (bs : List Byte) (ps : List Nat) (hst : sideServes s b = true)
    (hi : s.mem.injArm = false) : sideStore b off bs ps s = modSide b (fun x => { x with
      cells := Cells.writeN x.cells (off / 64 * 64) bs, errs := setErr x.errs (off / 64) ps }) s := by
  have serves : (sideOf s b).st = .inService := by simpa [sideServes] using hst
  simp [sideStore, serves, injectionHits, hi]

/-- R324: a corrected granule is counted by its side. -/
theorem sideOf_countCorrected (b : Bool) (off : Nat) (s : State) : sideOf (countCorrected b off s) b =
    { sideOf s b with corrected := satInc (sideOf s b).corrected 0xFFFF } := sideOf_modSide_same ..

/-- R324, R328: a bad granule is counted by its side and kept with its time. -/
theorem sideOf_countBad (b : Bool) (off : Nat) (v : Verdict) (s : State) : sideOf (countBad b off v s) b = { sideOf s b with
    uncorrectable := satInc (sideOf s b).uncorrectable 0xFF
    recent := (sideOf s b).recent.filter (fun r => !(r.1 == off / 64) && decide (s.now ≤ 10000 + r.2)) ++ [(off / 64, s.now)] } :=
  sideOf_modSide_same ..

theorem sideOf_countBad_other (b : Bool) (off : Nat) (v : Verdict) (s : State) : sideOf (countBad b off v s) (!b) = sideOf s (!b) :=
  sideOf_modSide_other ..

theorem countCorrected_injArm (b : Bool) (off : Nat) (s : State) : (countCorrected b off s).mem.injArm = s.mem.injArm := by
  cases b <;> rfl

theorem countBad_injArm (b : Bool) (off : Nat) (v : Verdict) (s : State) : (countBad b off v s).mem.injArm = s.mem.injArm := by
  cases b <;> rfl

theorem countBad_mirror (b : Bool) (off : Nat) (v : Verdict) (s : State) :
    (countBad b off v s).drc.mirrorMib = s.drc.mirrorMib ∧ (countBad b off v s).drc.mirrorRepairs = s.drc.mirrorRepairs := by
  cases b <;> exact ⟨rfl, rfl⟩

theorem sideServes_countCorrected (b : Bool) (off : Nat) (s : State) : sideServes (countCorrected b off s) b = sideServes s b := by
  cases b <;> rfl

theorem sideServes_countBad (b : Bool) (off : Nat) (v : Verdict) (s : State) (c : Bool) :
    sideServes (countBad b off v s) c = sideServes s c := by
  cases b <;> cases c <;> rfl

theorem sideOf_countRepair (s : State) (b : Bool) : sideOf (countRepair s) b = sideOf s b := by cases b <;> rfl

/-- What a side holds after a granule was stored on it. -/
theorem sideOf_sideStore {s : State} {b : Bool} (off : Nat) (bs : List Byte) (ps : List Nat) (hst : sideServes s b = true)
    (hi : s.mem.injArm = false) : sideOf (sideStore b off bs ps s) b = { sideOf s b with
      cells := Cells.writeN (sideOf s b).cells (off / 64 * 64) bs, errs := setErr (sideOf s b).errs (off / 64) ps } := by
  rw [sideStore_inService off bs ps hst hi, sideOf_modSide_same]

/-- R315: the whole granule reads as it was stored. -/
theorem sideData_of_stored {s : State} {b : Bool} {m : Cells} {off : Nat} {bs : List Byte}
    (h : (sideOf s b).cells = Cells.writeN m (off / 64 * 64) bs) (hl : bs.length = 64) : sideData s b off = bs := by
  rw [sideData, h, ← hl, Cells.readN_writeN]

theorem get?_setErr_nil (t : Tbl (List Nat)) (k : Nat) : Tbl.get? (setErr t k []) k = none :=
  (Tbl.get?_erase t k k).trans (if_pos rfl)

theorem get?_setErr_poison (t : Tbl (List Nat)) (k : Nat) : Tbl.get? (setErr t k poisonPattern) k = some poisonPattern :=
  (Tbl.get?_set t k k poisonPattern).trans (if_pos rfl)

theorem sideData_length (s : State) (b : Bool) (off : Nat) : (sideData s b off).length = 64 := Cells.readN_length ..

/-! ### The DRAM scrubber (R324) -/

/-- The time of a full pass, when the scrub ends one. -/
def dramPassEnds (pass : Bool) (s : State) : State := if pass then { s with mem := { s.mem with dramPassAt := s.now } } else s

/-- Each granule in the range that holds an error is read. -/
def scrubSide (b : Bool) (first count : Nat) (s : State) : State :=
  (((sideOf s b).errs.map Prod.fst).filter (fun g => decide (first ≤ g ∧ g < first + count))).foldl (fun s g => scrubGranule b g s) s

theorem scrubSide_now (b : Bool) (first count : Nat) (s : State) : (scrubSide b first count s).now = s.now :=
  State.get_foldl _ (fun s g => scrubGranule b g s) s .now fun s g => scrubGranule_get b g s .now (by decide)

theorem exec_dramScrub {s : State} {b : Bool} (first count : Nat) (nature : List (Nat × List Nat)) (pass : Bool)
    (hp : powered s = true) (hf : flushing s = false) (he : s.mem.dramScrubEn = true) (hs : sideServes s b = true) :
    exec (.dramScrub b first count nature pass) s = .next (dramPassEnds pass (scrubSide b first count
      (flipSide b (nature.filter (fun f => decide (first ≤ f.1 ∧ f.1 < first + count))) s))) := by
  show execDramScrub b first count nature pass s = _
  simp [execDramScrub, act, hp, hf, he, hs, dramPassEnds, scrubSide]

/-- The one granule in the range that holds an error is the one that the scrubber reads. -/
theorem scrubSide_one {s : State} {b : Bool} {first count g : Nat} {ps : List Nat}
    (h : (sideOf s b).errs.filter (fun p => decide (first ≤ p.1 ∧ p.1 < first + count)) = [(g, ps)]) :
    scrubSide b first count s = scrubGranule b g s := by
  have only : ((sideOf s b).errs.map Prod.fst).filter (fun g => decide (first ≤ g ∧ g < first + count)) = [g] := by
    rw [List.filter_map]
    exact congrArg (List.map Prod.fst) h
  rw [scrubSide, only]
  rfl

theorem sideErrs_of_one {s : State} {b : Bool} {first count g : Nat} {ps : List Nat}
    (h : (sideOf s b).errs.filter (fun p => decide (first ≤ p.1 ∧ p.1 < first + count)) = [(g, ps)]) : sideErrs s b (g * 64) = ps := by
  have stands := Tbl.get?_of_filter_eq (f := fun k => decide (first ≤ k ∧ k < first + count)) h
  simp [sideErrs, Tbl.getD, stands]

section
variable {s : State} {b : Bool} {g : Nat} {ps : List Nat} (he : sideErrs s b (g * 64) = ps) (hs : sideServes s b = true)
  (hi : s.mem.injArm = false)
include he hs hi

/-- R324: the corrected granule is rewritten, with fresh check bits, and counted. -/
theorem scrubGranule_corrected (hv : verdict 522 ps = .corrected) :
    let t := scrubGranule b g s
    Tbl.get? (sideOf t b).errs g = none ∧ (sideOf t b).corrected = satInc (sideOf s b).corrected 0xFFFF ∧
      sideData t b (64 * g) = dataCorrected (sideData s b (64 * g)) ps := by
  have left := sideOf_sideStore (g * 64) (dataCorrected (sideData s b (g * 64)) ps) []
    ((sideServes_countCorrected b (g * 64) s).trans hs) ((countCorrected_injArm ..).trans hi)
  rw [sideOf_countCorrected, Nat.mul_div_cancel g (by decide)] at left
  simp only [scrubGranule, he, hv, Nat.mul_comm 64 g]
  refine ⟨?_, congrArg Side.corrected left, sideData_of_stored (m := (sideOf s b).cells) ?_ ?_⟩
  · rw [left]; exact get?_setErr_nil ..
  · rw [left, Nat.mul_div_cancel g (by decide)]
  · rw [dataCorrected_length, sideData_length]

/-- R324: a bad granule of a single copy is counted and takes the poison pattern. -/
theorem scrubGranule_poisons (hv : verdict 522 ps = .uncorrectable) (hm : 2 ^ 20 * s.drc.mirrorMib ≤ 64 * g) :
    let t := scrubGranule b g s
    Tbl.get? (sideOf t b).errs g = some poisonPattern ∧ (sideOf t b).poisonWritten = satInc (sideOf s b).poisonWritten 0xFF ∧
      (sideOf t b).uncorrectable = satInc (sideOf s b).uncorrectable 0xFF := by
  have single : ¬ g * 64 < 2 ^ 20 * (countBad b (g * 64) .uncorrectable s).drc.mirrorMib := by
    rw [(countBad_mirror ..).1]; omega
  have left := sideOf_sideStore (g * 64) (dataRead (sideData (countBad b (g * 64) .uncorrectable s) b (g * 64)) ps) poisonPattern
    ((sideServes_countBad b (g * 64) .uncorrectable s b).trans hs) ((countBad_injArm ..).trans hi)
  rw [sideOf_countBad, Nat.mul_div_cancel g (by decide)] at left
  simp only [scrubGranule, he, hv, single, false_and, if_false, reduceCtorEq, storePoison, sideOf_modSide_same, sideOf_noteError, left]
  exact ⟨get?_setErr_poison .., trivial, trivial⟩

/-- R324: a bad granule of the mirrored region is rewritten from the other side. -/
theorem scrubGranule_mirrored (hv : verdict 522 ps = .uncorrectable) (hm : 64 * g < 2 ^ 20 * s.drc.mirrorMib)
    (ho : sideServes s (!b) = true) (hc : Tbl.get? (sideOf s (!b)).errs g = none) :
    let t := scrubGranule b g s
    Tbl.get? (sideOf t b).errs g = none ∧ sideData t b (64 * g) = sideData s (!b) (64 * g) ∧
      t.drc.mirrorRepairs = satInc s.drc.mirrorRepairs 0xFFFF := by
  have mirrored : g * 64 < 2 ^ 20 * (countBad b (g * 64) .uncorrectable s).drc.mirrorMib := by
    rw [(countBad_mirror ..).1]; omega
  have clean : sideErrs s (!b) (g * 64) = [] := by
    simp [sideErrs, Tbl.getD, hc]
  have other : decoded (countBad b (g * 64) .uncorrectable s) (!b) (g * 64) = sideData s (!b) (g * 64) := by
    rw [decoded, sideErrs, sideData, sideOf_countBad_other, ← sideErrs, clean]; rfl
  have decodable : decodes (verdict 522 []) = true := by decide
  have serves := (sideServes_countBad b (g * 64) .uncorrectable s b).trans hs
  have disarmed := (countBad_injArm b (g * 64) .uncorrectable s).trans hi
  have left := sideOf_sideStore (g * 64) (sideData s (!b) (g * 64)) [] serves disarmed
  rw [sideOf_countBad, Nat.mul_div_cancel g (by decide)] at left
  simp only [scrubGranule, he, hv, mirrored, sideServes_countBad, ho, clean, decodable, other, and_self, if_true, Nat.mul_comm 64 g]
  refine ⟨?_, sideData_of_stored (m := (sideOf s b).cells) ?_ (sideData_length ..), ?_⟩
  · rw [sideOf_countRepair, left]; exact get?_setErr_nil ..
  · rw [sideOf_countRepair, left, Nat.mul_div_cancel g (by decide)]
  · rw [countRepair, sideStore_inService _ _ _ serves disarmed, modSide_mirrorRepairs, (countBad_mirror ..).2]

end

/-! ### A bank gives way to a spare (R320) -/

/-- The banks and remaps once bank `unit`, which served the addresses of bank `b`, has given way to spare `sp`. -/
def bankGivesWay (unit b sp : Nat) (m : Mem) : Mem := { m with
  bankOk := setBit m.bankOk unit false
  bank32 := if sp = 32 then b else if unit = 32 then 0xFF else m.bank32
  bank33 := if sp = 33 then b else if unit = 33 then 0xFF else m.bank33
  remaps := m.remaps.filter (fun r => !(r.2.unit == unit))
  recent := m.recent.filter (fun r => !(r.1 == unit)) }

/-- The bytes of the granules of bank `b` come from their twins, where these decode. -/
def restoreGranules (b : Nat) (gs : List (Fin 4096)) (s : State) : State :=
  gs.foldl (fun s g => (List.range 256).foldl (fun s i => restoreTwin ((g.val * 32 + b) * 256 + i) s) s) s

theorem exec_hogsheadBankReplace {s : State} {unit : Fin 34} {reason : Fin 4} {b sp : Nat} (unreadable : List (Fin 4096)) (ns : Nat)
    (hp : powered s = true) (hb : (List.range 32).find? (fun b => servingBank s.mem b == unit.val) = some b)
    (hsp : bankSpare s = some sp) (hne : sp ≠ unit.val) (hok : unitOk s.mem.bankOk unit = true) (hd : bankDue s unit reason = true) :
    exec (.hogsheadBankReplace unit reason unreadable ns) s = .next (takeover 9 unit sp ns (restoreGranules b unreadable
      (noteRepair 2 unit sp { s with mem := unreadable.foldl (fun m g => wreckGranule b g.val m) (bankGivesWay unit b sp s.mem) }))) := by
  show execHogsheadBankReplace unit reason unreadable ns s = _
  simp only [execHogsheadBankReplace, hb, hsp, act, hp, hok, hd, beq_false_of_ne hne, Bool.not_false, Bool.and_self, if_true]
  rfl

/-- What the loss and the restoring of granules leave: the banks, their remaps and the repairs. -/
def banksOf (m : Mem) : (Nat × Nat × Nat) × Tbl Remap × List Repair := ((m.bankOk, m.bank32, m.bank33), m.remaps, m.repairs)

theorem hogStoreOne_banksOf (a : Nat) (b : Byte) (s : State) : banksOf (hogStoreOne a b s).mem = banksOf s.mem := by
  unfold hogStoreOne
  simp only
  split <;> rfl

theorem restoreTwin_banksOf (a : Nat) (s : State) : banksOf (restoreTwin a s).mem = banksOf s.mem := by
  unfold restoreTwin
  split
  · rfl
  · simp only
    split
    · exact hogStoreOne_banksOf ..
    · rfl

theorem restoreGranules_banksOf (b : Nat) (gs : List (Fin 4096)) (s : State) :
    banksOf (restoreGranules b gs s).mem = banksOf s.mem :=
  foldl_keeps (fun s => banksOf s.mem) gs (fun s _ => foldl_keeps (fun s => banksOf s.mem) _ (fun s _ => restoreTwin_banksOf _ s) s) s

theorem wreckGranules_banksOf (b : Nat) (gs : List (Fin 4096)) (m : Mem) :
    banksOf (gs.foldl (fun m g => wreckGranule b g.val m) m) = banksOf m :=
  foldl_keeps (f := fun m g => wreckGranule b g.val m) banksOf gs (fun _ _ => rfl) m

/-- The two spares are banks 32 and 33. -/
theorem bankSpare_cases {s : State} {sp : Nat} (h : bankSpare s = some sp) : sp = 32 ∨ sp = 33 := by
  unfold bankSpare at h
  split at h
  · exact .inl (Option.some.inj h).symm
  · split at h
    · exact .inr (Option.some.inj h).symm
    · cases h

theorem servingBank_congr {m m' : Mem} (h32 : m.bank32 = m'.bank32) (h33 : m.bank33 = m'.bank33) (b : Nat) :
    servingBank m b = servingBank m' b := by rw [servingBank, servingBank, h32, h33]

/-- R320: the addresses of the bank go to the spare. -/
theorem servingBank_bankGivesWay {m : Mem} {unit b sp : Nat} (hb : servingBank m b = unit) (hlt : b < 32)
    (hsp : sp = 32 ∨ sp = 33) : servingBank (bankGivesWay unit b sp m) b = sp := by
  rcases hsp with rfl | rfl
  · simp [servingBank, bankGivesWay]
  · have not32 : (if unit = 32 then 0xFF else m.bank32) ≠ b := by
      by_cases h : unit = 32
      · rw [if_pos h]; omega
      · rw [if_neg h]
        exact fun e => h (by rw [← hb, servingBank, if_pos e])
    simp [servingBank, bankGivesWay, not32]

/-- R320, R322: the banks, the remaps and the repairs once the takeover is reported. -/
theorem bankReplaced_banksOf (unit b sp ns : Nat) (gs : List (Fin 4096)) (s : State) :
    banksOf (takeover 9 unit sp ns (restoreGranules b gs (noteRepair 2 unit sp
      { s with mem := gs.foldl (fun m g => wreckGranule b g.val m) (bankGivesWay unit b sp s.mem) }))).mem =
    (((bankGivesWay unit b sp s.mem).bankOk, (bankGivesWay unit b sp s.mem).bank32, (bankGivesWay unit b sp s.mem).bank33),
      (bankGivesWay unit b sp s.mem).remaps, s.mem.repairs ++ [{ kind := 2, unit := unit, address := sp, seq := s.glb.seq }]) := by
  have wrecked := wreckGranules_banksOf b gs (bankGivesWay unit b sp s.mem)
  simp only [banksOf, Prod.mk.injEq] at wrecked
  obtain ⟨⟨hok, h32, h33⟩, hremaps, hrepairs⟩ := wrecked
  rw [mem_of_get (takeover_get _ _ _ _ _ .mem (by decide)), restoreGranules_banksOf]
  simp only [banksOf, noteRepair, hok, h32, h33, hremaps, hrepairs]
  rfl

/-! ### A line gives way to a spare line (R321) -/

theorem remapLine_free {s : State} {e line k : Nat} (hl : lineRemapped s.mem e line = false)
    (hk : Tbl.lowestFree s.mem.firkinRemaps (32 * e) 32 = some k) : remapLine e line s = { s with mem := { s.mem with
      firkinRemaps := Tbl.set s.mem.firkinRemaps k { unit := e, line := line, factory := false }
      repairs := s.mem.repairs ++ [{ kind := 3, unit := e, address := line, seq := s.glb.seq }] } } := by
  simp [remapLine, hl, hk, noteRepair]

/-- R321: what a failing line comes to while its engine serves and is not being retired. -/
theorem exec_firkinLineRemap {s : State} {e : Fin 36} {line : Fin 8192} {x : Engine} (ns : Nat) (hp : powered s = true)
    (hx : Tbl.get? s.sch.engines e = some x) (hr : x.role = .inService ∨ x.role = .spare)
    (hl : lineRemapped s.mem e line = false) (hn : ∀ r ∈ s.mem.retiring, r.1 ≠ e.val) :
    let due : State := { s with mem := { s.mem with retiring := s.mem.retiring ++ [(e.val, ns)] } }
    exec (.firkinLineRemap e line ns) s = .next (if firkinLines s.mem e < 32 then remapLine e line s
      else if x.role = .spare then settleFaults (modEngine e (fun x => { x with role := .failed }) s)
      else if x.ctx.isNone then retireDue e due else due) := by
  show execFirkinLineRemap e line ns s = _
  have works : (x.role == .inService || x.role == .spare) = true := by simpa using hr
  have noRetire : s.mem.retiring.any (fun r => r.1 == e.val) = false := List.any_eq_false.mpr fun r h => by simpa using hn r h
  simp only [execFirkinLineRemap, act, hx, hp, works, hl, noRetire, Bool.not_false, Bool.and_self, if_true]

theorem failedSpare_role {s : State} {e : Nat} {x : Engine} (h : Tbl.get? s.sch.engines e = some x) :
    Tbl.get? (settleFaults (modEngine e (fun x => { x with role := .failed }) s)).sch.engines e =
      some { x with role := .failed } := by
  rw [sch_of_get (settleFaults_get _ .sch (by decide)), modEngine, Tbl.get?_modify_self, h]
  rfl

theorem failedSpare_only (e : Nat) (s : State) :
    OnlyIn [.pwr, .sch] s (settleFaults (modEngine e (fun x => { x with role := .failed }) s)) := fun y hy => by
  simp only [List.mem_cons, List.not_mem_nil, or_false, not_or] at hy
  rw [settleFaults_get _ y (by simpa using hy.1), modEngine_get _ _ _ y (by simpa using hy.2)]

/-! ### A side fails (R328), an injection is armed (R341) -/

theorem exec_dramSideFail {s : State} {b : Bool} {reason : Fin 3} (dropped : List (Nat × Nat)) (ns : Nat) (hp : powered s = true)
    (hst : (sideOf s b).st = .inService ∨ (sideOf s b).st = .shed ∨ (sideOf s b).st = .training) (hd : sideDue s b reason = true) :
    exec (.dramSideFail b reason dropped ns) s = .next (failSide b dropped ns s) := by
  show execDramSideFail b reason dropped ns s = _
  have stood : ((sideOf s b).st == .inService || (sideOf s b).st == .shed || (sideOf s b).st == .training) = true := by
    simpa [or_assoc] using hst
  simp only [execDramSideFail, act, hp, stood, hd, Bool.and_self, if_true]

theorem failSide_drc (b : Bool) (dropped : List (Nat × Nat)) (ns : Nat) (s : State) : (failSide b dropped ns s).drc =
    (modSide b (fun x => { x with st := .failed, retrain := false, retraining := none, logged := [] }) s).drc :=
  drc_of_get (takeover_get _ _ _ _ _ .drc (by decide))

theorem failSide_sides (b : Bool) (dropped : List (Nat × Nat)) (ns : Nat) (s : State) :
    (sideOf (failSide b dropped ns s) b).st = .failed ∧ sideOf (failSide b dropped ns s) (!b) = sideOf s (!b) := by
  simp only [sideOf, failSide_drc]
  cases b <;> exact ⟨rfl, rfl⟩

theorem failSide_packages (b : Bool) (dropped : List (Nat × Nat)) (ns : Nat) (s : State) :
    (failSide b dropped ns s).bsh.packages = s.bsh.packages.filter (fun p => !dropped.contains (p.vol, p.lba)) := by
  rw [failSide, bsh_of_get (takeover_get _ _ _ _ _ .bsh (by decide))]
  cases b <;> rfl

theorem exec_memInjArm {s : State} {fn : Fin 2} {v : BitVec 32} (hb : bar0Answers s fn 0xF034 = true) (ha : bit v.toNat 31 = true) :
    exec (.memInjArm fn v) s = .next (writeInjCtl v.toNat s) := by
  show execMemInjArm fn v s = _
  simp [execMemInjArm, act, hb, ha]

/-- R341: positions 0 to 12 are legal for every target. -/
theorem injBitLegal_byte {p : Nat} (target : Nat) (h : p ≤ 12) : injBitLegal target p = true := by
  unfold injBitLegal
  split
  · exact decide_eq_true h
  · split <;> exact decide_eq_true (by omega)

/-- Settles O46: a scrub of one error by its verdict, a repair by the state that it leads to, an injection by its fields. -/
theorem memoriesAreScrubbedAndRepaired : Obligations.MemoriesAreScrubbedAndRepaired := by
  refine ⟨?sram, ?dram, ?bank, ?line, ?side, ?inject⟩
  case sram =>
    intro s target first len nature hard pass hp hf he
    have next := exec_sramScrub target first len nature hard pass hp hf he
    refine ⟨⟨_, next, ?passTime, OnlyIn.mono _ _ _ _ (onlyIn_of_next (execSramScrub_next ..) next) (by decide)⟩, fun a ps h hi => ?_⟩
    case passTime =>
      rintro rfl
      exact scrubSram_get _ _ _ _ _ s .now (by decide)
    have next := exec_sramScrub 0 first len [] [] pass hp hf he
    rw [show ((0 : Fin 4) : Nat) = 0 from rfl, scrubSram_one h] at next
    refine ⟨fun hv => ⟨_, next, ?_⟩, fun hv ht => ⟨_, next, ?_⟩⟩
    · cases pass <;> exact scrubHog_corrected hv hi
    · cases pass <;> exact scrubHog_uncorrectable hv ht
  case dram =>
    intro s b first count nature pass hp hf he hs
    have next := exec_dramScrub first count nature pass hp hf he hs
    refine ⟨⟨_, next, ?passTime, onlyIn_of_next (execDramScrub_next ..) next⟩, fun g ps h hi => ?_⟩
    case passTime =>
      rintro rfl
      exact (scrubSide_now ..).trans (flipSide_get _ _ s .now (by decide))
    have next := exec_dramScrub first count [] pass hp hf he hs
    rw [show flipSide b (([] : List (Nat × List Nat)).filter _) s = s from rfl, scrubSide_one h] at next
    have herrs := sideErrs_of_one h
    refine ⟨fun hv => ⟨_, next, ?_⟩, fun hv hm => ⟨_, next, ?_⟩, fun hv hm ho hc => ⟨_, next, ?_⟩⟩
    · cases pass <;> exact scrubGranule_corrected herrs hs hi hv
    · cases pass <;> exact scrubGranule_poisons herrs hs hi hv hm
    · cases pass <;> exact scrubGranule_mirrored herrs hs hi hv hm ho hc
  case bank =>
    intro s unit reason unreadable ns b sp hp hb hsp hne hok hd
    have next := exec_hogsheadBankReplace unreadable ns hp hb hsp hne hok hd
    have served : servingBank s.mem b = unit.val := by simpa using List.find?_some hb
    have below : b < 32 := List.mem_range.mp (List.mem_of_find?_eq_some hb)
    have left := bankReplaced_banksOf unit b sp ns unreadable s
    simp only [banksOf, Prod.mk.injEq] at left
    obtain ⟨⟨hbanks, h32, h33⟩, hremaps, hrepairs⟩ := left
    refine ⟨_, next, ?_, ?_, ?_, hrepairs, onlyIn_of_next (execHogsheadBankReplace_next ..) next⟩
    · rw [servingBank_congr h32 h33, servingBank_bankGivesWay served below (bankSpare_cases hsp)]
    · rw [hbanks]
      exact bit_setBit_false ..
    · rw [hremaps]
      intro r hr
      simpa using (List.mem_filter.mp hr).2
  case line =>
    intro s e line ns x hp hx hr hl hn
    have next := exec_firkinLineRemap ns hp hx hr hl hn
    refine ⟨fun k hf hk => exec_becomes next ((if_pos hf).trans (remapLine_free hl hk)),
      fun hf hin hc => exec_becomes next ?retires, fun hf hsp => ?spare⟩
    case retires => simp [Nat.not_lt.mpr hf, hin, hc]
    case spare =>
      exact ⟨_, exec_becomes next ((if_neg (Nat.not_lt.mpr hf)).trans (if_pos hsp)), ⟨_, failedSpare_role hx, rfl⟩,
        failedSpare_only _ s⟩
  case side =>
    intro s b reason dropped ns hp hst hd
    have next := exec_dramSideFail dropped ns hp hst hd
    obtain ⟨hfailed, hother⟩ := failSide_sides b dropped ns s
    refine ⟨_, next, hfailed, hother, fun p => ?_, onlyIn_of_next (execDramSideFail_next ..) next⟩
    simp [failSide_packages]
  case inject =>
    intro s fn v hb ha
    have next := exec_memInjArm hb ha
    refine ⟨_, next, ha, fun h => if_pos h, fun h => if_neg (by omega), fun h => if_pos h,
      fun h => if_pos (injBitLegal_byte _ h), fun h => if_pos (injBitLegal_byte _ h), rfl, rfl, onlyIn_of_next (execMemInjArm_next ..) next⟩

end Sys2Proof.Machine

/-! Obligation O57 (ResetIsAsTheSpecSays): what the registers read after reset. A long array of registers is read over a table that
holds nothing yet, and its lemma says what such a read answers at every offset of the array; single registers are evaluated. -/

namespace Sys2Proof.Machine

/-! ### The block of an offset -/

section
variable {off : Nat}

theorem blockOf_hif (lo : 0x2000 ≤ off) (hi : off < 0x4000) : blockOf off = 2 := by grind [blockOf]
theorem blockOf_mgr (lo : 0x4000 ≤ off) (hi : off < 0x8000) : blockOf off = 3 := by grind [blockOf]
theorem blockOf_flc (lo : 0x10000 ≤ off) (hi : off < 0x14000) : blockOf off = 10 := by grind [blockOf]
theorem blockOf_spn (lo : 0x16000 ≤ off) (hi : off < 0x17000) : blockOf off = 12 := by grind [blockOf]

variable (s : State) (fn : Nat)

theorem readReg_hif (lo : 0x2000 ≤ off) (hi : off < 0x4000) : readReg s fn off = readHif s (off - 0x2000) := by
  simp [readReg, blockOf_hif lo hi]

theorem readReg_mgr (lo : 0x4000 ≤ off) (hi : off < 0x8000) : readReg s fn off = readMgr s (off - 0x4000) := by
  simp [readReg, blockOf_mgr lo hi]

theorem readReg_flc (lo : 0x10000 ≤ off) (hi : off < 0x14000) :
    readReg s fn off = readFlc s ((off - 0x10000) / 0x400) (off % 0x400) := by
  simp [readReg, blockOf_flc lo hi]

theorem readReg_spn (lo : 0x16000 ≤ off) (hi : off < 0x17000) : readReg s fn off = readSpn s (off - 0x16000) := by
  simp [readReg, blockOf_spn lo hi]

end

/-! ### Arrays of registers over tables that hold nothing -/

/-- Without a channel and a die, before STAGE 4, a channel's registers read 0 but for PATROL_EN (Table 15.9). -/
theorem readFlc_of_absent {s : State} (hc : s.flc.channels = []) (hd : s.flc.dies = []) (hs : s.glb.stage ≤ 3) (n off : Nat) :
    readFlc s n off = if off = 0 then 1 else 0 := by
  have die : readDie s (16 * n) off = 0 := by simp [readDie, hd, Nat.not_lt.mpr hs]
  have serves (k : Nat) : dieServes s (16 * n + k) = false := by simp [dieServes, hd]
  simp [readFlc, hc, hd, die, serves, Tbl.getD, resetChan, chanCode, bitmap, noDie, b2n, pack, lo32]

/-- Without routing entries each range reads 0, and the ports of each are (3, 3), not valid (Table 15.9). -/
theorem readSpn_of_no_routes {s : State} (hr : s.spn.ranges = []) (ha : s.spn.attrs = []) {off : Nat} (lo : 0x100 ≤ off)
    (hi : off < 0x300) : readSpn s off = if off % 8 = 0 then 0 else 0x33 := by
  simp (disch := omega) [readSpn, hr, ha, Tbl.getD, pack, b2n, if_pos, if_neg]

section
variable {off : Nat}

theorem readReg_channels_reset (lo : 0x10000 ≤ off) (hi : off < 0x14000) :
    readReg State.reset 0 off = if off % 0x400 = 0 then 1 else 0 := by
  rw [readReg_flc _ _ lo hi, readFlc_of_absent rfl rfl (by decide)]

theorem readReg_routes_reset (lo : 0x16100 ≤ off) (hi : off < 0x16300) :
    readReg State.reset 0 off = if off % 8 = 0 then 0 else 0x33 := by
  have same : (off - 0x16000) % 8 = off % 8 := by omega
  rw [readReg_spn _ _ (by omega) (by omega), readSpn_of_no_routes rfl rfl (by omega) (by omega), same]

/-- Of instance 0 no tag is busy and the ring is off; every other instance is ABSENT. -/
theorem readInstSts_reset (n : Nat) : readInstSts State.reset n = 0 := by
  by_cases h : n = 0
  · subst h; rfl
  · simp [readInstSts, State.reset, Tbl.get?, h]

theorem lastSeq_reset (n : Nat) : (Tbl.get? State.reset.insts n).elim 0 (fun i => lo32 i.ring.lastSeq) = 0 := by
  by_cases h : n = 0
  · subst h; rfl
  · simp [State.reset, Tbl.get?, h]

theorem readSliceMap_reset (w : Nat) : readSliceMap State.reset w = 0 := rfl

/-- The statuses, sequence numbers and slice windows of the instances, and the counts of their errors, all read 0. -/
theorem readReg_instances_reset (lo : 0x2200 ≤ off) (hi : off < 0x2444) : readReg State.reset 0 off = 0 := by
  rw [readReg_hif _ _ (by omega) (by omega)]
  unfold readHif
  repeat rw [if_neg (by omega)]
  simp only [readInstSts_reset, lastSeq_reset, readSliceMap_reset]
  split_ifs <;> rfl

/-- The mailbox areas hold nothing, and no migration has run. -/
theorem readReg_areas_reset (lo : 0x4100 ≤ off) (hi : off < 0x4400) : readReg State.reset 0 off = 0 := by
  have selected : readSelected resetInst0 (off - 0x4000) = 0 := by
    unfold readSelected
    repeat rw [if_neg (by omega)]
    split_ifs <;> rfl
  have noLog : ¬(0x400 ≤ off - 0x4000 ∧ off - 0x4000 < 0x480) := by omega
  rw [readReg_mgr _ _ (by omega) (by omega)]
  unfold readMgr
  repeat rw [if_neg (by omega)]
  simp only [if_neg noLog]
  split_ifs
  exacts [rfl, rfl, rfl, rfl, selected]

end

/-- Settles O57: the channels, the routes, the instances and the mailbox areas by what their empty tables read, the other registers
and the window of instance 0 by evaluation. -/
theorem resetIsAsTheSpecSays : Obligations.ResetIsAsTheSpecSays := by
  unfold Obligations.ResetIsAsTheSpecSays
  refine ⟨?values, ?arrays, ?zeros, ?channels, ?ranges, ⟨resetInst0, rfl, ?window⟩, ?lists⟩
  case values => decide
  case arrays =>
    simp only [List.forall_mem_cons]
    refine ⟨?wayMasks, fun k hk => ?channel, fun k hk => ?route, ?limits, List.forall_mem_nil _⟩
    case channel => rw [readReg_channels_reset (by omega) (by omega), if_pos (by omega)]
    case route => rw [readReg_routes_reset (by omega) (by omega), if_neg (by omega)]
    case wayMasks => decide
    case limits => decide
  case zeros =>
    intro r hr
    obtain rfl | notInstances := eq_or_ne r (0x2200, 145)
    · exact fun k hk => readReg_instances_reset (by omega) (by omega)
    obtain rfl | notAreas := eq_or_ne r (0x4100, 132)
    · exact fun k hk => readReg_areas_reset (by omega) (by omega)
    · revert r
      decide
  case channels =>
    intro n hn
    constructor <;>
    · intro k hk
      rw [readReg_channels_reset (by omega) (by omega), if_neg (by omega)]
  case ranges =>
    intro n hn
    rw [readReg_routes_reset (by omega) (by omega), if_pos (by omega)]
  case window => decide
  case lists => decide

end Sys2Proof.Machine

/-! Obligation O31 (ExletPortsTrainAndRecover): what a flit that is sent leaves of the links, and what each row of an Exlet port makes of
the port. -/

namespace Sys2Proof.Machine

/-! ### Flits that are sent (R379, R380, R388) -/

/-- The span but for what a flit on its way touches: ports, lanes, inbox, transactions, the count of drops and the time of the ANNOUNCE. -/
def restOfSpan (s : State) : Spn :=
  { s.spn with ports := [], wire := [], inbox := [], xacts := [], drops := 0, announcedAt := 0 }

/-- From `s` to `t` flits are sent, delivered or dropped: the links keep all but their sequence numbers and buffers. -/
structure Sent (s t : State) : Prop where
  link : SameLink s t
  rest : restOfSpan t = restOfSpan s

theorem Sent.refl (s : State) : Sent s s := ⟨SameLink.refl s, rfl⟩

theorem Sent.trans {s t u : State} (h : Sent s t) (h' : Sent t u) : Sent s u := ⟨h.link.trans h'.link, h'.rest.trans h.rest⟩

theorem Sent.of_spn {s t : State} (h : t.spn = s.spn) : Sent s t := ⟨SameLink.of (by rw [h]), by rw [restOfSpan, h, restOfSpan]⟩

theorem Sent.of_ports {s t : State} (h : t.spn.ports = s.spn.ports) (h' : restOfSpan t = restOfSpan s) : Sent s t := ⟨SameLink.of h, h'⟩

theorem Sent.fold {α : Type} (l : List α) (f : State → α → State) (h : ∀ s a, Sent s (f s a)) (s : State) : Sent s (l.foldl f s) := by
  induction l generalizing s with
  | nil => exact Sent.refl s
  | cons a l ih => exact (h s a).trans (ih _)

theorem Sent.served {s t : State} (h : Sent s t) : t.spn.served = s.spn.served := (congrArg Spn.served h.rest :)
theorem Sent.kept {s t : State} (h : Sent s t) : t.spn.kept = s.spn.kept := (congrArg Spn.kept h.rest :)
theorem Sent.pairRx {s t : State} (h : Sent s t) : t.spn.pairRx = s.spn.pairRx := (congrArg Spn.pairRx h.rest :)

/-- A port's buffers and its next LSEQ are not part of what `Sent` keeps. -/
theorem modEPort_sent (p : Nat) {f : EPort → EPort} (s : State) (h : ∀ q, ∃ tx retry waiting flits,
    f q = { q with txSeq := tx, retry := retry, waiting := waiting, flits := flits }) : Sent s (modEPort p f s) where
  link := SameLink.mod p f s fun q => by
    obtain ⟨_, _, _, _, hf⟩ := h q
    rw [hf]
    exact ⟨rfl, rfl, rfl, rfl, rfl, rfl, rfl, rfl⟩
  rest := rfl

theorem onWire_sent (p : Nat) (f : Flit) (s : State) : Sent s (onWire p f s) := .of_ports rfl rfl

theorem sendUnsequenced_sent (p type : Nat) (s : State) : Sent s (sendUnsequenced p type s) := onWire_sent ..

theorem sendSequenced_sent (p : Nat) (f : Flit) (s : State) : Sent s (sendSequenced p f s) := by
  unfold sendSequenced
  extract_lets q g
  split
  · exact modEPort_sent p s fun _ => ⟨_, _, _, _, rfl⟩
  · exact (modEPort_sent p s fun _ => ⟨_, _, _, _, rfl⟩).trans (onWire_sent ..)

theorem deliverHere_sent (p : Nat) (f : Flit) (s : State) : Sent s (deliverHere p f s) := .of_ports rfl rfl

theorem dropFlit_sent (s : State) : Sent s (dropFlit s) := .of_ports rfl rfl

theorem forwardFlit_sent (arrival : Option Nat) (p : Nat) (f : Flit) (s : State) : Sent s (forwardFlit arrival p f s) :=
  sendSequenced_sent ..

theorem routeAnswer_sent (f : Flit) (s : State) : Sent s (routeAnswer f s) := by
  unfold routeAnswer
  split
  · exact deliverHere_sent ..
  · exact forwardFlit_sent ..
  · exact dropFlit_sent s

theorem route_sent (arrival : Option Nat) (f : Flit) (s : State) : Sent s (route arrival f s) := by
  unfold route
  split
  · exact deliverHere_sent ..
  · exact forwardFlit_sent ..
  · split
    · split
      · exact routeAnswer_sent ..
      · exact Sent.refl s
    · exact dropFlit_sent s

theorem sendMessage_sent (type dest xid budget : Nat) (resent : Bool) (first rest : List Byte) (s : State) :
    Sent s (sendMessage type dest xid budget resent first rest s) := Sent.fold _ _ (fun _ _ => route_sent ..) s

theorem flood_sent (but : Option Nat) (f : Flit) (s : State) : Sent s (flood but f s) :=
  Sent.fold _ _ (fun s p => by
    split
    · exact sendSequenced_sent ..
    · exact Sent.refl s) s

theorem announce_sent (leaving : Bool) (s : State) : Sent s (announce leaving s) := by
  unfold announce
  split
  · exact Sent.refl s
  · exact Sent.trans (t := { s with spn := { s.spn with announcedAt := s.now } }) (.of_ports rfl rfl) (flood_sent ..)

theorem handFlit_sent (p : Nat) (f : Flit) (s : State) : Sent s (handFlit p f s) := by
  unfold handFlit
  split
  · exact dropFlit_sent s
  · split
    · exact Sent.refl s
    · split
      · exact deliverHere_sent ..
      · exact route_sent ..

theorem sendWaiting_sent (n p : Nat) (s : State) : Sent s (sendWaiting n p s) := by
  induction n generalizing s with
  | zero => exact Sent.refl s
  | succ n ih =>
    simp only [sendWaiting]
    split
    · exact Sent.refl s
    · split
      · exact Sent.refl s
      · exact ((modEPort_sent p s fun _ => ⟨_, _, _, _, rfl⟩).trans (sendSequenced_sent ..)).trans (ih _)

theorem takeLack_sent (p : Nat) (f : Flit) (s : State) : Sent s (takeLack p f s) := by
  unfold takeLack
  split
  · exact (modEPort_sent p s fun _ => ⟨_, _, _, _, rfl⟩).trans (sendWaiting_sent ..)
  · exact Sent.refl s

theorem rerouteRetry_sent (p : Nat) (s : State) : Sent s (rerouteRetry p s) := by
  unfold rerouteRetry
  refine (modEPort_sent p s fun _ => ⟨_, _, _, _, rfl⟩).trans (Sent.fold _ _ (fun s f => ?_) _)
  split
  · exact Sent.refl s
  · exact route_sent ..

/-! ### A port's record -/

theorem eport_eq {s : State} {p : Nat} {q : EPort} (h : Tbl.get? s.spn.ports p = some q) : eport s p = q := by
  simp [eport, Tbl.getD, h]

/-- A port that is not there reads as DISABLED. -/
theorem ports_isSome {s : State} {p : Nat} (h : (eport s p).st ≠ .disabled) : (Tbl.get? s.spn.ports p).isSome := by
  cases hq : Tbl.get? s.spn.ports p with
  | some q => rfl
  | none => simp [eport, Tbl.getD, hq, resetEPort] at h

theorem modEPort_get?_self {s : State} {p : Nat} {q : EPort} (f : EPort → EPort) (h : Tbl.get? s.spn.ports p = some q) :
    Tbl.get? (modEPort p f s).spn.ports p = some (f q) := by
  simp only [modEPort, Tbl.get?_modify_self, h, Option.map_some]

/-- What a port is as it enters a state (R382, R403). -/
def entered (st : PortSt) (now : Nat) (q : EPort) : EPort :=
  { q with st := st, since := now, downs := if st = .down then satInc q.downs 0xFFFF else q.downs }

/-- After the port has changed its state, what goes on is the event and the ANNOUNCE. -/
theorem setPort_sent (p : Nat) (st : PortSt) (s : State) : Sent (modEPort p (entered st s.now) s) (setPort p st s) := by
  unfold setPort
  refine Sent.trans ?_ (announce_sent ..)
  exact Sent.of_ports rfl rfl

/-- A port that enters a state, and flits sent after. -/
theorem entered_of_sent {s t : State} {p : Nat} {st : PortSt} {q : EPort} (hq : Tbl.get? s.spn.ports p = some q)
    (h : Sent (setPort p st s) t) : (eport t p).st = st ∧ (eport t p).since = s.now ∧
      (eport t p).downs = (entered st s.now q).downs ∧ (eport t p).neighbour = q.neighbour ∧ (eport t p).nbPort = q.nbPort := by
  obtain ⟨hst, hsince, hdowns, -, -, -, hnb, hport⟩ := ((setPort_sent p st s).trans h).link p
  rw [eport_eq (modEPort_get?_self _ hq)] at hst hsince hdowns hnb hport
  exact ⟨hst, hsince, hdowns, hnb, hport⟩

theorem eport_onWire (p r : Nat) (f : Flit) (s : State) : eport (onWire p f s) r = eport s r := rfl

/-- R380: with room in the retry buffer a sequenced flit stands there, under the next LSEQ. -/
theorem eport_sendSequenced {s : State} {p : Nat} (f : Flit) (hp : (Tbl.get? s.spn.ports p).isSome)
    (hr : (eport s p).retry.length < 128) : eport (sendSequenced p f s) p = { eport s p with
      txSeq := ((eport s p).txSeq + 1) % 4096
      retry := (eport s p).retry ++ [withLack (eport s p) { f with lseq := (eport s p).txSeq }]
      flits := (eport s p).flits + 1 } := by
  unfold sendSequenced
  extract_lets q g
  rw [if_neg (Nat.not_le.mpr hr)]
  rw [eport_onWire, eport_mod, if_pos ⟨rfl, hp⟩]

/-! ### Flits that arrive (R380) -/

section
variable {s : State} {port : Fin 3} {q : EPort}

theorem exec_flitReceived {bytes : List Byte} (hs : powered s = true) (hq : Tbl.get? s.spn.ports port = some q)
    (hst : q.st = .hello ∨ q.st = .active) : exec (.flitReceived port bytes) s = .next (receive port bytes s) := by
  have carries : ((eport s port).st == .hello || portActive s port) = true := by
    simpa [portActive, eport_eq hq] using hst
  show execFlitReceived port bytes s = _
  simp only [execFlitReceived, act, hs, carries, Bool.and_self, if_true]

/-- A port that has discarded a flit. -/
def discarded (crcBad : Bool) (q : EPort) : EPort :=
  { q with crcErr := if crcBad then satInc q.crcErr 0xFFFF else q.crcErr, nakSent := true }

/-- R380: the port is the same whether a NAK goes out or not. -/
theorem discardFlit_port (crcBad : Bool) (hq : Tbl.get? s.spn.ports port = some q) :
    Tbl.get? (discardFlit port crcBad s).spn.ports port = some (discarded crcBad q) := by
  unfold discardFlit
  extract_lets q' u
  split <;> exact modEPort_get?_self (discarded crcBad) hq

theorem discardFlit_wire (crcBad : Bool) (hq : Tbl.get? s.spn.ports port = some q) :
    (q.nakSent = true → (discardFlit port crcBad s).spn.wire = s.spn.wire) ∧
    (q.nakSent = false → ∃ b, (discardFlit port crcBad s).spn.wire = s.spn.wire ++ [(port.val, b)]) := by
  unfold discardFlit
  rw [eport_eq hq]
  constructor <;> intro h <;> simp only [h, if_true, Bool.false_eq_true, if_false]
  · rfl
  · exact ⟨_, rfl⟩

theorem discardFlit_inbox (p : Nat) (crcBad : Bool) (s : State) : (discardFlit p crcBad s).spn.inbox = s.spn.inbox := by
  unfold discardFlit
  extract_lets q u
  split <;> rfl

/-- A port that has accepted the flit it expected. -/
def accepted (q : EPort) : EPort := { q with rxSeq := (q.rxSeq + 1) % 4096, rxValid := true, nakSent := false }

theorem acceptFlit_sent (p : Nat) (f : Flit) (s : State) : Sent (modEPort p accepted s) (acceptFlit p f s) :=
  ((takeLack_sent ..).trans (handFlit_sent ..)).trans (sendUnsequenced_sent ..)

theorem receive_bad {bytes : List Byte} (p : Nat) (s : State) (h : flitOf bytes = none) : receive p bytes s = discardFlit p true s := by
  simp only [receive, h]

theorem receive_sequenced {bytes : List Byte} {f : Flit} (hq : Tbl.get? s.spn.ports port = some q) (h : flitOf bytes = some f)
    (hf : sequenced f.type = true) :
    receive port bytes s = if f.lseq = q.rxSeq then acceptFlit port f s else discardFlit port false s := by
  simp only [receive, h, hf, eport_eq hq, Bool.not_true, Bool.false_eq_true, if_false]

/-! ### A NAK (R380) -/

theorem exec_nak (hs : powered s = true) (hq : Tbl.get? s.spn.ports port = some q) (ha : (arrived s port tNak).isSome = true)
    (hr : q.retry ≠ []) : exec (.nak port) s = .next (resendAll port (takeArrived port tNak s)) := by
  show execNak port s = _
  simp [execNak, act, hs, ha, eport_eq hq, hr]

/-- Flits handed to the lanes one after the other go out in order, and the ports stay. -/
theorem foldl_onWire (p : Nat) (g : Flit → Flit) (fs : List Flit) (s : State) :
    (fs.foldl (fun s f => onWire p (g f) s) s).spn.ports = s.spn.ports ∧
      (fs.foldl (fun s f => onWire p (g f) s) s).spn.wire = s.spn.wire ++ fs.map (fun f => (p, flitBytes (g f))) := by
  induction fs generalizing s with
  | nil => simp
  | cons f fs ih =>
    obtain ⟨hports, hwire⟩ := ih (onWire p (g f) s)
    exact ⟨hports, by rw [List.foldl_cons, hwire, List.map_cons, onWire, List.append_assoc, List.singleton_append]⟩

theorem resendAll_resends (hq : Tbl.get? s.spn.ports port = some q) :
    Tbl.get? (resendAll port s).spn.ports port = some { q with resends := satInc q.resends 0xFFFF } ∧
      (resendAll port s).spn.wire = s.spn.wire ++ q.retry.map (fun f => (port.val, flitBytes (withLack q f))) := by
  unfold resendAll
  rw [eport_eq hq]
  obtain ⟨hports, hwire⟩ :=
    foldl_onWire port (withLack q) q.retry (modEPort port (fun q => { q with resends := satInc q.resends 0xFFFF }) s)
  exact ⟨by rw [hports, modEPort_get?_self _ hq], hwire⟩

/-! ### Training (R381) -/

/-- The link starts again at LSEQ 0, its buffers empty (log entry 15). -/
def freshLink (q : EPort) : EPort :=
  { q with txSeq := 0, rxSeq := 0, rxValid := false, nakSent := false, retry := [], waiting := [] }

/-- The port in HELLO over a fresh link, before HELLO goes out. -/
def linkBegun (port : Nat) (s : State) : State := modEPort port freshLink (setPort port .hello s)

theorem exec_lanesTrained (hs : powered s = true) (hq : Tbl.get? s.spn.ports port = some q) (hst : q.st = .training) :
    exec (.lanesTrained port) s = .next (sendSequenced port
      (newFlit (linkBegun port s) tHello 0 0 0 noBudget true (helloPayload (linkBegun port s) port)) (linkBegun port s)) := by
  show execLanesTrained port s = _
  simp only [execLanesTrained, act, hs, eport_eq hq, hst, beq_self_eq_true, Bool.and_self, if_true]
  rfl

theorem eport_linkBegun (hq : Tbl.get? s.spn.ports port = some q) :
    (Tbl.get? (linkBegun port s).spn.ports port).isSome ∧
      ∃ e, eport (linkBegun port s) port = freshLink e ∧ e.st = .hello ∧ e.since = s.now := by
  obtain ⟨hst, hsince, -, -, -⟩ := entered_of_sent hq (Sent.refl (setPort port .hello s))
  have there := ports_isSome (s := setPort port .hello s) (p := port) (by rw [hst]; decide)
  have e : eport (linkBegun port s) port = freshLink (eport (setPort port .hello s) port) := by
    rw [linkBegun, eport_mod, if_pos ⟨rfl, there⟩]
  exact ⟨ports_isSome (by rw [e, freshLink, hst]; decide), _, e, hst, hsince⟩

/-! ### The timers and the failure of a port (R381, R382) -/

theorem exec_trainingTimeout (hs : powered s = true) (hq : Tbl.get? s.spn.ports port = some q) (hst : q.st = .training)
    (ht : 50000 + q.since ≤ s.now) : exec (.trainingTimeout port) s = .next (portDown port s) := by
  show execTrainingTimeout port s = _
  simp [execTrainingTimeout, act, hs, eport_eq hq, hst, ht]

theorem exec_helloTimeout (hs : powered s = true) (hq : Tbl.get? s.spn.ports port = some q) (hst : q.st = .hello)
    (ht : 1000 + q.since ≤ s.now) : exec (.helloTimeout port) s = .next (portDown port s) := by
  show execHelloTimeout port s = _
  simp [execHelloTimeout, act, hs, eport_eq hq, hst, ht]

theorem exec_exletPortFail (ns : Nat) (hs : powered s = true) (hq : Tbl.get? s.spn.ports port = some q) (hst : q.st = .active) :
    exec (.exletPortFail port ns) s = .next (takeover 14 port (rerouteTarget q (setPort port .down s)) ns (portDown port s)) := by
  show execExletPortFail port ns s = _
  simp only [execExletPortFail, act, hs, portActive, eport_eq hq, hst, beq_self_eq_true, Bool.and_self, if_true]
  rfl

theorem exec_portRetryTimer (hs : powered s = true) (hq : Tbl.get? s.spn.ports port = some q) (hst : q.st = .down ∨ q.st = .conflict)
    (ht : 100000 + q.since ≤ s.now) : exec (.portRetryTimer port) s = .next (setPort port .training s) := by
  show execPortRetryTimer port s = _
  rcases hst with h | h <;> simp [execPortRetryTimer, act, hs, eport_eq hq, h, ht, startTraining]

theorem takeover_sent (code unit repl ns : Nat) (s : State) : Sent s (takeover code unit repl ns s) :=
  .of_spn (spn_of_get (takeover_get _ _ _ _ _ .spn (by decide)))

/-- R382: a port that goes DOWN, whatever its flits come to. -/
theorem down_of_sent {t : State} (hq : Tbl.get? s.spn.ports port = some q) (h : Sent (portDown port s) t) :
    (eport t port).st = .down ∧ (eport t port).since = s.now ∧ (eport t port).downs = satInc q.downs 0xFFFF := by
  obtain ⟨hst, hsince, hdowns, -, -⟩ := entered_of_sent hq ((rerouteRetry_sent port _).trans h)
  exact ⟨hst, hsince, hdowns⟩

/-! ### HELLO (R381) -/

/-- The port notes who stands at the far end. -/
def heard (f : Flit) (q : EPort) : EPort := { q with neighbour := field f.payload 0 2, nbPort := field f.payload 2 1 % 4 }

theorem exec_hello {f : Flit} (hs : powered s = true) (hq : Tbl.get? s.spn.ports port = some q) (hst : q.st = .hello)
    (hf : arrived s port tHello = some f) : exec (.hello port) s = .next (takeHello port f (takeArrived port tHello s)) := by
  show execHello port s = _
  simp only [execHello, act, hf, hs, eport_eq hq, hst, beq_self_eq_true, Bool.and_self, if_true]

/-- Another device at the far end: the port becomes ACTIVE. -/
theorem exec_hello_other {f : Flit} (hs : powered s = true) (hq : Tbl.get? s.spn.ports port = some q) (hst : q.st = .hello)
    (hf : arrived s port tHello = some f) (hid : field f.payload 0 2 ≠ s.spn.spanId) : exec (.hello port) s =
      .next (setPort port .active (modEPort port (heard f) (takeArrived port tHello s))) :=
  (exec_hello hs hq hst hf).trans (congrArg _ (if_pos hid))

/-- The port in CONFLICT, before the health log notes it. -/
def conflictAt (p : Nat) (f : Flit) (s : State) : State := setPort p .conflict (modEPort p (heard f) s)

theorem takeHello_own {f : Flit} (p : Nat) (hid : field f.payload 0 2 = s.spn.spanId) (hj : s.spn.joining = none) :
    takeHello p f s = logHealth (Config.freeNat (conflictAt p f s).fresh 0 % 65536) 0xFF 0xFFFF p 0 0
      (bytesAt f.payload 4 16) (bumpFresh (conflictAt p f s)) := by
  unfold takeHello
  extract_lets id dev
  rw [if_neg (not_not_intro hid), if_neg (by simp [hj])]
  rfl

/-- The device's own Span ID at the far end: the port is in CONFLICT, which the health log notes. -/
theorem exec_hello_own {f : Flit} (hs : powered s = true) (hq : Tbl.get? s.spn.ports port = some q) (hst : q.st = .hello)
    (hf : arrived s port tHello = some f) (hid : field f.payload 0 2 = s.spn.spanId) (hj : s.spn.joining = none) :
    ∃ kind, exec (.hello port) s = .next (logHealth kind 0xFF 0xFFFF port 0 0 (bytesAt f.payload 4 16)
      (bumpFresh (conflictAt port f (takeArrived port tHello s)))) :=
  ⟨_, (exec_hello hs hq hst hf).trans (congrArg _ (takeHello_own (s := takeArrived port tHello s) port hid hj))⟩

theorem logHealth_sent (kind inst vol unit lba count : Nat) (detail : List Byte) (s : State) :
    Sent s (logHealth kind inst vol unit lba count detail (bumpFresh s)) :=
  .of_spn ((spn_of_get (logHealth_get _ _ _ _ _ _ _ _ .spn (by decide))).trans (bumpFresh_spn s))

end

/-- Settles O31: each row by what it makes of its port; what the flits then sent leave of the port is `Sent`. -/
theorem exletPortsTrainAndRecover : Obligations.ExletPortsTrainAndRecover := by
  refine ⟨?flit, ?nak, ?states⟩
  case flit =>
    intro s port bytes q hs hq hst
    have next := exec_flitReceived (bytes := bytes) hs hq hst
    have frame := onlyIn_of_next (execFlitReceived_next ..) next
    refine ⟨fun hf => ⟨_, next, frame, ?_⟩, fun f hf ht hl => ⟨_, next, frame, ?_⟩, fun f hf ht hl => ⟨_, next, frame, ?_⟩⟩
    · rw [receive_bad _ _ hf]
      exact ⟨discardFlit_port true hq, discardFlit_wire true hq⟩
    · rw [receive_sequenced hq hf ht, if_neg hl]
      exact ⟨discardFlit_port false hq, discardFlit_inbox ..⟩
    · rw [receive_sequenced hq hf ht, if_pos hl]
      obtain ⟨-, -, -, hseq, hvalid, hnak, -, -⟩ := (acceptFlit_sent port f s).link port
      rw [eport_eq (modEPort_get?_self _ hq)] at hseq hvalid hnak
      exact ⟨hseq, hvalid, hnak⟩
  case nak =>
    intro s port q hs hq ha hr
    have next := exec_nak hs hq ha hr
    obtain ⟨hport, hwire⟩ := resendAll_resends (s := takeArrived port tNak s) hq
    exact ⟨_, next, onlyIn_of_next (execNak_next ..) next, hport, _, hwire, by simp, by simp⟩
  case states =>
    intro s port q hs hq
    refine ⟨?trained, ?untrained, ?unheard, ?failed, ?again, ?hello⟩
    case trained =>
      intro hst
      have next := exec_lanesTrained hs hq hst
      obtain ⟨there, e, he, hhello, hsince⟩ := eport_linkBegun hq
      refine ⟨_, next, onlyIn_of_next (execLanesTrained_next ..) next, ?_⟩
      rw [eport_sendSequenced _ there (by simp [he, freshLink]), he]
      exact ⟨hhello, hsince, rfl, rfl, _, rfl, rfl, rfl⟩
    case untrained =>
      intro hst ht
      have next := exec_trainingTimeout hs hq hst ht
      exact ⟨_, next, onlyIn_of_next (execTrainingTimeout_next ..) next, down_of_sent hq (Sent.refl _)⟩
    case unheard =>
      intro hst ht
      have next := exec_helloTimeout hs hq hst ht
      exact ⟨_, next, onlyIn_of_next (execHelloTimeout_next ..) next, down_of_sent hq (Sent.refl _)⟩
    case failed =>
      intro hst ns
      have next := exec_exletPortFail ns hs hq hst
      obtain ⟨hdown, -, hdowns⟩ := down_of_sent hq (takeover_sent 14 port (rerouteTarget q (setPort port .down s)) ns _)
      exact ⟨_, next, onlyIn_of_next (execExletPortFail_next ..) next, hdown, hdowns⟩
    case again =>
      intro hst ht
      have next := exec_portRetryTimer hs hq hst ht
      obtain ⟨htraining, hsince, -, -, -⟩ := entered_of_sent hq (Sent.refl (setPort port .training s))
      exact ⟨_, next, onlyIn_of_next (execPortRetryTimer_next ..) next, htraining, hsince⟩
    case hello =>
      intro f hst hf
      have heardAt := modEPort_get?_self (s := takeArrived port tHello s) (heard f) hq
      constructor
      · intro hid
        obtain ⟨hactive, -, -, hnb, hport⟩ := entered_of_sent heardAt (Sent.refl (setPort port .active _))
        refine ⟨_, exec_hello_other hs hq hst hf hid, fun x hx => ?_, hactive, hnb, hport⟩
        simp at hx
        simp [hx]
      · intro hid hj
        obtain ⟨kind, next⟩ := exec_hello_own hs hq hst hf hid hj
        obtain ⟨hconflict, -, -, -, -⟩ := entered_of_sent heardAt (logHealth_sent kind _ _ _ _ _ _ (setPort port .conflict _))
        refine ⟨_, next, fun x hx => ?_, hconflict⟩
        simp at hx
        simp [hx, conflictAt]

end Sys2Proof.Machine

/-! Obligation O33 (TheHomeServesRequests): how the home admits a request, answers one that it serves, skips a number that is missing,
and ends a request early. -/

namespace Sys2Proof.Machine

/-! ### A served message is answered (R393) -/

/-- The state from which the answer goes out: the message is no longer served, a REQ's answer is kept. -/
def answerKept (key : Nat) (v : Served) (r : Reply) (s : State) : State :=
  let t := releaseLock (servedTag key) { freeWaits (servedTag key) s with
    spn := { (freeWaits (servedTag key) s).spn with served := Tbl.erase s.spn.served key } }
  if v.mirror then t else keepResp key (respPayload r) t

theorem answerServed_sent (key : Nat) (v : Served) (r : Reply) (s : State) :
    Sent (answerKept key v r s) (answerServed key v r s) := sendMessage_sent ..

theorem answerServed_served (key : Nat) (v : Served) (r : Reply) (s : State) :
    (answerServed key v r s).spn.served = Tbl.erase s.spn.served key := by
  rw [(answerServed_sent key v r s).served, answerKept]
  split <;> rfl

theorem answerServed_pairRx (key : Nat) (v : Served) (r : Reply) (s : State) :
    (answerServed key v r s).spn.pairRx = s.spn.pairRx := by
  rw [(answerServed_sent key v r s).pairRx, answerKept]
  split <;> rfl

/-- R393: the last of the kept RESPs is the one that was kept last. -/
theorem keepResp_getLast? (key : Nat) (bs : List Byte) (s : State) : (keepResp key bs s).spn.kept.getLast? = some (key, bs) := by
  simp [keepResp, List.getLast?_drop]

theorem answerServed_kept (key : Nat) {v : Served} (r : Reply) (s : State) (h : v.mirror = false) :
    (answerServed key v r s).spn.kept.getLast? = some (key, respPayload r) := by
  rw [(answerServed_sent key v r s).kept, answerKept, h]
  exact keepResp_getLast? ..

theorem answerServed_gone (key : Nat) (v : Served) (r : Reply) (s : State) :
    Tbl.get? (answerServed key v r s).spn.served key = none := by
  rw [answerServed_served, Tbl.get?_erase, if_pos rfl]

theorem answerServed_acceptCount (key : Nat) (v : Served) (r : Reply) (s : State) :
    (answerServed key v r s).acceptCount = s.acceptCount := answerServed_get key v r s .acceptCount (by decide)

theorem answerServed_only {key : Nat} {v : Served} {r : Reply} {s : State} : OnlyIn [.spn, .locks] s (answerServed key v r s) :=
  fun x hx => answerServed_get key v r s x hx

/-! ### A request is admitted (R386, R390, R394) -/

/-- The request as the home serves it from now on. -/
def servedFrom (ps : List (List Byte)) (budget now : Nat) : Served :=
  { mirror := false, pairSeq := field (ps.headD []) 64 4, request := ps.headD [], body := (ps.drop 1).flatten, reply := none
    groups := [], deadline := if budget = noBudget then 0 else now + budget / 1000 }

/-- The request has its place in the intake order, and the next number of its origin is expected. -/
def takenIn (origin xid : Nat) (ps : List (List Byte)) (budget : Nat) (s : State) : State := { s with
  acceptCount := s.acceptCount + 1
  spn := { s.spn with
    pairRx := Tbl.set s.spn.pairRx origin ((field (ps.headD []) 64 4 + 1) % 2 ^ 32)
    gapWait := Tbl.erase s.spn.gapWait origin
    served := Tbl.set s.spn.served (servedKey origin xid) (servedFrom ps budget s.now) } }

theorem takenIn_served (origin xid : Nat) (ps : List (List Byte)) (budget : Nat) (s : State) :
    Tbl.get? (takenIn origin xid ps budget s).spn.served (servedKey origin xid) = some (servedFrom ps budget s.now) := by
  rw [takenIn, Tbl.get?_set, if_pos rfl]

theorem takenIn_pairRx (origin xid : Nat) (ps : List (List Byte)) (budget : Nat) (s : State) :
    Tbl.get? (takenIn origin xid ps budget s).spn.pairRx origin = some ((field (ps.headD []) 64 4 + 1) % 2 ^ 32) := by
  rw [takenIn, Tbl.get?_set, if_pos rfl]

section
variable {s : State} {origin xid : Nat} {ps : List (List Byte)}

theorem admitReq_refused (budget : Nat) {st : Nat} (h : homeRefuses s origin (bytesAt (ps.headD []) 0 64) = some st) :
    admitReq origin xid ps budget s = answerServed (servedKey origin xid) (servedFrom ps budget s.now) { status := st }
      (takenIn origin xid ps budget s) := by
  unfold admitReq
  extract_lets first p key v span t
  rw [show homeRefuses t origin p = some st from h]
  rfl

/-- The home lets pass only what names a volume. -/
theorem homeRefuses_vol {p : List Byte} (h : homeRefuses s origin p = none) : ∃ u, vol? s (pkVolume p) = some u := by
  unfold homeRefuses at h
  extract_lets op at h
  split at h
  · simp at h
  · split at h
    · simp at h
    · next u hu => exact ⟨u, hu⟩

theorem admitReq_admitted (budget : Nat) {u : Vol} (h : homeRefuses s origin (bytesAt (ps.headD []) 0 64) = none)
    (hu : vol? s (pkVolume (bytesAt (ps.headD []) 0 64)) = some u) : admitReq origin xid ps budget s =
      requestLock (servedTag (servedKey origin xid)) [lockEntry (servedTag (servedKey origin xid)) s.acceptCount
        (pkVolume (bytesAt (ps.headD []) 0 64)) (homeRange u (bytesAt (ps.headD []) 0 64)).1
        (homeRange u (bytesAt (ps.headD []) 0 64)).2 (exclusiveOps.contains (pkOpcode (bytesAt (ps.headD []) 0 64)))]
      (takenIn origin xid ps budget s) := by
  unfold admitReq
  extract_lets first p key v span t
  rw [show homeRefuses t origin p = none from h]
  dsimp only
  rw [show vol? t (pkVolume p) = some u from hu]
  rfl

/-- R394: a request that no other one precedes is admitted. -/
theorem exec_req_inTurn (lost crcFail : List Nat) (outcome : Fin 3) (units : Nat) {f : Flit} (hs : serving s = true)
    (hm : messageOf s tReq origin xid = some (ps, f)) (hr : f.resent = false) (hl : s.spn.leaving = none)
    (ht : field (ps.headD []) 64 4 = Tbl.getD s.spn.pairRx origin 0) : exec (.req origin xid lost crcFail outcome units) s =
      .next (admitReq origin xid ps f.budget (takeMessage tReq origin xid s)) := by
  show execReq origin xid lost crcFail outcome units s = _
  have turn : (2 ^ 32 + field (ps.headD []) 64 4 - Tbl.getD s.spn.pairRx origin 0) % 2 ^ 32 = 0 := by
    rw [ht, Nat.add_sub_cancel, Nat.mod_self]
  simp only [execReq, hm, act, hs, if_true, takeReq, hr, hl, turn, Bool.false_and, Bool.false_eq_true, if_false, Option.isSome_none]

end

theorem requestLock_acceptCount (k : Nat) (ls : List Lock) (s : State) : (requestLock k ls s).acceptCount = s.acceptCount :=
  requestLock_get k ls s .acceptCount (by decide)

theorem requestLock_spn (k : Nat) (ls : List Lock) (s : State) : (requestLock k ls s).spn = s.spn :=
  spn_of_get (requestLock_get k ls s .spn (by decide))

/-- A lock that is asked for stands in the table, held or waiting. -/
theorem requestLock_entry (k : Nat) (l : Lock) (s : State) :
    ∃ m ∈ (requestLock k [l] s).locks, m.tag = l.tag ∧ m.vol = l.vol ∧ m.excl = l.excl := by
  have asked : l ∈ s.locks ++ [l] := by simp
  unfold requestLock
  extract_lets t
  split
  · refine ⟨_, List.mem_map_of_mem asked, ?_⟩
    split <;> exact ⟨rfl, rfl, rfl⟩
  · exact ⟨l, asked, rfl, rfl, rfl⟩

/-! ### A request that reads is served (R276, R390) -/

section
variable {s : State} {origin xid : Nat} {v : Served}

theorem exec_req_served {lost crcFail : List Nat} {outcome : Fin 3} {units : Nat} (hs : serving s = true)
    (hm : messageOf s tReq origin xid = none) (hv : Tbl.get? s.spn.served (servedKey origin xid) = some v)
    (hn : v.mirror = false) (hr : v.reply = none) (hl : lockHeld s (servedTag (servedKey origin xid)) = true) :
    exec (.req origin xid lost crcFail outcome units) s =
      .next (serveReq (servedKey origin xid) v lost crcFail outcome units s) := by
  show execReq origin xid lost crcFail outcome units s = _
  simp only [execReq, hm, hv, act, hs, hn, hr, hl, Option.isNone_none, Bool.not_false, Bool.and_self, if_true]

theorem serveReq_read {lost crcFail : List Nat} {outcome : Fin 3} {units : Nat} {u : Vol} (key : Nat)
    (hu : vol? s (pkVolume (bytesAt v.request 0 64)) = some u)
    (ho : exclusiveOps.contains (pkOpcode (bytesAt v.request 0 64)) = false) :
    serveReq key v lost crcFail outcome units s = serveRead key v lost crcFail u (bytesAt v.request 0 64) s := by
  simp only [serveReq, hu, ho, Bool.false_eq_true, if_false]

/-- The answer to a VERIFY by the blocks that fail. -/
def verifyReply (n : Nat) (bad : List (Nat × Nat)) : Reply :=
  match bad with
  | [] => { status := stOk, r0 := n, r1 := 0xFFFFFFFFFFFFFFFF }
  | b :: _ => { status := b.2, r0 := n - bad.length, r1 := b.1 }

/-- The answer to a READ by the blocks that fail. -/
def readReply (n : Nat) (bad : List (Nat × Nat)) : Reply :=
  match bad with
  | [] => { status := stOk, r0 := n }
  | b :: _ => { status := b.2, r0 := b.1, r1 := bad.length }

section
variable {p : List Byte} (key : Nat) (lost crcFail : List Nat) (u : Vol) (hk : keyLost s (pkVolume p) = false)
include hk

/-- With its key no block of the volume is lost but those that the media lost. -/
theorem failingBlocks_of_key : failingBlocks u (pkLba p) (pkLength p)
    (if keyLost s (pkVolume p) then (List.range (pkLength p)).map (fun i => pkLba p + i) else lost) crcFail =
      failingBlocks u (pkLba p) (pkLength p) lost crcFail := by
  rw [hk, if_neg Bool.false_ne_true]

theorem serveRead_verify (ho : pkOpcode p = opVerify) : serveRead key v lost crcFail u p s = answerServed key v
    (verifyReply (pkLength p) (failingBlocks u (pkLba p) (pkLength p) lost crcFail))
    (countHostRead (pkLength p - (failingBlocks u (pkLba p) (pkLength p) lost crcFail).length) s) := by
  rw [← failingBlocks_of_key lost crcFail u hk]
  exact if_pos ho

/-- A READ sends its DATA before it is answered. -/
theorem serveRead_read (ho : pkOpcode p = opRead) : ∃ t, OnlyIn [.spn, .flc, .fresh] s t ∧ serveRead key v lost crcFail u p s =
    answerServed key v (readReply (pkLength p) (failingBlocks u (pkLba p) (pkLength p) lost crcFail)) t := by
  rw [← failingBlocks_of_key lost crcFail u hk]
  refine ⟨sendMessage tData _ _ noBudget false _ _ _, ?only, if_neg (show pkOpcode p ≠ opVerify by rw [ho]; decide)⟩
  case only =>
    intro x hx
    simp at hx
    simp [hx]

end

end

/-! ### A missing number is skipped (R394) -/

/-- How far a PAIR_SEQ is ahead of the expected one. -/
def aheadOf (e q : Nat) : Nat := (2 ^ 32 + q - e) % 2 ^ 32

/-- The least distance ahead, below half the range, among PAIR_SEQs; `a` where there is no nearer one. -/
def nearest (e : Nat) (qs : List Nat) (a : Nat) : Nat :=
  qs.foldl (fun a q => if aheadOf e q < 2 ^ 31 && decide (aheadOf e q < a) then aheadOf e q else a) a

/-- `m` is the nearest when nothing ahead is nearer, and it is what the search began with or the distance of a PAIR_SEQ. -/
theorem nearest_eq {e m : Nat} {qs : List Nat} {a : Nat} (hle : ∀ r ∈ qs, aheadOf e r < 2 ^ 31 → m ≤ aheadOf e r) (ha : m ≤ a)
    (hm : a = m ∨ m < 2 ^ 31 ∧ ∃ q ∈ qs, aheadOf e q = m) : nearest e qs a = m := by
  induction qs generalizing a with
  | nil => simpa [nearest] using hm
  | cons q qs ih =>
    have tail := fun r hr => hle r (List.mem_cons_of_mem q hr)
    have head := hle q List.mem_cons_self
    rw [nearest, List.foldl_cons]
    by_cases hq : aheadOf e q < 2 ^ 31 ∧ aheadOf e q < a
    · rw [if_pos (by simpa using hq)]
      refine ih tail (head hq.1) ?_
      rcases hm with rfl | ⟨hlt, r, hr, rfl⟩
      · exact absurd (head hq.1) (Nat.not_le.mpr hq.2)
      · rcases List.mem_cons.mp hr with rfl | hr
        · exact Or.inl rfl
        · exact Or.inr ⟨hlt, r, hr, rfl⟩
    · rw [if_neg (by simpa using hq)]
      refine ih tail ha ?_
      rcases hm with rfl | ⟨hlt, r, hr, rfl⟩
      · exact Or.inl rfl
      · rcases List.mem_cons.mp hr with rfl | hr
        · exact Or.inl (by omega)
        · exact Or.inr ⟨hlt, r, hr, rfl⟩

/-- The expected PAIR_SEQ moves on to the nearest one that waits. -/
def skipped (origin : Nat) (s : State) : State :=
  let e := Tbl.getD s.spn.pairRx origin 0
  let next := nearest e (waitingSeqs s origin) (2 ^ 31)
  { s with spn := { s.spn with
      gapWait := Tbl.erase s.spn.gapWait origin
      pairRx := if next = 2 ^ 31 then s.spn.pairRx else Tbl.set s.spn.pairRx origin ((e + next) % 2 ^ 32) } }

theorem exec_pairSeqGapExpiry {s : State} {origin : Fin 65536} {since : Nat} (hs : powered s = true)
    (hg : Tbl.get? s.spn.gapWait origin = some since) (ht : since + s.spn.gapUs ≤ s.now) :
    exec (.pairSeqGapExpiry origin) s = .next (skipped origin s) := by
  show execPairSeqGapExpiry origin s = _
  simp only [execPairSeqGapExpiry, act, hg, hs, ht, decide_true, Bool.and_self, if_true]
  rfl

theorem skipped_none {s : State} {origin : Nat}
    (h : ∀ q ∈ waitingSeqs s origin, 2 ^ 31 ≤ aheadOf (Tbl.getD s.spn.pairRx origin 0) q) :
    (skipped origin s).spn.pairRx = s.spn.pairRx :=
  if_pos (nearest_eq (fun q hq hlt => absurd (h q hq) (Nat.not_le.mpr hlt)) (Nat.le_refl _) (Or.inl rfl))

theorem skipped_next {s : State} {origin q : Nat} (hq : q ∈ waitingSeqs s origin)
    (hlt : aheadOf (Tbl.getD s.spn.pairRx origin 0) q < 2 ^ 31)
    (hle : ∀ r ∈ waitingSeqs s origin, aheadOf (Tbl.getD s.spn.pairRx origin 0) r < 2 ^ 31 →
      aheadOf (Tbl.getD s.spn.pairRx origin 0) q ≤ aheadOf (Tbl.getD s.spn.pairRx origin 0) r) :
    Tbl.get? (skipped origin s).spn.pairRx origin =
      some ((Tbl.getD s.spn.pairRx origin 0 + aheadOf (Tbl.getD s.spn.pairRx origin 0) q) % 2 ^ 32) := by
  have next := nearest_eq hle (Nat.le_of_lt hlt) (Or.inr ⟨hlt, q, hq, rfl⟩)
  unfold skipped
  simp only [next, if_neg (Nat.ne_of_lt hlt), Tbl.get?_set, if_true]

/-! ### A request ends early (R391, R395) -/

/-- A request ends before its work did, or its decided answer takes another status. -/
theorem endServed_ends {s : State} {key : Nat} {v : Served} (status : Nat) (hn : v.mirror = false) :
    OnlyIn [.spn, .locks] s (endServed key v status s) ∧
    (v.reply = none → Tbl.get? (endServed key v status s).spn.served key = none ∧
      (endServed key v status s).spn.kept.getLast? = some (key, respPayload {
        status := status, partialEffect := exclusiveOps.contains (pkOpcode (bytesAt v.request 0 64)) })) ∧
    (∀ r, v.reply = some r →
      Tbl.get? (endServed key v status s).spn.served key = some { v with reply := some { r with status := status } }) := by
  unfold endServed
  cases hr : v.reply with
  | none => exact ⟨answerServed_only, fun _ => ⟨answerServed_gone .., answerServed_kept _ _ _ hn⟩, nofun⟩
  | some r =>
    refine ⟨fun x hx => ?_, nofun, fun r' h => ?_⟩
    · simp at hx
      simp [hx]
    · cases h
      simp only [Tbl.get?_set, if_true]

theorem exec_cancelFlit {s : State} {origin xid : Nat} {v : Served} (hs : powered s = true)
    (hv : Tbl.get? s.spn.served (servedKey origin xid) = some v) (hn : v.mirror = false)
    (hc : (messageOf s tCancel origin xid).isSome = true) (hm : messageOf s tReq origin xid = none) :
    exec (.cancelFlit origin xid) s =
      .next (endServed (servedKey origin xid) v stAborted (takeMessage tCancel origin xid s)) := by
  have still : Tbl.get? (takeMessage tCancel origin xid s).spn.served (servedKey origin xid) = some v := hv
  show execCancelFlit origin xid s = _
  simp only [execCancelFlit, act, hs, hc, hm, still, hn, Option.isNone_none, Bool.and_self, if_true, Bool.false_eq_true, if_false]

theorem exec_homeBudgetExpiry {s : State} {origin xid : Nat} {v : Served} (hs : powered s = true)
    (hv : Tbl.get? s.spn.served (servedKey origin xid) = some v) (hn : v.mirror = false) (hd : v.deadline ≠ 0)
    (ht : v.deadline ≤ s.now) : exec (.homeBudgetExpiry origin xid) s =
      .next (endServed (servedKey origin xid) v stAbortedByTimeout s) := by
  show execHomeBudgetExpiry origin xid s = _
  simp [execHomeBudgetExpiry, act, hs, hv, hn, hd, ht]

/-- Settles O33: a request by whether the home refuses it, one that reads by the blocks that fail, a gap by the numbers that wait, and an
early end by whether the answer is decided. -/
theorem theHomeServesRequests : Obligations.TheHomeServesRequests := by
  refine ⟨?request, ?serve, ?gap, ?ends⟩
  case request =>
    intro s origin xid lost crcFail outcome units ps f hs hm hr hl ht
    have next := exec_req_inTurn lost crcFail outcome units hs hm hr hl ht
    refine ⟨_, next, fun x hx => ?_, ?_⟩
    · simp at hx
      simp [hx]
    · cases h : homeRefuses s origin (bytesAt (ps.headD []) 0 64) with
      | some st =>
        rw [admitReq_refused f.budget (s := takeMessage tReq origin xid s) h]
        refine ⟨answerServed_acceptCount .., ?_, fun st' h' => ?_, nofun⟩
        · rw [answerServed_pairRx, takenIn_pairRx]
        · cases h'
          exact ⟨answerServed_gone .., answerServed_kept _ _ _ rfl⟩
      | none =>
        obtain ⟨u, hu⟩ := homeRefuses_vol h
        rw [admitReq_admitted f.budget (s := takeMessage tReq origin xid s) h hu]
        refine ⟨requestLock_acceptCount .., ?_, nofun, fun _ => ⟨⟨servedFrom ps f.budget s.now, ?_, rfl, rfl, rfl⟩,
          requestLock_entry ..⟩⟩
        · rw [requestLock_spn, takenIn_pairRx]
        · rw [requestLock_spn]
          exact takenIn_served ..
  case serve =>
    intro s origin xid lost crcFail outcome units v u hs hm hv hn hr hl hu hk
    have next := exec_req_served (lost := lost) (crcFail := crcFail) (outcome := outcome) (units := units) hs hm hv hn hr hl
    constructor
    · intro ho
      rw [serveReq_read _ hu (by rw [ho]; decide), serveRead_verify _ _ _ _ hk ho] at next
      refine ⟨_, next, answerServed_gone .., fun x hx => ?_, fun hb => ?_, fun b bs hb => ?_⟩
      · simp at hx
        simp [hx]
      · rw [answerServed_kept _ _ _ hn, hb, verifyReply]
      · rw [answerServed_kept _ _ _ hn, hb, verifyReply]
    · intro ho
      obtain ⟨t, only, read⟩ := serveRead_read (v := v) (servedKey origin xid) lost crcFail u hk ho
      rw [serveReq_read _ hu (by rw [ho]; decide), read] at next
      refine ⟨_, next, answerServed_gone .., only.comp answerServed_only (by decide) (by decide), fun hb => ?_, fun b bs hb => ?_⟩
      · rw [answerServed_kept _ _ _ hn, hb, readReply]
      · rw [answerServed_kept _ _ _ hn, hb, readReply]
  case gap =>
    intro s origin since hs hg ht
    have next := exec_pairSeqGapExpiry hs hg ht
    refine ⟨_, next, onlyIn_of_next (execPairSeqGapExpiry_next ..) next, ?_, skipped_none, fun q => skipped_next⟩
    exact (Tbl.get?_erase ..).trans (if_pos rfl)
  case ends =>
    intro s origin xid v hs hv hn
    constructor
    · intro hc hm
      have next := exec_cancelFlit hs hv hn hc hm
      obtain ⟨-, undecided, decided⟩ :=
        endServed_ends (s := takeMessage tCancel origin xid s) (key := servedKey origin xid) stAborted hn
      exact ⟨_, next, onlyIn_of_next (execCancelFlit_next ..) next, undecided, decided⟩
    · intro hd ht
      exact ⟨_, exec_homeBudgetExpiry hs hv hn hd ht, endServed_ends stAbortedByTimeout hn⟩

end Sys2Proof.Machine

/-! Obligation O49 (PairsClocksPortsAndSpares): what a power-on reset leaves, and what the losses of clocks, ports and spares make of the
part. -/

namespace Sys2Proof.Machine

/-- A command that can happen takes effect. -/
theorem act_pos {s : State} {g : Bool} {f : State → State} (h : g = true) : act s g f = .next (f s) := by
  rw [act, if_pos h]

/-! ### A power-on reset (R74, R437) -/

/-- R287: of the volumes those stay that were durable, with what was durable of them. -/
theorem internalReset_leaves (causeBit : Nat) (held : Bool) (s : State) :
    PowerOnResetLeaves (2 ^ causeBit) held s (internalReset causeBit held s) := by
  refine ⟨rfl, rfl, rfl, rfl, rfl, rfl, rfl, rfl, rfl, rfl, rfl, rfl, rfl, rfl, rfl, rfl, rfl, rfl, rfl, fun p hp => ?_, rfl⟩
  obtain ⟨q, hq, rfl⟩ := List.mem_map.mp hp
  exact ⟨q.2, (List.mem_filter.mp hq).1, rfl, rfl⟩

/-! ### Reports -/

theorem takeover_clk (code unit repl ns : Nat) (s : State) : (takeover code unit repl ns s).clk = s.clk :=
  clk_of_get (takeover_get code unit repl ns s .clk (by decide))

theorem takeover_hif (code unit repl ns : Nat) (s : State) : (takeover code unit repl ns s).hif = s.hif :=
  hif_of_get (takeover_get code unit repl ns s .hif (by decide))

theorem logHealth_pwr (kind inst vol unit lba count : Nat) (detail : List Byte) (s : State) :
    (logHealth kind inst vol unit lba count detail s).pwr = s.pwr :=
  pwr_of_get (logHealth_get kind inst vol unit lba count detail s .pwr (by decide))

theorem logHealth_insts (kind inst vol unit lba count : Nat) (detail : List Byte) (s : State) :
    (logHealth kind inst vol unit lba count detail s).insts = s.insts :=
  insts_of_get (logHealth_get kind inst vol unit lba count detail s .insts (by decide))

/-- R433: a takeover leaves of the supply's registers all but the fault bits. -/
theorem takeover_pwr (code unit repl ns : Nat) (s : State) :
    (takeover code unit repl ns s).pwr = { s.pwr with faultSts := faultSts s } :=
  logHealth_pwr 0x0023 0xFF 0xFFFF (code * 256 + unit) 0 ns (leBytes 1 repl) (settleFaults s)

/-- R433: instance 0 has the event of a takeover. -/
theorem takeover_insts (code unit repl ns : Nat) (s : State) :
    ∃ e, (takeover code unit repl ns s).insts = Tbl.modify s.insts 0 (queueEvent e) :=
  ⟨_, congrArg (Tbl.modify · 0 _) (logHealth_insts 0x0023 0xFF 0xFFFF (code * 256 + unit) 0 ns (leBytes 1 repl) (settleFaults s))⟩

/-- R77: an event that is queued takes none away, and leaves the instance as it was. -/
theorem queueEvent_keeps (e : Event) (i : Inst) : (queueEvent e i).port = i.port ∧ (queueEvent e i).st = i.st ∧
    i.ring.evtQ.length ≤ (queueEvent e i).ring.evtQ.length := by
  unfold queueEvent
  repeat' split
  all_goals simp

/-! ### Checked pairs (R408) -/

theorem exec_pairMiscompare {s : State} (pair : Fin 22) (pass : Bool) (ns : Nat) (hp : powered s = true) :
    exec (.pairMiscompare pair pass ns) s = .next (if pass && !bit s.pwr.pairsSingle pair then
      takeover 17 pair 0xFF ns (logHealth 0x0029 0xFF 0xFFFF pair 0 1 []
        { s with pwr := { s.pwr with pairsSingle := setBit s.pwr.pairsSingle pair true } })
      else internalReset 4 false s) := by
  show execPairMiscompare pair pass ns s = _
  simp only [execPairMiscompare, act, hp, if_true]

/-! ### Reference clocks (R31, R413) -/

theorem exec_refclkLoss {s : State} {ref : Fin 2} (ns : Nat) (hp : powered s = true)
    (hok : (if ref = 0 then s.clk.refOk0 else s.clk.refOk1) = true) :
    exec (.refclkLoss ref ns) s = .next (if ref.val = b2n s.clk.rootActive then
        if s.clk.autoSwitch && standbyLocked s then
          takeover 15 ref (rootRef (switchRoot (dropRefClock ref s))) ns (switchRoot (dropRefClock ref s))
        else internalReset 3 (!(if ref = 0 then s.clk.refOk1 else s.clk.refOk0)) (dropRefClock ref s)
      else settleFaults (dropRefClock ref s)) := by
  show execRefclkLoss ref ns s = _
  simp only [execRefclkLoss, act, Fin.val_eq_zero_iff, hp, hok, Bool.and_self, if_true, rootRef]

theorem dropRefClock_lost (ref : Fin 2) (s : State) :
    (if ref = 0 then (dropRefClock ref s).clk.refOk0 else (dropRefClock ref s).clk.refOk1) = false ∧
      (if ref = 0 then (dropRefClock ref s).clk.lock0 else (dropRefClock ref s).clk.lock1) = false := by
  unfold dropRefClock
  by_cases h : ref = 0 <;> simp [h]

theorem dropRefClock_root (ref : Nat) (s : State) : (dropRefClock ref s).clk.rootActive = s.clk.rootActive ∧
    (dropRefClock ref s).clk.switchCount = s.clk.switchCount := by
  unfold dropRefClock
  split <;> exact ⟨rfl, rfl⟩

/-- A lost reference changes nothing that a power-on reset keeps. -/
theorem dropRefClock_reset_leaves (ref causeBit : Nat) (held : Bool) (s : State) :
    PowerOnResetLeaves (2 ^ causeBit) held s (internalReset causeBit held (dropRefClock ref s)) := by
  unfold dropRefClock
  split <;> exact internalReset_leaves causeBit held { s with clk := _ }

/-- The clocks after a hitless switch (R413). -/
def switchedClk (c : Clk) : Clk :=
  { c with rootActive := !c.rootActive, switchCount := satInc c.switchCount 0xFFFF, rootPending := false }

theorem switchRoot_clk (s : State) : (switchRoot s).clk = switchedClk s.clk :=
  clk_of_get (logHealth_get _ _ _ _ _ _ _ _ .clk (by decide))

/-- Without a request that waits nothing settles. -/
theorem settleRoot_idle {s : State} (h : s.clk.rootPending = false) : settleRoot s = s := by
  simp [settleRoot, h]

/-- A request for the standby PLL, which is locked, takes effect (R31). -/
theorem settleRoot_switches {s : State} (hp : s.clk.rootPending = true) (hr : s.clk.rootReq ≠ s.clk.rootActive)
    (hl : standbyLocked s = true) : settleRoot s = switchRoot s := by
  simp [settleRoot, hp, hr, hl]

/-- What a request that settles leaves of the clocks: all but the root, its count and the wait. -/
theorem settleRoot_clk (s : State) :
    ∃ a c p, (settleRoot s).clk = { s.clk with rootActive := a, switchCount := c, rootPending := p } := by
  unfold settleRoot
  split
  · exact ⟨_, _, _, rfl⟩
  · split
    · exact ⟨_, _, _, switchRoot_clk s⟩
    · exact ⟨_, _, _, rfl⟩

/-- The PLL of reference `ref` is locked. -/
def relock (ref : Nat) (s : State) : State :=
  if ref = 0 then { s with clk := { s.clk with refOk0 := true, lock0 := true } }
  else { s with clk := { s.clk with refOk1 := true, lock1 := true } }

theorem exec_pllRelock {s : State} {ref : Fin 2} (hp : powered s = true) (hs : 2 ≤ s.glb.stage) (he : s.clk.stbyEn = true)
    (hl : (if ref = 0 then s.clk.lock0 else s.clk.lock1) = false)
    (ht : (if ref = 0 then s.clk.lostAt0 else s.clk.lostAt1) + 100000 ≤ s.now) :
    exec (.pllRelock ref) s = .next (settleRoot (relock ref s)) := by
  have waited : 100000 + (if ref = 0 then s.clk.lostAt0 else s.clk.lostAt1) ≤ s.now := by omega
  show execPllRelock ref s = _
  unfold execPllRelock
  rw [act_pos]
  · rfl
  · simp only [Fin.val_eq_zero_iff, hp, hs, he, hl, waited, decide_true, Bool.not_false, Bool.or_true, Bool.and_self]

theorem relock_locked (ref : Fin 2) (s : State) :
    (if ref = 0 then (relock ref s).clk.lock0 else (relock ref s).clk.lock1) = true ∧
      (if ref = 0 then (relock ref s).clk.refOk0 else (relock ref s).clk.refOk1) = true := by
  unfold relock
  by_cases h : ref = 0 <;> simp [h]

theorem relock_root (ref : Nat) (s : State) : (relock ref s).clk.rootActive = s.clk.rootActive ∧
    (relock ref s).clk.rootPending = s.clk.rootPending := by
  unfold relock
  split <;> exact ⟨rfl, rfl⟩

/-- The clocks after a write of CLK_ROOT_CTL, before a request that can take effect does (Table 1.9). -/
def rootCtlClk (v : Nat) (c : Clk) : Clk :=
  { c with
    stbyEn := bit v 2, autoSwitch := bit v 1, rootReq := bit v 0
    rootPending := if bit v 0 == c.rootReq then c.rootPending else !(bit v 0 == c.rootActive)
    lock0 := c.lock0 && (bit v 2 || !c.rootActive), lock1 := c.lock1 && (bit v 2 || c.rootActive) }

theorem exec_rootReqChange {s : State} {fn : Fin 2} {v : BitVec 32} (hb : bar0Answers s fn 0x1000 = true)
    (hv : bit v.toNat 0 ≠ s.clk.rootReq) : exec (.rootReqChange fn v) s =
      .next (settleFaults (settleRoot { s with clk := rootCtlClk v.toNat s.clk })) := by
  show execRootReqChange fn v s = _
  simp only [execRootReqChange, act, hb, beq_eq_false_iff_ne.mpr hv, Bool.not_false, Bool.and_self, if_true]
  rfl

/-- A request for the other PLL, which stays enabled and locked, switches at once. -/
theorem rootCtl_switches {s : State} {v : Nat} (hv : bit v 0 ≠ s.clk.rootReq) (he : bit v 2 = true) (hr : bit v 0 ≠ s.clk.rootActive)
    (hl : pllLocked s (if s.clk.rootActive then 0 else 1) = true) :
    settleRoot { s with clk := rootCtlClk v s.clk } = switchRoot { s with clk := rootCtlClk v s.clk } := by
  refine settleRoot_switches ?_ hr ?_
  · simp [rootCtlClk, hv, hr]
  · simpa [standbyLocked, pllLocked, rootCtlClk, he] using hl

/-! ### Host ports (R411, R412) -/

/-- A change of one port leaves the other. -/
theorem portOf_modPort_other {p q : Nat} (h : ¬(p = 0 ↔ q = 0)) (f : HPort → HPort) (s : State) :
    portOf (modPort q f s) p = portOf s p := by
  by_cases hq : q = 0 <;> simp_all [portOf, modPort]

theorem portOf_signalPort_other {p q : Nat} (h : ¬(p = 0 ↔ q = 0)) (v : Nat) (s : State) :
    portOf (signalPort q v s) p = portOf s p := by
  unfold signalPort
  split
  · rfl
  · exact portOf_modPort_other h _ s

theorem portOf_signals_other {p q : Nat} (h : ¬(p = 0 ↔ q = 0)) (vs : List Nat) (s : State) :
    portOf (vs.foldl (fun s v => signalPort q v s) s) p = portOf s p := by
  induction vs generalizing s with
  | nil => rfl
  | cons v vs ih => rw [List.foldl_cons, ih, portOf_signalPort_other h]

/-- R412: the link of port `p` has failed. -/
def portFailed (p : Nat) (s : State) : State := modPort p (fun q => { linkDown q with failures := satInc q.failures 0xFFFF }) s

theorem portFailed_port (p : Nat) (s : State) :
    portOf (portFailed p s) p = { linkDown (portOf s p) with failures := satInc (portOf s p).failures 0xFFFF } := portOf_modPort ..

theorem portFailed_insts (p : Nat) (s : State) : (portFailed p s).insts = s.insts := insts_of_get (modPort_get _ _ _ .insts (by decide))

/-- Nothing covers the failed port: its messages wait, and it is noted as down. -/
def portWaits (p : Nat) (vectors : List Nat) (s : State) : State :=
  modPort p (fun q => { q with heldMsix := vectors ++ q.heldMsix })
    { s with pwr := { s.pwr with portsDown := setBit s.pwr.portsDown p true } }

theorem exec_hostPortFail {s : State} {p : Fin 2} (vectors : List Nat) (ns : Nat) (hp : powered s = true)
    (hl : (portOf s p).linkUp = true) : exec (.hostPortFail p vectors ns) s = .next
      (if portCovered s p then movePort p vectors ns (portFailed p s) else settleFaults (portWaits p vectors (portFailed p s))) := by
  show execHostPortFail p vectors ns s = _
  simp only [execHostPortFail, act, hp, hl, Bool.and_self, if_true]
  rfl

/-- An instance of the failed port moves to the other (R411). -/
def moved (p : Nat) (i : Inst) : Inst := if i.port = p then { i with port := 1 - p } else i

theorem movePort_insts (p : Nat) (vectors : List Nat) (ns : Nat) (s : State) :
    ∃ e, (movePort p vectors ns s).insts = Tbl.modify (Tbl.mapVals s.insts (fun _ i => moved p i)) 0 (queueEvent e) := by
  obtain ⟨e, he⟩ := takeover_insts 13 p (1 - p) ns (logHealth 0x0027 0xFF 0xFFFF p 0 (Tbl.countIf s.insts (fun _ i => i.port == p)) []
    ((vectors ++ (portOf s p).heldMsix).foldl (fun s v => signalPort (1 - p) v s) (modPort p (fun q => { q with heldMsix := [] })
      { s with insts := Tbl.mapVals s.insts (fun _ i => moved p i) })))
  refine ⟨e, he.trans ?_⟩
  rw [logHealth_insts, insts_of_get (State.get_foldl _ _ _ .insts (fun u v => signalPort_get (1 - p) v u .insts (by decide))),
    insts_of_get (modPort_get _ _ _ .insts (by decide))]

/-- R411: every instance is still there, moved where its port failed. -/
theorem movePort_instance {s : State} {n : Nat} {i : Inst} (p : Nat) (vectors : List Nat) (ns : Nat) (h : Tbl.get? s.insts n = some i) :
    ∃ j, Tbl.get? (movePort p vectors ns s).insts n = some j ∧ j.port = (if i.port = p then 1 - p else i.port) ∧
      j.ring.evtQ.length ≥ i.ring.evtQ.length ∧ j.st = i.st := by
  obtain ⟨e, he⟩ := movePort_insts p vectors ns s
  have stays : (moved p i).port = (if i.port = p then 1 - p else i.port) ∧ (moved p i).ring = i.ring ∧ (moved p i).st = i.st := by
    unfold moved
    split <;> exact ⟨rfl, rfl, rfl⟩
  obtain ⟨hport, hring, hst⟩ := stays
  obtain ⟨eport, est, eq⟩ := queueEvent_keeps e (moved p i)
  rw [he, Tbl.get?_modify, Tbl.get?_mapVals, Tbl.get?_mapVals, h]
  split
  · next h0 => subst h0; exact ⟨_, by rw [h]; rfl, eport.trans hport, hring ▸ eq, est.trans hst⟩
  · exact ⟨_, rfl, hport, by rw [hring], hst⟩

/-- The messages of a failed port go to the other; of the failed port only those that it held change. -/
theorem movePort_port (p : Fin 2) (vectors : List Nat) (ns : Nat) (s : State) :
    portOf (movePort p vectors ns s) p = { portOf s p with heldMsix := [] } := by
  have other : ¬((p : Nat) = 0 ↔ 1 - (p : Nat) = 0) := by omega
  unfold movePort
  rw [portOf_of_hif (takeover_hif ..), portOf_of_hif (hif_of_get (logHealth_get _ _ _ _ _ _ _ _ .hif (by decide))),
    portOf_signals_other other, portOf_modPort]
  rfl

/-- Bit 4 of the fault bits is that of a port that is down. -/
theorem faultConditions_portDown {s : State} {p : Nat} (h : bit s.pwr.portsDown p = true) : bit (faultConditions s) 4 = true := by
  have down : (s.pwr.portsDown == 0) = false := beq_eq_false_iff_ne.mpr (fun h0 => by simp [h0, bit] at h)
  have h0 := b2n_le_one (degraded s)
  have h1 := b2n_le_one s.pwr.dipLong
  have h2 := b2n_le_one (decide (4 ≤ topThermal s))
  have h3 := b2n_le_one (decide (0 < sensorsFailed s))
  have h4 : b2n (!false) = 1 := rfl
  rw [faultConditions, down]
  simp only [bit, beq_iff_eq]
  omega

theorem settleFaults_portDown {s : State} {p : Nat} (h : bit s.pwr.portsDown p = true) : bit (settleFaults s).pwr.faultSts 4 = true :=
  (bit_orFaults ..).trans (by rw [faultConditions_portDown h, Bool.or_true])

theorem portWaits_port (p : Nat) (vectors : List Nat) (s : State) :
    portOf (portWaits p vectors s) p = { portOf s p with heldMsix := vectors ++ (portOf s p).heldMsix } := portOf_modPort ..

theorem portWaits_down (p : Nat) (vectors : List Nat) (s : State) : bit (portWaits p vectors s).pwr.portsDown p = true := by
  rw [portWaits, pwr_of_get (modPort_get _ _ _ .pwr (by decide))]
  exact bit_setBit ..

theorem exec_linkReturn {s : State} {p : Fin 2} {width : Nat} {speed : Fin 6} (rev : Bool) (pol : Nat) (hp : powered s = true)
    (hl : (portOf s p).linkUp = false) (hr : (portOf s p).perst = false) (hw : widthOk (portLanes s p) width = true)
    (hlo : 1 ≤ speed.val) (hhi : speed.val ≤ maxSpeed s) : exec (.linkReturn p width speed rev pol) s =
      .next (linkUpAs p width speed rev pol (clearPortDown p s)) := by
  show execLinkReturn p width speed rev pol s = _
  simp only [execLinkReturn, act, hp, hl, hr, hw, hlo, hhi, and_self, decide_true, Bool.not_false, Bool.and_self, if_true]
  rfl

/-- The port as its link trains (R412). -/
def portTrained (width speed : Nat) (rev : Bool) (pol : Nat) (q : HPort) : HPort :=
  { q with linkUp := true, pm := 0, width := width, speed := speed, reversed := rev, polarity := pol % 256 }

/-- R412, R462: a port whose function is in D0 sends at its return what it held. -/
theorem linkUpAs_releases {s : State} {p : Nat} (width speed : Nat) (rev : Bool) (pol : Nat) (hr : (portOf s p).perst = false)
    (hd : (portOf s p).d3hot = false) : (portOf (linkUpAs p width speed rev pol s) p).heldMsix = [] ∧
      (linkUpAs p width speed rev pol s).hif.msix = s.hif.msix ++ (portOf s p).heldMsix.map (fun v => (p, v)) := by
  have port := portOf_modPort p (portTrained width speed rev pol) s
  have msix : (modPort p (portTrained width speed rev pol) s).hif.msix = s.hif.msix := by unfold modPort; split <;> rfl
  have live : portLive (modPort p (portTrained width speed rev pol) s) p = true := by simp [portLive, port, portTrained, hr, hd]
  obtain ⟨held, sent⟩ := releaseMsix_live live
  exact ⟨congrArg HPort.heldMsix held, sent.trans (by rw [msix, port, portTrained])⟩

/-! ### The test of the standing spares (R410) -/

theorem exec_spareCheck {s : State} (failing : List (Fin 8 × Nat)) (hp : powered s = true) (hs : 5 ≤ s.glb.stage)
    (ht : s.pwr.spareCheckAt + 10000000 ≤ s.now) : exec (.spareCheck failing) s = .next (settleFaults
      (failing.foldl (fun s x => spareFails x.1 x.2 s) { s with pwr := { s.pwr with spareCheckAt := s.now } })) := by
  show execSpareCheck failing s = _
  have due : 10000000 + s.pwr.spareCheckAt ≤ s.now := by omega
  simp only [execSpareCheck, act, hp, hs, due, decide_true, Bool.and_self, if_true]

/-- A spare of another pool leaves the engines. -/
theorem spareFails_sch {pool : Nat} (h : pool ≠ 0) (unit : Nat) (s : State) : (spareFails pool unit s).sch = s.sch := by
  unfold spareFails
  dsimp only
  rw [if_neg h]
  repeat' split
  all_goals rfl

/-- The engine is out when it is the spare that failed, and as it was otherwise. -/
theorem spareFails_engine {s : State} {n : Nat} {e : Engine} (pool unit : Nat) (h : Tbl.get? s.sch.engines n = some e) :
    Tbl.get? (spareFails pool unit s).sch.engines n =
      some (if pool = 0 ∧ unit = n ∧ e.role = .spare then { e with role := .failed } else e) := by
  by_cases hp : pool = 0
  case neg => rw [spareFails_sch hp, h, if_neg (fun hc => hp hc.1)]
  case pos =>
    unfold spareFails
    by_cases hn : unit = n
    · subst hn
      by_cases hr : e.role = .spare <;> simp [hp, h, hr, modEngine, Tbl.get?_modify]
    · dsimp only
      rw [if_pos hp, if_neg (fun hc => hn hc.2.1)]
      have other : Tbl.get? (modEngine unit (fun e => { e with role := .failed }) s).sch.engines n = some e := by
        rw [modEngine, Tbl.get?_modify, if_neg (Ne.symm hn), h]
      repeat' split
      all_goals assumption

/-- R410: after the whole test a spare engine that failed is out. -/
theorem spareFails_foldl_engine (failing : List (Fin 8 × Nat)) {s : State} {n : Nat} {e : Engine} (h : Tbl.get? s.sch.engines n = some e)
    (hr : e.role = .failed ∨ e.role = .spare ∧ (0, n) ∈ failing) :
    ∃ y, Tbl.get? (failing.foldl (fun s x => spareFails x.1 x.2 s) s).sch.engines n = some y ∧ y.role = .failed := by
  induction failing generalizing s e with
  | nil => exact ⟨e, h, hr.resolve_right (by simp)⟩
  | cons x xs ih =>
    refine ih (spareFails_engine x.1 x.2 h) ?_
    split
    · exact .inl rfl
    · next hx =>
      refine hr.imp_right (fun ⟨hspare, hm⟩ => ⟨hspare, (List.mem_cons.mp hm).resolve_left ?_⟩)
      rintro rfl
      exact hx ⟨rfl, rfl, hspare⟩

/-- The test changes of the supply's registers only when it ran last. -/
theorem spareFails_foldl_pwr (failing : List (Fin 8 × Nat)) (s : State) :
    (failing.foldl (fun s x => spareFails x.1 x.2 s) s).pwr = s.pwr :=
  pwr_of_get (State.get_foldl _ _ _ .pwr (fun u x => spareFails_get x.1 x.2 u .pwr (by decide)))

/-- Settles O49: each event by the meaning of its command, and by what its parts leave of the clocks, the ports and the engines. -/
theorem pairsClocksPortsAndSpares : Obligations.PairsClocksPortsAndSpares := by
  refine ⟨?pair, ?lost, ?relock, ?request, ?port, ?link, ?spare⟩
  case pair =>
    intro s pair ns hp
    refine ⟨fun hs => ?single, fun pass hs => ?both⟩
    case single =>
      refine ⟨_, exec_becomes (exec_pairMiscompare pair true ns hp) (if_pos (by simp [hs])), ?_, fun x hx => ?_⟩
      · rw [takeover_pwr, logHealth_pwr]
      · simp at hx
        simp [hx]
    case both =>
      exact ⟨_, exec_becomes (exec_pairMiscompare pair pass ns hp) (if_neg (by rcases hs with h | h <;> simp [h])),
        internalReset_leaves 4 false s⟩
  case lost =>
    intro s ref ns hp hok
    obtain ⟨hroot, hcount⟩ := dropRefClock_root ref s
    refine ⟨fun hr ha hl => ?switched, fun hr hn => ?reset, fun hr => ?standby⟩
    case switched =>
      have next := exec_becomes (exec_refclkLoss ns hp hok) ((if_pos hr).trans (if_pos (by simp [ha, hl])))
      have clk := (takeover_clk 15 ref (rootRef (switchRoot (dropRefClock ref s))) ns _).trans (switchRoot_clk (dropRefClock ref s))
      refine ⟨_, next, ?_, ?_, ?_, fun x hx => ?_⟩
      · beta_reduce
        rw [clk]
        exact dropRefClock_lost ref s
      · rw [clk, switchedClk, hroot]
      · rw [clk, switchedClk, hcount]
      · simp at hx
        simp [hx]
    case reset =>
      exact ⟨_, exec_becomes (exec_refclkLoss ns hp hok) ((if_pos hr).trans (if_neg (by rcases hn with h | h <;> simp [h]))),
        dropRefClock_reset_leaves ref 3 _ s⟩
    case standby =>
      refine ⟨_, exec_becomes (exec_refclkLoss ns hp hok) (if_neg hr), dropRefClock_lost ref s, hroot, fun x hx => ?_⟩
      simp at hx
      simp [hx]
  case relock =>
    intro s ref hp hs he hl ht
    have next := exec_pllRelock hp hs he hl ht
    obtain ⟨a, c, w, hclk⟩ := settleRoot_clk (relock ref s)
    obtain ⟨hlock, hok⟩ := relock_locked ref s
    obtain ⟨hroot, hpending⟩ := relock_root ref s
    refine ⟨_, next, ?_, ?_, fun h => ?_, onlyIn_of_next (execPllRelock_next ..) next⟩
    · rw [hclk]; exact hlock
    · rw [hclk]; exact hok
    · rw [settleRoot_idle (hpending.trans h), hroot]
  case request =>
    intro s fn v hb hv
    have next := exec_rootReqChange hb hv
    obtain ⟨a, c, w, hclk⟩ := settleRoot_clk { s with clk := rootCtlClk v.toNat s.clk }
    refine ⟨_, next, ?_, ?_, ?_, onlyIn_of_next (execRootReqChange_next ..) next, fun he hr hl => ?switch⟩
    case switch =>
      rw [rootCtl_switches hv he hr hl, settleFaults, switchRoot_clk]
      exact ⟨(Bool.eq_not.mpr hr).symm, rfl⟩
    all_goals rw [settleFaults, hclk]; rfl
  case port =>
    intro s p vectors ns hp hl
    refine ⟨fun hc => ?covered, fun hc => ?waits⟩
    case covered =>
      have next := exec_becomes (exec_hostPortFail vectors ns hp hl) (if_pos hc)
      have only := onlyIn_of_next (execHostPortFail_next ..) next
      refine ⟨_, next, ?_, ?_, fun n i hi => movePort_instance p vectors ns ((congrArg (Tbl.get? · n) (portFailed_insts p s)).trans hi),
        only .tags (by decide), only⟩
      · rw [movePort_port, portFailed_port]; rfl
      · rw [movePort_port, portFailed_port]
    case waits =>
      have next := exec_becomes (exec_hostPortFail vectors ns hp hl) (if_neg (by simp [hc]))
      have port : portOf (settleFaults (portWaits p vectors (portFailed p s))) p = _ := portWaits_port ..
      have only : OnlyIn [.hif, .pwr] s (settleFaults (portWaits p vectors (portFailed p s))) := fun x hx => by
        simp at hx
        simp [portWaits, portFailed, hx]
      refine ⟨_, next, ?_, portWaits_down .., settleFaults_portDown (portWaits_down ..), ?_, only .insts (by decide), only⟩
      · rw [port, portFailed_port]; rfl
      · rw [port, portFailed_port]; rfl
  case link =>
    intro s p width speed rev pol hp hl hr hw hlo hhi
    have next := exec_linkReturn rev pol hp hl hr hw hlo hhi
    obtain ⟨vs, hport⟩ := linkUpAs_port p width speed rev pol (clearPortDown p s)
    have pwr : (linkUpAs p width speed rev pol (clearPortDown p s)).pwr = (clearPortDown p s).pwr :=
      pwr_of_get (linkUpAs_get _ _ _ _ _ _ .pwr (by decide))
    refine ⟨_, next, by rw [hport], by rw [hport], by rw [hport], ?_, fun hd => ?_, onlyIn_of_next (execLinkReturn_next ..) next⟩
    · rw [pwr]; exact bit_setBit_false ..
    · exact linkUpAs_releases (s := clearPortDown p s) width speed rev pol hr hd
  case spare =>
    intro s failing hp hs ht
    have next := exec_spareCheck failing hp hs ht
    refine ⟨_, next, ?_, fun n e hm he hr => ?_, ?_, onlyIn_of_next (execSpareCheck_next ..) next⟩
    · exact congrArg Pwr.spareCheckAt (spareFails_foldl_pwr failing _)
    · exact spareFails_foldl_engine failing he (.inr ⟨hr, hm⟩)
    · rintro rfl x hx
      simp at hx
      simp [hx]

end Sys2Proof.Machine

/-! Obligation O51 (TemperaturePowerCapAndRetraining): what a sample makes of its sensor, and what retraining makes of a channel and of a
DRAM side. -/

namespace Sys2Proof.Machine

/-! ### Sensors (R427 to R431) -/

/-- A sensor after a sample: its state changes when 8 samples in a row say so (R428). -/
def sampled (ls : List Nat) (t : Int) (x : Sensor) : Sensor :=
  let y := countSample ls t x
  if stateAfter y = y.state then y else { y with state := stateAfter y, downs := 0 }

theorem sampled_fields (ls : List Nat) (t : Int) (x : Sensor) : (sampled ls t x).temp = t ∧
    (sampled ls t x).state = stateAfter (countSample ls t x) ∧ (sampled ls t x).failed = x.failed ∧ (sampled ls t x).bad = x.bad := by
  unfold sampled
  dsimp only
  split
  · next h => exact ⟨rfl, h.symm, rfl, rfl⟩
  · exact ⟨rfl, rfl, rfl, rfl⟩

theorem sensorOf_setSensor (n : Nat) (x : Sensor) (s : State) : sensorOf (setSensor n x s) n = x := by
  simp [sensorOf, setSensor, Tbl.getD, Tbl.get?_set]

theorem sensorOf_of_get? {s : State} {n : Nat} {x : Sensor} (h : Tbl.get? s.pwr.sensors n = some x) : sensorOf s n = x := by
  simp [sensorOf, Tbl.getD, h]

theorem thermalChange_pwr (n new prev : Nat) (t : Int) (s : State) : (thermalChange n new prev t s).pwr = s.pwr :=
  pwr_of_get (thermalChange_get n new prev t s .pwr (by decide))

/-- R429: the change is an event of instance 0. -/
theorem thermalChange_insts (n new prev : Nat) (t : Int) (s : State) : (thermalChange n new prev t s).insts =
    Tbl.modify s.insts 0 (queueEvent {
      code := 0x0020, status := stOk, r1 := sensorMask s n
      r0 := 0x0020 + 2 ^ 16 * n + 2 ^ 24 * new + 2 ^ 28 * prev + temp16 t * 2 ^ 32 }) := by
  simp only [thermalChange, raise, modInst, logHealth_insts, sensorMask, logHealth_pwr]

/-- A sample leaves of the supply's registers all but its sensor. -/
theorem takeSample_pwr (n : Nat) (t : Int) (s : State) :
    (takeSample n t s).pwr = (setSensor n (sampled (limitsOf s n) t (sensorOf s n)) s).pwr := by
  unfold takeSample sampled
  dsimp only
  split
  · rfl
  · rw [thermalChange_pwr]

/-- The sample of sensor `n`, whose reading is valid and not ignored, once it has counted (R428, R431). -/
def goodSample (n : Nat) (t : Int) (x : Sensor) (s : State) : State := takeSample n t (setSensor n { x with bad := 0 } s)

section
variable {s : State} {n : Nat} (t : Int) (x : Sensor)

theorem goodSample_sensors (m : Nat) : Tbl.get? (goodSample n t x s).pwr.sensors m =
    if m = n then some (sampled (limitsOf s n) t { x with bad := 0 }) else Tbl.get? s.pwr.sensors m := by
  rw [goodSample, takeSample_pwr, sensorOf_setSensor]
  simp only [setSensor, Tbl.get?_set]
  split <;> rfl

theorem goodSample_steady (h : stateAfter (countSample (limitsOf s n) t x) = x.state) :
    OnlyIn [.pwr] s (goodSample n t x s) := by
  have steady : goodSample n t x s =
      setSensor n (countSample (limitsOf s n) t { x with bad := 0 }) (setSensor n { x with bad := 0 } s) := by
    unfold goodSample takeSample
    rw [sensorOf_setSensor]
    exact if_pos h
  intro y hy
  rw [steady, setSensor_get _ _ _ _ hy, setSensor_get _ _ _ _ hy]

theorem goodSample_changes (h : stateAfter (countSample (limitsOf s n) t x) ≠ x.state) : (goodSample n t x s).insts =
    Tbl.modify s.insts 0 (queueEvent {
      code := 0x0020, status := stOk, r1 := sensorMask s n
      r0 := 0x0020 + 2 ^ 16 * n + 2 ^ 24 * stateAfter (countSample (limitsOf s n) t x) + 2 ^ 28 * x.state + temp16 t * 2 ^ 32 }) := by
  unfold goodSample takeSample
  rw [sensorOf_setSensor]
  exact (congrArg State.insts (if_neg h)).trans (thermalChange_insts ..)

end

/-- An on-die sensor below 125 °C counts its sample and settles what follows, and so does a remote one. -/
theorem exec_sensorSample {s : State} {n : Fin 20} {x : Sensor} {t : Int} (hp : powered s = true) (he : sensorEnabled s n = true)
    (hx : Tbl.get? s.pwr.sensors n = some x) (hf : x.failed = false) (hd : n.val < 12 → deviates s n t = false ∧ t < 1000)
    (hr : 12 ≤ n.val → -320 ≤ t ∧ t ≤ 1200) :
    exec (.sensorSample n (some t)) s = .next (settleShed (settleFaults (goodSample n t x s))) := by
  have running : s.glb.held = false ∧ s.glb.ended = false := by simpa [powered] using hp
  have counted : (if n.val < 12 then dieSample n (some t) s else remoteSample n (some t) s) = goodSample n t x s := by
    split
    · next h => simp [dieSample, hd h, sensorOf_of_get? hx, hf, goodSample]
    · next h => simp [remoteSample, remoteValid, hr (by omega), sensorOf_of_get? hx, hf, goodSample]
  have cool : ¬(n.val < 12 ∧ 1000 ≤ (sensorOf (goodSample n t x s) n).temp) := by
    rintro ⟨h, hot⟩
    rw [sensorOf_of_get? ((goodSample_sensors t x n).trans (if_pos rfl)), (sampled_fields ..).1] at hot
    have := (hd h).2
    omega
  show execSensorSample n (some t) s = _
  unfold execSensorSample
  rw [act_pos (by simp [running, he, hp])]
  simp only [running, counted, cool, decide_false, Bool.false_and, Bool.false_eq_true, if_false]

theorem settleShed_pwr (s : State) : (settleShed s).pwr = s.pwr := pwr_of_get (settleShed_get s .pwr (by decide))

theorem settled_sensors (s : State) : (settleShed (settleFaults s)).pwr.sensors = s.pwr.sensors := by rw [settleShed_pwr]; rfl

/-- What settles after a sample is in the fault bits and the channels. -/
theorem settled_only (s : State) : OnlyIn [.pwr, .flc] s (settleShed (settleFaults s)) := fun y hy => by
  simp at hy
  simp [hy]

theorem exec_thermalTrip {s : State} {n : Fin 12} {t : Int} (hp : powered s = true) (ht : 1000 ≤ t) (hf : (sensorOf s n).failed = false) :
    exec (.thermalTrip n t) s = .next (internalReset 2 true s) :=
  act_pos (by simp [hp, ht, hf])

/-! ### The power cap (R432) -/

/-- The power cap of instance 0, in W. -/
def powerCap (s : State) : Nat := (Tbl.get? s.insts 0).elim 19 (fun i => i.feat.powerCap)

/-- The level that an estimate asks for. -/
def capLevelAt (mw : Nat) (s : State) : Nat := if mw ≤ 1000 * powerCap s then 0 else if s.pwr.capLevel = 0 then 2 else 3

theorem exec_powerCapEstimate {s : State} (mw : Nat) (hp : powered s = true) (hs : 5 ≤ s.glb.stage) (ht : s.pwr.capAt + 100 ≤ s.now) :
    exec (.powerCapEstimate mw) s = .next { s with pwr := { s.pwr with
      capLevel := capLevelAt mw s, capActive := !(capLevelAt mw s == 0), capAt := s.now } } := by
  show execPowerCapEstimate mw s = _
  unfold execPowerCapEstimate
  rw [act_pos]
  · rfl
  · simp [hp, hs, ht]

/-! ### A channel retrains (R424, R425) -/

/-- The channel as its retraining begins. -/
def retraining (st : ChSt) (now trigger : Nat) (x : Chan) : Chan :=
  { x with st := st, retraining := some (now, trigger), lastRetrain := now }

theorem exec_retrainStart_channel {s : State} {c : Fin 18} {x : Chan} {trig : Fin 3} (hc : c.val < 16)
    (hx : Tbl.get? s.flc.channels c = some x) (hp : powered s = true) (hs : 5 ≤ s.glb.stage) (hf : flushing s = false)
    (hst : x.st = .inService) (hn : ∀ p ∈ s.flc.channels, p.2.retraining = none) (hh : heldOff s x.lastRetrain = false)
    (ht : triggered s trig (c / 2) x.trainTemp x.retrain = true) :
    exec (.retrainStart c trig) s = .next (retrainChannel c trig s) := by
  have idle : x.retraining = none := hn _ (Tbl.mem_of_get? hx)
  have alone : s.flc.channels.any (fun c => c.2.retraining.isSome) = false := by
    simpa using fun a b h => hn (a, b) h
  show execRetrainStart c trig s = _
  simp only [execRetrainStart, hc, hx, if_true]
  exact act_pos (by simp [hp, hs, hf, hst, idle, alone, hh, ht])

theorem retrainChannel_channel {s : State} {c : Nat} {x : Chan} (trig : Nat) (h : Tbl.get? s.flc.channels c = some x) :
    Tbl.get? (retrainChannel c trig s).flc.channels c =
      some (retraining (if channelCovered s c then .shed else .training) s.now trig x) := by
  unfold retrainChannel
  split
  · exact modChan_self (s := shedChannel c s) _ (modChan_self (s := closeOn c s) _ h)
  · exact modChan_self (s := modChan c _ s) _ (modChan_self _ h)

/-- The shedding of channel `c` and its return, as its scope stands (R429). -/
def shedOrReturn (s : State) (c : Nat) : State :=
  match Tbl.get? s.flc.channels c with
  | none => s
  | some x =>
    if channelThermal s c = 4 then
      if x.st == .inService && x.retraining.isNone && channelCovered s c then shedChannel c s else s
    else if x.st == .shed && x.retraining.isNone then modChan c (fun x => { x with st := .inService }) s
    else s

theorem settleShed_eq (s : State) : settleShed s = (List.range 16).foldl shedOrReturn s := rfl

theorem channelThermal_congr {s t : State} (hs : t.pwr.sensors = s.pwr.sensors) (he : t.pwr.extCfg = s.pwr.extCfg) (c : Nat) :
    channelThermal t c = channelThermal s c := by
  unfold channelThermal
  rw [hs, he]

theorem shedOrReturn_pwr (s : State) (c : Nat) : (shedOrReturn s c).pwr = s.pwr := by
  unfold shedOrReturn
  repeat' split
  all_goals rfl

/-- Of a channel its state alone changes, and one in service below CRITICAL stays there. -/
theorem shedOrReturn_channel {s : State} {c : Nat} {x : Chan} (d : Nat) (h : Tbl.get? s.flc.channels c = some x) :
    ∃ st, Tbl.get? (shedOrReturn s d).flc.channels c = some { x with st := st } ∧
      (channelThermal s c ≠ 4 → x.st = .inService → st = .inService) := by
  have unchanged : ∃ st, Tbl.get? s.flc.channels c = some { x with st := st } ∧
      (channelThermal s c ≠ 4 → x.st = .inService → st = .inService) := ⟨x.st, h, fun _ => id⟩
  by_cases hd : c = d
  · subst hd
    simp only [shedOrReturn, h]
    split
    · next hot =>
      split
      · exact ⟨.shed, modChan_self (s := closeOn c s) _ h, fun hc => absurd hot hc⟩
      · exact unchanged
    · split
      · exact ⟨.inService, modChan_self _ h, fun _ _ => rfl⟩
      · exact unchanged
  · have other (f : Chan → Chan) (u : State) (hu : u.flc.channels = s.flc.channels) :
        Tbl.get? (modChan d f u).flc.channels c = Tbl.get? s.flc.channels c := by rw [modChan_get?, if_neg hd, hu]
    refine ⟨x.st, Eq.trans ?_ h, fun _ => id⟩
    unfold shedOrReturn
    split
    · rfl
    · split <;> split
      · exact other _ (closeOn d s) rfl
      · rfl
      · exact other _ s rfl
      · rfl

theorem settleShed_channel {s : State} {c : Nat} {x : Chan} (h : Tbl.get? s.flc.channels c = some x) :
    ∃ st, Tbl.get? (settleShed s).flc.channels c = some { x with st := st } ∧
      (channelThermal s c ≠ 4 → x.st = .inService → st = .inService) := by
  rw [settleShed_eq]
  generalize List.range 16 = ds
  induction ds generalizing s x with
  | nil => exact ⟨x.st, h, fun _ => id⟩
  | cons d ds ih =>
    obtain ⟨st, hst, stays⟩ := shedOrReturn_channel d h
    obtain ⟨st', hst', stays'⟩ := ih hst
    have scope : channelThermal (shedOrReturn s d) c = channelThermal s c :=
      channelThermal_congr (by rw [shedOrReturn_pwr]) (by rw [shedOrReturn_pwr]) c
    exact ⟨st', hst', fun hc hs => stays' (scope ▸ hc) (stays hc hs)⟩

theorem exec_retrainDone_channel {s : State} {c : Fin 18} {x : Chan} {r : Nat × Nat} (pass : Bool) (dropped : List (Nat × Nat)) (ns : Nat)
    (hc : c.val < 16) (hx : Tbl.get? s.flc.channels c = some x) (hr : x.retraining = some r) (hp : powered s = true) :
    exec (.retrainDone c pass dropped ns) s = .next (channelRetrained c pass ns r s) := by
  show execRetrainDone c pass dropped ns s = _
  simp only [execRetrainDone, hc, hx, hr, if_true, Option.bind_some]
  exact act_pos hp

/-- The end of a retraining is counted and logged, and the channel retrains no more. -/
def channelSettled (c : Nat) (r : Nat × Nat) (s : State) : State :=
  modChan c (fun x => { x with retrain := false, retraining := none })
    (logRetrain c r { s with pwr := { s.pwr with retrainFlash := satInc s.pwr.retrainFlash 0xFFFF } })

/-- The channel is back in service, trained at the temperature of now. -/
def channelReturned (c : Nat) (s : State) : State :=
  modChan c (fun x => { x with
    st := .inService, trainCount := satInc x.trainCount 0xFF, trainTemp := trainTemp s (c / 2), trainAt := s.now }) s

theorem channelRetrained_pass (c ns : Nat) (r : Nat × Nat) (s : State) :
    channelRetrained c true ns r s = settleShed (channelReturned c (channelSettled c r s)) := rfl

theorem channelRetrained_fail (c ns : Nat) (r : Nat × Nat) (s : State) :
    channelRetrained c false ns r s = channelLost c ns (channelSettled c r s) := rfl

theorem channelSettled_channel {s : State} {c : Nat} {x : Chan} (r : Nat × Nat) (h : Tbl.get? s.flc.channels c = some x) :
    Tbl.get? (channelSettled c r s).flc.channels c = some { x with retrain := false, retraining := none } := by
  refine modChan_self _ ?_
  rw [logRetrain, logHealth_channels]
  exact h

theorem channelSettled_pwr (c : Nat) (r : Nat × Nat) (s : State) :
    (channelSettled c r s).pwr = { s.pwr with retrainFlash := satInc s.pwr.retrainFlash 0xFFFF } := logHealth_pwr ..

/-- A channel trained anew, at temperature `t` and time `now`. -/
def trained (t now : Nat) (x : Chan) : Chan :=
  { x with st := .inService, trainCount := satInc x.trainCount 0xFF, trainTemp := t, trainAt := now }

theorem channelReturned_channel {s : State} {c : Nat} {x : Chan} (h : Tbl.get? s.flc.channels c = some x) :
    Tbl.get? (channelReturned c s).flc.channels c = some (trained (trainTemp s (c / 2)) s.now x) := modChan_self _ h

theorem channelReturned_pwr (c : Nat) (s : State) : (channelReturned c s).pwr = s.pwr := rfl

/-- The state of a scope is that of its sensors, which a retraining leaves. -/
theorem channelReturned_thermal (c : Nat) (r : Nat × Nat) (s : State) (d : Nat) :
    channelThermal (channelReturned c (channelSettled c r s)) d = channelThermal s d := by
  apply channelThermal_congr <;> rw [channelReturned_pwr, channelSettled_pwr]

/-! ### A DRAM side retrains (R424, R426) -/

/-- The interface of a DRAM side. -/
def sideIface (b : Bool) : Fin 18 := if b then 17 else 16

theorem sideIface_val (b : Bool) : ¬(sideIface b).val < 16 ∧ ((sideIface b).val == 17) = b := by cases b <;> decide

theorem sideOf_of_drc {s t : State} (h : t.drc = s.drc) (b : Bool) : sideOf t b = sideOf s b := by
  unfold sideOf
  rw [h]

theorem exec_retrainStart_side {s : State} {b : Bool} {trig : Fin 3} (hp : powered s = true) (hs : 5 ≤ s.glb.stage)
    (hf : flushing s = false) (hst : (sideOf s b).st = .inService) (hr : (sideOf s b).retraining = none)
    (hh : heldOff s (sideOf s b).lastRetrain = false)
    (ht : triggered s trig (8 + b2n b) (sideOf s b).trainTemp (sideOf s b).retrain = true) :
    exec (.retrainStart (sideIface b) trig) s = .next (retrainSide b trig s) := by
  obtain ⟨hside, hb⟩ := sideIface_val b
  show execRetrainStart (sideIface b) trig s = _
  simp only [execRetrainStart, hside, hb, if_false]
  exact act_pos (by simp [hp, hs, hf, hst, hr, hh, ht])

theorem exec_retrainDone_side {s : State} {b : Bool} {r : Nat × Nat} (pass : Bool) (dropped : List (Nat × Nat)) (ns : Nat)
    (hr : (sideOf s b).retraining = some r) (hp : powered s = true) :
    exec (.retrainDone (sideIface b) pass dropped ns) s = .next (sideRetrained b pass dropped ns r s) := by
  obtain ⟨hside, hb⟩ := sideIface_val b
  show execRetrainDone (sideIface b) pass dropped ns s = _
  simp only [execRetrainDone, hside, hb, hr, if_false]
  exact act_pos hp

/-- The end of a retraining is counted and logged, and the side retrains no more. -/
def sideSettled (b : Bool) (r : Nat × Nat) (s : State) : State :=
  modSide b (fun x => { x with retrain := false, retraining := none })
    (logRetrain (16 + b2n b) r { s with pwr := { s.pwr with retrainDram := satInc s.pwr.retrainDram 0xFFFF } })

/-- The side is back in service with the writes that it missed, trained at the temperature of now. -/
def sideTrained (b : Bool) (s : State) : State :=
  modSide b (fun x => { replaySide x with
    st := .inService, trainCount := satInc x.trainCount 0xFF, trainTemp := trainTemp s (8 + b2n b), trainAt := s.now }) s

theorem sideRetrained_pass (b : Bool) (dropped : List (Nat × Nat)) (ns : Nat) (r : Nat × Nat) (s : State) :
    sideRetrained b true dropped ns r s = sideTrained b (sideSettled b r s) := rfl

theorem sideRetrained_fail (b : Bool) (dropped : List (Nat × Nat)) (ns : Nat) (r : Nat × Nat) (s : State) :
    sideRetrained b false dropped ns r s = failSide b dropped ns (sideSettled b r s) := rfl

theorem sideSettled_sides (b : Bool) (r : Nat × Nat) (s : State) :
    sideOf (sideSettled b r s) b = { sideOf s b with retrain := false, retraining := none } ∧
      sideOf (sideSettled b r s) (!b) = sideOf s (!b) := by
  have logged (c : Bool) : sideOf (logRetrain (16 + b2n b) r
      { s with pwr := { s.pwr with retrainDram := satInc s.pwr.retrainDram 0xFFFF } }) c = sideOf s c :=
    sideOf_of_drc (drc_of_get (logRetrain_get _ _ _ .drc (by decide))) c
  rw [sideSettled, sideOf_modSide_same, sideOf_modSide_other, logged, logged]
  exact ⟨rfl, rfl⟩

theorem sideTrained_sides (b : Bool) (s : State) : (∃ n t a, sideOf (sideTrained b s) b = { replaySide (sideOf s b) with
    st := .inService, trainCount := n, trainTemp := t, trainAt := a }) ∧ sideOf (sideTrained b s) (!b) = sideOf s (!b) :=
  ⟨⟨_, _, _, sideOf_modSide_same ..⟩, sideOf_modSide_other ..⟩

/-- Settles O51: each command by its meaning, a sample by its sensor, a retraining by its channel or side. -/
theorem temperaturePowerCapAndRetraining : Obligations.TemperaturePowerCapAndRetraining := by
  refine ⟨?sample, ?trip, ?cap, ?channelStart, ?channelDone, ?sideStart, ?sideDone⟩
  case sample =>
    intro s n x t hp he hx hf hd hr
    have next := exec_sensorSample hp he hx hf hd hr
    have settled := settled_only (goodSample n t x s)
    have sensors := settled_sensors (goodSample n t x s)
    obtain ⟨htemp, hstate, hfailed, hbad⟩ := sampled_fields (limitsOf s n) t { x with bad := 0 }
    refine ⟨_, next, ⟨_, ?_, htemp, hstate, hfailed.trans hf, hbad⟩, fun m hm => ?_, fun hk => ?_, fun hk => ?_, fun y hy => ?_⟩
    · rw [sensors, goodSample_sensors, if_pos rfl]
    · rw [sensors, goodSample_sensors, if_neg hm]
    · exact ⟨(settled .insts (by decide)).trans (goodSample_steady t x hk .insts (by decide)),
        (settled .glb (by decide)).trans (goodSample_steady t x hk .glb (by decide))⟩
    · exact (settled .insts (by decide)).trans (goodSample_changes t x hk)
    · simp at hy
      simp [goodSample, hy]
  case trip => exact fun s n t hp ht hf => ⟨_, exec_thermalTrip hp ht hf, internalReset_leaves 2 true s⟩
  case cap =>
    intro s mw hp hs ht
    have next := exec_powerCapEstimate mw hp hs ht
    refine ⟨_, next, fun h => ?_, fun h => ?_, rfl, onlyIn_of_next (execPowerCapEstimate_next ..) next⟩
    · have level : capLevelAt mw s = 0 := if_pos h
      exact ⟨congrArg (fun l => !(l == 0)) level, level⟩
    · have level : capLevelAt mw s = if s.pwr.capLevel = 0 then 2 else 3 := if_neg (Nat.not_le.mpr h)
      exact ⟨(congrArg (fun l => !(l == 0)) level).trans (by split <;> rfl), level⟩
  case channelStart =>
    intro s c x trig hc hx hp hs hf hst hn hh ht
    refine ⟨_, exec_retrainStart_channel hc hx hp hs hf hst hn hh ht, ⟨_, retrainChannel_channel trig hx, rfl, rfl, rfl⟩,
      fun y hy => ?_⟩
    simp at hy
    simp [retrainChannel, hy]
  case channelDone =>
    intro s c x r dropped ns hc hx hr hp
    have ended := channelSettled_channel r hx
    refine ⟨⟨_, exec_retrainDone_channel true dropped ns hc hx hr hp, ?_⟩, ⟨_, exec_retrainDone_channel false dropped ns hc hx hr hp, ?_⟩⟩
    · rw [channelRetrained_pass]
      obtain ⟨st, hst, stays⟩ := settleShed_channel (channelReturned_channel ended)
      have scope := channelReturned_thermal c r s c
      refine ⟨⟨_, hst, rfl, rfl, rfl, fun h => stays (fun hot => h (scope.symm.trans hot)) rfl⟩, ?_, fun y hy => ?_⟩
      · rw [settleShed_pwr, channelReturned_pwr, channelSettled_pwr]
      · simp at hy
        simp [channelReturned, channelSettled, hy]
    · rw [channelRetrained_fail]
      refine ⟨⟨_, channelLost_channel ns ended, rfl, rfl⟩, fun y hy => ?_⟩
      simp at hy
      simp [channelSettled, hy]
  case sideStart =>
    intro s b trig hp hs hf hst hr hh ht
    refine ⟨_, exec_retrainStart_side hp hs hf hst hr hh ht, ?_, ?_, sideOf_modSide_other .., fun y hy => ?_⟩
    · rw [retrainSide, sideOf_modSide_same]
    · rw [retrainSide, sideOf_modSide_same]
    · simp at hy
      simp [retrainSide, hy]
  case sideDone =>
    intro s b r dropped ns hr hp
    obtain ⟨hside, hother⟩ := sideSettled_sides b r s
    refine ⟨⟨_, exec_retrainDone_side true dropped ns hr hp, ?_⟩, ⟨_, exec_retrainDone_side false dropped ns hr hp, ?_⟩⟩
    · rw [sideRetrained_pass]
      obtain ⟨⟨n, t, a, trained⟩, unchanged⟩ := sideTrained_sides b (sideSettled b r s)
      have pwr : (sideTrained b (sideSettled b r s)).pwr = { s.pwr with retrainDram := satInc s.pwr.retrainDram 0xFFFF } := by
        rw [sideTrained, sideSettled, pwr_of_get (modSide_get _ _ _ .pwr (by decide)), pwr_of_get (modSide_get _ _ _ .pwr (by decide)),
          logRetrain, logHealth_pwr]
      rw [hside] at trained
      refine ⟨by rw [trained], by rw [trained]; rfl, by rw [trained]; rfl, by rw [trained]; rfl, unchanged.trans hother, by rw [pwr],
        fun y hy => ?_⟩
      simp at hy
      simp [sideTrained, sideSettled, hy]
    · rw [sideRetrained_fail]
      refine ⟨(failSide_sides ..).1, fun p => ?_, fun y hy => ?_⟩
      · have packages : (sideSettled b r s).bsh = s.bsh :=
          bsh_of_get ((modSide_get _ _ _ .bsh (by decide)).trans (logRetrain_get _ _ _ .bsh (by decide)))
        simp [failSide_packages, packages]
      · simp at hy
        simp [sideSettled, hy]

end Sys2Proof.Machine

/-! Obligation O27 (FirmwareIsStagedAndActivated): what a piece, the last piece and the checks make of a staged image, and what the switch
makes of the commands in flight. -/

namespace Sys2Proof.Machine

/-! ### A refused image (R150) -/

/-- A command ends with the status of the check that failed; ST_AUTH_FAIL is counted. -/
def imageFails (k st : Nat) (s : State) : State := if st = stAuthFail then authFailed k s else finishWith k st 0 0 s

theorem imageFails_get (k st : Nat) (s : State) (x : Part) (hx : x ∉ [Part.sec, .tags, .locks, .units]) :
    (imageFails k st s).get x = s.get x := by
  simp only [List.mem_cons, List.not_mem_nil, or_false, not_or] at hx
  simp [imageFails, hx]

theorem Working.imageFails_ended {op k : Nat} {s u : State} {g : Tag} (h : Working op s k g) (hu : u.tags = s.tags) (st : Nat) :
    Ended (imageFails k st u) k st 0 0 := by
  unfold imageFails
  split
  · next hst =>
    subst hst
    exact h.finish_ended (u := { u with sec := _ }) hu { status := stAuthFail, r0 := 0, r1 := 0 }
  · exact h.finish_ended hu { status := st, r0 := 0, r1 := 0 }

/-! ### FW_STAGE (R414) -/

theorem exec_fwStage {s : State} {inst : Fin 64} {tag : Fin 256} {g : Tag} (h : Working opFwStage s (tagKey inst tag) g)
    (hr : programsRun s = true) : exec (.fwStage inst tag) s = .next (fwStage inst g.packet (tagKey inst tag) s) := by
  show execFwStage inst tag s = _
  rw [execFwStage, h.next hr]

/-- The pieces held with the piece of packet `p`. -/
def joinedPieces (n : Nat) (p : List Byte) (s : State) : Cells :=
  Cells.writeN (if field p 36 4 = 0 then [] else s.glb.pieces) (field p 36 4) (gather s n p 0 (min (pkBufLen p) 1048576))

/-- A piece at offset 0 discards those held (log entry 100). -/
def imageBegun (p : List Byte) (s : State) : State := if field p 36 4 = 0 then dropPieces s else s

theorem imageBegun_otp (p : List Byte) (s : State) : (imageBegun p s).otp = s.otp := by
  unfold imageBegun
  split <;> rfl

/-- The piece joins those held. -/
def pieceJoins (n : Nat) (p : List Byte) (s : State) : State :=
  let u := imageBegun p s
  { u with glb := { u.glb with pieces := joinedPieces n p s, stagedBytes := field p 36 4 + pkBufLen p } }

/-- The image whose last piece is that of packet `p`, good, is the staged one. -/
def imageStaged (n : Nat) (p : List Byte) (s : State) : State :=
  let u := pieceJoins n p s
  { u with glb := { u.glb with staged := some (imageOf (joinedPieces n p s) (field p 36 4 + pkBufLen p)), pieces := [] } }

theorem pieceJoins_glb (n : Nat) (p : List Byte) (s : State) : (pieceJoins n p s).glb = { s.glb with
    pieces := joinedPieces n p s, stagedBytes := field p 36 4 + pkBufLen p
    staged := if field p 36 4 = 0 then none else s.glb.staged } := by
  unfold pieceJoins imageBegun
  split <;> rfl

theorem pieceJoins_only {n : Nat} {p : List Byte} {s : State} : OnlyIn [.glb] s (pieceJoins n p s) := fun x hx => by
  simp at hx
  simp [pieceJoins, imageBegun, hx]

/-- A piece in its place, of a legal length; the last one ends where the header says. -/
def PieceFits (s : State) (p : List Byte) (pieces : Cells) : Prop :=
  (field p 36 4 = 0 ∨ field p 36 4 = s.glb.stagedBytes) ∧ 4 ≤ pkBufLen p ∧ pkBufLen p ≤ 1048576 ∧ pkBufLen p % 4 = 0 ∧
    field p 36 4 + pkBufLen p ≤ 16777216 ∧ (field p 40 1 = 1 → leNat (Cells.readN pieces 8 4) = field p 36 4 + pkBufLen p)

theorem stageRefused_misplaced {s : State} {p : List Byte} (pieces : Cells) (h0 : field p 36 4 ≠ 0) (h : field p 36 4 ≠ s.glb.stagedBytes) :
    stageRefused s p pieces = some 36 := by
  simp [stageRefused, h0, h]

theorem stageRefused_fits {s : State} {p : List Byte} {pieces : Cells} (h : PieceFits s p pieces) : stageRefused s p pieces = none := by
  obtain ⟨place, least, most, words, size, last⟩ := h
  have placed : (field p 36 4 == 0 || field p 36 4 == s.glb.stagedBytes) = true := by simpa using place
  by_cases hl : field p 40 1 = 1
  · simp [stageRefused, placed, least, most, words, size, hl, last hl]
  · simp [stageRefused, placed, least, most, words, size, hl]

section
variable {s : State} {n k : Nat} {p : List Byte}

theorem fwStage_misplaced (h0 : field p 36 4 ≠ 0) (h : field p 36 4 ≠ s.glb.stagedBytes) :
    fwStage n p k s = finishWith k stBadField 36 0 s := by
  simp only [fwStage, stageRefused_misplaced _ h0 h, badField]

/-- R414: a piece that is not the last is held. -/
theorem fwStage_piece (h : PieceFits s p (joinedPieces n p s)) (hl : field p 40 1 = 0) :
    fwStage n p k s = finishWith k stOk (field p 36 4 + pkBufLen p) 0 (pieceJoins n p s) := by
  have fits := stageRefused_fits h
  rw [joinedPieces] at fits
  simp only [fwStage, fits, hl, if_true]
  rfl

variable (h : PieceFits s p (joinedPieces n p s)) (hl : field p 40 1 = 1)
include h hl

/-- R414: the last piece puts the image to the checks of R150. -/
theorem fwStage_good (hi : imageRefused s.otp (joinedPieces n p s) (field p 36 4 + pkBufLen p) = none) :
    fwStage n p k s = finishWith k stOk (field p 36 4 + pkBufLen p) 0 (imageStaged n p s) := by
  have fits := stageRefused_fits h
  rw [joinedPieces] at fits hi
  rw [← imageBegun_otp p s, imageBegun] at hi
  simp only [fwStage, fits, hl, one_ne_zero, if_false, hi]
  rfl

theorem fwStage_refused {st : Nat} (hi : imageRefused s.otp (joinedPieces n p s) (field p 36 4 + pkBufLen p) = some st) :
    fwStage n p k s = imageFails k st (dropPieces (pieceJoins n p s)) := by
  have fits := stageRefused_fits h
  rw [joinedPieces] at fits hi
  rw [← imageBegun_otp p s, imageBegun] at hi
  simp only [fwStage, fits, hl, one_ne_zero, if_false, hi]
  rfl

end

/-! ### FW_ACTIVATE (R415) -/

theorem exec_fwActivate {s : State} {inst : Fin 64} {tag : Fin 256} {g : Tag} (accepts : Bool)
    (h : Working opFwActivate s (tagKey inst tag) g) :
    exec (.fwActivate inst tag accepts) s = .next (fwActivate accepts (tagKey inst tag) s) := by
  show execFwActivate inst tag accepts s = _
  rw [execFwActivate, h.next rfl]

/-- R415: the staged image passes the checks of R150 again, and the activation component accepts it. -/
theorem fwActivate_good {s : State} {x : Image} (k : Nat) (h : s.glb.staged = some x) (hi : imageRefused s.otp x.bytes x.len = none) :
    fwActivate true k s = modTag k (fun t => { t with work := .switching }) s := by
  simp only [fwActivate, h, hi, if_true]

theorem fwActivate_refused {s : State} {x : Image} {st : Nat} (accepts : Bool) (k : Nat) (h : s.glb.staged = some x)
    (hi : imageRefused s.otp x.bytes x.len = some st) : fwActivate accepts k s = imageFails k st s := by
  simp only [fwActivate, h, hi, imageFails]

/-! ### The switch (R75, R185, R416) -/

/-- A RUNNING command but that of tag `k` is held. -/
def heldBut (k j : Nat) (t : Tag) : Tag := if j ≠ k ∧ t.st = .running then { t with st := .held } else t

/-- HOLD is set or cleared, and traced. -/
def setHold (on : Bool) (s : State) : State :=
  trace 0x0D noCtx noEngine none 0 (b2n on) { s with sch := { s.sch with hold := on } }

theorem setHold_hold (on : Bool) (s : State) : (setHold on s).sch.hold = on := trace_hold ..

theorem setHold_tags (on : Bool) (s : State) : (setHold on s).tags = s.tags := tags_of_get (trace_get _ _ _ _ _ _ _ .tags (by decide))

theorem exec_activationSwitch {s : State} {k : Nat} (hk : switchTag s = some k) (hs : serving s = true) (hh : s.sch.hold = false) :
    exec .activationSwitch s =
      .next { setHold true s with tags := Tbl.mapVals (setHold true s).tags (heldBut k) } := by
  show execActivationSwitch s = _
  simp only [execActivationSwitch, hk]
  exact act_pos (by simp [hs, hh])

/-- A held command runs on. -/
def resumed (t : Tag) : Tag := if t.st = .held then { t with st := .running } else t

theorem makeReady_hold (c flags : Nat) (s : State) : (makeReady c flags s).sch.hold = s.sch.hold :=
  (congrArg Sch.hold (bare_traceTask ..) :)

/-- The held tasks are READY again. -/
def tasksResume (s : State) : State :=
  ((s.sch.tasks.filter (fun t => t.2.st == .held)).map Prod.fst).foldl (fun s c => makeReady c 0 s) s

theorem tasksResume_hold (s : State) : (tasksResume s).sch.hold = s.sch.hold :=
  foldl_keeps (fun s : State => s.sch.hold) _ (fun u c => makeReady_hold c 0 u) s

theorem tasksResume_tags (s : State) : (tasksResume s).tags = s.tags :=
  tags_of_get (State.get_foldl _ _ _ .tags (fun u c => makeReady_get c 0 u .tags (by decide)))

theorem clearHold_eq (s : State) : clearHold s =
    { tasksResume (setHold false s) with tags := Tbl.mapVals (tasksResume (setHold false s)).tags (fun _ t => resumed t) } := rfl

theorem clearHold_hold (s : State) : (clearHold s).sch.hold = false := by
  rw [clearHold_eq]
  exact (tasksResume_hold _).trans (setHold_hold false s)

theorem clearHold_tag {s : State} {j : Nat} {y : Tag} (h : Tbl.get? s.tags j = some y) :
    Tbl.get? (clearHold s).tags j = some (resumed y) := by
  rw [clearHold_eq, Tbl.get?_mapVals, tasksResume_tags, setHold_tags, h]
  rfl

theorem clearHold_glb (s : State) : (clearHold s).glb = s.glb := glb_of_get (clearHold_get s .glb (by decide))

theorem exec_activationSwitchEnd {s : State} {k : Nat} {x : Image} (pause : Nat) (hk : switchTag s = some k) (hx : s.glb.staged = some x)
    (hp : powered s = true) (hh : s.sch.hold = true) (he : enginesIdle s = true) :
    exec (.activationSwitchEnd pause) s = .next (activated k pause x (clearHold s)) := by
  show execActivationSwitchEnd pause s = _
  simp only [execActivationSwitchEnd, hk, hx]
  exact act_pos (by simp [hp, hh, he])

/-- A record of the health log leaves the images. -/
theorem logHealth_images (kind inst vol unit lba count : Nat) (detail : List Byte) (s : State) :
    (logHealth kind inst vol unit lba count detail s).glb.running = s.glb.running ∧
      (logHealth kind inst vol unit lba count detail s).glb.staged = s.glb.staged := by
  unfold logHealth pushHealth numberHealth takeSeq
  dsimp only
  repeat' split
  all_goals exact ⟨rfl, rfl⟩

/-- The new image runs, and is logged and reported; the old one is staged (R416). -/
def imageSwitched (pause : Nat) (x : Image) (s : State) : State :=
  let old := s.glb.running
  raise 0 { code := 0x0023, status := stOk, r0 := 0x0023 + 2 ^ 32 * x.fwVersion, r1 := old.fwVersion + pause % 2 ^ 32 * 2 ^ 32 }
    (logHealth 0x0024 0xFF 0xFFFF 0xFFFF 0 pause (Config.logDetail 0x0024 [x.fwVersion, old.fwVersion])
      { s with glb := { s.glb with running := x, stored := x, staged := some old, pieces := [], stagedBytes := 0 } })

theorem activated_eq (k pause : Nat) (x : Image) (s : State) :
    activated k pause x s = finishWith k stOk x.fwVersion pause (imageSwitched pause x s) := rfl

theorem imageSwitched_images (pause : Nat) (x : Image) (s : State) :
    (imageSwitched pause x s).glb.running = x ∧ (imageSwitched pause x s).glb.staged = some s.glb.running := logHealth_images ..

theorem imageSwitched_tags (pause : Nat) (x : Image) (s : State) : (imageSwitched pause x s).tags = s.tags :=
  tags_of_get (logHealth_get _ _ _ _ _ _ _ _ .tags (by decide))

theorem activated_glb (k pause : Nat) (x : Image) (s : State) : (activated k pause x s).glb = (imageSwitched pause x s).glb :=
  glb_of_get (finishWith_get _ _ _ _ _ .glb (by decide))

theorem activated_sch (k pause : Nat) (x : Image) (s : State) : (activated k pause x s).sch = s.sch :=
  sch_of_get (activated_get _ _ _ _ .sch (by decide))

/-- Settles O27: a piece by the checks of its place, an image by those of R150, the switch by the commands that it holds and lets go. -/
theorem firmwareIsStagedAndActivated : Obligations.FirmwareIsStagedAndActivated := by
  refine ⟨?stage, ?activate, ?switch, ?switchEnd⟩
  case stage =>
    intro s inst tag g hw hr off n pieces
    have next := exec_fwStage hw hr
    refine ⟨fun h0 h => ?misplaced, fun place least most words size hl => ?piece, fun place least most words size hl hlen => ?last⟩
    case misplaced => exact hw.repliesWith (exec_becomes next (fwStage_misplaced h0 h)) (OnlyIn.refl [] s) (by decide) trivial
    case piece =>
      have fits : PieceFits s g.packet pieces := ⟨place, least, most, words, size, fun h => by omega⟩
      refine hw.repliesWith (exec_becomes next (fwStage_piece fits hl)) pieceJoins_only (by decide) ?_
      have glb := (glb_of_get (finishWith_get (tagKey inst tag) stOk (off + n) 0 _ .glb (by decide))).trans (pieceJoins_glb inst g.packet s)
      rw [glb]
      exact ⟨rfl, rfl, fun h => if_neg h, fun h => if_pos h⟩
    case last =>
      have fits : PieceFits s g.packet pieces := ⟨place, least, most, words, size, fun _ => hlen⟩
      have tags : (pieceJoins inst g.packet s).tags = s.tags := tags_of_get (pieceJoins_only .tags (by decide))
      have glb := pieceJoins_glb inst g.packet s
      refine ⟨_, next, fun hgood => ?_, fun st hbad => ?_, onlyIn_of_next (execFwStage_next ..) next⟩
      · rw [fwStage_good fits hl hgood]
        have left : (finishWith (tagKey inst tag) stOk (off + n) 0 (imageStaged inst g.packet s)).glb = _ :=
          glb_of_get (finishWith_get _ _ _ _ _ .glb (by decide))
        refine ⟨hw.finish_ended (u := imageStaged inst g.packet s) tags { status := stOk, r0 := off + n, r1 := 0 }, ?_, ?_⟩
        · rw [left]; rfl
        · rw [left, imageStaged, glb]
      · rw [fwStage_refused fits hl hbad]
        have left : (imageFails (tagKey inst tag) st (dropPieces (pieceJoins inst g.packet s))).glb = _ :=
          glb_of_get (imageFails_get _ _ _ .glb (by decide))
        refine ⟨hw.imageFails_ended (u := dropPieces (pieceJoins inst g.packet s)) tags st, ?_⟩
        rw [left, dropPieces, glb]
        exact ⟨rfl, rfl, rfl⟩
  case activate =>
    intro s inst tag accepts g hw
    have next := exec_fwActivate accepts hw
    refine ⟨fun hnone => ?_, fun x hx ha => ⟨_, next, fun hgood => ?_, fun st hbad => ?_⟩⟩
    · exact hw.repliesWith (exec_becomes next (by rw [fwActivate, hnone])) (OnlyIn.refl [] s) (by decide) trivial
    · rw [ha, fwActivate_good _ hx hgood]
    · rw [fwActivate_refused _ _ hx hbad]
      exact hw.imageFails_ended rfl st
  case switch =>
    intro s k hk hs hh
    have next := exec_activationSwitch hk hs hh
    have tag (j : Nat) : Tbl.get? (Tbl.mapVals (setHold true s).tags (heldBut k)) j = (Tbl.get? s.tags j).map (heldBut k j) := by
      rw [Tbl.get?_mapVals, setHold_tags]
    refine ⟨_, next, setHold_hold true s, fun j y hj hy hr => ?_, ?_, onlyIn_of_next (execActivationSwitch_next ..) next⟩
    · rw [tag, hy]
      exact congrArg some (if_pos ⟨hj, hr⟩)
    · have unheld : heldBut k k = id := funext fun t => if_neg (fun h => h.1 rfl)
      rw [tag, unheld, Option.map_id]
      rfl
  case switchEnd =>
    intro s k pause x g hk hg hr hx hp hh he
    have next := exec_activationSwitchEnd pause hk hx hp hh he
    have tags := imageSwitched_tags pause x (clearHold s)
    have stays : resumed g = g := if_neg (by simp [hr])
    obtain ⟨running, staged⟩ := imageSwitched_images pause x (clearHold s)
    refine ⟨_, next, ?_, ?_, ?_, ?_, fun j y hj hy hst => ?_, onlyIn_of_next (execActivationSwitchEnd_next ..) next⟩
    · exact finish_ended k { status := stOk, r0 := x.fwVersion, r1 := pause } (imageSwitched pause x (clearHold s)) g
        (by rw [tags, clearHold_tag hg, stays]) (by simp [hr])
    · rw [activated_glb, running]
    · rw [activated_glb, staged, clearHold_glb]
    · rw [activated_sch, clearHold_hold]
    · rw [activated_eq, finishWith_get?, if_neg hj, tags, clearHold_tag hy]
      exact congrArg some (if_pos hst)

end Sys2Proof.Machine

/-! Obligations O58 (EveryCommandAnswers), O59 (FuseBitsAreNeverCleared), O60 (MemoriesStayCanonical) and O56
(StepRunsTheFrontCommand): what every command keeps. -/

namespace Sys2Proof.Machine

/-! ### What a command keeps -/

/-- No fuse bit is cleared, and the fuse array keeps its canonical form. -/
def FusesRaised (s t : State) : Prop := Cells.Raised s.otp.fuses t.otp.fuses

/-- Host memory keeps its canonical form. -/
def HostMemKept (s t : State) : Prop := Cells.wf s.hostMem = true → Cells.wf t.hostMem = true

/-- The next state that `o` answers, where it answers one, stands to `s` as `R` says. -/
def Leads (R : State → State → Prop) (s : State) (o : Out) : Prop := ∀ t, o = .next t → R s t

/-- `o` answers a next state with the same queue, no fuse bit cleared and both memories in canonical form. -/
def Answers (s : State) (o : Out) : Prop := ∃ t, o = .next t ∧ t.pending = s.pending ∧ FusesRaised s t ∧ HostMemKept s t

theorem FusesRaised.of_eq {s t : State} (h : Otp.fuses (t.get .otp) = Otp.fuses (s.get .otp)) : FusesRaised s t := by
  have e : t.otp.fuses = s.otp.fuses := h
  rw [FusesRaised, e]
  exact Cells.Raised.refl _

theorem FusesRaised.of_get {s t : State} (h : t.get .otp = s.get .otp) : FusesRaised s t := .of_eq (congrArg Otp.fuses h)

theorem HostMemKept.of_get {s t : State} (h : t.get .hostMem = s.get .hostMem) : HostMemKept s t := fun hw => by
  have e : t.hostMem = s.hostMem := h
  rwa [e]

section
variable {ps : List Part} {s : State} {o : Out} (h : ∃ t, o = .next t ∧ OnlyIn ps s t)
include h

theorem keeps_of_frame (hp : .pending ∉ ps ∧ .otp ∉ ps ∧ .hostMem ∉ ps) : Answers s o := by
  obtain ⟨t, e, only⟩ := h
  exact ⟨t, e, only _ hp.1, .of_get (only _ hp.2.1), .of_get (only _ hp.2.2)⟩

theorem keeps_of_raised (hp : .pending ∉ ps ∧ .hostMem ∉ ps) (hf : Leads FusesRaised s o) : Answers s o := by
  obtain ⟨t, e, only⟩ := h
  exact ⟨t, e, only _ hp.1, hf t e, .of_get (only _ hp.2)⟩

theorem keeps_of_stored (hp : .pending ∉ ps ∧ .otp ∉ ps) (hm : Leads HostMemKept s o) : Answers s o := by
  obtain ⟨t, e, only⟩ := h
  exact ⟨t, e, only _ hp.1, .of_get (only _ hp.2), hm t e⟩

theorem keeps_of_both (hp : .pending ∉ ps) (hf : Leads FusesRaised s o) (hm : Leads HostMemKept s o) : Answers s o := by
  obtain ⟨t, e, only⟩ := h
  exact ⟨t, e, only _ hp, hf t e, hm t e⟩
end

/-! ### Where a command leads -/

section
variable {R : State → State → Prop} {s : State}

theorem leads_next {t : State} (h : R s t) : Leads R s (.next t) := fun u e => by
  cases e
  exact h

theorem leads_act (hr : R s s) {g : Bool} {f : State → State} (h : R s (f s)) : Leads R s (act s g f) := by
  cases g
  · exact leads_next hr
  · exact leads_next h

theorem leads_workEnds (hr : R s s) {op inst tag : Nat} {g : Bool} {f : List Byte → Nat → State → State}
    (h : ∀ p k, R s (f p k s)) : Leads R s (workEnds op inst tag g s f) := by
  unfold workEnds
  dsimp only
  cases Tbl.get? s.tags (tagKey inst tag) with
  | none => exact leads_next hr
  | some t => exact leads_act hr (h _ _)

theorem leads_codecWork (hr : R s s) {op : Nat} {inst : Fin 64} {tag : Fin 256} {g : List Byte → Bool}
    {f : List Byte → Nat → State → State} (h : ∀ p k, R s (f p k s)) : Leads R s (codecWork op inst tag g s f) := by
  unfold codecWork
  dsimp only
  cases Tbl.get? s.tags (tagKey inst tag) with
  | none => exact leads_next hr
  | some t => exact leads_workEnds hr h
end

theorem HostMemKept.refl (s : State) : HostMemKept s s := id
theorem FusesRaised.refl (s : State) : FusesRaised s s := Cells.Raised.refl _

theorem leads_act_fuses {s : State} {g : Bool} {f : State → State}
    (h : Otp.fuses ((f s).get .otp) = Otp.fuses (s.get .otp)) : Leads FusesRaised s (act s g f) :=
  leads_act (.refl s) (.of_eq h)

/-! ### The commands that reach the fuse array -/

section
variable (s : State)

theorem execRegisterWrite_fuses (fn : Fin 2) (bar : Fin 3) (off : Nat) (data : List Byte) :
    Leads FusesRaised s (execRegisterWrite fn bar off data s) := by
  have window (slice : Bool) (n o : Nat) : Leads FusesRaised s (.next (writeWindow slice n o data s)) :=
    leads_next (.of_get (writeWindow_get _ _ _ _ _ _ (by decide)))
  unfold execRegisterWrite
  split
  · exact leads_next (.of_eq (writeBar0_fuses ..))
  split
  · split
    · exact window _ _ _
    · exact leads_next (.refl s)
  split
  · split
    · exact window _ _ _
    · exact leads_next (.refl s)
  · exact leads_act (.refl s) (.of_get (writeMsix_get _ _ _ _ _ (by decide)))

theorem execReplyCommit_fuses (inst : Fin 64) (tag : Fin 256) : Leads FusesRaised s (execReplyCommit inst tag s) := by
  unfold execReplyCommit
  dsimp only
  split
  · exact leads_act_fuses (commitReply_fuses ..)
  · exact leads_next (.refl s)

theorem execPairMiscompare_fuses (pair : Fin 22) (pass : Bool) (ns : Nat) :
    Leads FusesRaised s (execPairMiscompare pair pass ns s) := by
  refine leads_act_fuses ?_
  split
  · simp
  · exact internalReset_fuses ..

theorem execRefclkLoss_fuses (ref : Fin 2) (ns : Nat) : Leads FusesRaised s (execRefclkLoss ref ns s) := by
  refine leads_act_fuses ?_
  split
  · split
    · simp
    · simp
  · simp

theorem execRailBelowReset_fuses (rail : Fin 8) (mv : Nat) : Leads FusesRaised s (execRailBelowReset rail mv s) :=
  leads_act_fuses (internalReset_fuses ..)

theorem execSensorSample_fuses (sensor : Fin 20) (reading : Option Int) :
    Leads FusesRaised s (execSensorSample sensor reading s) := by
  unfold execSensorSample
  refine leads_act_fuses ?_
  have sampled (n : Nat) : (if n < 12 then dieSample n reading s else remoteSample n reading s).get .otp = s.get .otp := by
    simp
  have settled (u : State) (hot : Bool) :
      Otp.fuses ((if hot then internalReset 2 true u else settleShed (settleFaults u)).get .otp) = Otp.fuses (u.get .otp) := by
    cases hot <;> simp
  split
  · cases reading <;> simp
  · exact (settled _ _).trans (congrArg Otp.fuses (sampled _))

theorem execThermalTrip_fuses (sensor : Fin 12) (temp : Int) : Leads FusesRaised s (execThermalTrip sensor temp s) :=
  leads_act_fuses (internalReset_fuses ..)

theorem execCommit_fuses (fn : Fin 2) (made : List Nat) : Leads FusesRaised s (execCommit fn made s) :=
  leads_act (.refl s) (commit_raised made s)

theorem execOtpProgDataWrite_fuses (fn : Fin 2) (word : BitVec 32) : Leads FusesRaised s (execOtpProgDataWrite fn word s) :=
  leads_act_fuses rfl

theorem execOtpGo_fuses (fn : Fin 2) (misses : List (Nat × Nat)) : Leads FusesRaised s (execOtpGo fn misses s) :=
  leads_act (.refl s) (otpGo_raised misses s)

theorem execOtpRestart_fuses (fn : Fin 2) : Leads FusesRaised s (execOtpRestart fn s) := leads_act_fuses rfl

theorem execDbgWrite_fuses (src : Fin 3) (target : Fin 8) : Leads FusesRaised s (execDbgWrite src target s) :=
  leads_act_fuses (dbgStore_fuses ..)

theorem execPowerOnReset_fuses (straps : Fin 16) (smba : Fin 4) (r0 r1 off : Bool) :
    Leads FusesRaised s (execPowerOnReset straps smba r0 r1 off s) := by
  refine leads_act_fuses ?_
  cases off <;> rfl

theorem execStartupPhaseEnd_fuses (o : StartOutcome) : Leads FusesRaised s (execStartupPhaseEnd o s) :=
  leads_act_fuses (phaseEnds_fuses o s)

theorem execPerstNAssert_fuses (port : Fin 2) (pin : Bool) : Leads FusesRaised s (execPerstNAssert port pin s) := by
  refine leads_act_fuses ?_
  dsimp only
  split
  · simp
  · simp

end

/-! ### The commands that write host memory -/

section
variable (s : State) (inst : Fin 64) (tag : Fin 256)

theorem execReplyCommit_host : Leads HostMemKept s (execReplyCommit inst tag s) := by
  unfold execReplyCommit
  dsimp only
  split
  · exact leads_act (.refl s) (commitReply_hostWf _ _ s)
  · exact leads_next (.refl s)

theorem execEventWrite_host : Leads HostMemKept s (execEventWrite inst s) := by
  unfold execEventWrite
  split
  · exact leads_next (.refl s)
  split
  · exact leads_next (.refl s)
  refine leads_act (.refl s) fun hw => ?_
  have e : ∀ u, (settleDrain inst u).hostMem = u.hostMem := fun u => settleDrain_get _ u .hostMem (by decide)
  rw [e]
  exact writeEvent_hostWf _ _ s hw

theorem execRead_host (lost crcFail : List Nat) : Leads HostMemKept s (execRead inst tag lost crcFail s) :=
  leads_workEnds (.refl s) fun p k => readDone_hostWf _ _ _ p k s

theorem execReadAsset_host (lost crcFail again : List Nat) : Leads HostMemKept s (execReadAsset inst tag lost crcFail again s) := by
  unfold execReadAsset
  dsimp only
  split
  · exact leads_next (.refl s)
  · exact leads_workEnds (.refl s) fun p k => assetDone_hostWf _ _ _ _ p k s

theorem execScan_host (lost crcFail again : List Nat) : Leads HostMemKept s (execScan inst tag lost crcFail again s) := by
  unfold execScan
  dsimp only
  split
  · exact leads_next (.refl s)
  · exact leads_workEnds (.refl s) fun p k => scanDone_hostWf _ _ _ _ p k s

theorem execCodecDecompress_host : Leads HostMemKept s (execCodecDecompress inst tag s) :=
  leads_codecWork (.refl s) fun p k => codecDone_hostWf _ p k s

theorem execCodecCompress_host : Leads HostMemKept s (execCodecCompress inst tag s) :=
  leads_codecWork (.refl s) fun p k => codecDone_hostWf _ p k s

theorem execCodecResume_host : Leads HostMemKept s (execCodecResume inst tag s) :=
  leads_codecWork (.refl s) fun p k => resumeDone_hostWf _ p k s

theorem execCodecSave_host : Leads HostMemKept s (execCodecSave inst tag s) :=
  leads_codecWork (.refl s) fun p k => saveDone_hostWf _ p k s

theorem execSealOpen_host : Leads HostMemKept s (execSealOpen inst tag s) :=
  leads_workEnds (.refl s) fun p k => sealOpen_hostWf _ p k s

theorem execAttest_host : Leads HostMemKept s (execAttest inst tag s) :=
  leads_workEnds (.refl s) fun p k => attest_hostWf _ p k s

theorem execLogRead_host : Leads HostMemKept s (execLogRead inst tag s) :=
  leads_workEnds (.refl s) fun p k => logRead_hostWf _ p k s

theorem execHostReadError_host (what : Fin 4) (units : Nat) : Leads HostMemKept s (execHostReadError inst tag what units s) := by
  unfold execHostReadError
  dsimp only
  split
  · exact leads_next (.refl s)
  · refine leads_act (.refl s) fun hw => readErrorEnds_hostWf _ _ _ _ _ _ ?_
    rwa [countHostError_get _ _ (by decide)]

theorem execExport_host (fn : Fin 2) (hostError : Bool) : Leads HostMemKept s (execExport fn hostError s) := by
  have result (r : Nat) (u : State) : (migResult r u).hostMem = u.hostMem := migResult_get r u .hostMem (by decide)
  refine leads_act (.refl s) ?_
  split
  · exact .of_get (result 2 s)
  split
  · exact .of_get (result 2 s)
  split
  · exact .of_get (result 4 s)
  · exact fun hw => (result 1 _).symm ▸ hostWrite_hostWf _ _ _ s hw

theorem execPageLogEntry_host (k : Fin 4) : Leads HostMemKept s (execPageLogEntry k s) := by
  unfold execPageLogEntry
  dsimp only
  split
  · exact leads_next (.refl s)
  refine leads_act (.refl s) ?_
  split
  · split
    · exact .refl s
    · exact .of_get (modLog_get _ _ s .hostMem (by decide))
  · exact appendLog_hostWf _ _ _ s

theorem execLogMarker_host (k : Fin 4) : Leads HostMemKept s (execLogMarker k s) :=
  leads_act (.refl s) (appendLog_hostWf _ _ _ s)

theorem execResp_host (home xid : Nat) (crcFail again : List Nat) : Leads HostMemKept s (execResp home xid crcFail again s) := by
  have away : (takeMessage tData home xid (takeMessage tResp home xid s)).get .hostMem = s.get .hostMem := by simp
  unfold execResp
  split
  · exact leads_next (.refl s)
  dsimp only
  split
  · exact leads_act (.refl s) (.of_get away)
  split
  · exact leads_act (.refl s) (.of_get away)
  · refine leads_act (.refl s) fun hw => respDone_hostWf _ _ _ _ _ _ _ _ _ ?_
    rw [State.get_with_spn _ _ _ (by decide), away]
    exact hw

end

/-! ### Every command -/

/-- Each command by the parts that it writes; those that reach the fuse array or host memory by what they leave there. -/
theorem exec_keeps (c : Instr) (s : State) : Answers s (exec c s) :=
  match c with
  | .twPost .. => keeps_of_frame (execTwPost_next ..) (by decide)
  | .slPost .. => keeps_of_frame (execSlPost_next ..) (by decide)
  | .twRingCfgWrite .. => keeps_of_frame (execTwRingCfgWrite_next ..) (by decide)
  | .twRingBaseWrite .. => keeps_of_frame (execTwRingBaseWrite_next ..) (by decide)
  | .twRingHeadWrite .. => keeps_of_frame (execTwRingHeadWrite_next ..) (by decide)
  | .twIrqStsClear .. => keeps_of_frame (execTwIrqStsClear_next ..) (by decide)
  | .coalTimeExpiry .. => keeps_of_frame (execCoalTimeExpiry_next ..) (by decide)
  | .twMboxDb .. => keeps_of_frame (execTwMboxDb_next ..) (by decide)
  | .registerWrite .. => keeps_of_raised (execRegisterWrite_next ..) (by decide) (execRegisterWrite_fuses s _ _ _ _)
  | .glbSeqLoRead .. => keeps_of_frame (execGlbSeqLoRead_next ..) (by decide)
  | .glbTimeLoRead .. => keeps_of_frame (execGlbTimeLoRead_next ..) (by decide)
  | .glbRecovAddrLoRead .. => keeps_of_frame (execGlbRecovAddrLoRead_next ..) (by decide)
  | .schTraceData3Read .. => keeps_of_frame (execSchTraceData3Read_next ..) (by decide)
  | .traceClear .. => keeps_of_frame (execTraceClear_next ..) (by decide)
  | .commandStart .. => keeps_of_frame (execCommandStart_next ..) (by decide)
  | .rangeLockGrant .. => keeps_of_frame (execRangeLockGrant_next ..) (by decide)
  | .replyCommit .. => keeps_of_both (execReplyCommit_next ..) (by decide) (execReplyCommit_fuses s _ _) (execReplyCommit_host s _ _)
  | .eventWrite .. => keeps_of_stored (execEventWrite_next ..) (by decide) (execEventWrite_host s _)
  | .stopped .. => keeps_of_frame (execStopped_next ..) (by decide)
  | .read .. => keeps_of_stored (execRead_next ..) (by decide) (execRead_host s _ _ _ _)
  | .write .. => keeps_of_frame (execWrite_next ..) (by decide)
  | .readAsset .. => keeps_of_stored (execReadAsset_next ..) (by decide) (execReadAsset_host s _ _ _ _ _)
  | .installChunk .. => keeps_of_frame (execInstallChunk_next ..) (by decide)
  | .flush .. => keeps_of_frame (execFlush_next ..) (by decide)
  | .trim .. => keeps_of_frame (execTrim_next ..) (by decide)
  | .verify .. => keeps_of_frame (execVerify_next ..) (by decide)
  | .scan .. => keeps_of_stored (execScan_next ..) (by decide) (execScan_host s _ _ _ _ _)
  | .indexSearch .. => keeps_of_frame (execIndexSearch_next ..) (by decide)
  | .indexInsert .. => keeps_of_frame (execIndexInsert_next ..) (by decide)
  | .indexDeleteEntry .. => keeps_of_frame (execIndexDeleteEntry_next ..) (by decide)
  | .indexDeleteKey .. => keeps_of_frame (execIndexDeleteKey_next ..) (by decide)
  | .indexStep .. => keeps_of_frame (execIndexStep_next ..) (by decide)
  | .programLoad .. => keeps_of_frame (execProgramLoad_next ..) (by decide)
  | .programUnload .. => keeps_of_frame (execProgramUnload_next ..) (by decide)
  | .codecDecompress .. => keeps_of_stored (execCodecDecompress_next ..) (by decide) (execCodecDecompress_host s _ _)
  | .codecCompress .. => keeps_of_stored (execCodecCompress_next ..) (by decide) (execCodecCompress_host s _ _)
  | .codecResume .. => keeps_of_stored (execCodecResume_next ..) (by decide) (execCodecResume_host s _ _)
  | .codecSave .. => keeps_of_stored (execCodecSave_next ..) (by decide) (execCodecSave_host s _ _)
  | .codecRestore .. => keeps_of_frame (execCodecRestore_next ..) (by decide)
  | .abort .. => keeps_of_frame (execAbort_next ..) (by decide)
  | .mailboxNote .. => keeps_of_frame (execMailboxNote_next ..) (by decide)
  | .licenseLoad .. => keeps_of_frame (execLicenseLoad_next ..) (by decide)
  | .revocationListLoad .. => keeps_of_frame (execRevocationListLoad_next ..) (by decide)
  | .licenseDrop .. => keeps_of_frame (execLicenseDrop_next ..) (by decide)
  | .sealOpen .. => keeps_of_stored (execSealOpen_next ..) (by decide) (execSealOpen_host s _ _)
  | .sealClose .. => keeps_of_frame (execSealClose_next ..) (by decide)
  | .attest .. => keeps_of_stored (execAttest_next ..) (by decide) (execAttest_host s _ _)
  | .logRead .. => keeps_of_stored (execLogRead_next ..) (by decide) (execLogRead_host s _ _)
  | .featureSet .. => keeps_of_frame (execFeatureSet_next ..) (by decide)
  | .featureGet .. => keeps_of_frame (execFeatureGet_next ..) (by decide)
  | .fwStage .. => keeps_of_frame (execFwStage_next ..) (by decide)
  | .fwActivate .. => keeps_of_frame (execFwActivate_next ..) (by decide)
  | .activationSwitch => keeps_of_frame (execActivationSwitch_next ..) (by decide)
  | .activationSwitchEnd .. => keeps_of_frame (execActivationSwitchEnd_next ..) (by decide)
  | .instanceCreate .. => keeps_of_frame (execInstanceCreate_next ..) (by decide)
  | .instanceDestroy .. => keeps_of_frame (execInstanceDestroy_next ..) (by decide)
  | .instanceReset .. => keeps_of_frame (execInstanceReset_next ..) (by decide)
  | .volumeCreate .. => keeps_of_frame (execVolumeCreate_next ..) (by decide)
  | .volumeDelete .. => keeps_of_frame (execVolumeDelete_next ..) (by decide)
  | .spanJoin .. => keeps_of_frame (execSpanJoin_next ..) (by decide)
  | .spanLeave .. => keeps_of_frame (execSpanLeave_next ..) (by decide)
  | .spanMirrorSet .. => keeps_of_frame (execSpanMirrorSet_next ..) (by decide)
  | .sanitizeCryptographicErase .. => keeps_of_frame (execSanitizeCryptographicErase_next ..) (by decide)
  | .sanitizeBlockErase .. => keeps_of_frame (execSanitizeBlockErase_next ..) (by decide)
  | .sanitizeOverwrite .. => keeps_of_frame (execSanitizeOverwrite_next ..) (by decide)
  | .deviceReset .. => keeps_of_frame (execDeviceReset_next ..) (by decide)
  | .spanDeadline .. => keeps_of_frame (execSpanDeadline_next ..) (by decide)
  | .hostReadError .. => keeps_of_stored (execHostReadError_next ..) (by decide) (execHostReadError_host s _ _ _ _)
  | .stageUnitDone .. => keeps_of_frame (execStageUnitDone_next ..) (by decide)
  | .laneFault .. => keeps_of_frame (execLaneFault_next ..) (by decide)
  | .shaLaneFault .. => keeps_of_frame (execShaLaneFault_next ..) (by decide)
  | .pkEngineFault .. => keeps_of_frame (execPkEngineFault_next ..) (by decide)
  | .softDecoderFault .. => keeps_of_frame (execSoftDecoderFault_next ..) (by decide)
  | .post .. => keeps_of_frame (execPost_next ..) (by decide)
  | .eventQueueStall .. => keeps_of_frame (execEventQueueStall_next ..) (by decide)
  | .spawn .. => keeps_of_frame (execSpawn_next ..) (by decide)
  | .dispatch .. => keeps_of_frame (execDispatch_next ..) (by decide)
  | .preemption .. => keeps_of_frame (execPreemption_next ..) (by decide)
  | .sliceExpiry .. => keeps_of_frame (execSliceExpiry_next ..) (by decide)
  | .wait_ .. => keeps_of_frame (execWait_next ..) (by decide)
  | .yield .. => keeps_of_frame (execYield_next ..) (by decide)
  | .exit_ .. => keeps_of_frame (execExit_next ..) (by decide)
  | .cancel .. => keeps_of_frame (execCancel_next ..) (by decide)
  | .engineStopped .. => keeps_of_frame (execEngineStopped_next ..) (by decide)
  | .checkpointInterval .. => keeps_of_frame (execCheckpointInterval_next ..) (by decide)
  | .checkpointApplyDone .. => keeps_of_frame (execCheckpointApplyDone_next ..) (by decide)
  | .engineFault .. => keeps_of_frame (execEngineFault_next ..) (by decide)
  | .epoch .. => keeps_of_frame (execEpoch_next ..) (by decide)
  | .recordEntry .. => keeps_of_frame (execRecordEntry_next ..) (by decide)
  | .add .. => keeps_of_frame (execAdd_next ..) (by decide)
  | .sub .. => keeps_of_frame (execSub_next ..) (by decide)
  | .mul .. => keeps_of_frame (execMul_next ..) (by decide)
  | .and_ .. => keeps_of_frame (execAnd_next ..) (by decide)
  | .or_ .. => keeps_of_frame (execOr_next ..) (by decide)
  | .xor .. => keeps_of_frame (execXor_next ..) (by decide)
  | .shl .. => keeps_of_frame (execShl_next ..) (by decide)
  | .shr .. => keeps_of_frame (execShr_next ..) (by decide)
  | .sltu .. => keeps_of_frame (execSltu_next ..) (by decide)
  | .seq .. => keeps_of_frame (execSeq_next ..) (by decide)
  | .ctz .. => keeps_of_frame (execCtz_next ..) (by decide)
  | .popc .. => keeps_of_frame (execPopc_next ..) (by decide)
  | .addi .. => keeps_of_frame (execAddi_next ..) (by decide)
  | .andi .. => keeps_of_frame (execAndi_next ..) (by decide)
  | .ori .. => keeps_of_frame (execOri_next ..) (by decide)
  | .shli .. => keeps_of_frame (execShli_next ..) (by decide)
  | .shri .. => keeps_of_frame (execShri_next ..) (by decide)
  | .sltui .. => keeps_of_frame (execSltui_next ..) (by decide)
  | .seqi .. => keeps_of_frame (execSeqi_next ..) (by decide)
  | .movh .. => keeps_of_frame (execMovh_next ..) (by decide)
  | .bswap .. => keeps_of_frame (execBswap_next ..) (by decide)
  | .ldr .. => keeps_of_frame (execLdr_next ..) (by decide)
  | .ldk .. => keeps_of_frame (execLdk_next ..) (by decide)
  | .lds .. => keeps_of_frame (execLds_next ..) (by decide)
  | .sts .. => keeps_of_frame (execSts_next ..) (by decide)
  | .vldr .. => keeps_of_frame (execVldr_next ..) (by decide)
  | .vldk .. => keeps_of_frame (execVldk_next ..) (by decide)
  | .vlds .. => keeps_of_frame (execVlds_next ..) (by decide)
  | .vsts .. => keeps_of_frame (execVsts_next ..) (by decide)
  | .vcmpeq .. => keeps_of_frame (execVcmpeq_next ..) (by decide)
  | .vcmpgtu .. => keeps_of_frame (execVcmpgtu_next ..) (by decide)
  | .vand .. => keeps_of_frame (execVand_next ..) (by decide)
  | .vor .. => keeps_of_frame (execVor_next ..) (by decide)
  | .vxor .. => keeps_of_frame (execVxor_next ..) (by decide)
  | .vsplat .. => keeps_of_frame (execVsplat_next ..) (by decide)
  | .vmask .. => keeps_of_frame (execVmask_next ..) (by decide)
  | .beq .. => keeps_of_frame (execBeq_next ..) (by decide)
  | .bne .. => keeps_of_frame (execBne_next ..) (by decide)
  | .bltu .. => keeps_of_frame (execBltu_next ..) (by decide)
  | .bgeu .. => keeps_of_frame (execBgeu_next ..) (by decide)
  | .loop .. => keeps_of_frame (execLoop_next ..) (by decide)
  | .lidx .. => keeps_of_frame (execLidx_next ..) (by decide)
  | .emitr .. => keeps_of_frame (execEmitr_next ..) (by decide)
  | .emits .. => keeps_of_frame (execEmits_next ..) (by decide)
  | .emitg .. => keeps_of_frame (execEmitg_next ..) (by decide)
  | .cnt .. => keeps_of_frame (execCnt_next ..) (by decide)
  | .idxs .. => keeps_of_frame (execIdxs_next ..) (by decide)
  | .trap .. => keeps_of_frame (execTrap_next ..) (by decide)
  | .end_ .. => keeps_of_frame (execEnd_next ..) (by decide)
  | .cursorIdleExpiry .. => keeps_of_frame (execCursorIdleExpiry_next ..) (by decide)
  | .respreadMove .. => keeps_of_frame (execRespreadMove_next ..) (by decide)
  | .idxTableCreate .. => keeps_of_frame (execIdxTableCreate_next ..) (by decide)
  | .idxTableDelete .. => keeps_of_frame (execIdxTableDelete_next ..) (by decide)
  | .idxTableEmpty .. => keeps_of_frame (execIdxTableEmpty_next ..) (by decide)
  | .idxScrub .. => keeps_of_frame (execIdxScrub_next ..) (by decide)
  | .indexBankFault .. => keeps_of_frame (execIndexBankFault_next ..) (by decide)
  | .pageReadDone .. => keeps_of_frame (execPageReadDone_next ..) (by decide)
  | .programDone .. => keeps_of_frame (execProgramDone_next ..) (by decide)
  | .eraseDone .. => keeps_of_frame (execEraseDone_next ..) (by decide)
  | .journalPageDurable .. => keeps_of_frame (execJournalPageDurable_next ..) (by decide)
  | .gcSelect .. => keeps_of_frame (execGcSelect_next ..) (by decide)
  | .gcCopyVerified .. => keeps_of_frame (execGcCopyVerified_next ..) (by decide)
  | .gcEraseSource .. => keeps_of_frame (execGcEraseSource_next ..) (by decide)
  | .mapSegmentWrite .. => keeps_of_frame (execMapSegmentWrite_next ..) (by decide)
  | .patrolRead .. => keeps_of_frame (execPatrolRead_next ..) (by decide)
  | .refresh .. => keeps_of_frame (execRefresh_next ..) (by decide)
  | .wearLevelMove .. => keeps_of_frame (execWearLevelMove_next ..) (by decide)
  | .dieTimeout .. => keeps_of_frame (execDieTimeout_next ..) (by decide)
  | .rebuildDone .. => keeps_of_frame (execRebuildDone_next ..) (by decide)
  | .channelLost .. => keeps_of_frame (execChannelLost_next ..) (by decide)
  | .evacuate .. => keeps_of_frame (execEvacuate_next ..) (by decide)
  | .release .. => keeps_of_frame (execRelease_next ..) (by decide)
  | .inserted .. => keeps_of_frame (execInserted_next ..) (by decide)
  | .sramScrub .. => keeps_of_frame (execSramScrub_next ..) (by decide)
  | .dramScrub .. => keeps_of_frame (execDramScrub_next ..) (by decide)
  | .hogsheadBankReplace .. => keeps_of_frame (execHogsheadBankReplace_next ..) (by decide)
  | .firkinLineRemap .. => keeps_of_frame (execFirkinLineRemap_next ..) (by decide)
  | .dramSideFail .. => keeps_of_frame (execDramSideFail_next ..) (by decide)
  | .cacheFill .. => keeps_of_frame (execCacheFill_next ..) (by decide)
  | .prefetch .. => keeps_of_frame (execPrefetch_next ..) (by decide)
  | .writeBufferDrain .. => keeps_of_frame (execWriteBufferDrain_next ..) (by decide)
  | .cacheDisable .. => keeps_of_frame (execCacheDisable_next ..) (by decide)
  | .cacheEnable .. => keeps_of_frame (execCacheEnable_next ..) (by decide)
  | .cchWayPwrWrite .. => keeps_of_frame (execCchWayPwrWrite_next ..) (by decide)
  | .cacheWayFault .. => keeps_of_frame (execCacheWayFault_next ..) (by decide)
  | .memInjArm .. => keeps_of_frame (execMemInjArm_next ..) (by decide)
  | .drainSet .. => keeps_of_frame (execDrainSet_next ..) (by decide)
  | .drainCleared .. => keeps_of_frame (execDrainCleared_next ..) (by decide)
  | .mgrInstCtlPortWrite .. => keeps_of_frame (execMgrInstCtlPortWrite_next ..) (by decide)
  | .ack .. => keeps_of_frame (execAck_next ..) (by decide)
  | .send .. => keeps_of_frame (execSend_next ..) (by decide)
  | .exportInst .. => keeps_of_stored (execExport_next ..) (by decide) (execExport_host s _ _)
  | .importInst .. => keeps_of_frame (execImport_next ..) (by decide)
  | .mgrLogCtlWrite .. => keeps_of_frame (execMgrLogCtlWrite_next ..) (by decide)
  | .pageLogEntry .. => keeps_of_stored (execPageLogEntry_next ..) (by decide) (execPageLogEntry_host s _)
  | .sync .. => keeps_of_frame (execSync_next ..) (by decide)
  | .logMarker .. => keeps_of_stored (execLogMarker_next ..) (by decide) (execLogMarker_host s _)
  | .flitReceived .. => keeps_of_frame (execFlitReceived_next ..) (by decide)
  | .nak .. => keeps_of_frame (execNak_next ..) (by decide)
  | .lanesTrained .. => keeps_of_frame (execLanesTrained_next ..) (by decide)
  | .trainingTimeout .. => keeps_of_frame (execTrainingTimeout_next ..) (by decide)
  | .hello .. => keeps_of_frame (execHello_next ..) (by decide)
  | .helloTimeout .. => keeps_of_frame (execHelloTimeout_next ..) (by decide)
  | .exletPortFail .. => keeps_of_frame (execExletPortFail_next ..) (by decide)
  | .portRetryTimer .. => keeps_of_frame (execPortRetryTimer_next ..) (by decide)
  | .announceTimer => keeps_of_frame (execAnnounceTimer_next ..) (by decide)
  | .announce .. => keeps_of_frame (execAnnounce_next ..) (by decide)
  | .membershipExpiry .. => keeps_of_frame (execMembershipExpiry_next ..) (by decide)
  | .req .. => keeps_of_frame (execReq_next ..) (by decide)
  | .pairSeqGapExpiry .. => keeps_of_frame (execPairSeqGapExpiry_next ..) (by decide)
  | .resp .. => keeps_of_stored (execResp_next ..) (by decide) (execResp_host s _ _ _ _)
  | .cancelFlit .. => keeps_of_frame (execCancelFlit_next ..) (by decide)
  | .spanResendExpiry .. => keeps_of_frame (execSpanResendExpiry_next ..) (by decide)
  | .abortRespTimeout .. => keeps_of_frame (execAbortRespTimeout_next ..) (by decide)
  | .mirrorWrite .. => keeps_of_frame (execMirrorWrite_next ..) (by decide)
  | .mirrorAck .. => keeps_of_frame (execMirrorAck_next ..) (by decide)
  | .mirrorGraceExpiry .. => keeps_of_frame (execMirrorGraceExpiry_next ..) (by decide)
  | .resyncPassEnd .. => keeps_of_frame (execResyncPassEnd_next ..) (by decide)
  | .primarySuperseded .. => keeps_of_frame (execPrimarySuperseded_next ..) (by decide)
  | .probe .. => keeps_of_frame (execProbe_next ..) (by decide)
  | .probeResp .. => keeps_of_frame (execProbeResp_next ..) (by decide)
  | .bind .. => keeps_of_frame (execBind_next ..) (by decide)
  | .unbind .. => keeps_of_frame (execUnbind_next ..) (by decide)
  | .keyReq .. => keeps_of_frame (execKeyReq_next ..) (by decide)
  | .keyGrant .. => keeps_of_frame (execKeyGrant_next ..) (by decide)
  | .pairMiscompare .. => keeps_of_raised (execPairMiscompare_next ..) (by decide) (execPairMiscompare_fuses s _ _ _)
  | .refclkLoss .. => keeps_of_raised (execRefclkLoss_next ..) (by decide) (execRefclkLoss_fuses s _ _)
  | .pllRelock .. => keeps_of_frame (execPllRelock_next ..) (by decide)
  | .rootReqChange .. => keeps_of_frame (execRootReqChange_next ..) (by decide)
  | .hostPortFail .. => keeps_of_frame (execHostPortFail_next ..) (by decide)
  | .linkReturn .. => keeps_of_frame (execLinkReturn_next ..) (by decide)
  | .spareCheck .. => keeps_of_frame (execSpareCheck_next ..) (by decide)
  | .railBelowWarning .. => keeps_of_frame (execRailBelowWarning_next ..) (by decide)
  | .railsAboveWarning .. => keeps_of_frame (execRailsAboveWarning_next ..) (by decide)
  | .dwellEnd => keeps_of_frame (execDwellEnd_next ..) (by decide)
  | .dipLong => keeps_of_frame (execDipLong_next ..) (by decide)
  | .railOverVoltage .. => keeps_of_frame (execRailOverVoltage_next ..) (by decide)
  | .railBelowReset .. => keeps_of_raised (execRailBelowReset_next ..) (by decide) (execRailBelowReset_fuses s _ _)
  | .pwrFailAssert => keeps_of_frame (execPwrFailAssert_next ..) (by decide)
  | .flushDone => keeps_of_frame (execFlushDone_next ..) (by decide)
  | .pwrFailDeassert => keeps_of_frame (execPwrFailDeassert_next ..) (by decide)
  | .holdupRdyChange .. => keeps_of_frame (execHoldupRdyChange_next ..) (by decide)
  | .sensorSample .. => keeps_of_raised (execSensorSample_next ..) (by decide) (execSensorSample_fuses s _ _)
  | .thermalTrip .. => keeps_of_raised (execThermalTrip_next ..) (by decide) (execThermalTrip_fuses s _ _)
  | .powerCapEstimate .. => keeps_of_frame (execPowerCapEstimate_next ..) (by decide)
  | .retrainStart .. => keeps_of_frame (execRetrainStart_next ..) (by decide)
  | .retrainDone .. => keeps_of_frame (execRetrainDone_next ..) (by decide)
  | .entropyHealthFail => keeps_of_frame (execEntropyHealthFail_next ..) (by decide)
  | .entropyRetest .. => keeps_of_frame (execEntropyRetest_next ..) (by decide)
  | .drbgReseed => keeps_of_frame (execDrbgReseed_next ..) (by decide)
  | .commit .. => keeps_of_raised (execCommit_next ..) (by decide) (execCommit_fuses s _ _)
  | .secUnlockDataWrite .. => keeps_of_frame (execSecUnlockDataWrite_next ..) (by decide)
  | .submit .. => keeps_of_frame (execSubmit_next ..) (by decide)
  | .restart .. => keeps_of_frame (execRestart_next ..) (by decide)
  | .otpProgDataWrite .. => keeps_of_raised (execOtpProgDataWrite_next ..) (by decide) (execOtpProgDataWrite_fuses s _ _)
  | .otpGo .. => keeps_of_raised (execOtpGo_next ..) (by decide) (execOtpGo_fuses s _ _)
  | .otpRestart .. => keeps_of_raised (execOtpRestart_next ..) (by decide) (execOtpRestart_fuses s _)
  | .go .. => keeps_of_frame (execGo_next ..) (by decide)
  | .shutdown .. => keeps_of_frame (execShutdown_next ..) (by decide)
  | .resume .. => keeps_of_frame (execResume_next ..) (by decide)
  | .dbgRead .. => keeps_of_frame (execDbgRead_next ..) (by decide)
  | .dbgWrite .. => keeps_of_raised (execDbgWrite_next ..) (by decide) (execDbgWrite_fuses s _ _)
  | .powerOnReset .. => keeps_of_raised (execPowerOnReset_next ..) (by decide) (execPowerOnReset_fuses s _ _ _ _ _)
  | .startupPhaseEnd .. => keeps_of_raised (execStartupPhaseEnd_next ..) (by decide) (execStartupPhaseEnd_fuses s _)
  | .perstNAssert .. => keeps_of_raised (execPerstNAssert_next ..) (by decide) (execPerstNAssert_fuses s _ _)
  | .perstNRelease .. => keeps_of_frame (execPerstNRelease_next ..) (by decide)
  | .functionLevelReset .. => keeps_of_frame (execFunctionLevelReset_next ..) (by decide)
  | .d3hotEntry .. => keeps_of_frame (execD3HotEntry_next ..) (by decide)
  | .d3hotExit .. => keeps_of_frame (execD3HotExit_next ..) (by decide)
  | .status => keeps_of_frame (execStatus_next ..) (by decide)
  | .tempMax => keeps_of_frame (execTempMax_next ..) (by decide)
  | .thermState => keeps_of_frame (execThermState_next ..) (by decide)
  | .wear => keeps_of_frame (execWear_next ..) (by decide)
  | .spare => keeps_of_frame (execSpare_next ..) (by decide)
  | .id => keeps_of_frame (execId_next ..) (by decide)
  | .temps => keeps_of_frame (execTemps_next ..) (by decide)
  | .rails => keeps_of_frame (execRails_next ..) (by decide)
  | .health => keeps_of_frame (execHealth_next ..) (by decide)
  | .smbusWrite .. => keeps_of_frame (execSmbusWrite_next ..) (by decide)
  | .extest => keeps_of_frame (execExtest_next ..) (by decide)
  | .idcode => keeps_of_frame (execIdcode_next ..) (by decide)
  | .samplePreload .. => keeps_of_frame (execSamplePreload_next ..) (by decide)
  | .clamp => keeps_of_frame (execClamp_next ..) (by decide)
  | .highz => keeps_of_frame (execHighz_next ..) (by decide)
  | .dap .. => keeps_of_frame (execDap_next ..) (by decide)
  | .bypass => keeps_of_frame (execBypass_next ..) (by decide)
  | .healthLogWrite => keeps_of_frame (execHealthLogWrite_next ..) (by decide)
  | .learnedRepairWrite => keeps_of_frame (execLearnedRepairWrite_next ..) (by decide)
  | .homeBudgetExpiry .. => keeps_of_frame (execHomeBudgetExpiry_next ..) (by decide)
  | .joinSettleExpiry => keeps_of_frame (execJoinSettleExpiry_next ..) (by decide)
  | .activityToggle => keeps_of_frame (execActivityToggle_next ..) (by decide)

/-- Settles O58: every command by its frame; a step is a command or a tick. -/
theorem everyCommandAnswers : Obligations.EveryCommandAnswers := by
  have answers (c : Instr) (s : State) : ∃ t, exec c s = .next t ∧ t.pending = s.pending := by
    obtain ⟨t, e, queue, -, -⟩ := exec_keeps c s
    exact ⟨t, e, queue⟩
  refine ⟨answers, fun s => ?_⟩
  unfold step
  split
  · exact ⟨_, rfl⟩
  · obtain ⟨t, e, -⟩ := answers _ _
    exact ⟨t, e⟩

/-- What a command keeps, a step keeps. -/
theorem step_keeps {s t : State} (h : step s = .next t) : FusesRaised s t ∧ HostMemKept s t := by
  unfold step at h
  split at h
  · cases h
    exact ⟨.refl _, .refl _⟩
  · obtain ⟨u, e, -, fuses, host⟩ := exec_keeps _ _
    cases e.symm.trans h
    exact ⟨fuses, host⟩

/-- Settles O59: by what every step keeps of the fuse array. -/
theorem fuseBitsAreNeverCleared : Obligations.FuseBitsAreNeverCleared :=
  fun _ _ h => (step_keeps h).1.1

/-- Settles O60: by what every step keeps of both memories. -/
theorem memoriesStayCanonical : Obligations.MemoriesStayCanonical := fun _ _ h =>
  ⟨(step_keeps h).2, (step_keeps h).1.2⟩

theorem step_cons {s : State} {c : Instr} {cs : List Instr} (h : s.pending = c :: cs) : step s = exec c { s with pending := cs } := by
  unfold step
  rw [h]

theorem step_nil {s : State} (h : s.pending = []) : step s = .next (tick s) := by
  unfold step
  rw [h]

/-- Settles O56: by what stands at the front of the queue. -/
theorem stepRunsTheFrontCommand : Obligations.StepRunsTheFrontCommand :=
  ⟨fun _ _ _ h => step_cons h, fun _ h => step_nil h⟩

end Sys2Proof.Machine

/-! Obligations O5 (ReadsWithSideEffects), O14 (DebugPortReadsAndWrites) and O55 (SmbusTestPortAndActivity): registers read
with a side effect, the debug access port, and the board pins. -/

namespace Sys2Proof.Machine

/-! ### Reads with a side effect (R490) -/

section
variable {s : State} {fn : Fin 2}

theorem exec_glbSeqLoRead (h : bar0Answers s fn 0x20 = true) : exec (.glbSeqLoRead fn) s =
    .next (answerRead (leBytes 4 s.glb.seq) (modLatch fn (fun l => { l with seqHi := bits s.glb.seq 32 16 }) s)) := by
  show execGlbSeqLoRead fn s = _
  simp [execGlbSeqLoRead, act, h]

theorem exec_glbTimeLoRead (h : bar0Answers s fn 0x28 = true) : exec (.glbTimeLoRead fn) s =
    .next (answerRead (leBytes 4 s.now) (modLatch fn (fun l => { l with timeHi := bits s.now 32 32 }) s)) := by
  show execGlbTimeLoRead fn s = _
  simp [execGlbTimeLoRead, act, h]

theorem exec_glbRecovAddrLoRead (h : bar0Answers s fn 0x30 = true) : exec (.glbRecovAddrLoRead fn) s =
    .next (answerRead (leBytes 4 s.glb.recovAddr) (modLatch fn (fun l => { l with recovHi := bits s.glb.recovAddr 32 32 }) s)) := by
  show execGlbRecovAddrLoRead fn s = _
  simp [execGlbRecovAddrLoRead, act, h]

theorem exec_schTraceData3Read (h : bar0Answers s fn 0x811C = true) : exec (.schTraceData3Read fn) s = .next { s with
    hif := { s.hif with readData := bytesAt (traceAt s) 12 4 }
    sch := { s.sch with traceRidx := (s.sch.traceRidx + 1) % 65536 } } := by
  show execSchTraceData3Read fn s = _
  simp [execSchTraceData3Read, act, h]

theorem exec_traceClear {value : BitVec 32} (h : bar0Answers s fn 0x8100 = true) (hc : value.getLsbD 3 = true) :
    exec (.traceClear fn value) s = .next (writeTraceCtl value.toNat s) := by
  show execTraceClear fn value s = _
  simp [execTraceClear, act, h, bit_toNat, hc]
end

/-- Settles O5: each read by what it answers and latches, the high registers by what they read, CLEAR by what it writes. -/
theorem readsWithSideEffects : Obligations.ReadsWithSideEffects := by
  refine ⟨fun s h => exec_glbSeqLoRead (fn := 0) h, fun s h => exec_glbSeqLoRead (fn := 1) h,
    fun s h => exec_glbTimeLoRead (fn := 0) h, fun s h => exec_glbTimeLoRead (fn := 1) h,
    fun s h => exec_glbRecovAddrLoRead (fn := 0) h, fun s h => exec_glbRecovAddrLoRead (fn := 1) h,
    fun s => ⟨rfl, rfl, rfl, rfl, rfl, rfl⟩, fun s fn h => exec_schTraceData3Read h, fun s fn value h hc => ?_⟩
  rw [exec_traceClear h hc]
  simp [writeTraceCtl, bit_toNat, hc]

/-! ### The debug access port (R454, R455, R470) -/

section
variable {s : State} {src : Fin 3} {target : Fin 8}

theorem exec_dbgRead (hf : dbgFrom s src = true) (hr : dbgReaches s target = true) (ht : target ≠ 3) :
    exec (.dbgRead src target) s = .next { s with dbg := { s.dbg with data := dbgWord s src target s.dbg.addr } } := by
  have hv : target.val ≠ 3 := fun h => ht (Fin.ext h)
  show execDbgRead src target s = _
  simp [execDbgRead, act, hf, hr, hv]

theorem exec_dbgRead_reg (hf : dbgFrom s src = true) (hr : dbgReaches s 3 = true) : exec (.dbgRead src 3) s =
    .next { readEffect src s.dbg.addr (bumpFresh s) with dbg := { (readEffect src s.dbg.addr (bumpFresh s)).dbg with
      data := readReg s src s.dbg.addr } } := by
  show execDbgRead src 3 s = _
  simp [execDbgRead, act, hf, hr, dbgWord]

theorem exec_dbgRead_closed (hr : dbgReaches s target = false) : Idles (.dbgRead src target) s := by
  show execDbgRead src target s = _
  simp [execDbgRead, act, hr]

theorem exec_dbgWrite (hf : dbgFrom s src = true) (hr : dbgReaches s target = true) :
    exec (.dbgWrite src target) s = .next (dbgStore src target s.dbg.addr s.dbg.data s) := by
  show execDbgWrite src target s = _
  simp [execDbgWrite, act, hf, hr]

theorem exec_dbgWrite_closed (hr : dbgReaches s target = false) : Idles (.dbgWrite src target) s := by
  show execDbgWrite src target s = _
  simp [execDbgWrite, act, hr]
end

theorem hogStoreOne_hog (a : Nat) (b : Byte) (s : State) : (hogStoreOne a b s).mem.hog = Cells.write s.mem.hog a b := by
  unfold hogStoreOne
  dsimp only
  split <;> rfl

theorem hogStoreOne_inTwin (a x : Nat) (b : Byte) (s : State) : inTwin (hogStoreOne a b s).mem x = inTwin s.mem x := by
  unfold hogStoreOne
  dsimp only
  split <;> rfl

/-- Outside the twin region a byte has one copy. -/
theorem hogStore_single {a : Nat} (b : Byte) {s : State} (ha : a < 2 ^ 25) (ht : inTwin s.mem a = false) :
    hogStore a b s = hogStoreOne a b s := by
  unfold hogStore
  rw [if_neg (Nat.not_le.mpr ha)]
  dsimp only
  rw [hogStoreOne_inTwin, if_neg (by simp [ht])]

/-- Bytes stored one after the other, none in the twin region, are one store. -/
theorem hogStore_foldl (a k : Nat) (bs : List Byte) (s : State)
    (h : ∀ j < bs.length, a + (k + j) < 2 ^ 25 ∧ inTwin s.mem (a + (k + j)) = false) :
    ((bs.zipIdx k).foldl (fun s b => if a + b.2 < 2 ^ 25 then hogStore (a + b.2) b.1 s else s) s).mem.hog
      = Cells.writeN s.mem.hog (a + k) bs := by
  induction bs generalizing k s with
  | nil => rfl
  | cons b bs ih =>
    obtain ⟨ha, ht⟩ : a + k < 2 ^ 25 ∧ inTwin s.mem (a + k) = false := h 0 (by simp)
    have later : ∀ j < bs.length, a + (k + 1 + j) < 2 ^ 25 ∧ inTwin (hogStoreOne (a + k) b s).mem (a + (k + 1 + j)) = false := by
      intro j hj
      rw [hogStoreOne_inTwin, Nat.add_assoc k, Nat.add_comm 1 j]
      exact h (j + 1) (by simpa using hj)
    simp only [List.zipIdx_cons, List.foldl_cons, if_pos ha, hogStore_single b ha ht, Cells.writeN]
    rw [ih _ _ later, hogStoreOne_hog, Nat.add_assoc]

theorem dbgStore_hog_only (src a v : Nat) (s : State) : OnlyIn [.mem] s (dbgStore src 0 a v s) := fun x hx => by
  refine State.get_foldl _ _ s x fun u b => ?_
  rw [State.get_ite, hogStore_get _ _ _ _ hx, ite_self]

theorem readEffect_only (src a : Nat) (s : State) : OnlyIn [.sch, .glb] s (readEffect src a s) := fun x hx => by
  simp only [List.mem_cons, List.not_mem_nil, or_false, not_or] at hx
  simp [readEffect, hx]

/-- Over JTAG the DBG block is reached only while the port is open. -/
theorem dbgOpen_of_dapReaches {s : State} (h : dapReaches s 0x19010 = true) : dbgOpen s = true := by
  simpa [dapReaches, blockOf] using (Bool.and_eq_true_iff.mp h).2

theorem exec_dap_read {s : State} {off : Nat} (value : BitVec 32) (hp : powered s = true) (h4 : off % 4 = 0)
    (hr : dapReaches s off = true) : exec (.dap false off value) s = .next { s with hif := { s.hif with
      jtagIr := 0x20, jtagOut := readReg { s with hif := { s.hif with jtagIr := 0x20 } } 2 off } } := by
  have powered' : powered { s with hif := { s.hif with jtagIr := 0x20 } } = true := hp
  have reaches' : dapReaches { s with hif := { s.hif with jtagIr := 0x20 } } off = true := hr
  show execDap false off value s = _
  simp [execDap, act, powered', reaches', h4]

theorem exec_dap_write {s : State} (value : BitVec 32) (hp : powered s = true) (hr : dapReaches s 0x19010 = true) :
    exec (.dap true 0x19010 value) s = .next { s with
      hif := { s.hif with jtagIr := 0x20 }
      dbg := { s.dbg with data := value.toNat } } := by
  have powered' : powered { s with hif := { s.hif with jtagIr := 0x20 } } = true := hp
  have reaches' : dapReaches { s with hif := { s.hif with jtagIr := 0x20 } } 0x19010 = true := hr
  have portOpen : dbgOpen { s with hif := { s.hif with jtagIr := 0x20 } } = true := dbgOpen_of_dapReaches hr
  show execDap true 0x19010 value s = _
  simp [execDap, act, powered', reaches', writeDbg, portOpen, blockOf]

/-- Settles O14: a read by the target's word, a write by the bytes that it stores, and JTAG by the registers it reaches. -/
theorem debugPortReadsAndWrites : Obligations.DebugPortReadsAndWrites := by
  refine ⟨fun s src target hf hr ht => exec_dbgRead hf hr ht, fun s src hf hr => ?_,
    fun s src target hr => ⟨exec_dbgRead_closed hr, exec_dbgWrite_closed hr⟩, fun s src hf hr ha h0 h1 h2 h3 => ?_,
    fun s off value hp h4 hr => exec_dap_read value hp h4 hr, fun s value hp hr => exec_dap_write value hp hr⟩
  · have kept : (readEffect src s.dbg.addr (bumpFresh s)).dbg = s.dbg :=
      readEffect_only src s.dbg.addr (bumpFresh s) .dbg (by decide)
    have only := onlyIn_of_next (execDbgRead_next src 3 s) (exec_dbgRead_reg hf hr)
    exact ⟨_, exec_dbgRead_reg hf hr, by rw [kept], only.mono _ _ _ _ (by decide)⟩
  · refine ⟨_, exec_dbgWrite hf hr, ?_, dbgStore_hog_only _ _ _ s⟩
    refine hogStore_foldl s.dbg.addr 0 (leBytes 4 s.dbg.data) s fun j hj => ?_
    rw [leBytes_length] at hj
    rw [Nat.zero_add]
    refine ⟨by omega, ?_⟩
    match j, hj with
    | 0, _ => exact h0
    | 1, _ => exact h1
    | 2, _ => exact h2
    | 3, _ => exact h3

/-! ### The board pins (R468, R470, R471) -/

/-- Seven flags from bit 0 on. -/
theorem bit_pack_flags (a b c d e f g : Bool) :
    let x := pack [(0, 1, b2n a), (1, 1, b2n b), (2, 1, b2n c), (3, 1, b2n d), (4, 1, b2n e), (5, 1, b2n f), (6, 1, b2n g)]
    bit x 0 = a ∧ bit x 1 = b ∧ bit x 2 = c ∧ bit x 3 = d ∧ bit x 4 = e ∧ bit x 5 = f ∧ bit x 6 = g ∧ x < 128 := by
  revert a b c d e f g
  decide

theorem pastStart_iff (s : State) : pastStart s = true ↔ s.glb.stage = 8 ∨ s.glb.stage = 11 := by simp [pastStart]

theorem exec_activityToggle {s : State} (hp : powered s = true) (ha : activityPin s = true) : exec .activityToggle s = .next (
    if 100000 + s.hif.activityAt ≤ s.now ∨ anyInFlight s = false then
      (if anyInFlight s then { s with hif := { s.hif with activity := !s.hif.activity, activityAt := s.now } }
        else { s with hif := { s.hif with activity := false } })
    else s) := by
  show execActivityToggle s = _
  simp [execActivityToggle, act, hp, ha]

theorem exec_smbusWrite_nack {w : Bool} {code : BitVec 8} (s : State) (h : w = true ∨ code.toNat ∉ smbusCodes) :
    exec (.smbusWrite w code) s = .next { s with hif := { s.hif with smbus := none } } := by
  show execSmbusWrite w code s = _
  rw [execSmbusWrite, act, if_pos (by simpa using h)]

theorem exec_smbusWrite_known {code : BitVec 8} (s : State) (h : code.toNat ∈ smbusCodes) : Idles (.smbusWrite false code) s := by
  show execSmbusWrite false code s = _
  rw [execSmbusWrite, act, if_neg (by simpa using h)]

section
variable {s : State} (h : s.glb.held = false)
include h

theorem jtag_live (ir : Nat) (driven float : Bool) :
    jtag ir driven float s = { s with hif := { s.hif with jtagIr := ir, pinsDriven := driven, pinsFloat := float } } := by
  simp [jtag, h]

theorem endService_live : endService s = { s with glb := { s.glb with ended := true } } := by simp [endService, h]

theorem endService_jtag_live (ir : Nat) (driven float : Bool) : endService (jtag ir driven float s) = { s with
    hif := { s.hif with jtagIr := ir, pinsDriven := driven, pinsFloat := float }
    glb := { s.glb with ended := true } } :=
  (congrArg endService (jtag_live h ir driven float)).trans (endService_live h)

theorem exec_idcode_live : exec .idcode s = .next { s with
    hif := { s.hif with jtagIr := 0x01, pinsDriven := false, pinsFloat := false, jtagOut := 0x009405E7 } } := by
  show execIdcode s = _
  simp [execIdcode, jtag_live h, h]

theorem exec_samplePreload_live (pins shifted : List Byte) : exec (.samplePreload pins shifted) s = .next { s with
    hif := { s.hif with jtagIr := 0x02, pinsDriven := false, pinsFloat := false, boundary := pins, preload := shifted } } := by
  show execSamplePreload pins shifted s = _
  simp [execSamplePreload, jtag_live h, h]
end

/-- Settles O55: each command code by the bytes that it gives, the test port by the instruction in its register. -/
theorem smbusTestPortAndActivity : Obligations.SmbusTestPortAndActivity := by
  refine ⟨?answers, ?status, ?writes, ?testPort, ?activity⟩
  case answers =>
    rintro s c bs (⟨rfl, rfl⟩ | ⟨rfl, rfl⟩ | ⟨rfl, rfl⟩ | ⟨rfl, rfl⟩ | ⟨rfl, rfl⟩ | ⟨rfl, rfl⟩ | ⟨rfl, rfl⟩ |
      ⟨rfl, rfl⟩ | ⟨rfl, rfl⟩)
    · rfl
    · rfl
    · rfl
    · simp only [← pastStart_iff]; rfl
    · simp only [← pastStart_iff]; rfl
    · rfl
    · rfl
    · rfl
    · simp only [← pastStart_iff]; rfl
  case status =>
    intro s
    obtain ⟨h0, h1, h2, h3, h4, h5, h6, small⟩ := bit_pack_flags (s.glb.stage == 8) (degraded s) (thermAlert s) (faultN s)
      s.flc.readOnly (!(s.pwr.supply == .normal)) (s.glb.stage == 9 || s.glb.stage == 10)
    refine ⟨h0.trans ?_, h1, h2, h3, h4, h5.trans ?_, h6.trans ?_, small⟩
    · exact beq_eq_decide ..
    · simp [beq_eq_decide]
    · simp [beq_eq_decide]
  case writes =>
    refine fun s w code => ⟨fun h => exec_smbusWrite_nack s h, fun hw hc => ?_⟩
    rw [hw]
    exact exec_smbusWrite_known s hc
  case testPort =>
    intro s hs
    have ending (ir : Nat) (driven float : Bool) := congrArg (.next : State → Out) (endService_jtag_live hs ir driven float)
    exact ⟨ending _ _ _, ending _ _ _, ending _ _ _, congrArg _ (jtag_live hs ..), exec_idcode_live hs,
      fun pins shifted => exec_samplePreload_live hs pins shifted⟩
  case activity =>
    intro s hp ha
    refine ⟨fun hf ht => ?_, fun hf ht => ?_, fun hf => ?_⟩
    · rw [exec_activityToggle hp ha, if_pos (.inl (by omega)), if_pos hf]
    · rw [Idles, exec_activityToggle hp ha, if_neg (by simp [hf]; omega)]
    · rw [exec_activityToggle hp ha, if_pos (.inr hf), if_neg (by simp [hf])]

end Sys2Proof.Machine

/-! Obligation O53 (FusesRecoveryAndShutdown): the recovery image, the fuse array, the clean shutdown and RESUME. -/

namespace Sys2Proof.Machine

/-! ### The recovery image (R443) -/

section
variable {s : State} {fn : Fin 2}

theorem exec_go (e : Bool) (h : bar0Answers s fn 0x3C = true) : exec (.go fn e) s = .next (recover e s) := by
  show execGo fn e s = _
  rw [execGo, act, if_pos h]

theorem recover_elsewhere (e : Bool) (h9 : s.glb.stage ≠ 9) : recover e s = recovResult 2 s := if_pos h9

theorem recover_length (e : Bool) (h9 : s.glb.stage = 9) (hl : s.glb.recovLen < 4096 ∨ 16777216 < s.glb.recovLen) :
    recover e s = recovResult 5 s := (if_neg (by simp [h9])).trans (if_pos hl)

variable (h9 : s.glb.stage = 9) (lo : 4096 ≤ s.glb.recovLen) (hi : s.glb.recovLen ≤ 16777216)
include h9 lo hi

theorem recover_hostError : recover true s = recovResult 4 s := by
  simp [recover, h9, Nat.not_lt.mpr lo, Nat.not_lt.mpr hi]

theorem recover_image : recover false s =
    let bytes := Cells.ofList (hostRead s 0 s.glb.recovAddr s.glb.recovLen)
    if (imageRefused s.otp bytes s.glb.recovLen).isSome then
      recovResult 3 { s with glb := { s.glb with fails := setBit s.glb.fails 5 true } }
    else recovResult 1 (runImage 5 2 (imageOf bytes s.glb.recovLen)
      { s with glb := { s.glb with stored := imageOf bytes s.glb.recovLen } }) := by
  simp [recover, h9, Nat.not_lt.mpr lo, Nat.not_lt.mpr hi]
end

/-! ### Bits of the fuse array (R448) -/

theorem getLsbD_two_pow {i : Nat} (j : Nat) (hi : i < 8) : (BitVec.ofNat 8 (2 ^ j)).getLsbD i = decide (i = j) := by
  rw [BitVec.getLsbD_ofNat, Nat.testBit_two_pow, decide_eq_true hi, Bool.true_and]
  exact decide_eq_decide.mpr eq_comm

theorem setFuse_bit (addr j a : Nat) {i : Nat} (o : Otp) (hi : i < 8) : (Cells.read (setFuse addr j o).fuses a).getLsbD i
    = ((Cells.read o.fuses a).getLsbD i || decide ((addr, j) = (a, i))) := by
  by_cases ha : a = addr
  · subst ha
    rw [setFuse, Cells.read_write, if_pos rfl, BitVec.getLsbD_or, getLsbD_two_pow j hi]
    simp [eq_comm]
  · simp [setFuse, Cells.read_write, ha, Ne.symm ha]

theorem setFuses_bit (l : List (Nat × Nat)) (a : Nat) {i : Nat} (o : Otp) (hi : i < 8) :
    (Cells.read (l.foldl (fun o x => setFuse x.1 x.2 o) o).fuses a).getLsbD i
      = ((Cells.read o.fuses a).getLsbD i || decide ((a, i) ∈ l)) := by
  induction l generalizing o with
  | nil => simp
  | cons x l ih =>
    rw [List.foldl_cons, ih, setFuse_bit _ _ _ _ hi, Bool.or_assoc]
    simp [eq_comm]

theorem setFuses_otp (l : List (Nat × Nat)) (o : Otp) : l.foldl (fun o x => setFuse x.1 x.2 o) o
    = { o with fuses := (l.foldl (fun o x => setFuse x.1 x.2 o) o).fuses } := by
  induction l generalizing o with
  | nil => rfl
  | cons x l ih => exact ih _

/-- The bits to set for `bs` from `addr` on. -/
def bitsToSet (addr : Nat) (bs : List Byte) : List (Nat × Nat) :=
  (bs.zipIdx).flatMap (fun p => ((List.range 8).filter (fun i => p.1.getLsbD i)).map (fun i => (addr + p.2, i)))

theorem mem_bitsToSet {addr : Nat} {bs : List Byte} {a i : Nat} :
    (a, i) ∈ bitsToSet addr bs ↔ i < 8 ∧ addr ≤ a ∧ (bs.getD (a - addr) 0).getLsbD i = true := by
  simp only [bitsToSet, List.mem_flatMap, List.mem_map, List.mem_filter, List.mem_range, Prod.mk.injEq, Prod.exists]
  constructor
  · rintro ⟨b, k, hb, j, ⟨hj, hs⟩, rfl, rfl⟩
    have := List.mem_zipIdx_iff_getElem?.mp hb
    exact ⟨hj, by omega, by simpa [this] using hs⟩
  · rintro ⟨hi, ha, hs⟩
    have inside : a - addr < bs.length := by
      by_contra outside
      simp [List.getElem?_eq_none (Nat.not_lt.mp outside)] at hs
    refine ⟨bs[a - addr], a - addr, List.mem_zipIdx_iff_getElem?.mpr (List.getElem?_eq_getElem inside), i, ⟨hi, ?_⟩, by omega, rfl⟩
    simpa [inside] using hs

/-- Programming without a miss, as the bits that it sets. -/
theorem program_eq (addr : Nat) (bs : List Byte) (s : State) : (program addr bs [] s).2
    = { s with otp := (bitsToSet addr bs).foldl (fun o x => setFuse x.1 x.2 o) s.otp } := by
  simp [program, bitsToSet]

/-- A byte programmed without a miss has its bits besides those that were set. -/
theorem read_program (addr : Nat) (bs : List Byte) (s : State) (a : Nat) : Cells.read (program addr bs [] s).2.otp.fuses a
    = Cells.read s.otp.fuses a ||| (if addr ≤ a then bs.getD (a - addr) 0 else 0) := by
  refine BitVec.eq_of_getLsbD_eq fun i hi => ?_
  rw [program_eq, setFuses_bit _ _ _ hi, BitVec.getLsbD_or]
  congr 1
  by_cases ha : addr ≤ a <;> simp [mem_bitsToSet, ha, hi]

/-- Without a miss the verification passes. -/
theorem program_verified (addr : Nat) (bs : List Byte) (s : State) : (program addr bs [] s).1 = true := by
  show ((bitsToSet addr bs).all fun x => (Cells.read (program addr bs [] s).2.otp.fuses x.1).getLsbD x.2) = true
  rw [List.all_eq_true]
  rintro ⟨a, i⟩ h
  rw [program_eq, setFuses_bit _ _ _ (mem_bitsToSet.mp h).1]
  simp [h]

theorem program_otp (addr : Nat) (bs : List Byte) (s : State) :
    (program addr bs [] s).2.otp = { s.otp with fuses := (program addr bs [] s).2.otp.fuses } := by
  rw [program_eq]
  exact setFuses_otp _ _

theorem Cells.getElem_readN (m : Cells) (a n j : Nat) (h : j < (Cells.readN m a n).length) :
    (Cells.readN m a n)[j] = Cells.read m (a + j) := by
  induction n generalizing a j with
  | zero => simp [Cells.readN] at h
  | succ n ih =>
    cases j with
    | zero => rfl
    | succ j =>
      rw [← Nat.add_assoc, Nat.add_right_comm]
      exact ih (a + 1) j (by simpa [Cells.readN] using h)

theorem Cells.read_of_allZero {m : Cells} {a n j : Nat} (h : allZero (Cells.readN m a n) = true) (hj : j < n) :
    Cells.read m (a + j) = 0 := by
  have inside : j < (Cells.readN m a n).length := by rwa [Cells.readN_length]
  have zero := List.all_eq_true.mp h _ (List.getElem_mem inside)
  rwa [Cells.getElem_readN, beq_iff_eq] at zero

/-- Bytes programmed where all bits are 0 read as they are. -/
theorem readN_program {addr : Nat} {bs : List Byte} {s : State} (h : allZero (Cells.readN s.otp.fuses addr bs.length) = true) :
    Cells.readN (program addr bs [] s).2.otp.fuses addr bs.length = bs := by
  refine List.ext_getElem (Cells.readN_length ..) fun j h₁ h₂ => ?_
  rw [Cells.getElem_readN, read_program, Cells.read_of_allZero h h₂, if_pos (Nat.le_add_right ..), Nat.add_sub_cancel_left]
  simp [h₂]

theorem read_program_outside {addr : Nat} {bs : List Byte} (s : State) {a : Nat} (h : a < addr ∨ addr + bs.length ≤ a) :
    Cells.read (program addr bs [] s).2.otp.fuses a = Cells.read s.otp.fuses a := by
  rw [read_program]
  split
  · rw [List.getD_eq_default _ _ (by omega)]
    simp
  · simp

/-! ### Requests on the fuse array (R155, R449 to R453) -/

section
variable {s : State} {fn : Fin 2}

theorem exec_otpProgDataWrite (w : BitVec 32) (h : bar0Answers s fn 0x18008 = true) : exec (.otpProgDataWrite fn w) s = .next
    (if s.otp.words.length < 12 then { s with otp := { s.otp with words := s.otp.words ++ [w.toNat] } } else s) := by
  show execOtpProgDataWrite fn w s = _
  simp [execOtpProgDataWrite, act, h]

theorem exec_otpRestart (h : bar0Answers s fn 0x1800C = true) :
    exec (.otpRestart fn) s = .next { s with otp := { s.otp with words := [] } } := by
  show execOtpRestart fn s = _
  rw [execOtpRestart, act, if_pos h]

theorem exec_otpGo (m : List (Nat × Nat)) (h : bar0Answers s fn 0x1800C = true) : exec (.otpGo fn m) s = .next (otpGo m s) := by
  show execOtpGo fn m s = _
  rw [execOtpGo, act, if_pos h]
end

section
variable {s : State} (m : List (Nat × Nat))

theorem otpGo_refused (h : targetWords s.otp.sel = none ∨ targetAllowed s s.otp.sel = false) : otpGo m s = progResult 2 s :=
  if_pos (by simpa using h)

variable (hw : targetWords s.otp.sel ≠ none) (ha : targetAllowed s s.otp.sel = true)
include hw ha

theorem otpGo_written (hn : targetWritten s.otp s.otp.sel = true) : otpGo m s = progResult 3 s :=
  (if_neg (by simp [hw, ha])).trans (if_pos hn)

variable (hn : targetWritten s.otp s.otp.sel = false)
include hn

theorem otpGo_bad (hb : progBad s.otp s.otp.sel = true) : otpGo m s = progResult 4 s :=
  (if_neg (by simp [hw, ha])).trans ((if_neg (by simp [hn])).trans (if_pos hb))

/-- A request that nothing refuses: a lifecycle transition, or bytes to program. -/
theorem otpGo_accepted (hb : progBad s.otp s.otp.sel = false) : otpGo m s =
    if s.otp.sel = 0x0C then
      if !transitionAllowed s (progWord s.otp % 256) then progResult 2 (logHealth 0x000E 0xFF 0xFFFF 0 0 0 [] s)
      else
        let r := transition (progWord s.otp % 256) m s
        progResult (if r.1 then 1 else 5) r.2
    else if s.otp.sel = 1 && !drbgServes s then progResult 6 s
    else
      let plan := progPlan s s.otp.sel
      let r := program plan.1 plan.2 m (if s.otp.sel = 1 then drbgUsed s else s)
      progResult (if r.1 then 1 else 5) r.2 :=
  (if_neg (by simp [hw, ha])).trans ((if_neg (by simp [hn])).trans (if_neg (by simp [hb])))
end

/-! ### An anchor -/

section
variable {s : State} (h2 : 2 ≤ s.otp.sel) (hA : s.otp.sel ≤ 0x0A)
include h2 hA

theorem targetWords_anchor : targetWords s.otp.sel = some 12 := by
  unfold targetWords
  rw [if_neg (by omega), if_pos (by omega)]

theorem targetWritten_anchor :
    targetWritten s.otp s.otp.sel = !allZero (Cells.readN s.otp.fuses (0x24 + 0x34 * (s.otp.sel - 2)) 52) := by
  unfold targetWritten
  rw [if_neg (by omega), if_pos (by omega)]

theorem progPlan_anchor : progPlan s s.otp.sel
    = (0x24 + 0x34 * (s.otp.sel - 2), progBytes s.otp ++ (sha (progBytes s.otp)).take 4) := by
  unfold progPlan
  dsimp only
  rw [if_neg (by omega), if_pos (by omega)]

theorem progBad_anchor (hl : s.otp.words.length = 12) : progBad s.otp s.otp.sel = false := by
  have other : s.otp.sel ≠ 0x20 := by omega
  simp [progBad, targetWords_anchor h2 hA, hl, other]

theorem otpGo_anchor (ha : targetAllowed s s.otp.sel = true) (hn : targetWritten s.otp s.otp.sel = false)
    (hl : s.otp.words.length = 12) : otpGo [] s = progResult 1 (program (0x24 + 0x34 * (s.otp.sel - 2))
      (progBytes s.otp ++ (sha (progBytes s.otp)).take 4) [] s).2 := by
  have other : s.otp.sel ≠ 1 := by omega
  have known : targetWords s.otp.sel ≠ none := by simp [targetWords_anchor h2 hA]
  rw [otpGo_accepted [] known ha hn (progBad_anchor h2 hA hl), if_neg (by omega), if_neg (by simp [other])]
  simp only [progPlan_anchor h2 hA, if_neg other, program_verified, if_true]
end

theorem anchorBytes_length {o : Otp} (hl : o.words.length = 12) : (progBytes o ++ (sha (progBytes o)).take 4).length = 52 := by
  simp [progBytes, leBytes_length, hl, sha, hashBytes]

/-! ### A lifecycle transition (R155, R450) -/

/-- The lifecycle code that the LIFECYCLE byte holds. -/
def lifecycleCode (b : Byte) : Nat :=
  if bits b.toNat 6 2 ≠ 0 then 7 else if bits b.toNat 4 2 ≠ 0 then 3 else if bits b.toNat 2 2 ≠ 0 then 2
  else if bits b.toNat 0 2 ≠ 0 then 1 else 0

theorem lifecycle_eq (o : Otp) : lifecycle o = lifecycleCode (Cells.read o.fuses 0x208) := rfl

/-- Each pair of bits, once set, gives its state, as no pair above it is set. -/
theorem lifecycleCode_or (b : Byte) : (lifecycleCode b = 0 → lifecycleCode (b ||| 0x03) = 1) ∧
    (lifecycleCode b = 1 → lifecycleCode (b ||| 0x0C) = 2) ∧ (lifecycleCode b = 2 → lifecycleCode (b ||| 0x30) = 3) ∧
    lifecycleCode (b ||| 0xC0) = 7 := by
  revert b
  decide

/-- Table 4.16: from each state, where a transition may lead. -/
theorem transitionAllowed_cases {s : State} {goal : Nat} (h : transitionAllowed s goal = true) :
    (lifecycle s.otp = 0 ∧ goal = 1) ∨ (lifecycle s.otp = 1 ∧ goal = 2) ∨ (lifecycle s.otp = 2 ∧ goal = 3) ∨ goal = 7 := by
  unfold transitionAllowed at h
  dsimp only at h
  split at h
  · next lc => exact .inl ⟨lc, by simpa using (Bool.and_eq_true_iff.mp h).1⟩
  split at h
  · next lc =>
    rcases Bool.or_eq_true_iff.mp h with h | h
    · simp only [Bool.and_eq_true, beq_iff_eq] at h
      exact .inr (.inl ⟨lc, by tauto⟩)
    · exact .inr (.inr (.inr (by simpa using h)))
  split at h
  · next lc => exact .inr (.inr (.inl ⟨lc, by simpa using (Bool.and_eq_true_iff.mp h).1⟩))
  · exact .inr (.inr (.inr (by simpa using (Bool.and_eq_true_iff.mp h).2)))

/-- The LIFECYCLE byte with the pair of an allowed goal set is the goal's. -/
theorem lifecycleCode_goal {s : State} {goal : Nat} (h : transitionAllowed s goal = true) :
    lifecycleCode (Cells.read s.otp.fuses 0x208 ||| BitVec.ofNat 8 (3 * 2 ^ pairOf goal)) = goal := by
  obtain ⟨factory, secured, rma, scrapped⟩ := lifecycleCode_or (Cells.read s.otp.fuses 0x208)
  rcases transitionAllowed_cases h with ⟨lc, rfl⟩ | ⟨lc, rfl⟩ | ⟨lc, rfl⟩ | rfl
  · exact factory lc
  · exact secured lc
  · exact rma lc
  · exact scrapped

/-- Before the pair is programmed: the keys are zeroised, and into SCRAPPED every bit of ISEED is set. -/
def keysGone (goal : Nat) (s : State) : State :=
  if goal = 7 then (program 0 (List.replicate 32 0xFF) [] (zeroiseKeys s)).2 else zeroiseKeys s

theorem keysGone_lifecycleByte (goal : Nat) (s : State) :
    Cells.read (keysGone goal s).otp.fuses 0x208 = Cells.read s.otp.fuses 0x208 := by
  unfold keysGone
  split
  · exact read_program_outside (zeroiseKeys s) (.inr (by simp))
  · rfl

theorem keysGone_sec (goal : Nat) (s : State) : (keysGone goal s).sec = (zeroiseKeys s).sec := by
  unfold keysGone
  split
  · exact sec_of_get (program_get _ _ _ _ .sec (by decide))
  · rfl

theorem keysGone_porRequired (goal : Nat) (s : State) : (keysGone goal s).otp.porRequired = true := by
  unfold keysGone
  split
  · rw [program_otp]; rfl
  · rfl

/-- Without a miss a transition programs the goal's pair and is verified. -/
theorem transition_eq (goal : Nat) (s : State) :
    transition goal [] s = (true, (program 0x208 (leBytes 1 (3 * 2 ^ pairOf goal)) [] (keysGone goal s)).2) := by
  by_cases h7 : goal = 7 <;> simp [transition, keysGone, h7, program_verified]

theorem transition_lifecycle {s : State} {goal : Nat} (h : transitionAllowed s goal = true) :
    lifecycle (transition goal [] s).2.otp = goal := by
  rw [transition_eq, lifecycle_eq, read_program, keysGone_lifecycleByte]
  exact lifecycleCode_goal h

/-- A transition zeroises the keys and blocks the key ladder. -/
theorem transition_sec (goal : Nat) (s : State) : (transition goal [] s).2.sec = (zeroiseKeys s).sec := by
  rw [transition_eq, sec_of_get (program_get _ _ _ _ .sec (by decide)), keysGone_sec]

theorem transition_porRequired (goal : Nat) (s : State) : (transition goal [] s).2.otp.porRequired = true := by
  rw [transition_eq, program_otp]
  exact keysGone_porRequired goal s

section
variable {s : State} {goal : Nat} (hn : s.otp.sel = 0x0C) (hw : s.otp.words = [goal]) (hg : goal < 256) (m : List (Nat × Nat))
include hn hw hg

theorem otpGo_transition : otpGo m s =
    if !transitionAllowed s goal then progResult 2 (logHealth 0x000E 0xFF 0xFFFF 0 0 0 [] s)
    else progResult (if (transition goal m s).1 then 1 else 5) (transition goal m s).2 := by
  have word : progWord s.otp % 256 = goal := by simpa [progWord, hw] using hg
  rw [otpGo_accepted m (by simp [hn, targetWords]) (by simp [hn, targetAllowed]) (by simp [hn, targetWritten])
    (by simp [hn, hw, progBad, targetWords]), if_pos hn, word]
end

/-! ### The clean shutdown (R446, R447) -/

section
variable {s : State} {fn : Fin 2}

theorem ready_iff : ready s = true ↔ powered s = true ∧ s.glb.stage = 8 := by simp [ready]

theorem exec_shutdown_begin (h : bar0Answers s fn 0x8 = true) (hr : ready s = true) :
    exec (.shutdown fn false) s = .next { s with glb := { s.glb with shutdown := true } } := by
  show execShutdown fn false s = _
  simp [execShutdown, act, h, hr]

theorem exec_shutdown_end (hr : ready s = true) (hs : s.glb.shutdown = true) (ht : s.tags = []) (hn : s.glb.resetTag = none)
    (hp : programsRun s = true) : exec (.shutdown fn true) s = .next (toStage 11 (cleanStop s)) := by
  show execShutdown fn true s = _
  simp [execShutdown, act, hr, hs, ht, hn, hp]

theorem exec_shutdown_busy (ht : s.tags ≠ []) : Idles (.shutdown fn true) s := by
  show execShutdown fn true s = _
  simp [execShutdown, act, ht]

theorem exec_resume (h : bar0Answers s fn 0x8 = true) (h11 : s.glb.stage = 11) : exec (.resume fn) s = .next { s with
    glb := { s.glb with stage := 8, shutdown := false }
    flc := { s.flc with clean := false } } := by
  show execResume fn s = _
  simp [execResume, act, h, h11, toStage]
end

/-- Settles O53: recovery by what its checks make of the image, a request by its RESULT, a shutdown by what it writes last. -/
theorem fusesRecoveryAndShutdown : Obligations.FusesRecoveryAndShutdown := by
  refine ⟨?recovery, ?data, ?requests, ?shutdown, ?resume⟩
  case recovery =>
    intro s fn h
    refine ⟨fun h9 e => ?_, fun h9 hl e => ?_, fun h9 lo hi => ?_, fun h9 lo hi hr => ?_, fun h9 lo hi hr => ?_⟩
    · rw [exec_go e h, recover_elsewhere e h9]; rfl
    · rw [exec_go e h, recover_length e h9 hl]; rfl
    · rw [exec_go true h, recover_hostError h9 lo hi]; rfl
    · have next := (exec_go false h).trans (congrArg _ ((recover_image h9 lo hi).trans (if_pos (Option.isSome_iff_ne_none.mpr hr))))
      exact ⟨_, next, rfl, h9, rfl, onlyIn_of_next (execGo_next fn false s) next⟩
    · have next := (exec_go false h).trans (congrArg _ ((recover_image h9 lo hi).trans (if_neg (by simp [hr]))))
      exact ⟨_, next, rfl, rfl, rfl, rfl, rfl, rfl, onlyIn_of_next (execGo_next fn false s) next⟩
  case data =>
    intro s fn w h
    refine ⟨fun hl => ?_, fun hl => ?_⟩
    · rw [exec_otpProgDataWrite w h, if_pos hl]
    · rw [Idles, exec_otpProgDataWrite w h, if_neg (Nat.not_lt.mpr hl)]
  case requests =>
    intro s fn h
    refine ⟨exec_otpRestart h, fun m hr => ?_, fun m hw ha hn => ?_, fun m ha hn hw hb => ?_, fun h2 hA ha hn hl => ?_,
      fun goal hn hw hg ht => ?_, fun goal m hn hw hg ht => ?_⟩
    · rw [exec_otpGo m h, otpGo_refused m hr]; rfl
    · rw [exec_otpGo m h, otpGo_written m hw ha hn]; rfl
    · rw [exec_otpGo m h, otpGo_bad m hw ha hn hb]; rfl
    · have length := anchorBytes_length hl
      have blank : allZero (Cells.readN s.otp.fuses (0x24 + 0x34 * (s.otp.sel - 2)) 52) = true := by
        simpa [targetWritten_anchor h2 hA] using hn
      refine ⟨_, (exec_otpGo [] h).trans (congrArg _ (otpGo_anchor h2 hA ha hn hl)), rfl, fun x hx => ?_, ?_, fun a ha => ?_⟩
      · exact (State.get_with_otp _ _ x (by simpa using hx)).trans (program_get _ _ _ s x hx)
      · have programmed := readN_program (addr := 0x24 + 0x34 * (s.otp.sel - 2)) (s := s) (by rw [length]; exact blank)
        rwa [length] at programmed
      · exact read_program_outside s (by rw [length]; exact ha)
    · have run : otpGo [] s = progResult 1 (transition goal [] s).2 := by
        rw [otpGo_transition hn hw hg, if_neg (by simp [ht]), transition_eq, if_pos rfl]
      refine ⟨_, (exec_otpGo [] h).trans (congrArg _ run), rfl, transition_lifecycle ht, ?_, ?_, transition_porRequired goal s⟩
      · exact congrArg Sec.volKeys (transition_sec goal s)
      · exact congrArg Sec.ladderBlocked (transition_sec goal s)
    · have run : otpGo m s = progResult 2 (logHealth 0x000E 0xFF 0xFFFF 0 0 0 [] s) := by
        rw [otpGo_transition hn hw hg, if_pos (by simp [ht])]
      have same : (logHealth 0x000E 0xFF 0xFFFF 0 0 0 [] s).otp = s.otp := logHealth_get _ _ _ _ _ _ _ s .otp (by decide)
      refine ⟨_, (exec_otpGo m h).trans (congrArg _ run), congrArg (fun o => { o with result := 2 }) same, fun x hx => ?_⟩
      simp only [List.mem_cons, List.not_mem_nil, or_false, not_or] at hx
      simp [progResult, hx]
  case shutdown =>
    intro s fn hp h8
    have hr : ready s = true := ready_iff.mpr ⟨hp, h8⟩
    refine ⟨fun h => exec_shutdown_begin h hr, fun hs ht hn hg => ?_, fun _ ht => exec_shutdown_busy ht⟩
    have next := exec_shutdown_end (fn := fn) hr hs ht hn hg
    exact ⟨_, next, rfl, rfl, rfl, rfl, rfl, onlyIn_of_next (execShutdown_next fn true s) next⟩
  case resume =>
    exact fun s fn h h11 => exec_resume h h11

end Sys2Proof.Machine

/-! Obligation O52 (StartupRunsItsPhases): the power-on reset, and what the end of each phase of start-up leaves. -/

namespace Sys2Proof.Machine

/-! ### The power-on reset (R437, R463) -/

section
variable {s : State} (straps : Fin 16) (smba : Fin 4) (r0 r1 : Bool)

theorem exec_powerOnReset_off : exec (.powerOnReset straps smba r0 r1 true) s =
    .next (sampledPins straps smba r0 r1 (powerReset 1 true straps smba s)) := rfl

theorem exec_powerOnReset_idle (h : s.glb.held = false) : Idles (.powerOnReset straps smba r0 r1 false) s := by
  show execPowerOnReset straps smba r0 r1 false s = _
  simp [execPowerOnReset, act, h]

/-- R430: a part that was too hot is held until it is cool. -/
theorem exec_powerOnReset_held (h : s.glb.held = true) (hc : bit s.glb.cause 2 = true → coolAgain s = true) :
    exec (.powerOnReset straps smba r0 r1 false) s = .next (sampledPins straps smba r0 r1 s) := by
  have cool : (!bit s.glb.cause 2 || coolAgain s) = true := by
    cases hot : bit s.glb.cause 2 with
    | false => rfl
    | true => exact hc hot
  show execPowerOnReset straps smba r0 r1 false s = _
  simp [execPowerOnReset, act, h, cool]
end

/-- R287: of the volumes those stay that were durable, with what was durable of them. -/
theorem powerOnReset_leaves (straps : Nat) (smba : Nat) (r0 r1 : Bool) (s : State) :
    PowerOnResetLeaves 1 (!(r0 || r1)) s (sampledPins straps smba r0 r1 (powerReset 1 true straps smba s)) := by
  refine ⟨rfl, rfl, rfl, rfl, rfl, rfl, rfl, rfl, rfl, rfl, rfl, rfl, rfl, rfl, rfl, rfl, rfl, rfl, rfl, fun p hp => ?_, rfl⟩
  obtain ⟨q, hq, rfl⟩ := List.mem_map.mp hp
  exact ⟨q.2, (List.mem_filter.mp hq).1, rfl, rfl⟩

/-- MODE 3 is the arrangement of MODE 2. -/
theorem arrangement_eq (x : Nat) : (if bits x 0 2 = 3 then 2 else bits x 0 2) = min (bits x 0 2) 2 := by
  have small : bits x 0 2 < 4 := Nat.mod_lt _ (by decide)
  split <;> omega

/-! ### Numbering (R27) -/

/-- Only the numbers of the sequence counter differ. -/
def OnlyNumbered (s t : State) : Prop := ∃ q l j, t.glb = { s.glb with seq := q, seqLimit := l, seqJournaled := j }

theorem OnlyNumbered.of_glb {s t : State} (h : t.glb = s.glb) : OnlyNumbered s t := ⟨_, _, _, h⟩

theorem OnlyNumbered.refl (s : State) : OnlyNumbered s s := .of_glb rfl

theorem OnlyNumbered.trans {s t u : State} (h : OnlyNumbered s t) (h' : OnlyNumbered t u) : OnlyNumbered s u := by
  obtain ⟨q, l, j, e⟩ := h
  obtain ⟨q', l', j', e'⟩ := h'
  exact ⟨q', l', j', by rw [e', e]⟩

theorem OnlyNumbered.foldl {α : Type} {f : State → α → State} (h : ∀ s a, OnlyNumbered s (f s a)) (l : List α) (s : State) :
    OnlyNumbered s (l.foldl f s) := by
  induction l generalizing s with
  | nil => exact .refl s
  | cons a l ih => exact (h s a).trans (ih _)

theorem OnlyNumbered.stage {s t : State} (h : OnlyNumbered s t) : t.glb.stage = s.glb.stage := by
  obtain ⟨q, l, j, e⟩ := h
  rw [e]

theorem OnlyNumbered.unclean {s t : State} (h : OnlyNumbered s t) : t.glb.unclean = s.glb.unclean := by
  obtain ⟨q, l, j, e⟩ := h
  rw [e]

theorem takeSeq_numbered (s : State) : OnlyNumbered s (takeSeq s) := by
  unfold takeSeq
  dsimp only
  split
  · exact ⟨_, _, _, rfl⟩
  · exact ⟨_, _, _, rfl⟩

theorem numberHealth_numbered (e : HEntry) (s : State) : OnlyNumbered s (numberHealth e s) := takeSeq_numbered s

theorem logHealth_numbered (kind inst vol unit lba count : Nat) (detail : List Byte) (s : State) :
    OnlyNumbered s (logHealth kind inst vol unit lba count detail s) := by
  unfold logHealth pushHealth
  split
  · exact numberHealth_numbered _ s
  · exact .refl s

theorem drainLog_numbered (n : Nat) (s : State) : OnlyNumbered s (drainLog n s) := by
  induction n generalizing s with
  | zero => exact .refl s
  | succ n ih =>
    unfold drainLog
    split
    · exact .refl s
    next e es _ =>
      have first : OnlyNumbered s (numberHealth e { s with flc := { s.flc with logWaiting := es } }) := numberHealth_numbered e _
      split
      · exact first.trans (ih _)
      · exact .refl s

theorem applyDurable_numbered (e : JEnt) (s : State) : OnlyNumbered s (applyDurable e s) := by
  unfold applyDurable
  split
  · exact ⟨_, _, _, rfl⟩
  split
  · exact .refl s
  · exact .of_glb rfl

theorem applyGroup_numbered (g : Group) (s : State) : OnlyNumbered s (applyGroup g s) := by
  unfold applyGroup
  dsimp only
  refine .trans (t := if g.held then s else g.entries.foldl (fun s e => applyVisible e s) s) ?_
    (.foldl (fun s e => applyDurable_numbered e s) _ _)
  split
  · exact .refl s
  · exact .foldl (fun s e => .of_glb (applyVisible_get e s .glb (by decide))) _ s

theorem pageDurable_numbered (n : Nat) (s : State) : OnlyNumbered s (pageDurable n s) := by
  unfold pageDurable
  extract_lets gs applied _ paged copied drained
  have h1 : OnlyNumbered s applied := .foldl (fun s g => applyGroup_numbered g s) gs s
  have h2 : OnlyNumbered applied paged := .of_glb rfl
  have h3 : OnlyNumbered paged copied := .foldl (f := fun s m => modSb m _ s) (fun s m => .of_glb rfl) _ _
  exact h1.trans (h2.trans (h3.trans ((drainLog_numbered _ _).trans (.of_glb (groupsDurable_get _ _ .glb (by decide))))))

theorem newLimit_numbered (s : State) : OnlyNumbered s (newLimit s) := ⟨_, _, _, rfl⟩

theorem resumeSanitize_numbered (w : Nat) (x : Sanit) (s : State) : OnlyNumbered s (resumeSanitize w x s) := by
  unfold resumeSanitize
  extract_lets unmapped sbs dropped
  have h1 : OnlyNumbered s unmapped := .of_glb (glb_of_get (by simp only [unmapped]; split <;> simp))
  have h2 : OnlyNumbered unmapped dropped := .of_glb (sanitErase_get x sbs w unmapped .glb (by decide))
  exact h1.trans (h2.trans (logHealth_numbered _ _ _ _ _ _ _ (appendGroup false _ dropped)))

theorem firstFormat_numbered (o : StartOutcome) (s : State) : OnlyNumbered s (firstFormat o s) := by
  unfold firstFormat
  extract_lets w wb wb' blocks short _ formatted _ mirrored
  have h : OnlyNumbered s mirrored := .of_glb rfl
  split
  · exact h.trans (logHealth_numbered _ _ _ _ _ _ _ mirrored)
  · exact h

/-! ### STAGE 1, FUSES -/

section
variable {s : State} {o : StartOutcome}

theorem exec_startupPhaseEnd (hp : powered s = true) (hc : phaseCanEnd s = true) :
    exec (.startupPhaseEnd o) s = .next (phaseEnds o s) := by
  show execStartupPhaseEnd o s = _
  rw [execStartupPhaseEnd, act, if_pos (by simp [hp, hc])]

/-- A phase that needs nothing from outside ends as `phaseEnds` says. -/
theorem exec_phaseEnd {f : State → State} (hp : powered s = true) (hc : phaseCanEnd s = true) (hf : phaseEnds o s = f s) :
    exec (.startupPhaseEnd o) s = .next (f s) := by rw [exec_startupPhaseEnd hp hc, hf]

theorem exec_phaseEnd_begin (hp : powered s = true) (h : s.glb.stage = 0 ∨ s.glb.stage = 12) :
    exec (.startupPhaseEnd o) s = .next (toStage 1 s) := by
  rcases h with h | h <;> exact exec_phaseEnd hp (by simp [phaseCanEnd, h]) (by simp [phaseEnds, h])

theorem exec_phaseEnd_fuses (hp : powered s = true) (h : s.glb.stage = 1) (ht : fusesTaken s = false) :
    exec (.startupPhaseEnd o) s = .next (endFuses o s) :=
  exec_phaseEnd hp (by simp [phaseCanEnd, h, ht]) (by simp [phaseEnds, h])

theorem exec_phaseEnd_scruple (hp : powered s = true) (h : s.glb.stage = 2) :
    exec (.startupPhaseEnd o) s = .next (endScruple o s) :=
  exec_phaseEnd hp (by simp [phaseCanEnd, h]) (by simp [phaseEnds, h])

theorem exec_phaseEnd_training (hp : powered s = true) (h : s.glb.stage = 3) :
    exec (.startupPhaseEnd o) s = .next (endTraining o s) :=
  exec_phaseEnd hp (by simp [phaseCanEnd, h]) (by simp [phaseEnds, h])

theorem exec_phaseEnd_image (hp : powered s = true) (h : s.glb.stage = 4) :
    exec (.startupPhaseEnd o) s = .next (endImage o s) :=
  exec_phaseEnd hp (by simp [phaseCanEnd, h]) (by simp [phaseEnds, h])

theorem exec_phaseEnd_powerFail (h : s.glb.stage = 5) (hf : s.pwr.pwrFail = true) : Idles (.startupPhaseEnd o) s := by
  show execStartupPhaseEnd o s = _
  simp [execStartupPhaseEnd, act, phaseCanEnd, h, hf]

theorem exec_phaseEnd_config (hp : powered s = true) (h : s.glb.stage = 5) (hf : s.pwr.pwrFail = false) :
    exec (.startupPhaseEnd o) s = .next (endConfig o s) :=
  exec_phaseEnd hp (by simp [phaseCanEnd, h, hf]) (by simp [phaseEnds, h])

theorem exec_phaseEnd_map (hp : powered s = true) (h : s.glb.stage = 6) :
    exec (.startupPhaseEnd o) s = .next (endMap s) :=
  exec_phaseEnd hp (by simp [phaseCanEnd, h]) (by simp [phaseEnds, h])

theorem exec_phaseEnd_replay (hp : powered s = true) (h : s.glb.stage = 7) (hr : programsRun s = true) :
    exec (.startupPhaseEnd o) s = .next (becomeReady (endReplay o s)) :=
  exec_phaseEnd (f := fun s => becomeReady (endReplay o s)) hp (by simp [phaseCanEnd, h, hr]) (by simp [phaseEnds, h])
end

section
variable (o : StartOutcome) (s : State)

/-- The array as it is taken: lifecycle, settings and PLLs. -/
def fusesRead (s : State) : State := { s with
  otp := { s.otp with ladderLc := lifecycle s.otp, won := winners s.otp }
  clk := { s.clk with lock0 := s.clk.refOk0, lock1 := s.clk.refOk1 } }

theorem takeFuses_rest {x : Part} (hx : x ∉ [.glb, .sec, .flc, .mem, .fresh]) : (takeFuses o s).get x = (fusesRead s).get x := by
  simp only [List.mem_cons, List.not_mem_nil, or_false, not_or] at hx
  unfold takeFuses
  extract_lets _ _ read _ blocked repaired _ tested
  have h1 : repaired.get x = read.get x := by simp [repaired, blocked, hx]
  have h2 : tested.get x = repaired.get x := by
    simp only [tested]
    split <;> simp [hx]
  split
  · exact h2.trans h1
  · exact (freshChallenge_get tested x (by simp [hx])).trans (h2.trans h1)

theorem takeFuses_otp : (takeFuses o s).otp = { s.otp with ladderLc := lifecycle s.otp, won := winners s.otp } :=
  otp_of_get (takeFuses_rest o s (x := .otp) (by decide))

theorem takeFuses_clk : (takeFuses o s).clk = { s.clk with lock0 := s.clk.refOk0, lock1 := s.clk.refOk1 } :=
  clk_of_get (takeFuses_rest o s (x := .clk) (by decide))

theorem entropyFails_numbered : OnlyNumbered s (entropyFails s) := logHealth_numbered _ _ _ _ _ _ _ { s with sec := _ }

theorem takeFuses_numbered : OnlyNumbered s (takeFuses o s) := by
  unfold takeFuses
  extract_lets _ _ read _ blocked repaired _ tested
  have h1 : OnlyNumbered s repaired := .of_glb (factoryRepairs_get blocked .glb (by decide))
  have h2 : OnlyNumbered repaired tested := by
    simp only [tested]
    split
    · exact .of_glb rfl
    · exact entropyFails_numbered { repaired with sec := _ }
  split
  · exact h1.trans h2
  · exact h1.trans (h2.trans (.of_glb (freshChallenge_get tested .glb (by decide))))

/-- R448: reads of the array that do not agree end in FAILED. -/
theorem endFuses_disagree (h : o.fusesAgree = false) : endFuses o s = toStage 10 s := by simp [endFuses, h]

theorem endFuses_agree (h : o.fusesAgree = true) : endFuses o s =
    if lifecycle s.otp = 0 ∨ lifecycle s.otp = 7 then takeFuses o s else toStage 2 (takeFuses o s) := by
  have same : lifecycle (takeFuses o s).otp = lifecycle s.otp := by rw [takeFuses_otp]; rfl
  simp [endFuses, h, same]
end

/-! ### STAGE 2, SCRUPLE -/

theorem mem_failedIn {o : StartOutcome} {pool k : Nat} : k ∈ failedIn o pool ↔ (pool, k) ∈ o.failed := by
  simp [failedIn]

theorem Tbl.get?_map_key {α : Type} (f : Nat → α) {l : List Nat} {k : Nat} (h : k ∈ l) :
    Tbl.get? (l.map (fun k => (k, f k))) k = some (f k) := by
  induction l with
  | nil => simp at h
  | cons j l ih =>
    by_cases hj : k = j
    · simp [Tbl.get?, hj]
    · rw [List.map_cons, Tbl.get?, if_neg hj]
      exact ih ((List.mem_cons.mp h).resolve_left hj)

/-- R339: a failed engine is FAILED, and an engine of the 32 that does not fail is in service. -/
theorem testEngines_role (bad : List Nat) (c : Sch) {k : Nat} (hk : k < 36) :
    ∃ e, Tbl.get? (testEngines bad c).engines k = some e ∧ (e.role = .failed ↔ k ∈ bad) ∧
      (k < 32 → k ∉ bad → e.role = .inService) := by
  refine ⟨_, Tbl.get?_map_key _ (List.mem_range.mpr hk), ?_, fun h32 hb => ?_⟩
  · dsimp only
    split
    · next h => simpa using h
    · next h => split <;> simpa using h
  · simp [hb, h32]

theorem endScruple_fatal {o : StartOutcome} (s : State) (h : scrupleFatal o = true) : endScruple o s = toStage 10 s := if_pos h

/-- The cache ways that fail, as bits of CCH_WAY_PWR. -/
def failedWays (o : StartOutcome) : Nat := (failedIn o 9).foldl (fun a w => if w < 16 then setBit a w true else a) 0

/-- The units, engines and memories after their tests. -/
def scrupleTested (o : StartOutcome) (s : State) : State :=
  { testUnits o s with sch := testEngines (failedIn o 0) (testUnits o s).sch
                       mem := { testBanks (failedIn o 7) (testUnits o s).mem with remapFailed := o.remapFails } }

theorem endScruple_tested {o : StartOutcome} (s : State) (h : scrupleFatal o = false) :
    endScruple o s = toStage 3 (writeWayPwr (failedWays o) (scrupleTested o s)) :=
  if_neg (by simp [h])

/-! ### STAGE 3, TRAINING -/

theorem takeSeq_vols (s : State) : (takeSeq s).flc.vols = s.flc.vols := by
  unfold takeSeq
  dsimp only
  split <;> rfl

theorem logHealth_vols (kind inst vol unit lba count : Nat) (detail : List Byte) (s : State) :
    (logHealth kind inst vol unit lba count detail s).flc.vols = s.flc.vols := by
  unfold logHealth pushHealth
  split
  · exact takeSeq_vols s
  · rfl

theorem trainSide_vols (b : Bool) (mib : Nat) (ok : Bool) (s : State) : (trainSide b mib ok s).flc.vols = s.flc.vols := by
  have side (b : Bool) (f : Side → Side) (s : State) : (modSide b f s).flc = s.flc := flc_of_get (modSide_get b f s .flc (by decide))
  unfold trainSide
  dsimp only
  split
  · rfl
  split
  · rw [side]
  · refine (logHealth_vols _ _ _ _ _ _ _ (settleFaults _)).trans ?_
    rw [flc_of_get (settleFaults_get _ .flc (by decide))]
    show (modSide _ _ _).flc.vols = _
    rw [side, side]

theorem refusePart_vols (d : Nat) (s : State) : (refusePart d s).flc.vols = s.flc.vols := logHealth_vols _ _ _ _ _ _ _ s

theorem trainChannel_vols (t : Tbl Die) (f : FoundChannel) (s : State) : (trainChannel t f s).flc.vols = s.flc.vols := by
  have refused (u : State) : (f.refused.foldl (fun s k => refusePart (16 * f.ch.val + k.val) s) u).flc.vols = u.flc.vols :=
    foldl_keeps (fun s : State => s.flc.vols) _ (fun s k => refusePart_vols _ s) u
  unfold trainChannel
  dsimp only
  split
  · exact refused _
  · exact refused _

/-- What training leaves, before the stage that follows it is chosen. -/
def afterTraining (o : StartOutcome) (s : State) : State :=
  let s := trainSide true o.mib o.sideB (trainSide false o.mib o.sideA s)
  let s := { s with drc := { s.drc with rate := o.dramRate } }
  o.channels.foldl (fun u f => trainChannel s.flc.dies f u) (clearChannels s)

theorem endTraining_eq (o : StartOutcome) (s : State) : endTraining o s = toStage
    (if (diesServing (afterTraining o s)).length < 8 ∨
      (sideServes (afterTraining o s) false || sideServes (afterTraining o s) true) = false then 10 else 4)
    (afterTraining o s) :=
  (apply_ite (fun n => toStage n (afterTraining o s)) _ 10 4).symm

theorem afterTraining_vols (o : StartOutcome) (s : State) : (afterTraining o s).flc.vols = s.flc.vols := by
  unfold afterTraining
  dsimp only
  rw [foldl_keeps (fun s : State => s.flc.vols) _ (fun s f => trainChannel_vols _ f s)]
  exact (trainSide_vols ..).trans (trainSide_vols ..)

theorem afterTraining_rate (o : StartOutcome) (s : State) : (afterTraining o s).drc.rate = o.dramRate := by
  unfold afterTraining
  dsimp only
  rw [foldl_keeps State.drc _ (fun s f => drc_of_get (trainChannel_get _ f s .drc (by decide)))]
  rfl

/-! ### STAGE 4, IMAGE -/

theorem candidatePasses_some {o : StartOutcome} {s : State} {k : Nat} {x : Image} (h : candidatePasses o s k = some x) :
    imageRefused s.otp x.bytes x.len = none := by
  unfold candidatePasses at h
  split at h
  · cases h
  · split at h
    · next passes =>
      cases h
      exact Option.isNone_iff_eq_none.mp passes
    · cases h

/-- An image that runs has passed R150. -/
theorem tryCandidates_passed {o : StartOutcome} {s : State} {ks : List Nat} {fails k : Nat} {x : Image}
    (h : (tryCandidates o s ks fails).1 = some (k, x)) : imageRefused s.otp x.bytes x.len = none := by
  induction ks generalizing fails with
  | nil => cases h
  | cons j js ih =>
    unfold tryCandidates at h
    split at h
    · next passes =>
      cases h
      exact candidatePasses_some passes
    · exact ih h

/-- Unless the NOR alone is to be tried, the copy in use is the first candidate. -/
theorem candidates_copy {order : Nat} (copy : Nat) (h : order ≠ 2) : ∃ ks, candidates order copy = copy :: ks := by
  unfold candidates
  dsimp only
  rw [if_neg h]
  split
  · exact ⟨_, rfl⟩
  · exact ⟨_, rfl⟩

theorem candidatePasses_stored {o : StartOutcome} {s : State} {k : Nat} (h3 : k < 3) (hu : k ∉ o.unreadable)
    (hi : imageRefused s.otp s.glb.stored.bytes s.glb.stored.len = none) : candidatePasses o s k = some s.glb.stored := by
  simp [candidatePasses, candidateImage, hu, h3, hi]

/-- An image that runs has passed R150; without one the part is in RECOVERY. -/
theorem endImage_runs (o : StartOutcome) (s : State) : (endImage o s).glb.stage = 9 ∨ (endImage o s).glb.stage = 5 ∧
    imageRefused s.otp (endImage o s).glb.running.bytes (endImage o s).glb.running.len = none := by
  unfold endImage
  extract_lets order r _ tried
  cases hr : r.1 with
  | none => exact .inl rfl
  | some kx => exact .inr ⟨rfl, tryCandidates_passed hr⟩

/-- The copy in use runs where it can be read and passes R150. -/
theorem endImage_stored {o : StartOutcome} {s : State} (ho : setting s.otp 0 0 1 0 (fun v => decide (v ≤ 2)) ≠ 2)
    (hu : o.rootCopy.val ∉ o.unreadable) (hi : imageRefused s.otp s.glb.stored.bytes s.glb.stored.len = none) :
    endImage o s = runImage o.rootCopy 0 s.glb.stored { s with glb := { s.glb with rootCopy := o.rootCopy, fails := 0 } } := by
  obtain ⟨ks, first⟩ := candidates_copy o.rootCopy.val ho
  have other : o.rootCopy.val ≠ 4 := by omega
  simp [endImage, first, tryCandidates, candidatePasses_stored o.rootCopy.isLt hu hi, other]

/-! ### STAGES 5 to 7 -/

theorem endConfig_cache (o : StartOutcome) (s : State) : (endConfig o s).cch.enabled = s.cch.enable := by
  unfold endConfig
  extract_lets noted gated
  have h : gated.get .cch = s.get .cch := by
    simp only [gated, noted]
    rw [gateDomains_get _ _ _ _ (by decide)]
    refine State.get_foldl _ _ s .cch fun u a => ?_
    rw [State.get_ite, noteRail_get _ _ _ _ (by decide), ite_self]
  exact congrArg Cch.enable (cch_of_get h)

theorem endMap_clean (s : State) : (endMap s).flc.clean = s.flc.clean := by
  unfold endMap
  extract_lets clean mapped _ marked
  show ((marked.mem.learned.foldl (fun s r => applyRepair false r.kind r.unit r.address s) marked)).flc.clean = _
  rw [foldl_keeps State.flc _ (fun s r => flc_of_get (applyRepair_get _ _ _ _ s .flc (by decide)))]

/-- R446: what STAGE 7 says of the journal is what it found of its mark. -/
theorem endReplay_unclean (o : StartOutcome) (s : State) : (endReplay o s).glb.unclean = (!s.flc.clean && decide (s.flc.usable ≠ 0)) := by
  unfold endReplay
  extract_lets unclean _ found _ _ counted numbered durable sanitized
  have h1 : found.glb.unclean = (!s.flc.clean && decide (s.flc.usable ≠ 0)) := by
    show (!s.flc.clean && !(s.flc.usable == 0)) = _
    simp [beq_eq_decide]
  have h2 : OnlyNumbered found counted := by simp only [counted]; split <;> exact .of_glb rfl
  have h3 : OnlyNumbered counted numbered := by
    simp only [numbered]
    split
    · exact .refl _
    · exact newLimit_numbered _
  clear_value numbered
  have h4 : OnlyNumbered numbered durable := pageDurable_numbered _ _
  clear_value durable
  have h5 : OnlyNumbered durable sanitized := .foldl (fun s x => resumeSanitize_numbered o.w x s) _ _
  clear_value sanitized
  have h6 : OnlyNumbered sanitized (if sanitized.flc.usable = 0 then firstFormat o sanitized else settleReadOnly sanitized) := by
    split
    · exact firstFormat_numbered _ _
    · exact .of_glb (settleReadOnly_get _ .glb (by decide))
  exact (h2.trans (h3.trans (h4.trans (h5.trans h6)))).unclean.trans h1

theorem becomeReady_unclean (s : State) : (becomeReady s).glb.unclean = s.glb.unclean := rfl

theorem becomeReady_readyMs (s : State) : (becomeReady s).glb.readyMs = min (s.now / 1000) 0xFFFF := rfl

/-- Settles O52: the reset by the pins that it samples, each phase by what its end leaves. -/
theorem startupRunsItsPhases : Obligations.StartupRunsItsPhases := by
  refine ⟨fun s straps smba r0 r1 => ?reset, fun s o hp => ?phases⟩
  case reset =>
    refine ⟨⟨_, exec_powerOnReset_off .., powerOnReset_leaves .., rfl, rfl, rfl, rfl, arrangement_eq _, rfl, rfl, rfl⟩,
      fun h => exec_powerOnReset_idle _ _ _ _ h, fun h hc => ?_⟩
    exact ⟨_, exec_powerOnReset_held _ _ _ _ h hc, rfl, rfl, rfl, fun x hx => sampledPins_get _ _ _ _ s x hx⟩
  case phases =>
    refine ⟨fun h => exec_phaseEnd_begin hp h, fun h ht ha => ?disagree, fun h ht ha => ?fuses, fun h hf => ?fatal,
      fun h hf => ?scruple, fun h => ?training, fun h => ?image, fun h hf => exec_phaseEnd_powerFail h hf, fun h hf => ?config,
      fun h => ?map, fun h hr => ?replay⟩
    case disagree => rw [exec_phaseEnd_fuses hp h ht, endFuses_disagree o s ha]; rfl
    case fuses =>
      have next := (exec_phaseEnd_fuses (o := o) hp h ht).trans (congrArg _ (endFuses_agree o s ha))
      have stays : (takeFuses o s).glb.stage = 1 := (takeFuses_numbered o s).stage.trans h
      refine ⟨_, next, ?_⟩
      split
      · simp [stays, takeFuses_otp, takeFuses_clk]
      · simp [toStage, takeFuses_otp, takeFuses_clk]
    case fatal => rw [exec_phaseEnd_scruple hp h, endScruple_fatal s hf]; rfl
    case scruple =>
      have next := (exec_phaseEnd_scruple (o := o) hp h).trans (congrArg _ (endScruple_tested s hf))
      refine ⟨_, next, rfl, ?_, fun k hk => ?_⟩
      · exact congrArg Mem.remapFailed (mem_of_get (writeWayPwr_get _ (scrupleTested o s) .mem (by decide)))
      · have engines := congrArg Sch.engines (sch_of_get (writeWayPwr_get (failedWays o) (scrupleTested o s) .sch (by decide)))
        obtain ⟨e, he, failed, serves⟩ := testEngines_role (failedIn o 0) (testUnits o s).sch hk
        exact ⟨e, by rw [← he]; exact congrArg (Tbl.get? · k) engines, failed.trans mem_failedIn,
          fun h32 hb => serves h32 (fun hm => hb (mem_failedIn.mp hm))⟩
    case training =>
      have next := (exec_phaseEnd_training (o := o) hp h).trans (congrArg _ (endTraining_eq o s))
      exact ⟨_, next, afterTraining_vols o s, afterTraining_rate o s, rfl⟩
    case image =>
      have next := exec_phaseEnd_image (o := o) hp h
      refine ⟨_, next, endImage_runs o s, fun hi hu ho => ?_, fun x hx => endImage_get o s x hx⟩
      rw [endImage_stored ho hu hi]
      exact ⟨rfl, rfl, rfl, rfl, rfl⟩
    case config =>
      exact ⟨_, exec_phaseEnd_config hp h hf, rfl, rfl, endConfig_cache o s, flc_of_get (endConfig_get o s .flc (by decide)),
        tags_of_get (endConfig_get o s .tags (by decide)), fun x hx => endConfig_get o s x hx⟩
    case map =>
      exact ⟨_, exec_phaseEnd_map hp h, rfl, endMap_clean s, tags_of_get (endMap_get s .tags (by decide))⟩
    case replay =>
      have now : (endReplay o s).now = s.now := endReplay_get o s .now (by decide)
      exact ⟨_, exec_phaseEnd_replay hp h hr, rfl, rfl, (becomeReady_unclean _).trans (endReplay_unclean o s),
        (becomeReady_readyMs _).trans (by rw [now])⟩

end Sys2Proof.Machine
